-- ==== Sys2Proof/Word.lean ====
section
/-!
DEFINITION. The word types of the GDP-6410 model and their plainest arithmetic.
A register is a 32-bit word (R9), a wide value a 64-bit double word (R12), a host or
shelf record is a list of bytes, and an audio sample is an exact integer held in
units of 2⁻²⁷ (the Q4.27 format of R4).
-/
namespace Sys2Proof

/-- One byte of host memory, of a shelf image or of a packet. -/
abbrev Byte := BitVec 8
/-- A register (R9). -/
abbrev Word := BitVec 32
/-- A wide value: an MSC, a ledger counter, a 64-bit register pair (R7, R12). -/
abbrev DWord := BitVec 64
/-- The operand bits 55:0 of a desk instruction (R242). -/
abbrev DeskBits := BitVec 56
/-- The 32 bytes of a DMA instruction, byte 0 in bits 7:0 (R368). -/
abbrev DmaBits := BitVec 256

/-- Bit `i` of a word as a `Bool`. -/
abbrev bitOf {w : Nat} (v : BitVec w) (i : Nat) : Bool := v.getLsbD i

/-- The field of `len` bits whose lowest bit is `lo`, as a natural number. -/
abbrev fieldOf {w : Nat} (v : BitVec w) (lo len : Nat) : Nat := (v.toNat >>> lo) % 2 ^ len

/-- 1 for `true`, 0 for `false`. -/
abbrev b2n (b : Bool) : Nat := if b then 1 else 0

/-- A `Nat` as a register word. -/
abbrev word (n : Nat) : Word := BitVec.ofNat 32 n

end Sys2Proof
end

