-- ==== Sys2Proof/Syntax.lean ====
section
/-!
DEFINITION. The commands the GDP-6410 takes, one constructor of `Instr` per row of
spec/opcode_table.json, with the row's operands. Everything the block cannot know by
itself (the bytes of a host record, the level of a pin, the words on a serial port, a
measured offset) is an operand.
-/
namespace Sys2Proof

/-- A time-stamp (R53): seconds, nanoseconds and sub-nanoseconds in units of 2⁻¹⁶ ns. -/
structure TimeStamp where
  sec : Nat
  ns  : Nat
  sub : Nat
deriving DecidableEq, Repr, Inhabited

/-- A host command as it stands in the submission ring (R349). -/
structure Submission where
  /-- the queue it comes from -/
  queue   : Fin 16
  /-- its index in the submission ring -/
  index   : Nat
  /-- byte 1 -/
  flags   : Byte
  /-- bytes 2–3 -/
  tag     : BitVec 16
  /-- bytes 4–7 -/
  epoch   : Word
  /-- bytes 8–15, the presentation MSC -/
  present : DWord
  /-- bytes 16–63, the opcode-specific bytes; a missing byte is 0 -/
  body    : List Byte
  /-- the host records the command names, as read over the link; `none`: the read failed -/
  records : Option (List Byte)
deriving DecidableEq, Repr, Inhabited

/-- A submission entry as fetched (R349), its opcode still a byte. -/
structure FetchedEntry where
  opcode  : Byte
  flags   : Byte
  tag     : BitVec 16
  epoch   : Word
  present : DWord
  body    : List Byte
deriving DecidableEq, Repr, Inhabited

/-- Who reads or writes a register (R437, R438). -/
inductive Master where
  | host
  | dma (c : Fin 32)
deriving DecidableEq, Repr, Inhabited

/-- One 32-bit slot of a serial frame as its bits stand on the pin (R277). -/
abbrev SlotWord := BitVec 32

/-- What the pins and the reference clocks bring in during one sample period (R463). -/
structure SampleInput where
  /-- level of OVERRIDE_N (`true` is high) -/
  overrideN : Bool
  /-- level of MUTE_N -/
  muteN     : Bool
  /-- the slot words of the frame that each leader-group input port received -/
  serial    : List (Nat × List SlotWord)
  /-- how much time XTAL_25M counted, in units of 2⁻¹⁶ ns -/
  xtal      : Nat
  /-- what the attic's clocks brought (R68): cycles of 10 MHz on ATTIC_CLK_IN, and steps of 100 ns of its trimmed internal
  oscillator -/
  atticIn   : Nat
  atticOsc  : Nat
deriving DecidableEq, Repr, Inhabited

/-- The on-chip SRAM areas (R385). -/
inductive SramArea where
  | objectWell | pathStore | firCoeff | firHistory | desk | matrix | cellar | geoCache | fallback
  | flow | chain | bridge
deriving DecidableEq, Repr, Inhabited

/-- One error the SRAM scrubber met (R386): the area, which of its parts (a locker, feed, desk, line,
flow, block or port), and the word within it. -/
structure SramError where
  area  : SramArea
  unit  : Nat
  index : Nat
  uncorrectable : Bool
deriving DecidableEq, Repr, Inhabited

/-- What a block boundary cannot know from the state: the hardware faults of the block. -/
structure BoundaryInput where
  /-- the path records whose unit did not finish them (R179): the locker, the record's place among the locker's, and how many of
  the block's 16 samples it rendered -/
  overrun   : List (Nat × Nat × Nat)
  /-- cellar lines whose read met an uncorrectable DRAM error, each with its address: line 0–1,023 a locker's
  pre-delay line, 1,024 + f the alignment line of feed f (R109, R196, R400) -/
  cellarErr : List (Nat × Nat)
  /-- cellar lines whose read-ahead stood empty (R404) -/
  cellarDry : List Nat
  /-- the errors that the block's own reads of on-chip memory met (R386) -/
  sram      : List SramError
deriving DecidableEq, Repr, Inhabited

/-- What a geometry frame met in the memory system (R135). -/
structure GeometryInput where
  /-- how long geometry reads waited, in microseconds -/
  stallUs : Nat
  /-- the corner reads that met an uncorrectable error (R143): the locker, the place of the shelf among those that it is evaluated
  for, and the read, 8 times the point and the corner -/
  recordErr : List (Nat × Nat × Nat)
deriving DecidableEq, Repr, Inhabited

/-- The common header of a PTP message (IEEE 1588-2019, as far as R49 uses it). -/
structure PtpHeader where
  port        : Fin 2
  domain      : Nat
  source      : DWord
  seq         : Nat
  correction  : Int
  logInterval : Int
deriving DecidableEq, Repr, Inhabited

structure PtpSyncMsg where
  h       : PtpHeader
  twoStep : Bool
  origin  : TimeStamp
  rx      : TimeStamp
deriving DecidableEq, Repr, Inhabited

structure PtpFollowUpMsg where
  h       : PtpHeader
  precise : TimeStamp
deriving DecidableEq, Repr, Inhabited

structure PtpDelayReqMsg where
  h  : PtpHeader
  rx : TimeStamp
deriving DecidableEq, Repr, Inhabited

structure PtpDelayRespMsg where
  h         : PtpHeader
  receive   : TimeStamp
  requester : DWord
deriving DecidableEq, Repr, Inhabited

/-- An Announce message: the leader's data set as the BMCA compares it (clause 9.3). -/
structure PtpAnnounceMsg where
  h             : PtpHeader
  gmIdentity    : DWord
  priority1     : Nat
  clockClass    : Nat
  clockAccuracy : Nat
  variance      : Nat
  priority2     : Nat
  stepsRemoved  : Nat
  utcOffset     : Nat
  leap61        : Bool
  leap59        : Bool
  utcValid      : Bool
deriving DecidableEq, Repr, Inhabited

/-- How a shelf copy or a verification met its source (R96, R97). -/
structure ShelfCopy where
  /-- the bytes read, in order, up to the error if there was one -/
  bytes : List Byte
  /-- a read error or an uncorrectable DRAM error ended the read -/
  err   : Bool
deriving DecidableEq, Repr, Inhabited

/-- How a DMA move ended at its far side (R369). -/
structure MoveResult where
  /-- bytes read from a host source, one list for the whole move -/
  hostData : List Byte
  /-- bytes moved before an error; `none`: no error -/
  failedAt : Option Nat
deriving DecidableEq, Repr, Inhabited

/-- How far a move had come when a stop or a pause takes effect (R379, R380). -/
structure StopInput where
  hostData : List Byte
  moved    : Nat
deriving DecidableEq, Repr, Inhabited

/-- What a network port's link can do (R294). -/
inductive NetLink where
  | down | up10 | up1
deriving DecidableEq, Repr, Inhabited

/-- An RTP packet as received (R297). -/
structure RtpPacket where
  dest    : Word
  udpPort : Nat
  source  : Word
  /-- VLAN of its IEEE 802.1Q tag; 0: it has none (R295) -/
  vlan    : Nat := 0
  ssrc    : Word
  payloadType : Nat
  seq     : Nat
  stamp   : Word
  payload : List Byte
deriving DecidableEq, Repr, Inhabited

/-- An OBJECT or SUM cell on a Nitik Link (R311). -/
structure Cell where
  secondary  : Bool
  sender     : Nat
  /-- CHAIN_BLOCK -/
  block      : Nat
  first      : Nat
  /-- bits 3:0 of PRESENT and of INCOMPLETE -/
  present    : BitVec 4
  incomplete : BitVec 4
  /-- the four channel-blocks of 16 words -/
  words      : List (List Int)
  /-- the four CONTRIB counts of a SUM cell -/
  contrib    : List Nat
  crcOk      : Bool
deriving DecidableEq, Repr, Inhabited

/-- One member's record in a ROLL_CALL (R315); `sumIn` and `sumOut` name the feeds with SUM_IN and
SUM_OUT, from which the head counts contributors (R326). -/
structure RollRecord where
  position : Nat
  verMin   : Nat
  verMax   : Nat
  rate96   : Bool
  budget   : Nat
  ring     : Bool
  split    : Bool
  pubs     : List Nat
  reads    : List Nat
  sumIn    : List Nat
  sumOut   : List Nat
deriving DecidableEq, Repr, Inhabited

/-- What a participant reports of its part of a chain epoch (R312). -/
inductive ReportState where
  | sealed | staged | defective
deriving DecidableEq, Repr, Inhabited

/-- What the head decides for a chain epoch (R312). -/
inductive Decision where
  | commit | defer | wait | expire
deriving DecidableEq, Repr, Inhabited

/-- What an ECC read found (R386, R400). -/
inductive EccOutcome where
  | clean | corrected | uncorrectable
deriving DecidableEq, Repr, Inhabited

/-- The straps sampled at the release of RESET_N (R423). -/
structure Straps where
  bootMode  : Nat
  profSel   : Nat
  chainHead : Bool
deriving DecidableEq, Repr, Inhabited

/-- What the boot stage that ends found (R428, R429). -/
structure BootInput where
  ms       : Nat
  copyA    : Option (List Byte)
  copyB    : Option (List Byte)
  sigA     : Bool
  sigB     : Bool
  trained  : Bool
  shelf    : List Byte
deriving DecidableEq, Repr, Inhabited

/-- One constructor per row of spec/opcode_table.json: everything the outside world, a sequencer
of the renderer or the passing of time can make the block do in one indivisible step. -/
inductive Instr where
  /-- NOP (R356): Host command that changes nothing and completes at once or at a chosen block boundary. -/
  | nop (e : Submission)
  /-- VERSION_SET (R354): Host command that negotiates the descriptor version in force. -/
  | versionSet (e : Submission)
  /-- MODE_SET (R357): Host command that asks for a change of mode at a control-frame boundary. -/
  | modeSet (e : Submission)
  /-- SHELF_SWITCH (R98): Host command that makes a verified shelf slot active with a crossfade, as an epoch member or as an epoch of its own. -/
  | shelfSwitch (e : Submission)
  /-- SHELF_LOAD (R96): Host command that starts copying a shelf image into a slot and verifying it. -/
  | shelfLoad (e : Submission)
  /-- SHELF_VERIFY (R97): Host command that starts re-verifying a shelf slot where it stands. -/
  | shelfVerify (e : Submission)
  /-- EPOCH_OPEN (R82): Host command that opens a local or chain epoch. -/
  | epochOpen (e : Submission)
  /-- EPOCH_COMMIT (R83): Host command that seals an epoch and asks for a commit MSC. -/
  | epochCommit (e : Submission)
  /-- EPOCH_CANCEL (R86): Host command that cancels an epoch that is not final. -/
  | epochCancel (e : Submission)
  /-- BELL_SET (R74): Host command that arms a host bell in the timetable. -/
  | bellSet (e : Submission)
  /-- BELL_CANCEL (R77): Host command that removes a bell from the timetable. -/
  | bellCancel (e : Submission)
  /-- OBJ_CONFIG (R120): Host command that sets the whole configuration of one locker. -/
  | objConfig (e : Submission)
  /-- OBJ_POSITION (R117): Host command that delivers a batch of position updates for one control-frame boundary. -/
  | objPosition (e : Submission)
  /-- OBJ_GAIN (R122): Host command that changes one locker's gain. -/
  | objGain (e : Submission)
  /-- OBJ_EQ (R123): Host command that loads consecutive locker biquads from host memory. -/
  | objEq (e : Submission)
  /-- AIR_SET (R150): Host command that sets new temperature and humidity targets for air zones. -/
  | airSet (e : Submission)
  /-- MATRIX_SET (R205): Host command that sets blend matrix nodes, an aux input or automatic scaling. -/
  | matrixSet (e : Submission)
  /-- FEED_CONFIG (R206): Host command that sets the basic, EQ or pilot fields of one feed. -/
  | feedConfig (e : Submission)
  /-- FIR_LOAD (R191): Host command that loads one feed's FIR filter and reserves its taps. -/
  | firLoad (e : Submission)
  /-- LIMITER_SET (R207): Host command that sets both limiters of one feed. -/
  | limiterSet (e : Submission)
  /-- CORRIDOR_SET (R217): Host command that sets every field of one corridor route. -/
  | corridorSet (e : Submission)
  /-- FLOW_ADD (R302): Host command that configures one network flow to start at a block boundary. -/
  | flowAdd (e : Submission)
  /-- FLOW_REMOVE (R303): Host command that removes one network flow at a block boundary. -/
  | flowRemove (e : Submission)
  /-- CHAIN_CONFIG (R336): Host command that configures, joins, leaves, publishes or dissolves a Nitik Link chain. -/
  | chainConfig (e : Submission)
  /-- TASK_CREATE (R261): Host command that creates a desk task and its reservation. -/
  | taskCreate (e : Submission)
  /-- TASK_SIGNAL (R272): Host command that posts event flags to a task now or at a block boundary. -/
  | taskSignal (e : Submission)
  /-- TASK_CANCEL (R270): Host command that detaches and removes a task and returns its pending flags. -/
  | taskCancel (e : Submission)
  /-- DMA_START (R381): Host command that starts a DMA channel at a program address now or at a block boundary. -/
  | dmaStart (e : Submission)
  /-- DMA_ABORT (R382): Host command that aborts a DMA channel. -/
  | dmaAbort (e : Submission)
  /-- DMA_PAUSE (R382): Host command that pauses a privileged DMA channel. -/
  | dmaPause (e : Submission)
  /-- DMA_RESUME (R382): Host command that resumes a paused privileged DMA channel. -/
  | dmaResume (e : Submission)
  /-- CAPTURE_START (R125): Host command that arms the capture recorder to start at a block. -/
  | captureStart (e : Submission)
  /-- CAPTURE_STOP (R127): Host command that ends the capture at a block. -/
  | captureStop (e : Submission)
  /-- REPLAY_SET (R128): Host command that starts, stops or fills the replay stream. -/
  | replaySet (e : Submission)
  /-- LEDGER_SNAPSHOT (R36): Host command that asks for every ledger to be copied to host memory from one block boundary. -/
  | ledgerSnapshot (e : Submission)
  /-- STATS_SNAPSHOT (R358): Host command that asks for the statistics registers to be copied to host memory from one block boundary. -/
  | statsSnapshot (e : Submission)
  /-- CREDIT_AUDIT (R43): Host command that asks for a credit audit at a chosen block boundary. -/
  | creditAudit (e : Submission)
  /-- SDAC_WRITE (R229): Host command that sets one service DAC channel now or at a sample period. -/
  | sdacWrite (e : Submission)
  /-- SDAC_STROBE (R231): Host command that strobes service DAC channels now or at a sample period. -/
  | sdacStrobe (e : Submission)
  /-- WATCHDOG_KICK (R364): Host command that restarts the host watchdog. -/
  | watchdogKick (e : Submission)
  /-- SAMPLE_PERIOD_START (R463): Start of each media sample period, at which per-sample work and sample-timed actions take place. -/
  | samplePeriodStart (x : SampleInput)
  /-- BLOCK_BOUNDARY (R34): Block boundary at which stages advance and the renderer closes counts, applies commits, checks ledgers, takes snapshots and audits in order. -/
  | blockBoundary (x : BoundaryInput)
  /-- EPOCH_EXPIRE (R84): An epoch deferred DEADLINE times expires and its staged parts are discarded. -/
  | epochExpire (id : Word)
  /-- EPOCH_MEMBER_STAGED (R136): An affected stage finishes staging its part of a sealed epoch. -/
  | epochMemberStaged (id : Word) (member : Nat)
  /-- EPOCH_SPLIT (R331): A chain participant with no decision by m − 128 does not apply the epoch and aborts its EPOCH_COMMIT. -/
  | epochSplit (id : Word)
  /-- BELL_RING (R72): A bell reaches its acting point and notifies, signals a task, rings a DMA doorbell or strobes service DAC channels. -/
  | bellRing (stream : Bool) (id : Nat)
  /-- GEOMETRY_EVALUATION_DEADLINE (R135): At MSC F + 16 unfinished lockers become late and selection, trimming, pruning and normalisation run. -/
  | geometryEvaluationDeadline (x : GeometryInput)
  /-- PRUNE_HOLD_END (R159): A pruned path's hold of PRUNE_HOLD frames ends and it may re-enter. -/
  | pruneHoldEnd (locker : Nat) (set : Nat) (speaker : Nat)
  /-- PROBE_CAPTURE (R440): The path probe captures the named path's values at the first sample of the next render slot. -/
  | probeCapture
  /-- JUMP_CROSSFADE_END (R119): At F + J the old jump set is released and any held target applies as a new jump. -/
  | jumpCrossfadeEnd (locker : Nat)
  /-- XFADE_DONE (R100): A shelf crossfade ends: the old set is released and its slot becomes VERIFIED. -/
  | xfadeDone
  /-- LOCKER_DISABLE (R121): A locker's ENABLE 0 ramp ends and it becomes disabled, its paths released. -/
  | lockerDisable (locker : Nat)
  /-- FIR_CROSSFADE_END (R190): A FIR crossfade ends and the replaced filter's taps return to the pool. -/
  | firCrossfadeEnd (feed : Nat)
  /-- ALIGN_FADE_OUT_END (R194): A feed's alignment fade-out ends, making its epoch part staged. -/
  | alignFadeOutEnd (feed : Nat)
  /-- PILOT_WINDOW_END (R201): A 4,096-sample supervision window ends and the pilot amplitude is judged. -/
  | pilotWindowEnd (feed : Nat)
  /-- INBOX_WRITTEN (R268): The exchange engine finishes writing a task's INBOX and the task becomes READY. -/
  | inboxWritten (task : Nat)
  /-- TASK_DISPATCH (R267): An idle enabled desk picks the oldest eligible ready entry and starts the task. -/
  | taskDispatch (desk : Fin 16)
  /-- TASK_CUTOFF (R239): A task's cut-off arrives; an unretired task is stopped or missed and the dry block substituted. -/
  | taskCutoff (task : Nat)
  /-- RUNAWAY (R256): A task reaches RUN_LIMIT desk cycles and faults. -/
  | runaway (desk : Fin 16)
  /-- HELD_POST_APPLY (R264): A held flag post is applied once room exists and its source is released. -/
  | heldPostApply
  /-- TASK_REMOVAL (R270): A cancelled task is removed when its detachment crossfade ends and TASK_CANCEL completes. -/
  | taskRemoval (task : Nat)
  /-- CAPTURE_FRAME_WRITTEN (R126): A capture frame is written to DRAM, completing CAPTURE_START or CAPTURE_STOP where due. -/
  | captureFrameWritten (dramError : Bool)
  /-- ORIGIN_STEP_APPLY (R59): A decided origin step is applied at its lead boundary and the slew starts. -/
  | originStepApply
  /-- SLEW_END (R58): A media clock slew finishes and SLEWING clears. -/
  | slewEnd
  /-- MEDIA_CHANGEOVER (R61): The active media time base changes at a control-frame boundary. -/
  | mediaChangeover
  /-- REVERT_TIMEOUT (R61): PRIMARY has been LOCKED for 10 s with REVERT set, causing a changeover back. -/
  | revertTimeout
  /-- MSC_VALIDATE (R57): The MSC becomes valid at a control-frame boundary once its conditions hold. -/
  | mscValidate
  /-- MSC_INVALIDATE (R464): A change of RATE ends the valid MSC at boundary Q, stopping streams, clocks, epochs and timed work. -/
  | mscInvalidate
  /-- PTP_SYNC (R47): Receipt of a PTP Sync message, giving a time base measurement when accepted. -/
  | ptpSync (tb : Fin 4) (m : PtpSyncMsg)
  /-- PTP_FOLLOW_UP (R49): Receipt of a PTP Follow_Up completing a two-step Sync. -/
  | ptpFollowUp (tb : Fin 4) (m : PtpFollowUpMsg)
  /-- PTP_DELAY_REQ (R51): Receipt of a Delay_Req by a leader instance, answered with Delay_Resp. -/
  | ptpDelayReq (tb : Fin 4) (m : PtpDelayReqMsg)
  /-- PTP_DELAY_RESP (R49): Receipt of a Delay_Resp paired with a cloakroom time-stamp. -/
  | ptpDelayResp (tb : Fin 4) (m : PtpDelayRespMsg)
  /-- PTP_ANNOUNCE (R49): Receipt of a PTP Announce message feeding the BMCA. -/
  | ptpAnnounce (tb : Fin 4) (m : PtpAnnounceMsg)
  /-- PTP_UNSUPPORTED_MESSAGE (R49): Receipt of a peer delay, management, signalling or negotiation message, ignored and counted. -/
  | ptpUnsupportedMessage (port : Fin 2)
  /-- ANNOUNCE_RECEIPT_TIMEOUT (R47): The announce receipt timeout expires for the chosen leader. -/
  | announceReceiptTimeout (tb : Fin 4)
  /-- PTP_SYNC_DUE (R55): A leader's Sync interval elapses and a Sync is generated or skipped. -/
  | ptpSyncDue (tb : Fin 4)
  /-- PTP_DELAY_REQ_DUE (R55): A follower's delay request interval elapses and a Delay_Req is generated or skipped. -/
  | ptpDelayReqDue (tb : Fin 4)
  /-- PTP_ANNOUNCE_DUE (R50): A leader's announce interval elapses and an Announce is sent. -/
  | ptpAnnounceDue (tb : Fin 4)
  /-- PTP_EVENT_TRANSMITTED (R55): A PTP event message leaves the port, is time-stamped and takes a cloakroom entry. -/
  | ptpEventTransmitted (port : Fin 2) (at_ : TimeStamp)
  /-- TIME_BASE_LOCKED (R47): A time base reaches eight consecutive measurements within ±1,000 ns and enters LOCKED. -/
  | timeBaseLocked (tb : Fin 4)
  /-- TIME_BASE_UNLOCK (R47): A LOCKED time base exceeds ±10,000 ns at four consecutive measurements and returns to ACQUIRING. -/
  | timeBaseUnlock (tb : Fin 4)
  /-- SOURCE_LOST (R47): A time base source is lost by its count of missing Syncs, pulses or edges and enters HOLDOVER. -/
  | sourceLost (tb : Fin 4)
  /-- PPS_IN_PULSE (R67): A rising edge on PPS_IN marks a whole second for the time base following it. -/
  | ppsInPulse
  /-- WCLK_MEASUREMENT (R47): Every 128 WCLK_IN periods the following time base takes a measurement. -/
  | wclkMeasurement (offsetNs : Int)
  /-- HOLDOVER_EXPIRY (R63): The holdover timer expires and transmit flows and link outputs mute unless HOLDOVER_PLAY. -/
  | holdoverExpiry
  /-- XTAL_FAULT (R65): XTAL_25M is absent or off-frequency at three checks: outputs mute, FAULT_N asserts, main domain held in reset. -/
  | xtalFault
  /-- XTAL_RETURN (R65): XTAL_25M returns after a fault and a full BOOT follows. -/
  | xtalReturn
  /-- ATTIC_TIME_RELOAD (R68): At each whole second the attic reloads its time from the active media time base. -/
  | atticTimeReload
  /-- ATTIC_CLK_PRESENT (R453): The attic finds 1,000 good ATTIC_CLK_IN edges and uses the external clock. -/
  | atticClkPresent
  /-- ATTIC_CLK_ABSENT (R453): The attic sees no ATTIC_CLK_IN edge for 1 µs and returns to its internal oscillator. -/
  | atticClkAbsent
  /-- TMB_SNAP_GO (R54): Write of TMB_SNAP.GO capturing all four time bases and the MSC at one instant. -/
  | tmbSnapGo
  /-- FORCE_SECONDARY (R61): Write of 0b01 to TMB_MEDIA_CMD.FORCE asking for a changeover to SECONDARY. -/
  | forceSecondary
  /-- FORCE_PRIMARY (R61): Write of 0b10 to TMB_MEDIA_CMD.FORCE asking for a changeover to PRIMARY. -/
  | forcePrimary
  /-- TMB_MEDIA_CFG_WRITE (R58): Write of TMB_MEDIA_CFG, which in SETUP may change RATE and end the valid MSC. -/
  | tmbMediaCfgWrite (v : Word)
  /-- TMB_ORIGIN_WRITE (R57): Write of the ORIGIN pair, kept only while MSC_VALID is 0. -/
  | tmbOriginWrite (v : DWord)
  /-- TMB_TB_CFG_WRITE (R46): Write of a time base configuration that enables it or restarts it in ACQUIRING. -/
  | tmbTbCfgWrite (tb : Fin 4) (v : Word)
  /-- TMB_SET_SEC_WRITE (R45): Write of the SET_SEC high word that sets a time base's seconds at the next whole second. -/
  | tmbSetSecWrite (tb : Fin 4) (hi : Word)
  /-- TMB_HOLDOVER_LIMIT_WRITE (R63): Write of the holdover limit, applying to a running timer from the next millisecond. -/
  | tmbHoldoverLimitWrite (v : Word)
  /-- FLASH_SLOT_EXAMINED (R91): The examination of a flash shelf slot after SETUP entry ends with EMPTY, VERIFIED or FAILED. -/
  | flashSlotExamined (slot : Nat) (image : List Byte)
  /-- SHELF_LOAD_COPY_END (R96): A shelf copy ends, the slot becomes VERIFIED or FAILED and SHELF_LOAD completes. -/
  | shelfLoadCopyEnd (slot : Nat) (x : ShelfCopy)
  /-- SHELF_VERIFY_END (R97): A shelf re-verification ends and SHELF_VERIFY completes. -/
  | shelfVerifyEnd (slot : Nat) (x : ShelfCopy)
  /-- OVERRIDE_N_CHANGE (R221): The effective override state is recognised as asserted or released and the announcement crossfade starts. -/
  | overrideNChange
  /-- MUTE_N_CHANGE (R222): The effective MUTE_N state is recognised as asserted or released and the mute gain ramps. -/
  | muteNChange
  /-- FORCE_OVR_WRITE (R220): Write of SPK_OVR_CMD.FORCE_OVR acting as OVERRIDE_N held low from the next sample start. -/
  | forceOvrWrite (on : Bool)
  /-- FORCE_MUTE_WRITE (R220): Write of SPK_OVR_CMD.FORCE_MUTE acting as MUTE_N held low from the next sample start. -/
  | forceMuteWrite (on : Bool)
  /-- SDAC_LOAD_N_FALL (R227): A falling edge on SDAC_LOAD_N strobes the channels in PIN_MASK. -/
  | sdacLoadNFall
  /-- SDAC_RANGE_CLAMP_END (R226): The 20 µs range-change clamp ends and the new code drives in the new range. -/
  | sdacRangeClampEnd (ch : Fin 8)
  /-- SDAC_CURRENT_LIMIT (R228): A service DAC output begins limiting its current. -/
  | sdacCurrentLimit (ch : Fin 8)
  /-- DESK_NOP (R243): Desk instruction that does nothing. -/
  | dNop (desk : Fin 16) (w : DeskBits)
  /-- RETIRE (R239): Desk instruction that ends the task and hands back OUTBOX and RETBOX. -/
  | dRetire (desk : Fin 16) (w : DeskBits)
  /-- BR (R243): Desk conditional branch. -/
  | dBr (desk : Fin 16) (w : DeskBits)
  /-- CALL (R243): Desk subroutine call. -/
  | dCall (desk : Fin 16) (w : DeskBits)
  /-- RET (R243): Desk subroutine return. -/
  | dRet (desk : Fin 16) (w : DeskBits)
  /-- DESK_LOOP (R248): Desk hardware loop instruction. -/
  | dLoop (desk : Fin 16) (w : DeskBits)
  /-- REPEAT (R249): Desk instruction that repeats the next instruction n times. -/
  | dRepeat (desk : Fin 16) (w : DeskBits)
  /-- TRAP (R257): Desk instruction that halts the desk. -/
  | dTrap (desk : Fin 16) (w : DeskBits)
  /-- DESK_SIGNAL (R253): Desk instruction that posts flags to a task. -/
  | dSignal (desk : Fin 16) (w : DeskBits)
  /-- LI (R243): Desk load-immediate instruction. -/
  | dLi (desk : Fin 16) (w : DeskBits)
  /-- ADD (R243): Desk scalar add. -/
  | dAdd (desk : Fin 16) (w : DeskBits)
  /-- SUB (R243): Desk scalar subtract. -/
  | dSub (desk : Fin 16) (w : DeskBits)
  /-- AND (R243): Desk scalar and. -/
  | dAnd (desk : Fin 16) (w : DeskBits)
  /-- OR (R243): Desk scalar or. -/
  | dOr (desk : Fin 16) (w : DeskBits)
  /-- XOR (R243): Desk scalar exclusive or. -/
  | dXor (desk : Fin 16) (w : DeskBits)
  /-- SHL (R243): Desk scalar shift left. -/
  | dShl (desk : Fin 16) (w : DeskBits)
  /-- SHR (R243): Desk scalar logical shift right. -/
  | dShr (desk : Fin 16) (w : DeskBits)
  /-- SAR (R243): Desk scalar arithmetic shift right. -/
  | dSar (desk : Fin 16) (w : DeskBits)
  /-- MUL (R243): Desk scalar multiply. -/
  | dMul (desk : Fin 16) (w : DeskBits)
  /-- LDS (R243): Desk scalar load through a pointer. -/
  | dLds (desk : Fin 16) (w : DeskBits)
  /-- STS (R243): Desk scalar store through a pointer. -/
  | dSts (desk : Fin 16) (w : DeskBits)
  /-- SETP (R243): Desk instruction that sets a pointer. -/
  | dSetp (desk : Fin 16) (w : DeskBits)
  /-- SETM (R247): Desk instruction that sets a pointer's modulo base and length. -/
  | dSetm (desk : Fin 16) (w : DeskBits)
  /-- GETP (R243): Desk instruction that reads a pointer. -/
  | dGetp (desk : Fin 16) (w : DeskBits)
  /-- VLD (R243): Desk vector load. -/
  | dVld (desk : Fin 16) (w : DeskBits)
  /-- VST (R243): Desk vector store. -/
  | dVst (desk : Fin 16) (w : DeskBits)
  /-- VLDB (R243): Desk broadcast load. -/
  | dVldb (desk : Fin 16) (w : DeskBits)
  /-- VINS (R243): Desk lane insert. -/
  | dVins (desk : Fin 16) (w : DeskBits)
  /-- VEXT (R243): Desk lane extract. -/
  | dVext (desk : Fin 16) (w : DeskBits)
  /-- VADD (R243): Desk vector add. -/
  | dVadd (desk : Fin 16) (w : DeskBits)
  /-- VSUB (R243): Desk vector subtract. -/
  | dVsub (desk : Fin 16) (w : DeskBits)
  /-- VMIN (R243): Desk vector minimum. -/
  | dVmin (desk : Fin 16) (w : DeskBits)
  /-- VMAX (R243): Desk vector maximum. -/
  | dVmax (desk : Fin 16) (w : DeskBits)
  /-- VABS (R243): Desk vector absolute value. -/
  | dVabs (desk : Fin 16) (w : DeskBits)
  /-- VNEG (R243): Desk vector negate. -/
  | dVneg (desk : Fin 16) (w : DeskBits)
  /-- VMUL (R243): Desk vector multiply with rounding shift. -/
  | dVmul (desk : Fin 16) (w : DeskBits)
  /-- VSHL (R243): Desk vector shift left. -/
  | dVshl (desk : Fin 16) (w : DeskBits)
  /-- VSAR (R243): Desk vector rounding arithmetic shift right. -/
  | dVsar (desk : Fin 16) (w : DeskBits)
  /-- VCLR (R243): Desk accumulator clear. -/
  | dVclr (desk : Fin 16) (w : DeskBits)
  /-- VMAC (R243): Desk vector multiply-accumulate. -/
  | dVmac (desk : Fin 16) (w : DeskBits)
  /-- VMSU (R243): Desk vector multiply-subtract. -/
  | dVmsu (desk : Fin 16) (w : DeskBits)
  /-- VMACM (R243): Desk multiply-accumulate from two memory pointers. -/
  | dVmacm (desk : Fin 16) (w : DeskBits)
  /-- FTAP (R250): Desk FIR tap with data move. -/
  | dFtap (desk : Fin 16) (w : DeskBits)
  /-- VSTA (R243): Desk accumulator to vector with rounding shift. -/
  | dVsta (desk : Fin 16) (w : DeskBits)
  /-- BEXP (R251): Desk block exponent scan. -/
  | dBexp (desk : Fin 16) (w : DeskBits)
  /-- BFLY (R252): Desk radix-2 butterflies. -/
  | dBfly (desk : Fin 16) (w : DeskBits)
  /-- XFER (R254): Desk instruction that starts a spill or fill between local memory and DRAM. -/
  | dXfer (desk : Fin 16) (w : DeskBits)
  /-- XWAIT (R243): Desk instruction that waits until no XFER runs. -/
  | dXwait (desk : Fin 16) (w : DeskBits)
  /-- XFER_COMPLETE (R254): A desk spill or fill finishes. -/
  | xferComplete (desk : Fin 16) (badWords : List Nat)
  /-- DESK_HALT (R257): Write of DSK_Dn_CTL.HALT halting the desk. -/
  | deskHalt (desk : Fin 16)
  /-- DESK_RUN (R257): Write of DSK_Dn_CTL.RUN resuming a halted desk. -/
  | deskRun (desk : Fin 16)
  /-- DESK_STEP (R257): Write of DSK_Dn_CTL.STEP executing one instruction and halting again. -/
  | deskStep (desk : Fin 16)
  /-- DESK_CLEAR (R233): Write of DSK_Dn_CTL.CLEAR returning a faulted desk to IDLE. -/
  | deskClear (desk : Fin 16)
  /-- DESK_ENABLE_WRITE (R233): Write of DSK_Dn_CFG that enables or disables a desk or changes its group. -/
  | deskEnableWrite (desk : Fin 16) (v : Word)
  /-- DESK_DBG_DATA_WRITE (R258): Write of DSK_Dn_DBG_DATA changing a halted desk's selected register. -/
  | deskDbgDataWrite (desk : Fin 16) (v : Word)
  /-- DESK_PC_WRITE (R258): Write of DSK_Dn_PC on a halted desk. -/
  | deskPcWrite (desk : Fin 16) (v : Word)
  /-- DMA_MOVE (R369): DMA instruction that starts copying LENGTH bytes. -/
  | dmaMove (c : Fin 32) (ins : DmaBits)
  /-- DMA_MOVE_COMPLETE (R369): Every byte of a MOVE has its write response and the channel fetches its next instruction. -/
  | dmaMoveComplete (c : Fin 32) (x : MoveResult)
  /-- DMA_LOOP (R370): DMA instruction that runs a body COUNT times. -/
  | dmaLoop (c : Fin 32) (ins : DmaBits)
  /-- DMA_WAIT (R371): DMA instruction that waits for an MSC or register condition. -/
  | dmaWait (c : Fin 32) (ins : DmaBits)
  /-- DMA_WAIT_SATISFIED (R371): A waiting channel finds its condition holding and runs again. -/
  | dmaWaitSatisfied (c : Fin 32)
  /-- DMA_SIGNAL (R372): DMA instruction that posts flags to a task. -/
  | dmaSignal (c : Fin 32) (ins : DmaBits)
  /-- DMA_JUMP (R373): DMA instruction that moves the program counter. -/
  | dmaJump (c : Fin 32) (ins : DmaBits)
  /-- DMA_END (R373): DMA instruction that hands over to the shadow, rereads after a doorbell, or stops the channel. -/
  | dmaEnd (c : Fin 32) (ins : DmaBits)
  /-- DMA_DOORBELL (R374): Write of DMA_Cc_CTL.DOORBELL starting, resuming or marking a pending doorbell. -/
  | dmaDoorbell (c : Fin 32)
  /-- DMA_CTL_ABORT (R379): Write of DMA_Cc_CTL.ABORT aborting a channel. -/
  | dmaCtlAbort (c : Fin 32)
  /-- DMA_STOP (R379): An aborted channel's issued bursts complete and it stops, completing DMA_ABORT. -/
  | dmaStop (c : Fin 32) (x : StopInput)
  /-- DMA_PAUSE_EFFECT (R380): A privileged channel's issued bursts complete and it enters PAUSED, completing DMA_PAUSE. -/
  | dmaPauseEffect (c : Fin 32) (x : StopInput)
  /-- DMA_NEXT_PC_WRITE (R375): Write of the NEXT_PC high word storing the shadow address. -/
  | dmaNextPcWrite (c : Fin 32) (m : Master) (hi : Word) (sameCycle : Bool)
  /-- DMA_MODE_WRITE (R377): Write of DMA_CFG.MODE, taken only while every channel is stopped. -/
  | dmaModeWrite (v : Word)
  /-- SQ_TAIL_WRITE (R345): Doorbell write of a queue's submission tail. -/
  | sqTailWrite (q : Fin 16) (v : Word)
  /-- CQ_HEAD_WRITE (R345): Doorbell write of a queue's completion head. -/
  | cqHeadWrite (q : Fin 16) (v : Word)
  /-- QUEUE_ENABLE (R344): Write of HQ_Qq_CTL.ENABLE 1 starting a queue if its configuration allows. -/
  | queueEnable (q : Fin 16) (v : Word)
  /-- QUEUE_DISABLE (R343): Write of HQ_Qq_CTL.ENABLE 0 sending a queue to DRAINING or out of ERROR. -/
  | queueDisable (q : Fin 16) (v : Word)
  /-- QUEUE_DRAIN_END (R343): A draining or errored queue has no command outstanding and becomes DISABLED. -/
  | queueDrainEnd (q : Fin 16)
  /-- ENTRY_FETCH (R346): The renderer fetches up to 8 submission entries from a chosen queue when command slots are free. -/
  | entryFetch (q : Fin 16) (entries : Option (List FetchedEntry))
  /-- COMPLETION_WRITE (R348): A completion entry is written at the completion tail when the ring has room. -/
  | completionWrite (q : Fin 16) (linkOk : Bool)
  /-- EVENT_RECORD_WRITE (R361): A queued event, bell or overflow record is written to queue 0's ring when it has room. -/
  | eventRecordWrite (linkOk : Bool)
  /-- IRQ_TIMER_EXPIRY (R362): A queue's interrupt moderation TIMER expires and its vector is raised. -/
  | irqTimerExpiry (q : Fin 16)
  /-- MSIX_UNMASK (R362): Unmasking an MSI-X vector sends its pending message. -/
  | msixUnmask (v : Fin 32)
  /-- IRQ_TEST_WRITE (R442): Write of SYS_IRQ_TEST sending one MSI-X message per vector bit set. -/
  | irqTestWrite (v : Word)
  /-- WATCHDOG_EXPIRY (R363): The host watchdog's TIMEOUT passes, raising WDOG and possibly entering FALLBACK. -/
  | watchdogExpiry
  /-- WDOG_CFG_WRITE (R363): Write of HQ_WDOG_CFG restarting the watchdog. -/
  | wdogCfgWrite (v : Word)
  /-- PCIE_LINK_LOSS (R365): The PCIe link goes down, PERST_N asserts or a hot reset arrives; unprocessed commands are dropped. -/
  | pcieLinkLoss
  /-- PCIE_LINK_RETURN (R365): The link returns with every queue DISABLED and host credits restored. -/
  | pcieLinkReturn
  /-- BAD_ACCESS (R341): A BAR0 or BAR2 access of wrong width or alignment has no effect and is counted. -/
  | badAccess (isRead : Bool)
  /-- SYS_LEDGER_SEL_WRITE (R38): Write of SYS_LEDGER_SEL capturing one ledger into the capture registers. -/
  | sysLedgerSelWrite (v : Word)
  /-- OBJ_LK_SEL_WRITE (R440): Write of OBJ_LK_SEL capturing one locker's state. -/
  | objLkSelWrite (v : Word)
  /-- GEO_LK_SEL_WRITE (R440): Write of GEO_LK_SEL capturing one locker's geometry report. -/
  | geoLkSelWrite (v : Word)
  /-- PTH_LK_SEL_WRITE (R440): Write of PTH_LK_SEL capturing one locker's path report. -/
  | pthLkSelWrite (v : Word)
  /-- PTH_PROBE_SEL_WRITE (R440): Write of PTH_PROBE_SEL clearing DONE and requesting a path probe capture. -/
  | pthProbeSelWrite (v : Word)
  /-- SPK_FD_SEL_WRITE (R440): Write of SPK_FD_SEL capturing one feed's state. -/
  | spkFdSelWrite (v : Word)
  /-- NET_FL_SEL_WRITE (R440): Write of NET_FL_SEL capturing one flow's counters. -/
  | netFlSelWrite (v : Word)
  /-- DSK_TASK_SEL_WRITE (R440): Write of DSK_TASK_SEL capturing one task's state. -/
  | dskTaskSelWrite (v : Word)
  /-- W1C_WRITE (R11): Write of ones to a W1C register clearing the bits that were set in earlier cycles. -/
  | w1cWrite (off : Nat) (v : Word) (sameCycle : Word)
  /-- EVENT_ENABLE_WRITE (R441): Write of an event enable register, arming bits that are set and newly enabled. -/
  | eventEnableWrite (off : Nat) (v : Word)
  /-- LOW_WORD_READ (R12): Read of a 64-bit pair's low word capturing its high half into the master's latch. -/
  | lowWordRead (m : Master) (off : Nat)
  /-- LOW_WORD_WRITE (R438): Write of a writable pair's low word held in the master's write latch. -/
  | lowWordWrite (m : Master) (off : Nat) (v : Word)
  /-- HIGH_WORD_WRITE (R438): Write of a writable pair's high word storing both halves as one write. -/
  | highWordWrite (m : Master) (off : Nat) (v : Word)
  /-- CLEAR_ON_READ (R444): Read of a register that clears its high-water mark or maximum on read. -/
  | clearOnRead (off : Nat)
  /-- REGISTER_WRITE (R10): Write of a register that has no row of its own, stored as its type states. -/
  | registerWrite (m : Master) (off : Nat) (v : Word)
  /-- SAP_GROUP_CFG_WRITE (R292): Write of SAP_Gg_CFG configuring a clock group or changing its ENABLE. -/
  | sapGroupCfgWrite (g : Fin 16) (v : Word)
  /-- SAP_PORT_CFG_WRITE (R292): Write of SAP_Pp_CFG configuring a port or changing its ENABLE. -/
  | sapPortCfgWrite (p : Fin 64) (v : Word)
  /-- SAP_ENABLE_ACT (R292): A waiting port or group ENABLE change acts at its boundary, adding or removing streams. -/
  | sapEnableAct (isPort : Bool) (idx : Nat)
  /-- SAP_MASKCTL_WRITE (R284): Write of SAP_Pp_MASKCTL making a mask and COMPACT pair pending. -/
  | sapMaskctlWrite (p : Fin 64) (v : Word)
  /-- MASK_PAIR_APPLY (R284): A pending mask pair applies at a frame start. -/
  | maskPairApply (p : Fin 64)
  /-- BCLK_LOSS (R286): A follower sees no BCLK edge for 4 expected periods and enters LOST. -/
  | bclkLoss (g : Fin 16)
  /-- BCLK_RETURN (R286): BCLK edges return to a LOST follower, which enters ACQUIRING. -/
  | bclkReturn (g : Fin 16)
  /-- GROUP_LOCK (R285): A follower's ratio holds steady over 256 frames and it enters LOCKED. -/
  | groupLock (g : Fin 16)
  /-- RATE_STEP (R285): A follower's frame rate steps above 1,000 ppm and it enters RELOCK. -/
  | rateStep (g : Fin 16)
  /-- FSYNC_MISSING (R287): An expected frame-start edge is missing and reconstructed from the BCLK count. -/
  | fsyncMissing (g : Fin 16) (words : List SlotWord)
  /-- FSYNC_GLITCH (R287): A misplaced frame-start edge drops a frame that the bridge repeats. -/
  | fsyncGlitch (g : Fin 16)
  /-- NET_LINK_CHANGE (R294): A network port changes between DOWN, UP_10G and UP_1G. -/
  | netLinkChange (port : Fin 2) (link : NetLink)
  /-- AUTO_SPEED_TIMEOUT (R293): In automatic speed, the 500 ms or 2 s attempt ends and the other layer is tried. -/
  | autoSpeedTimeout (port : Fin 2)
  /-- RTP_PACKET (R299): A media packet arrives for a receive flow and its samples are accepted, late, early, duplicate or malformed. -/
  | rtpPacket (port : Fin 2) (p : RtpPacket)
  /-- RTP_PACKET_SEND (R298): A transmit flow sends a packet after the emit period of its last sample. -/
  | rtpPacketSend (flow : Nat)
  /-- ARP_REQUEST (R295): An ARP request for the port's address is answered. -/
  | arpRequest (port : Fin 2) (target : Word) (sender : Word)
  /-- ICMP_ECHO (R295): An ICMP echo request is answered. -/
  | icmpEcho (port : Fin 2) (dest : Word) (sender : Word) (payload : List Byte)
  /-- IGMP_QUERY (R295): An IGMP query is answered with membership reports. -/
  | igmpQuery (port : Fin 2) (v2 : Bool)
  /-- UNSUPPORTED_PACKET (R295): A packet of an unsupported kind is dropped and counted. -/
  | unsupportedPacket (port : Fin 2)
  /-- TROSYN_DATA (R307): A Trosyn DATA packet is checked and its positions and cues applied as one batch. -/
  | trosynData (port : Fin 2) (bytes : List Byte)
  /-- TROSYN_HELLO_DUE (R305): Once per second the renderer sends a Trosyn HELLO. -/
  | trosynHelloDue
  /-- TROSYN_SEQ_TIMEOUT (R307): No DATA packet accepted for 1 s, so the last SEQ is forgotten. -/
  | trosynSeqTimeout
  /-- NET_TRS_CFG_WRITE (R307): Write of NET_TRS_CFG, NET_TRS_GROUP or NET_TRS_ID that forgets the last SEQ. -/
  | netTrsCfgWrite (off : Nat) (v : Word)
  /-- MODULE_I2C_GO (R293): Write of the GO bit of a NET or NTK I2C register starting a module transaction. -/
  | moduleI2cGo (mod_ : Fin 4) (v : Word)
  /-- MODULE_I2C_DONE (R293): A module I2C transaction ends and BUSY clears. -/
  | moduleI2cDone (mod_ : Fin 4) (data : Byte) (nack : Bool)
  /-- NTK_BLOCK_LOCK_LOSS (R310): A Nitik Link lane loses block lock for 1 µs and the port goes DOWN. -/
  | ntkBlockLockLoss (n : Fin 2)
  /-- NTK_TRAINING_DONE (R310): All four lanes lock and deskew and the port goes UP. -/
  | ntkTrainingDone (n : Fin 2)
  /-- NTK_VERSION_AGREED (R314): Partners agree a version or none, and the link becomes READY or INCOMPATIBLE. -/
  | ntkVersionAgreed (n : Fin 2) (verMin : Nat) (verMax : Nat) (total : Nat)
  /-- OBJECT_CELL (R325): An OBJECT cell arrives, is accepted or late, and is forwarded. -/
  | objectCell (n : Fin 2) (cell : Cell)
  /-- SUM_CELL (R324): A SUM cell arrives and its partial sums are added, forwarded or dropped. -/
  | sumCell (n : Fin 2) (cell : Cell)
  /-- BLOCK (R312): Receipt of a BLOCK control record from a partner. -/
  | ntkBlock (n : Fin 2) (msc : DWord) (chainState : Nat) (position : Nat)
  /-- TIME (R316): Receipt of a TIME control record giving the head's time, ORIGIN and RATE. -/
  | ntkTime (n : Fin 2) (t : TimeStamp) (origin : DWord) (rate : Bool)
  /-- CREDIT (R327): Receipt of a CREDIT control record returning credits. -/
  | ntkCredit (n : Fin 2) (count : Nat) (total : DWord)
  /-- ROLL_CALL (R315): Receipt of a ROLL_CALL record to which a member appends its record and forwards. -/
  | rollCall (n : Fin 2) (recs : List RollRecord)
  /-- ROLL_REPLY (R315): Receipt of the ROLL_REPLY list, which the head checks and decides. -/
  | rollReply (n : Fin 2) (recs : List RollRecord) (hops : List Nat)
  /-- EPOCH_REPORT (R331): Receipt of a participant's EPOCH_REPORT, forwarded toward the head. -/
  | epochReport (n : Fin 2) (id : Word) (position : Nat) (st : ReportState)
  /-- EPOCH_DECISION (R331): Receipt of the head's EPOCH_DECISION for a chain epoch. -/
  | epochDecision (n : Fin 2) (id : Word) (m : DWord) (outcome : Decision)
  /-- STEP (R60): Receipt of a STEP record naming k and its boundary. -/
  | ntkStep (n : Fin 2) (k : Int) (boundary : DWord)
  /-- AUDIT (R330): Receipt of an AUDIT record from which the sender finds credit mismatches. -/
  | ntkAudit (n : Fin 2) (boundary : DWord) (received : DWord) (free : Nat)
  /-- JOIN (R334): Receipt of a JOIN record, for which the head checks and admits the joiner. -/
  | ntkJoin (n : Fin 2) (rec : RollRecord) (place : Nat) (hops : List Nat)
  /-- LEAVE (R335): Receipt of a LEAVE record refusing a join or ending membership. -/
  | ntkLeave (n : Fin 2) (position : Nat) (reason : Nat)
  /-- LINK_DELAY (R312): Receipt of a LINK_DELAY probe or echo measuring the link round trip. -/
  | linkDelay (n : Fin 2) (probe : TimeStamp) (echo : Option TimeStamp) (received : TimeStamp)
  /-- CHAIN_SOURCE_LOST (R317): No valid BLOCK record for 4 block periods, so the member goes CUT. -/
  | chainSourceLost
  /-- CHAIN_RETURN (R317): Valid frames for 8 control frames return a CUT member to MEMBER. -/
  | chainReturn
  /-- MEMBER_REMOVAL (R317): The head hears nothing from a member for 64 control frames and removes it. -/
  | memberRemoval (position : Nat)
  /-- REFRESH_INTERVAL (R397): A tREFI interval ends; refreshes issue or debt grows. -/
  | refreshInterval (sub : Fin 4) (issued : Bool) (catchUp : Nat)
  /-- MR4_READ (R397): Every 250 µs MR4 is read and a doubled rate triggers recount and catch-up. -/
  | mr4Read (ch : Fin 2) (doubled : Bool)
  /-- REFRESH_RATE_RETURN (R397): After 32 ms of normal MR4 reports the rate returns to normal and debt halves. -/
  | refreshRateReturn (ch : Fin 2)
  /-- ACTIVATION_WINDOW_RESET (R398): At each 32 ms window start the activation counts are cleared. -/
  | activationWindowReset
  /-- NEIGHBOUR_REFRESH (R398): A row's activation count reaches the threshold and its neighbours are refreshed. -/
  | neighbourRefresh (sub : Fin 4) (bank : Nat) (row : Nat)
  /-- RETRAIN_DUE (R395): RETRAIN_PERIOD elapses or the temperature moves 10 °C, starting a retrain. -/
  | retrainDue (ch : Fin 2)
  /-- RETRAIN_SLICE (R395): One retrain slice runs as a pause of at most 2 µs. -/
  | retrainSlice (ch : Fin 2) (ns : Nat)
  /-- RETRAIN_END (R396): A retrain finishes and switches settings or finds none. -/
  | retrainEnd (ch : Fin 2) (found : Bool)
  /-- RETRAIN_RETRY (R396): One second after a failed retrain it is retried. -/
  | retrainRetry (ch : Fin 2)
  /-- ALERT_N_PULSE (R399): An ALERT_N pulse for a write CRC error replays the last 64 writes. -/
  | alertNPulse (sub : Fin 4) (during : Bool) (recent : Nat)
  /-- DRAM_SCRUB (R400): The patrol scrubber reads DRAM addresses over its period. -/
  | dramScrub (addr : Nat) (outcome : EccOutcome)
  /-- SRAM_SCRUB (R386): The SRAM scrubber reads and corrects every word once per second. -/
  | sramScrub (errors : List SramError)
  /-- MODE_CHANGE (R411): A waiting MODE_SET takes effect at its boundary and completes. -/
  | modeChange
  /-- STANDBY_ENTRY (R412): At entry boundary E buffers empty, ledgers freeze, epochs cancel, DMA aborts and DRAM self-refreshes. -/
  | standbyEntry
  /-- STANDBY_EXIT (R412): At boundary X STANDBY is left and lines refill and paths enter. -/
  | standbyExit
  /-- DORMANT_ENTRY (R413): At boundary D the attic stores time, pins go high impedance and DORMANT_READY is set. -/
  | dormantEntry
  /-- FALLBACK_ENTRY (R419): FALLBACK is entered at its boundary for DRAM, watchdog or thermal reason. -/
  | fallbackEntry
  /-- TEMPERATURE_MEASURE (R416): Every 1 ms the die temperature is measured. -/
  | temperatureMeasure (t : Int)
  /-- THERMAL_STEP (R416): Three measurements reach or clear a thermal threshold and its action applies or ends. -/
  | thermalStep (step : Fin 3)
  /-- THERMAL_EMERGENCY (R417): The 105 °C step is held for THERM_FB_DELAY seconds in SHOW or SERVICE. -/
  | thermalEmergency
  /-- COMPARATOR_FIRE (R415): An attic comparator's condition holds for 1 ms and it fires. -/
  | comparatorFire (k : Fin 4)
  /-- WAKE (R414): In DORMANT an enabled comparator or WAKE_N held low for 1 ms wakes the renderer. -/
  | wake (src : Fin 5)
  /-- ATTIC_SELF_BOOT (R414): Ten ms after a wake with rails good and RESET_N high the attic starts BOOT. -/
  | atticSelfBoot (straps : Straps)
  /-- VDD_ATTIC_RISE (R451): VDD_ATTIC rises, resetting the attic and main domain. -/
  | vddAtticRise
  /-- MAIN_RAIL_DROP (R451): A monitored main rail stays below 90 % for 1 µs and holds the main domain in RESET. -/
  | mainRailDrop
  /-- MAIN_RAIL_RETURN (R451): Monitored main rails return good. -/
  | mainRailReturn
  /-- RESET_N_ASSERT (R430): RESET_N goes low and the main domain enters RESET. -/
  | resetNAssert
  /-- RESET_RELEASE (R451): The internal reset is released, straps are sampled and BOOT starts. -/
  | resetRelease (straps : Straps)
  /-- SOFT_RESET (R430): Write of PWR_RESET with KEY 0xB0 and SOFT 1 resetting the main domain. -/
  | softReset (key : Byte) (soft : Bool)
  /-- BOOT_STAGE_END (R428): A boot stage completes and the next begins. -/
  | bootStageEnd (x : BootInput)
  /-- AUTO_START (R423): With BOOT_MODE 0b00 the renderer enters SHOW at the first boundary with MSC_VALID 1. -/
  | autoStart
  /-- HOST_WAIT_EXPIRY (R423): With BOOT_MODE 0b10 HOST_WAIT seconds pass without queue 0 enabled and automatic start proceeds. -/
  | hostWaitExpiry
  /-- FUSE_BURN_KEY_HASH (R427): Write of PWR_FUSE_CMD with OP 1 burning KEY_HASH. -/
  | fuseBurnKeyHash (key : Byte)
  /-- FUSE_ROLLBACK_ADVANCE (R427): Write of PWR_FUSE_CMD with OP 2 advancing the rollback count. -/
  | fuseRollbackAdvance (key : Byte)
  /-- FUSE_BURN_END (R427): A fuse burn finishes, clearing BUSY and setting ERR on failure. -/
  | fuseBurnEnd (ok : Bool)
  /-- SMBUS_READ_ID (R457): SMBus Block Read of code 0x00 returning SYS_ID and revision. -/
  | smbusReadId
  /-- SMBUS_READ_STATUS (R457): SMBus Read Byte of code 0x01 returning mode and status bits. -/
  | smbusReadStatus
  /-- SMBUS_READ_TEMPERATURE (R457): SMBus Read Word of code 0x02 returning die temperature. -/
  | smbusReadTemperature
  /-- SMBUS_READ_WAKE_CAUSE (R457): SMBus Read Byte of code 0x03 returning WAKE_CAUSE. -/
  | smbusReadWakeCause
  /-- SMBUS_READ_BOOT (R457): SMBus Read Word of code 0x04 returning boot stage, cause and reset cause. -/
  | smbusReadBoot
  /-- SMBUS_WRITE (R457): SMBus write transaction NACKed after its command code. -/
  | smbusWrite (code : Byte)
  /-- SMBUS_UNKNOWN_READ (R457): SMBus read of an unknown command code, NACKed. -/
  | smbusUnknownRead (code : Byte)
  /-- ALERT_RESPONSE (R457): Read of the Alert Response Address answered with the renderer's address, releasing SMB_ALERT_N. -/
  | alertResponse (changed : Bool)
  /-- JTAG_BYPASS (R458): JTAG BYPASS instruction. -/
  | jtagBypass (tdi : Bool)
  /-- JTAG_IDCODE (R458): JTAG IDCODE instruction returning 0x2641_04B5. -/
  | jtagIdcode
  /-- JTAG_SAMPLE_PRELOAD (R458): JTAG SAMPLE/PRELOAD instruction. -/
  | jtagSamplePreload (pins : List Bool) (load : List Bool)
  /-- JTAG_EXTEST (R458): JTAG EXTEST instruction. -/
  | jtagExtest (pins : List Bool) (load : List Bool)
  /-- JTAG_HIGHZ (R458): JTAG HIGHZ instruction. -/
  | jtagHighz
  /-- JTAG_CLAMP (R458): JTAG CLAMP instruction. -/
  | jtagClamp
  /-- JTAG_TRST (R458): JTAG_TRST_N low holds the TAP in Test-Logic-Reset. -/
  | jtagTrst (low : Bool)
  /-- MODULE_PRESENCE_CHANGE (R310): A NET or Nitik Link module is inserted or removed, changing the module-present status and sending an NTK port DOWN or into TRAINING. -/
  | modulePresenceChange (mod_ : Fin 4) (present : Bool)
  /-- BUS_MASTER_ENABLE_CHANGE (R340): The host changes Bus Master Enable in configuration space, stopping or resuming entry fetches and host writes. -/
  | busMasterEnableChange (on : Bool)
  /-- FRAME_START_EDGE (R287): A follower clock group receives a frame-start edge on SAP_FSYNC, taking the frame into its rate bridge, counting SAP_Pp_FRAMES and checking the edge's position. -/
  | frameStartEdge (g : Fin 16) (words : List SlotWord)
  /-- WHOLE_SECOND (R66): A time base reaches a whole second, raising PPS_OUT for the time base named by PPS_TB and applying any pending TMB_TBn_SET_SEC seconds. -/
  | wholeSecond (tb : Fin 4)
  /-- PPS_WIDTH_END (R66): PPS_WIDTH milliseconds after its rising edge PPS_OUT falls. -/
  | ppsWidthEnd
  /-- VDD_ATTIC_DROP (R451): VDD_ATTIC falls below 1.62 V, holding the attic and main domain in reset and losing attic state. -/
  | vddAtticDrop
  /-- SDAC_CURRENT_LIMIT_END (R228): A service DAC output stops limiting its current and its ILIM-now status clears. -/
  | sdacCurrentLimitEnd (ch : Fin 8)
  /-- VDD_IO33_LOSS (R455): VDD_IO33 is lost, sending the service DAC outputs high impedance and stopping the SMBus target. -/
  | vddIo33Loss
  /-- VDD_IO33_RETURN (R455): VDD_IO33 returns, restoring the service DAC output stage and the SMBus target. -/
  | vddIo33Return
deriving DecidableEq, Repr, Inhabited

end Sys2Proof
end

