-- ==== Sys2Proof/Decode.lean ====
section
/-!
DEFINITION. Reading a command from a word of spec/opcode_table.json. The table's rows carry no bits: the
commands of this block are messages, pin events and the passing of time, not words.
-/
namespace Sys2Proof

/-- No word spells a command (assumption 3). -/
def decodeTableWord (_nbits _w : Nat) : Option Instr := none

end Sys2Proof
end

