-- ==== Sys2Proof/Config.lean ====
section
/-!
DEFINITION. What the manual leaves open, as constants without a body: nothing can be proved
about a value of one, so a statement that mentions one holds for every value. Each is a free
value in the sense of the assumption log; where the manual bounds the value, the definition
that uses it clamps it to the bound.
-/
namespace Sys2Proof.Config

/-- The n-th fresh free value of a run; `n` is the counter `State.free`. -/
opaque freeValue : Nat → Int

/-- Which of the results a tolerance allows, for one computation named by its operands. -/
opaque tolerance : List Int → Int

/-- The frequency correction a time base's servo computes from its last correction and the
measured offset (R48 bounds it at ±200 ppm and gives no law). -/
opaque servo : Int → Int → Int

/-- offsetScaledLogVariance of the renderer as PTP leader (not stated). -/
opaque ownVariance : Nat

/-- The coefficients b0, b1, b2, a1, a2 (Q2.29) of section `k` of decorrelator `d` (R110). -/
opaque decor : Nat → Nat → Nat → Int

/-- The weight (Q4.27) that the rate bridge of a group gives an input sample, by its distance in 1/4096 sample from the point
that the bridge's group delay names (R282 gives the delay and no filter). -/
opaque bridgeTap : Nat → Nat → Int

/-- How far a group's bridge is from a delay of 24 samples, in 1/4096 sample: its constant part, and its change at an index
(R282 bounds both). -/
opaque bridgeDelay : Nat → Int
opaque bridgeWander : Nat → Nat → Int

/-- Measured frame rate over media rate of group `g` as its register shows it at a time (R285 gives no law). -/
opaque ratio : Nat → Nat → Word

/-- The subchannel of its channel that holds a 64-byte block of DRAM (not stated). -/
opaque subChannel : Nat → Bool

/-- The renderer's own clockIdentity and Nitik Link identity (not stated). -/
opaque ownIdentity : DWord

end Sys2Proof.Config
end

