-- ==== Sys2Proof/Machine/TypesHost.lean ====
section
/-!
DEFINITION. The kinds of state of the host interface, the ledgers, the time bases, the
timetable, the shelves and the modes (spec chapters 01, 02, 03, 14, 17 and 19).
-/
namespace Sys2Proof.Machine

/-- Memory bytes in canonical form: addresses strictly rising, no byte that is 0, which is what an
unlisted address reads as. -/
abbrev Mem := List (Nat × Byte)

/-- A table keyed by number, keys strictly rising. -/
abbrev Tbl (α : Type) := List (Nat × α)

/-! ### Host queues (chapter 14) -/

/-- HQ_Qq_STAT.STATE (R343). -/
inductive QState where
  | disabled | running | draining | error
deriving DecidableEq, Repr, Inhabited

/-- A command that is fetched and not completed, as its completion will name it (R352). -/
structure CmdRef where
  queue    : Fin 16
  tag      : BitVec 16
  opcode   : Byte
  /-- INT_SUPPRESS (R349) -/
  suppress : Bool
  /-- the order in which the renderer fetched its commands -/
  order    : Nat
  /-- the MSC when it was fetched (R36) -/
  fetched  : Nat := 0
deriving DecidableEq, Repr, Inhabited

/-- One submission and completion queue (R342–R345). -/
structure Queue where
  st        : QState := .disabled
  enable    : Bool := false
  prio      : Nat := 0
  size      : Nat := 4
  sqBase    : DWord := 0
  cqBase    : DWord := 0
  sqHead    : Nat := 0
  sqTail    : Nat := 0
  cqTail    : Nat := 0
  cqHead    : Nat := 0
  phase     : Bool := true
  cfgStatus : Nat := 0
  held      : Bool := false
  /-- the two doorbells as last written (R345) -/
  tailBell  : Word := 0
  headBell  : Word := 0
  /-- entries fetched and not yet processed, oldest first, each with its ring index and the order number
  of its command -/
  fetched   : List (Nat × Nat × FetchedEntry) := []
  /-- commands fetched and not completed, oldest first -/
  out       : List CmdRef := []
  /-- completion entries the renderer may still write (R42) -/
  credit    : Nat := 15
  /-- HQ_Qq_FETCHED -/
  total     : Nat := 0
  /-- entries written and not yet signalled (R362) -/
  unsig     : Nat := 0
  /-- the sample period in which the oldest of them was written (R362) -/
  unsigAt   : Nat := 0
deriving DecidableEq, Repr, Inhabited

/-- What waits to be written to a completion ring. -/
inductive ReadyItem where
  | completion (cmd : CmdRef) (status : Byte) (result : DWord) (v2 : Bool)
  /-- an event record (R360): kind, bytes 13–14, RESULT -/
  | record (kind : Byte) (ident : Nat) (result : DWord)
deriving DecidableEq, Repr, Inhabited

/-- MSI-X state (R362): per-vector and function masks, pending bits, the messages sent. -/
structure Msix where
  enabled : Bool := true
  funMask : Bool := false
  mask    : List Nat := List.range 32
  pend    : List Nat := []
  sent    : List Nat := []
deriving DecidableEq, Repr, Inhabited

structure HostSt where
  queues    : List Queue
  freeSlots : Nat
  version   : Nat
  /-- completions and records in the order in which they became ready (R361) -/
  ready     : List (Nat × ReadyItem)
  /-- sequence number of the next record written (R360) -/
  evtSeq    : Nat
  /-- records lost since the last OVERFLOW record (R360) -/
  lost      : Nat
  rrLast    : Nat
  msix      : Msix
  linkUp    : Bool
  bme       : Bool
  /-- event records are dropped until queue 0 is enabled again (R365) -/
  dropRec   : Bool
  fetchOrder : Nat
  wdogRun   : Bool
  wdogLeft  : Nat
  /-- what the last read of a register by the host returned (R9, R12, R444) -/
  answer    : Option Word := none
  /-- bytes the renderer wrote to host memory -/
  mem       : Mem
deriving DecidableEq, Repr, Inhabited

/-! ### Ledgers (chapter 01) -/

/-- One ledger (R29) with its clip counter (R40). -/
structure Ledger where
  acc    : DWord := 0
  syn    : DWord := 0
  dis    : DWord := 0
  del    : DWord := 0
  inf    : DWord := 0
  clip   : Word := 0
  active : Bool := false
deriving DecidableEq, Repr, Inhabited

/-- What moved in a ledger since the last boundary (R31). -/
structure LedDelta where
  acc  : Nat := 0
  syn  : Nat := 0
  dis  : Nat := 0
  del  : Nat := 0
  clip : Nat := 0
deriving DecidableEq, Repr, Inhabited

/-- A timed command that waits for its boundary (R36, R356, R358, R43, R272, R381). -/
inductive TimedAct where
  | nop
  | ledgerSnapshot (addr : DWord)
  | statsSnapshot (addr : DWord)
  | creditAudit
  | taskSignal (task : Nat) (mask : Word)
  | dmaStart (chan : Nat) (addr : DWord) (space : Nat)
deriving DecidableEq, Repr, Inhabited

structure Timed where
  cmd  : CmdRef
  at_  : Nat
  adj  : Bool
  act  : TimedAct
deriving DecidableEq, Repr, Inhabited

/-- An audit under way (R43, R330): its boundary, the CREDIT_AUDIT commands that asked for it, and the differences on NTKA, on
NTKB and in the host credits, where they are known. -/
structure Audit where
  at_   : Nat
  cmds  : List (CmdRef × Bool)
  found : List (Option Nat)
deriving DecidableEq, Repr, Inhabited

structure LedgerSt where
  tab      : Tbl Ledger
  pend     : Tbl LedDelta
  /-- MSC of the most recent completed boundary, 0 before the first -/
  lastMsc  : Nat
  snapSeq  : Nat
  statSeq  : Nat
  /-- mismatches found and not yet repaired: NTKA, NTKB, host (R43) -/
  mismatch : List Nat
  /-- audits whose links have not all answered, oldest first -/
  audits   : List Audit
deriving DecidableEq, Repr, Inhabited

/-! ### Time bases and the media clock (chapter 02) -/

/-- TMB_TBn_STAT.STATE (R47). -/
inductive TbState where
  | disabled | free | acquiring | locked | holdover
deriving DecidableEq, Repr, Inhabited

/-- A leader as the BMCA knows it (R49): where it is heard, what it announced, and when it announced last and before that, in
the time that the time base has run. -/
structure PtpLeader where
  port   : Fin 2
  source : DWord
  msg    : PtpAnnounceMsg
  last   : Nat := 0
  before : Option Nat := none
deriving DecidableEq, Repr, Inhabited

structure TimeBase where
  st       : TbState := .disabled
  conflict : Bool := false
  /-- time-of-day in units of 2⁻¹⁶ ns, and the rest of it in 1/(65,536 × 10⁶) of a unit -/
  tod      : Nat := 0
  frac     : Nat := 0
  /-- how long it has run since it was enabled or restarted, and that time at the last accepted Sync, pulse or other
  measurement, in units of 2⁻¹⁶ ns -/
  run      : Nat := 0
  seen     : Nat := 0
  /-- the chosen leader's logSyncInterval, once one of its Syncs was accepted -/
  syncLog  : Option Int := none
  /-- consecutive measurements within ±1,000 ns, and beyond ±10,000 ns -/
  good     : Nat := 0
  bad      : Nat := 0
  /-- last measured offset, ns -/
  offset   : Int := 0
  /-- servo frequency correction, units of 2⁻¹⁶ ppm, signed -/
  servo    : Int := 0
  isLeader : Bool := false
  leader   : Option PtpLeader := none
  /-- the leaders heard, each with what it announced last -/
  foreign  : List PtpLeader := []
  utc      : Word := 0
  /-- seconds to be taken at the next whole second (TMB_TBn_SET_SEC) -/
  setSec   : Option Nat := none
  /-- a whole second has begun and its effects are to come -/
  second   : Bool := false
  /-- a two-step Sync waiting for its Follow_Up -/
  sync     : Option PtpSyncMsg := none
  /-- last Sync measurement: receive minus origin, units of 2⁻¹⁶ ns -/
  msDelay  : Int := 0
  /-- mean path delay, units of 2⁻¹⁶ ns -/
  pathDelay : Int := 0
  /-- sequence numbers of the next Sync, Delay_Req and Announce -/
  seqSync  : Nat := 0
  seqReq   : Nat := 0
  seqAnn   : Nat := 0
  /-- the Delay_Req whose answer is awaited: sequence number and, once it left, its time-stamp -/
  reqOut   : Option (Nat × Option TimeStamp) := none
deriving DecidableEq, Repr, Inhabited

/-- What a PTP event message is that a port transmits (R55). -/
inductive PtpKind where
  | sync | delayReq
deriving DecidableEq, Repr, Inhabited

/-- One event message on its way through a port's cloakroom. -/
structure CloakEntry where
  tb    : Fin 4
  kind  : PtpKind
  seq   : Nat
  /-- its time-stamp, once it left -/
  stamp : Option TimeStamp
deriving DecidableEq, Repr, Inhabited

/-- A PTP message the renderer sent. -/
inductive PtpOut where
  | sync (port : Fin 2) (tb : Fin 4) (seq : Nat) (logInterval : Int)
  | followUp (port : Fin 2) (tb : Fin 4) (seq : Nat) (stamp : TimeStamp)
  | delayReq (port : Fin 2) (tb : Fin 4) (seq : Nat) (unicast : Bool)
  | delayResp (port : Fin 2) (tb : Fin 4) (requester : DWord) (seq : Nat) (stamp : TimeStamp) (correction logInterval : Int)
  | announce (port : Fin 2) (tb : Fin 4) (seq : Nat) (logInterval : Int) (priority1 clockClass clockAccuracy priority2 : Nat)
deriving DecidableEq, Repr, Inhabited

/-- One port's cloakroom (R55). -/
structure Cloak where
  entries : List CloakEntry := []
  held    : List CloakEntry := []
  high    : Nat := 0
deriving DecidableEq, Repr, Inhabited

/-- A ramp of R106: the applied value in Q4.43, its target in Q4.27, the step per sample and
the samples it still runs. -/
structure Ramp where
  acc    : Int := 0
  target : Int := 0
  step   : Int := 0
  left   : Nat := 0
deriving DecidableEq, Repr, Inhabited

structure MediaClock where
  valid     : Bool := false
  msc       : Nat := 0
  origin    : Nat := 0
  /-- RATE in force: `true` is 96 kHz -/
  rate96    : Bool := false
  /-- a RATE change waits for its boundary Q (R464) -/
  rateChange : Bool := false
  /-- TMB_MEDIA_CFG was written since the MSC last became invalid -/
  cfgWritten : Bool := false
  originWritten : Option Nat := none
  /-- ORIGIN and RATE as the attic stored them, kept for the first validation after a BOOT (R69) -/
  seedOrigin : Option (Nat × Bool) := none
  active    : Fin 4 := 0
  /-- PRIMARY and SECONDARY in force: they follow TMB_MEDIA_CFG only while the MSC is not valid -/
  primary   : Nat := 0
  secondary : Nat := 1
  seeded    : Bool := false
  /-- one more than the samples the slew still runs; 0: none runs -/
  slewLeft  : Nat := 0
  holding   : Bool := false
  /-- the holdover timer: running, the samples it has run, expired -/
  timerOn   : Bool := false
  holdFor   : Nat := 0
  expired   : Bool := false
  /-- gain of the transmit flows and the Nitik Link outputs (R63, R64) -/
  outMute   : Ramp := { acc := 2 ^ 43, target := 2 ^ 27 }
  /-- the active time base is back: muted outputs return with the next measurement (R64) -/
  returned  : Bool := false
  /-- PRIMARY was lost and has not been LOCKED since (R61, R62) -/
  primLost  : Bool := false
  /-- the sample period MSC became valid in, and its start is to come -/
  starting  : Bool := false
  /-- unmute when the pending step is applied (R64) -/
  unmuteAtStep : Bool := false
  rejected  : Bool := false
  /-- a decided step: k, its boundary, the residual in units of 2⁻¹⁶·10⁻⁹ samples -/
  step      : Option (Int × Nat × Int) := none
  /-- a forced changeover waits for the next control-frame boundary: `true` to SECONDARY -/
  force     : Option Bool := none
  /-- samples PRIMARY has been LOCKED continuously while SECONDARY is active -/
  primGood  : Nat := 0
  /-- PRIMARY completed its 10 s with REVERT set -/
  revertDue : Bool := false
deriving DecidableEq, Repr, Inhabited

structure ClockSt where
  tb      : List TimeBase
  cloak   : List Cloak
  media   : MediaClock
  /-- captures of R54: time-of-day of each time base and the MSC -/
  snapTod : List Nat
  snapMsc : Nat
  ppsHigh : Bool
  /-- the attic is to reload its time (R68) -/
  atticDue : Bool
  /-- PTP messages sent, latest first -/
  sent    : List PtpOut
deriving DecidableEq, Repr, Inhabited

/-! ### Timetable and shelves (chapter 03) -/

/-- A bell of the timetable (R71, R72). -/
structure Bell where
  kind   : Nat
  msc    : Nat
  period : Nat
  count  : Nat
  user   : DWord
  task   : Nat
  mask   : Word
  /-- DMA channel, or the SDAC channel mask -/
  chan   : Nat
  /-- index of the next ring, and the MSC at which it acts -/
  ring   : Nat
  next   : Nat
  /-- rings that acted -/
  acted  : Nat
  armed  : Bool
  /-- cancelled at this MSC: the rings whose acting points had come are still to be worked (R77) -/
  stop   : Option Nat := none
deriving DecidableEq, Repr, Inhabited

/-- R79. -/
inductive EpState where
  | open_ | sealed | waiting | committed | expired | cancelled
deriving DecidableEq, Repr, Inhabited

/-- TT_SHELFk_STAT (R91). -/
inductive SlotState where
  | empty | loading | verified | failed | active | fading
deriving DecidableEq, Repr, Inhabited

/-- A shelf switch (R98): target slot, crossfade in ms, FEED_AT_END. -/
structure Switch where
  target : Nat
  xfade  : Nat
  atEnd  : Bool
deriving DecidableEq, Repr, Inhabited

/-- A copy or a verification under way in a slot (R96, R97). -/
structure ShelfJob where
  cmd    : CmdRef
  /-- `true`: SHELF_LOAD; `false`: SHELF_VERIFY -/
  load   : Bool
  /-- source flash slot of a SHELF_LOAD with SOURCE 1 -/
  flash  : Option Nat
  /-- LENGTH of a SHELF_LOAD with SOURCE 0 -/
  length : Nat
deriving DecidableEq, Repr, Inhabited

/-- A shelf slot (R90): its state and what its header says. The image itself stands in DRAM. -/
structure ShelfSlot where
  st    : SlotState := .empty
  id    : Word := 0
  frame : Word := 0
  rate  : Nat := 0
  length : Nat := 0
  /-- copies and verifications of the slot, the one under way first -/
  jobs  : List ShelfJob := []
  /-- being examined after SETUP was entered (R91) -/
  examine : Bool := false
deriving DecidableEq, Repr, Inhabited

/-- A shelf crossfade: commit MSC, length in samples, outgoing and incoming slot (R100). -/
structure Xfade where
  m    : Nat
  len  : Nat
  old  : Option Nat
  new  : Nat
deriving DecidableEq, Repr, Inhabited

/-! ### Modes, boot and the attic (chapter 17) -/

/-- SYS_MODE.MODE (R407). -/
inductive Mode where
  | reset | boot | dormant | standby | setup | show_ | fallback | service
deriving DecidableEq, Repr, Inhabited

/-- A MODE_SET that waits for its boundary (R410). -/
structure ModeWait where
  target : Mode
  at_    : Nat
  adj    : Bool
  cmd    : CmdRef
deriving DecidableEq, Repr, Inhabited

/-- The attic (R415, R68, R414). -/
structure Attic where
  cfg       : Word := 0
  thr       : Word := 0x00505050
  wakeSec   : Nat := 0
  cmp       : List Bool := [false, false, false, false]
  extClk    : Bool := false
  timeValid : Bool := false
  cause     : Nat := 0
  /-- the attic's time, units of 2⁻¹⁶ ns -/
  tod       : Nat := 0
  msc       : Nat := 0
  origin    : Nat := 0
  rate96    : Bool := false
  /-- an entry to DORMANT stored MSC, ORIGIN and RATE, and no BOOT has taken them yet -/
  stored    : Bool := false
deriving DecidableEq, Repr, Inhabited

/-- One-time fuses (R427). -/
structure Fuses where
  keyBlank : Bool := true
  keyHash  : List Byte := []
  rollback : Nat := 0
  busy     : Option Nat := none
  err      : Bool := false
deriving DecidableEq, Repr, Inhabited

/-- Entry to STANDBY under way (R412): the entry boundary E, the MODE_SET that asked for it and whether it was
adjusted, whether the 115 °C step asked for it. -/
structure Entering where
  at_     : Nat
  cmd     : Option (CmdRef × Bool)
  thermal : Bool
deriving DecidableEq, Repr, Inhabited

/-- The JTAG instruction in force (R458). -/
inductive JtagOp where
  | bypass | idcode | sample | extest | highz | clamp
deriving DecidableEq, Repr, Inhabited

/-- The JTAG port (R458): instruction, bypass bit, update latches of the boundary cells, the bits that the last
scan shifted out, JTAG_TRST_N low. -/
structure Jtag where
  op     : JtagOp := .idcode
  bypass : Bool := false
  latch  : List Bool := []
  tdo    : List Bool := []
  held   : Bool := false
deriving DecidableEq, Repr, Inhabited

structure PwrSt where
  mode      : Mode
  /-- the waiting MODE_SET (R410) -/
  wait      : Option ModeWait
  /-- the boundary of a thermal STANDBY that waits for it -/
  auto      : Option Nat
  /-- the stage mute ramps toward STANDBY -/
  entering  : Option Entering
  /-- reasons in force: DRAM, watchdog, thermal (R418) -/
  fbDram    : Bool
  fbWdog    : Bool
  fbTherm   : Bool
  /-- reasons declared whose boundary has not come -/
  pendDram  : Bool
  pendWdog  : Bool
  pendTherm : Bool
  /-- FALLBACK with FREEZE in force (R421) -/
  freeze    : Bool
  thermStandby : Bool
  dormantReady : Bool
  straps    : Straps
  bootStage : Nat
  bootCause : Nat
  bootMs    : Nat
  bootHeld  : Bool
  imageB    : Bool
  image     : List Byte
  resetCause : Nat
  /-- temperature in units of 2⁻⁸ °C; the maximum since it was last read -/
  temp      : Int
  tempMax   : Int
  /-- consecutive measurements at or above each threshold, and below each clearing point -/
  hot       : List Nat
  cold      : List Nat
  stepOn    : List Bool
  /-- measurements in SHOW or SERVICE since the 105 °C step was reached (R417) -/
  hotFor    : Nat
  /-- the sample period in which SETUP was entered (R423) -/
  setupAt   : Nat
  hostSeen  : Bool
  /-- the automatic start of R423 is to come -/
  autoArmed : Bool
  xtalFault : Bool
  /-- DORMANT ends: the attic has recorded a wake (R414) -/
  woken     : Bool
  wakeN     : Bool
  alertN    : Bool
  resetN    : Bool
  railsUp   : Bool
  atticUp   : Bool
  io33      : Bool
  attic     : Attic
  fuses     : Fuses
  /-- what the last SMBus transaction was answered: its bytes, or NACK -/
  smb       : Option (List Byte)
  jtag      : Jtag
deriving DecidableEq, Repr, Inhabited

end Sys2Proof.Machine
end

