-- ==== Sys2Proof/Machine/TypesAudio.lean ====
section
/-!
DEFINITION. The kinds of state of the audio path: lockers, geometry, path records, the
speaker stage, the corridor and the service DAC (spec chapters 04 to 08). A sample is an
exact integer in units of 2⁻²⁷ (Q4.27, R4).
-/
namespace Sys2Proof.Machine

/-- One biquad of R107 or R188: coefficients in Q2.29 and its four state words in Q4.27. -/
structure Biquad where
  b0 : Int := 0
  b1 : Int := 0
  b2 : Int := 0
  a1 : Int := 0
  a2 : Int := 0
  bypass : Bool := true
  x1 : Int := 0
  x2 : Int := 0
  y1 : Int := 0
  y2 : Int := 0
deriving DecidableEq, Repr, Inhabited

/-- A source channel as R104 names it. -/
structure Src where
  kind  : Nat := 0
  index : Nat := 0
  chan  : Nat := 0
deriving DecidableEq, Repr, Inhabited

/-- Cartesian coordinates in Q16.16 metres (R115). -/
structure Pos where
  x : Int := 0
  y : Int := 0
  z : Int := 0
deriving DecidableEq, Repr, Inhabited

/-- The locker fields of OBJ_CONFIG (R120). -/
structure LockerCfg where
  enable    : Bool := false
  invert    : Bool := false
  mode      : Nat := 0
  src       : Src := {}
  prio      : Nat := 4
  decor     : Nat := 0
  preDelay  : Nat := 0
  gain      : Nat := 1920
  ramp      : Nat := 5
  maxPaths  : Nat := 512
  spread    : Nat := 0
  firstBus  : Nat := 0
  busCount  : Nat := 0
  busGain   : List Nat := [0, 0, 0, 0, 0, 0, 0, 0]
deriving DecidableEq, Repr, Inhabited

/-- A position update of R114, already Cartesian. -/
structure PosUpdate where
  locker : Nat
  force  : Bool
  never  : Bool
  pos    : Pos
  /-- it comes with a shelf: it moves the incoming sets alone (R124) -/
  shelf  : Bool := false
deriving DecidableEq, Repr, Inhabited

/-- What a locker's geometry is to become: the fields whose change is carried out as a jump. -/
structure GeoTarget where
  pos      : Pos := {}
  mode     : Nat := 0
  spread   : Nat := 0
  firstBus : Nat := 0
  busCount : Nat := 0
deriving DecidableEq, Repr, Inhabited

/-- What a held jump changes (R119). -/
structure Held where
  pos : Option Pos := none
  cfg : Option GeoTarget := none
deriving DecidableEq, Repr, Inhabited

/-- A candidate of R142–R146 for one speaker: gain in Q1.22, distance in Q16.16, tilt in 1/64 dB. -/
structure Cand where
  speaker : Nat
  gain    : Int
  dist    : Int
  tilt    : Nat
  /-- gain times TRIM, before the normaliser -/
  trimmed : Int
deriving DecidableEq, Repr, Inhabited

/-- One path record of R165 with what the geometry unit keeps of the path. -/
structure PathRec where
  /-- speaker number; for a DIRECT path the bus index 0–7 -/
  speaker : Nat
  kind    : Nat
  bus     : Nat
  enter   : Bool := false
  leave   : Bool := false
  clamped : Bool := false
  /-- lost to an uncorrectable error (R180) -/
  lost    : Bool := false
  dStart  : Int := 0
  dDelta  : Int := 0
  gStart  : Int := 0
  gEnd    : Int := 0
  tStart  : Int := 0
  tEnd    : Int := 0
  z       : Int := 0
  /-- ramp of a DIRECT path (R176), in Q1.38 and Q1.22 -/
  ramp    : Ramp := {}
  /-- |target − D_PREV − D_DELTA| (R174) -/
  lag     : Nat := 0
  /-- distance and table tilt the path holds (R151) -/
  dist    : Int := 0
  tabTilt : Nat := 0
deriving DecidableEq, Repr, Inhabited

/-- One path set of a locker (R165). -/
structure PathSet where
  /-- bit 1 and bit 0 of SET -/
  shelfIn : Bool := false
  jumpIn  : Bool := false
  /-- the outgoing set of a jump crossfade -/
  jumpOut : Bool := false
  /-- its crossfade is over and it awaits its release: it renders nothing -/
  past    : Bool := false
  /-- the shelf slot it was computed from; 15 for a DIRECT locker, whose set no shelf crossfade touches -/
  slot    : Nat := 8
  target  : GeoTarget := {}
  /-- the direction of its WAVE evaluation -/
  dir     : Option Pos := none
  paths   : List PathRec := []
  /-- candidates after floor culling at the set's last evaluation, and their energy e_full -/
  cands   : List Cand := []
  eFull   : Int := 0
  /-- normaliser gain in 1/256 dB (R154) and whether the slew held it -/
  gnDb    : Int := 0
  gnHeld  : Bool := false
  pruned  : Nat := 0
  limited : Bool := false
  clampSeen : Bool := false
deriving DecidableEq, Repr, Inhabited

/-- A locker's report of R161. -/
structure GeoReport where
  kept    : Nat := 0
  pruned  : Nat := 0
  share   : Nat := 0
  late    : Bool := false
  oog     : Bool := false
  limited : Bool := false
  clamped : Bool := false
  norm    : Int := 0
deriving DecidableEq, Repr, Inhabited

/-- A locker (R102–R121). -/
structure Locker where
  cfg      : LockerCfg := {}
  /-- enabled in the sense of R102: until its ENABLE 0 ramp has ended -/
  live     : Bool := false
  target   : Pos := {}
  /-- conditioning -/
  gain     : Ramp := {}
  src      : Src := {}
  srcOld   : Option (Src × Ramp) := none
  biquads  : List Biquad := List.replicate 8 {}
  bqOld    : Option (List Biquad × Ramp) := none
  /-- pre-delay history, newest first; a sample older than the list is 0 -/
  line     : List Int := []
  delay    : Nat := 0
  delayOld : Option (Nat × Ramp) := none
  decor    : Nat := 0
  decorSt  : List Biquad := []
  decorOld : Option (Nat × List Biquad × Ramp) := none
  /-- the window of R111, newest first; a sample older than the list is 0 -/
  window   : List Int := []
  /-- the pipeline index after the window's newest sample -/
  wellEnd  : Nat := 0
  sat      : Word := 0
  absent   : Bool := false
  pdLost   : Bool := false
  posHold  : Bool := false
  /-- paths are released at the first frame after the ENABLE 0 ramp ends -/
  releasing : Bool := false
  /-- first frame with paths after an enable (R121) -/
  pathsFrom : Nat := 0
  /-- geometry: enabled as the frames see it (R121) -/
  geoOn    : Bool := false
  sets     : List PathSet := []
  /-- a jump crossfade as it renders: F and J (R118); and as the frozen inputs decide it -/
  jump     : Option (Nat × Nat) := none
  jumpPlan : Option (Nat × Nat) := none
  /-- what a held jump moves to (R119) -/
  held     : Option Held := none
  late     : Bool := false
  /-- a jump of a late frame waits for its evaluation (R135) -/
  jumpDue  : Bool := false
  /-- WAVE direction kept while the position is (0, 0, 0) -/
  dir      : Option Pos := none
  report   : GeoReport := {}
deriving DecidableEq, Repr, Inhabited

/-- Capture recorder (R125–R127). -/
structure Capture where
  /-- 0 IDLE, 1 ARMED, 2 RUNNING, 3 DONE, 4 ABORTED -/
  st       : Nat := 0
  oneShot  : Bool := false
  buffer   : Nat := 0
  length   : Nat := 0
  taps     : List (Nat × Nat) := []
  start    : Nat := 0
  frames   : Nat := 0
  stopAt   : Option Nat := none
  cmd      : Option CmdRef := none
  cmdAdj   : Bool := false
  /-- the CAPTURE_STOP commands that wait -/
  stops    : List (CmdRef × Bool) := []
  /-- tap samples of the frames under way: pipeline index and tap number to sample -/
  data     : List ((Nat × Nat) × Int) := []
deriving DecidableEq, Repr, Inhabited

/-- Replay stream (R128, R129). -/
structure Replay where
  /-- 0 IDLE, 1 ARMED, 2 RUNNING -/
  st       : Nat := 0
  loop     : Bool := false
  channels : Nat := 0
  buffer   : Nat := 0
  length   : Nat := 0
  fill     : Nat := 0
  start    : Nat := 0
  stopAt   : Option Nat := none
  read     : Nat := 0
  underrun : Bool := false
deriving DecidableEq, Repr, Inhabited

/-- One air zone's ramp (R150), values in Q8.8. -/
structure AirZone where
  fromT  : Int := 5120
  fromH  : Int := 12800
  toT    : Int := 5120
  toH    : Int := 12800
  start  : Nat := 0
  frames : Nat := 0
deriving DecidableEq, Repr, Inhabited

/-- A locker's inputs for one frame (R131): its target, whether a change makes it be evaluated, whether
staging has paid for that (R136), whether the change is a jump. -/
structure GeoInput where
  tgt     : GeoTarget
  dir     : Option Pos
  eval    : Bool
  prepaid : Bool
  jump    : Bool
  /-- the position came with a shelf: outgoing sets keep theirs (R124) -/
  shelf   : Bool := false
  /-- the locker's limits in force at the freeze (R131) -/
  prio     : Nat := 0
  maxPaths : Nat := 0
  /-- the jump crossfade of the frame, F and J (R118) -/
  plan     : Option (Nat × Nat) := none
deriving DecidableEq, Repr, Inhabited

/-- What the geometry unit asks of a path for a frame (R152, R153). -/
structure PathAim where
  speaker : Nat
  kind    : Nat
  bus     : Nat
  delay   : Int
  gain    : Int
  tilt    : Nat
  dist    : Int
  tabTilt : Nat
  leave   : Bool
deriving DecidableEq, Repr, Inhabited

/-- One set of a plan: the set of the last frame it continues, by slot and jump bits, the set as it is to be,
its paths' targets. -/
structure SetPlan where
  origin : Option (Nat × Bool × Bool)
  set    : PathSet
  aims   : List PathAim
deriving DecidableEq, Repr, Inhabited

/-- What selection leaves for the hand-over of one locker. -/
structure GeoPlan where
  sets   : List SetPlan
  jump   : Option (Nat × Nat)
  jumped : Bool
  report : GeoReport
deriving DecidableEq, Repr, Inhabited

/-- A frame whose inputs are frozen: its number, its lockers, the budget in force, the air of the frame
before it and its own (R131, R151). -/
structure GeoFrame where
  frame  : Nat
  inputs : Tbl GeoInput
  budget : Nat
  prev   : List (Int × Int)
  air    : List (Int × Int)
deriving DecidableEq, Repr, Inhabited

/-- The geometry unit (R131–R162). -/
structure GeoSt where
  /-- frames whose evaluation is not yet closed, oldest first -/
  frozen  : List GeoFrame
  airNow  : List (Int × Int)
  air     : List AirZone
  airSet  : Bool
  /-- the active shelf changed without a crossfade (R101): every locker is evaluated at the next frame -/
  reEval  : Bool
  budget  : Nat
  /-- the plans for the next hand-over, with its frame -/
  ready   : Option (Nat × Tbl GeoPlan)
  firstFrame : Nat
  /-- pruned paths that are out: locker, SET, speaker and the frame up to which it stays out, 0 once that hold is over -/
  holds   : List ((Nat × Nat × Nat) × Nat)
  kept    : Nat
  fading  : Nat
  /-- the last selection pruned; it pruned or held out paths -/
  pruned  : Bool
  pruning : Bool
  lateLast : Bool
  past    : Bool
  frame   : Nat
  corners : Nat
  cornersHigh : Nat
  direct  : Nat
  /-- corner reads and direct units that the frame has left for staging (R136) -/
  left    : Nat × Nat
  sound   : List (Nat × Nat)
deriving DecidableEq, Repr, Inhabited

/-- The path renderer (R163–R182). -/
structure PathSt where
  rendered : Nat
  clamping : Bool
  tiltEn   : Bool
  maxStep  : Nat
  /-- the MSC from which a requested probe can be taken -/
  probeFrom : Option Nat
  lkClamped : List Nat
deriving DecidableEq, Repr, Inhabited

end Sys2Proof.Machine
end

