-- ==== Sys2Proof/Machine/TypesSpeaker.lean ====
section
/-!
DEFINITION. The kinds of state of the speaker stage, the corridor, OVERRIDE_N and MUTE_N and
the service DAC (spec chapters 07 and 08).
-/
namespace Sys2Proof.Machine

/-- A feed or route destination (R204, R217): 0 none, 1 serial slot, 2 transmit flow channel. -/
structure Dest where
  kind  : Nat := 0
  index : Nat := 0
  chan  : Nat := 0
deriving DecidableEq, Repr, Inhabited

/-- An aux input (R184). -/
structure Aux where
  enable : Bool := false
  invert : Bool := false
  code   : Nat := 0
  src    : Src := {}
  gain   : Ramp := {}
  srcOld : Option (Src × Ramp) := none
  absent : Bool := true
deriving DecidableEq, Repr, Inhabited

/-- A matrix node (R185): its target code and its ramp. -/
structure Node where
  code : Nat := 0
  gain : Ramp := {}
deriving DecidableEq, Repr, Inhabited

/-- LIMITER_SET fields (R207). -/
structure LimiterCfg where
  peakThr  : Nat := 0
  look     : Nat := 0
  peakRel  : Nat := 50
  thermThr : Nat := 0
  tau      : Nat := 100
  att      : Nat := 1000
  rel      : Nat := 5000
  floor    : Nat := 1728
deriving DecidableEq, Repr, Inhabited

/-- FEED_CONFIG OP 2 fields (R206). -/
structure PilotCfg where
  enable  : Bool := false
  inMute  : Bool := false
  supEn   : Bool := false
  supType : Nat := 0
  freq    : Nat := 0
  level   : Nat := 0
  supIndex : Nat := 0
  supChan : Nat := 0
  lo      : Nat := 0
  hi      : Nat := 0
  windows : Nat := 4
deriving DecidableEq, Repr, Inhabited

/-- FEED_CONFIG OP 0 fields (R206). -/
structure FeedBasic where
  mute    : Bool := false
  invert  : Bool := false
  sumIn   : Bool := false
  sumOut  : Bool := false
  align   : Nat := 0
  gain    : Nat := 1920
  dest0   : Dest := {}
  dest1   : Dest := {}
deriving DecidableEq, Repr, Inhabited

/-- An alignment fade (R194, R195): the pipeline index at which it falls from 1.0 and, once its
epoch is final, the index and the gain from which it rises. -/
structure Fade where
  /-- the order number of its epoch -/
  epoch : Nat := 0
  fall : Nat
  rise : Option (Nat × Int)
  /-- the fade-out has ended: the part it belongs to is staged (R194) -/
  held : Bool := false
deriving DecidableEq, Repr, Inhabited

/-- A loudspeaker feed (R183–R204). -/
structure Feed where
  cfg      : FeedBasic := {}
  rampMs   : Nat := 5
  scale    : Nat := 0
  /-- configured since BOOT, so that its line has been filled (R193) -/
  used     : Bool := false
  col      : Ramp := { acc := 2 ^ 43, target := 2 ^ 27 }
  biquads  : List Biquad := List.replicate 16 {}
  bqOld    : Option (List Biquad × Ramp) := none
  fir      : List Int := []
  firOld   : Option (List Int × Ramp) := none
  /-- FIR input history, newest first -/
  hist     : List Int := []
  /-- alignment line: length in force and its samples, newest first -/
  len      : Nat := 0
  line     : List Int := []
  fades    : List Fade := []
  delayClamped : Bool := false
  /-- samples dropped and added by a change of length in the feed slot under way, counted as the slot ends;
  `none`: no block has left the feed slot since the line started -/
  moved    : Option (Nat × Nat) := none
  lim      : LimiterCfg := {}
  /-- thermal limiter: power estimate and exact gain in units of 2⁻⁶⁴; the gain applied, and that of the block before -/
  power    : Nat := 0
  thIdeal  : Nat := 2 ^ 64
  gp       : Nat := 2 ^ 30
  gth      : Nat := 2 ^ 30
  gthPrev  : Nat := 2 ^ 30
  peakOn   : Bool := false
  thermOn  : Bool := false
  gr       : Nat × Nat := (0, 0)
  mute     : Ramp := { acc := 2 ^ 43, target := 2 ^ 27 }
  pol      : Ramp := { acc := 2 ^ 43, target := 2 ^ 27 }
  pilot    : PilotCfg := {}
  pilGain  : Ramp := {}
  phi      : Nat := 0
  /-- supervision: window samples so far, newest first; consecutive windows out of and inside the range -/
  win      : List Int := []
  bad      : Nat := 0
  good     : Nat := 0
  fault    : Bool := false
  lastA    : Nat := 0
deriving DecidableEq, Repr, Inhabited

/-- Changes to one corridor route (R217). -/
structure RouteCfg where
  enable : Bool := false
  invert : Bool := false
  exempt : Bool := false
  ramp   : Nat := 5
  src    : Dest := {}
  gain   : Nat := 1920
  dests  : List Dest := []
deriving DecidableEq, Repr, Inhabited

/-- A corridor route in force (R214–R218). -/
structure Route where
  cfg    : RouteCfg := {}
  gain   : Ramp := {}
  /-- sends samples: from ENABLE 1 until the ramp of ENABLE 0 has ended -/
  live   : Bool := false
  /-- destinations that an ENABLE 0 dropped and that the ramp still feeds (R218) -/
  drop   : List Dest := []
  srcOld : Option (Dest × Ramp) := none
  absent : Bool := false
deriving DecidableEq, Repr, Inhabited

/-- OVERRIDE_N and MUTE_N (R220–R223). -/
structure OvrSt where
  /-- consecutive sample starts at which each pin disagreed with its recognised state -/
  ovrCount : Nat := 0
  muteCount : Nat := 0
  ovrPin   : Bool := false
  mutePin  : Bool := false
  /-- the force bits as the last sample start saw them (R220) -/
  forceOvr : Bool := false
  forceMute : Bool := false
  ovrOn    : Bool := false
  muteOn   : Bool := false
  /-- weight w in Q1.22: value, end value and start index of the ramp, its length -/
  wFrom    : Int := 0
  wTo      : Int := 0
  wStart   : Nat := 0
  wLen     : Nat := 16
  /-- ramps of w that are to start: start index, end value, length -/
  wNext    : List (Nat × Int × Nat) := []
  k0       : Nat := 0
  /-- MUTE_N gain and its ramps that are to start -/
  mn       : Ramp := { acc := 2 ^ 43, target := 2 ^ 27 }
  mnNext   : List (Nat × Int × Nat) := []
  /-- weight and MUTE_N gain at the last output indices, newest first -/
  log      : List (Nat × Int × Int) := []
deriving DecidableEq, Repr, Inhabited

/-- One service DAC channel (R224–R231). -/
structure SdacCh where
  stream   : Bool := false
  range    : Bool := false
  code     : Nat := 0
  holdCode : Nat := 0
  holdRange : Bool := false
  loaded   : Bool := false
  clamped  : Bool := true
  /-- the 20 µs range clamp runs: the code and range to be driven after it -/
  pending  : Option (Nat × Bool) := none
  first    : Bool := false
  src      : Nat := 0
  rate2    : Bool := false
  freq     : Nat := 0
  lo       : Nat := 0
  hi       : Nat := 0
  seed     : Nat := 1
  tap      : Nat × Nat := (0, 0)
  phi      : Nat := 0
  lfsr     : Nat := 1
  ilim     : Bool := false
  /-- a strobe fell in this sample period (R227) -/
  struck   : Bool := false
deriving DecidableEq, Repr, Inhabited

/-- An SDAC_WRITE's values (R229). -/
structure SdacWrite where
  ch     : Nat
  strobe : Bool
  stream : Bool
  range  : Bool
  code   : Nat
  src    : Nat
  rate2  : Bool
  freq   : Nat
  lo     : Nat
  hi     : Nat
  tap    : Nat × Nat
  seed   : Nat
deriving DecidableEq, Repr, Inhabited

/-- A timed service DAC command that waits for its sample period. -/
inductive SdacTimed where
  | write (cmd : CmdRef) (at_ : Nat) (w : SdacWrite)
  | strobe (cmd : CmdRef) (at_ : Nat) (mask : Nat)
deriving DecidableEq, Repr, Inhabited

end Sys2Proof.Machine
end

