-- ==== Sys2Proof/Machine/Num.lean ====
section
/-!
DEFINITION. The arithmetic of the audio path: rounding and saturation (R4), gain codes (R5,
R106), ramps (R6, R106), biquads (R107), crossfades (R462), path interpolation (R170–R172),
and fixed-point elementary functions. Every value is an exact integer.
-/
namespace Sys2Proof.Machine

/-! ### Rounding and saturation -/

/-- The exact quotient rounded to nearest, ties away from zero (R4, `rdiv` of chapter 06). -/
def rdiv (x y : Int) : Int :=
  let n := x.natAbs
  let d := y.natAbs
  let q : Int := ((2 * n + d) / (2 * d) : Nat)
  if (x < 0) = (y < 0) then q else -q

/-- The nearest value between `lo` and `hi`. -/
def clampI (lo hi x : Int) : Int := if x < lo then lo else if hi < x then hi else x

def clampN (lo hi x : Nat) : Nat := if x < lo then lo else if hi < x then hi else x

def q427Max : Int := 2147483647
def q427Min : Int := -2147483648

/-- Saturation to Q4.27 (R4). -/
def sat427 (x : Int) : Int := clampI q427Min q427Max x

/-- 1 when saturation to Q4.27 changes the value. -/
def sats (x : Int) : Nat := if x < q427Min ∨ q427Max < x then 1 else 0

/-- Saturation to Q1.22 (R4). -/
def sat122 (x : Int) : Int := clampI (-8388608) 8388607 x

/-- A `w`-bit field read as two's complement. -/
def signed (w n : Nat) : Int := if n % 2 ^ w < 2 ^ (w - 1) then (n % 2 ^ w : Nat) else ((n % 2 ^ w : Nat) : Int) - 2 ^ w

/-- An integer as a `w`-bit field. -/
def toField (w : Nat) (x : Int) : Nat := (x % 2 ^ w).toNat

/-- R26: a `w`-bit PCM sample as a Q4.27 word. -/
def pcmIn (w : Nat) (v : Int) : Int :=
  if w ≤ 28 then v * 2 ^ (28 - w) else rdiv v (2 ^ (w - 28))

/-- R27: a Q4.27 word as `w`-bit PCM before saturation. -/
def pcmRaw (w : Nat) (x : Int) : Int :=
  if w ≤ 28 then rdiv x (2 ^ (28 - w)) else x * 2 ^ (w - 28)

/-- R27: conversion to `w`-bit PCM. -/
def pcmOut (w : Nat) (x : Int) : Int := clampI (-(2 ^ (w - 1))) (2 ^ (w - 1) - 1) (pcmRaw w x)

/-- Whether R27's conversion saturated (R40). -/
def pcmClips (w : Nat) (x : Int) : Bool := pcmOut w x != pcmRaw w x

/-! ### Powers, roots and logarithms by exact comparison -/

/-- A power whose exponent may be large, as powers with small exponents. -/
def powBig (b e : Nat) : Nat := (b ^ 256) ^ (e / 256) * b ^ (e % 256)

/-- The largest `n < 2^k` that satisfies a downward closed test, found bit by bit. -/
def bitSearch (p : Nat → Bool) : Nat → Nat → Nat
  | 0, acc => acc
  | k + 1, acc => bitSearch p k (if p (acc + 2 ^ k) then acc + 2 ^ k else acc)

/-- Integer square root, rounded down. -/
def isqrt (n : Nat) : Nat := bitSearch (fun r => r * r ≤ n) (n.log2 / 2 + 1) 0

/-- 10^(e/320) in units of 2^-f, rounded to nearest (R106). -/
def dbLinear (f : Nat) (e : Int) : Nat :=
  let num := powBig 2 ((f + 1) * 320) * powBig 10 e.toNat
  let den := powBig 10 (-e).toNat
  bitSearch (fun n => n == 0 || powBig (2 * n - 1) 320 * den ≤ num) (f + 6) 0

/-- The linear gain of a gain code in units of 2^-f (R5, R106). -/
def gainLin (f code : Nat) : Nat :=
  if code = 0 then 0 else if code = 1920 then 2 ^ f else dbLinear f ((code : Int) - 1920)

/-- Q4.27 linear gain of a gain code (R106). -/
def gain427 (code : Nat) : Int := gainLin 27 code

/-- Q1.22 linear gain of a gain code; codes above 2,016 saturate (R176). -/
def gain122 (code : Nat) : Int := sat122 (gainLin 22 code)

/-- A valid gain code (R5). -/
def codeOk (code : Nat) : Bool := code ≤ 2304

/-- round(k · log₁₀ n) for k = 160 or 320 (R186), n at least 1. -/
def logSteps (k n : Nat) : Nat :=
  bitSearch (fun s => s == 0 || powBig 10 (2 * s - 1) ≤ powBig n (2 * k)) 11 0

/-- 10·log₁₀(a/b) in units of 1/256 dB, rounded to nearest (R154). -/
def ratioDb (a b : Nat) : Int :=
  let up (x y : Nat) := bitSearch (fun n => n == 0 || powBig y 5120 * powBig 10 (2 * n - 1) ≤ powBig x 5120) 16 0
  if a = 0 ∨ b = 0 then 0 else if b ≤ a then up a b else -(up b a : Int)

/-- The gain code of an amplitude in units of 2⁻⁵⁹, rounded down, 0 below code 1 (R201). -/
def codeOf (a : Nat) : Nat :=
  bitSearch (fun c => c == 0 ||
    (let e : Int := (c : Int) - 1920
     powBig 2 (59 * 320) * powBig 10 e.toNat ≤ powBig a 320 * powBig 10 (-e).toNat)) 12 0

/-! ### Elementary functions in units of 2⁻⁶⁴ -/

def one64 : Int := 2 ^ 64
/-- 2π in units of 2⁻⁶⁴. -/
def twoPi64 : Int := 115904311329233965478

def mul64 (a b : Int) : Int := (a * b) / one64

/-- Sum of the first terms of a power series whose next term follows from the last one. -/
def series64 (next : Nat → Int → Int) : Nat → Nat → Int → Int
  | 0, _, t => t
  | fuel + 1, n, t => t + series64 next fuel (n + 1) (next n t)

/-- sin x for x in radians, units of 2⁻⁶⁴, |x| at most 2π. -/
def sin64 (x : Int) : Int :=
  series64 (fun n t => -(mul64 (mul64 t x) x) / ((2 * n + 2) * (2 * n + 3) : Int)) 24 0 x

def cos64 (x : Int) : Int :=
  series64 (fun n t => -(mul64 (mul64 t x) x) / ((2 * n + 1) * (2 * n + 2) : Int)) 24 0 one64

/-- exp(−a/b) for 0 ≤ a/b, units of 2⁻⁶⁴. -/
def expNeg64 (a b : Nat) : Int :=
  let x : Int := one64 * a / b
  if 64 * b < a then 0
  else
    let y := x / 128
    let e := series64 (fun n t => -(mul64 t y) / (n + 1 : Int)) 24 0 one64
    (List.range 7).foldl (fun v _ => mul64 v v) e

/-- An angle of `num/den` degrees in radians, units of 2⁻⁶⁴. -/
def deg64 (num : Int) (den : Nat) : Int := twoPi64 * num / (360 * den : Int)

/-- The angle, in units of 2⁻¹⁶ degree from 0 to 180, whose cosine is `num/den`. -/
def acos16 (num : Int) (den : Nat) : Nat :=
  bitSearch (fun a => a ≤ 11796480 && num * one64 ≤ cos64 (deg64 a 65536) * den) 24 0

/-- A tolerance: the exact value moved by at most `k`, as a free value chooses. -/
def within (k : Nat) (exact free : Int) : Int := exact + clampI (-k) k free

/-- Any integer within `k` of `num / den`, as a free value chooses. -/
def about (k num : Int) (den : Nat) (free : Int) : Int := clampI (-((k * den - num) / den)) ((num + k * den) / den) free

/-! ### Ramps (R6, R106) -/

/-- The length in samples of a ramp of `ms` milliseconds (R106). -/
def rampLen (fs ms : Nat) : Nat :=
  if ms = 0 then 16 else (((ms * fs + 999) / 1000 + 15) / 16) * 16

/-- A ramp from the value in force to `t` over `n` samples; the step is truncated toward zero. -/
def Ramp.start (r : Ramp) (t : Int) (n : Nat) : Ramp :=
  if n = 0 then { acc := t * 65536, target := t, step := 0, left := 0 }
  else
    let g := r.acc / 65536 * 65536
    { acc := g, target := t, step := (t * 65536 - g).tdiv n, left := n }

/-- The ramp after one sample. -/
def Ramp.next (r : Ramp) : Ramp :=
  if r.left = 0 then r
  else if r.left = 1 then { r with acc := r.target * 65536, step := 0, left := 0 }
  else { r with acc := r.acc + r.step, left := r.left - 1 }

/-- The applied value in Q4.27. -/
def Ramp.value (r : Ramp) : Int := r.acc / 65536

/-- The ramp completed to its target. -/
def Ramp.done (r : Ramp) : Ramp := { acc := r.target * 65536, target := r.target, step := 0, left := 0 }

/-- A ramp that stands at `t`. -/
def Ramp.at_ (t : Int) : Ramp := { acc := t * 65536, target := t, step := 0, left := 0 }

def Ramp.busy (r : Ramp) : Bool := r.left != 0

/-- A crossfade weight that rises from 0 to 1.0 over `n` samples (R108). -/
def Ramp.weight (n : Nat) : Ramp := ({} : Ramp).start (2 ^ 27) n

/-- One block through a ramp: the samples scaled and the saturations counted (R106). -/
def rampBlock : Ramp → List Int → Ramp × List Int × Nat
  | r, [] => (r, [], 0)
  | r, x :: xs =>
    let r1 := r.next
    let y := rdiv (x * r1.value) (2 ^ 27)
    let (r2, ys, n) := rampBlock r1 xs
    (r2, sat427 y :: ys, n + sats y)

/-- R462: the mix of an old and a new signal under a rising weight. -/
def mixBlock : Ramp → List Int → List Int → Ramp × List Int × Nat
  | r, a :: as, b :: bs =>
    let r1 := r.next
    let w := r1.value
    let y := rdiv (a * (2 ^ 27 - w) + b * w) (2 ^ 27)
    let (r2, ys, n) := mixBlock r1 as bs
    (r2, sat427 y :: ys, n + sats y)
  | r, _, _ => (r, [], 0)

/-! ### Biquads (R107) -/

def Biquad.cleared (q : Biquad) : Biquad := { q with x1 := 0, x2 := 0, y1 := 0, y2 := 0 }

/-- One sample through one biquad: new state, output, saturations. -/
def Biquad.step (q : Biquad) (x : Int) : Biquad × Int × Nat :=
  if q.bypass then (q, x, 0)
  else
    let acc := q.b0 * x + q.b1 * q.x1 + q.b2 * q.x2 - q.a1 * q.y1 - q.a2 * q.y2
    let r := rdiv acc (2 ^ 29)
    let y := sat427 r
    ({ q with x2 := q.x1, x1 := x, y2 := q.y1, y1 := y }, y, sats r)

def Biquad.block : Biquad → List Int → Biquad × List Int × Nat
  | q, [] => (q, [], 0)
  | q, x :: xs =>
    let (q1, y, n) := q.step x
    let (q2, ys, m) := q1.block xs
    (q2, y :: ys, n + m)

/-- A cascade of biquads over one block. -/
def chainBlock : List Biquad → List Int → List Biquad × List Int × Nat
  | [], xs => ([], xs, 0)
  | q :: qs, xs =>
    let (q1, ys, n) := q.block xs
    let (qs1, zs, m) := chainBlock qs ys
    (q1 :: qs1, zs, n + m)

/-- The new chain of R108: each section starts with the state of the old chain's section; a
section whose BYPASS bit is cleared starts from zero state. -/
def inheritState : List Biquad → List Biquad → List Biquad
  | o :: os, n :: ns =>
    (if n.bypass ∨ o.bypass then n.cleared
     else { n with x1 := o.x1, x2 := o.x2, y1 := o.y1, y2 := o.y2 }) :: inheritState os ns
  | _, ns => ns

/-! ### Path interpolation and tilt (R170–R172) -/

/-- R171: the Lagrange coefficient of offset `q` on kernel offsets `ks` at fraction `fr`. -/
def lagrange (ks : List Int) (fr q : Int) : Int :=
  let others := ks.filter (· != q)
  rdiv (2 ^ 22 * (others.map (fun m => fr - 4096 * m)).prod) ((others.map (fun m => 4096 * (q - m))).prod)

def kernelOf (kind : Nat) : List Int := if kind = 1 then [-3, -2, -1, 0, 1, 2, 3, 4] else [-1, 0, 1, 2]

/-- The coefficient of offset `q`: offset 0 takes what the others leave of 1.0 (R171). -/
def coeff (kind : Nat) (fr q : Int) : Int :=
  let ks := kernelOf kind
  if q = 0 then 2 ^ 22 - ((ks.filter (· != 0)).map (lagrange ks fr)).sum else lagrange ks fr q

/-- R169: the usable delay range, in 1/4,096 sample. -/
def dMin (kind : Nat) : Int := if kind = 1 then 16384 else 8192
def dMax (kind : Nat) : Int := if kind = 1 then 16699392 else 16707584

/-- cos(2π · 10,000 / fs): 37.5° at 96 kHz, 75° at 48 kHz. -/
def tiltCos (r96 : Bool) : Int := if r96 then cos64 (deg64 75 2) else cos64 (deg64 75 1)

/-- R172: table A, Q1.22. -/
def tiltA (r96 : Bool) (q : Nat) : Int :=
  if q = 0 then 2 ^ 22
  else
    let g2 : Int := bitSearch (fun n => powBig n 40 * powBig 10 q ≤ powBig (2 ^ 64) 40) 64 0
    let u := one64 - mul64 g2 (tiltCos r96)
    let v := one64 - g2
    let root : Int := isqrt ((u * u - v * v).toNat)
    rdiv (2 ^ 22 * (v - (u - root))) v

/-- The tilt coefficient of R172 for a tilt in 1/64 dB. -/
def tiltCoeff (r96 : Bool) (t : Nat) : Int :=
  let tc := min t 4095
  let q := tc / 16
  tiltA r96 q + rdiv ((tiltA r96 (q + 1) - tiltA r96 q) * (tc % 16 : Nat)) 16

/-! ### Lists as blocks and tables -/

def zeros16 : List Int := List.replicate 16 0

/-- Element `i` of a list of samples, 0 beyond its end. -/
def sampleAt (l : List Int) (i : Nat) : Int := l.getD i 0

/-- The entry of a sorted table. -/
def tget {α : Type} (t : Tbl α) (k : Nat) : Option α :=
  match t with
  | [] => none
  | (j, v) :: r => if j = k then some v else tget r k

/-- A sorted table with key `k` set to `v`. -/
def tset {α : Type} (t : Tbl α) (k : Nat) (v : α) : Tbl α :=
  match t with
  | [] => [(k, v)]
  | (j, u) :: r => if k < j then (k, v) :: (j, u) :: r else if k = j then (k, v) :: r else (j, u) :: tset r k v

/-- A sorted table without key `k`. -/
def tdel {α : Type} (t : Tbl α) (k : Nat) : Tbl α :=
  match t with
  | [] => []
  | (j, u) :: r => if j = k then r else (j, u) :: tdel r k

/-- A sorted table mapped value by value. -/
def tmap {α β : Type} (f : Nat → α → β) (t : Tbl α) : Tbl β := t.map (fun p => (p.1, f p.1 p.2))

/-- Element `i` of a list replaced. -/
def lset {α : Type} (l : List α) (i : Nat) (v : α) : List α := l.set i v

/-! ### Byte memories -/

/-- A byte of a memory: 0 where nothing is listed. -/
def memGet (m : Mem) (a : Nat) : Byte := (tget m a).getD 0

/-- A memory with one byte written; writing 0 removes the entry. -/
def memSet (m : Mem) (a : Nat) (b : Byte) : Mem := if b = 0 then tdel m a else tset m a b

def memWrite (m : Mem) (a : Nat) : List Byte → Mem
  | [] => m
  | b :: bs => memWrite (memSet m a b) (a + 1) bs

/-- The canonical form of a memory: addresses strictly rising, and no entry that reads as an unlisted byte. -/
def Memory.wf : Mem → Bool
  | [] => true
  | (a, b) :: r => b != 0 && (r.head?.all (fun p => decide (a < p.1)) && Memory.wf r)

def memRead (m : Mem) (a : Nat) : Nat → List Byte
  | 0 => []
  | n + 1 => memGet m a :: memRead m (a + 1) n

/-- Little-endian value of a list of bytes. -/
def leNat : List Byte → Nat
  | [] => 0
  | b :: bs => b.toNat + 256 * leNat bs

/-- `n` little-endian bytes of a value. -/
def leBytes : Nat → Nat → List Byte
  | 0, _ => []
  | n + 1, v => BitVec.ofNat 8 v :: leBytes n (v / 256)

/-- `n` bytes at offset `o` of a list, little-endian; bytes beyond its end are 0. -/
def fieldAt (l : List Byte) (o n : Nat) : Nat := leNat ((List.range n).map (fun i => l.getD (o + i) 0))

/-- The same as a signed value. -/
def sfieldAt (l : List Byte) (o n : Nat) : Int := signed (8 * n) (fieldAt l o n)

/-- All bytes of a span are 0. -/
def zeroSpan (l : List Byte) (o n : Nat) : Bool := (List.range n).all (fun i => l.getD (o + i) 0 == 0)

/-! ### CRC-32C (R93) -/

def crcBit (c : Nat) : Nat := if c % 2 = 1 then (c / 2) ^^^ 0x82F63B78 else c / 2

def crcByte (c : Nat) (b : Byte) : Nat :=
  crcBit (crcBit (crcBit (crcBit (crcBit (crcBit (crcBit (crcBit (c ^^^ b.toNat))))))))

/-- CRC-32C with initial value and final XOR 0xFFFF_FFFF. -/
def crc32c (l : List Byte) : Nat := (l.foldl crcByte 0xFFFFFFFF) ^^^ 0xFFFFFFFF

/-! ### Sorting -/

def insertBy {α : Type} (le : α → α → Bool) (a : α) : List α → List α
  | [] => [a]
  | b :: r => if le a b then a :: b :: r else b :: insertBy le a r

def sortBy {α : Type} (le : α → α → Bool) : List α → List α
  | [] => []
  | a :: r => insertBy le a (sortBy le r)

end Sys2Proof.Machine
end

