-- ==== Sys2Proof/Machine/RegMap.lean ====
section
/-!
DEFINITION. The register map (spec chapter 18 and the register tables of every chapter): the offset, stride, repeat
count, reset value, writable bits (RW, RWS, RW-SH) and write-1-to-clear bits of each register, the
event registers of R441, and the saturation bits of R443.
-/
namespace Sys2Proof.Machine

namespace Reg
abbrev SYS_ID : Nat := 0x00000
abbrev SYS_REV : Nat := 0x00004
abbrev SYS_VERSIONS : Nat := 0x00008
abbrev SYS_MODE : Nat := 0x00010
abbrev SYS_SCRATCH : Nat := 0x00014
abbrev SYS_IRQ_SRC : Nat := 0x00020
abbrev SYS_IRQ_BLOCK : Nat := 0x00024
abbrev SYS_IRQ_TEST : Nat := 0x00028
abbrev SYS_EVT : Nat := 0x00040
abbrev SYS_EVT_EN : Nat := 0x00044
abbrev SYS_LEDGER_SEL : Nat := 0x00400
abbrev SYS_LEDGER_MSC_LO : Nat := 0x00404
abbrev SYS_LEDGER_MSC_HI : Nat := 0x00408
abbrev SYS_LEDGER_ACC_LO : Nat := 0x0040C
abbrev SYS_LEDGER_ACC_HI : Nat := 0x00410
abbrev SYS_LEDGER_SYN_LO : Nat := 0x00414
abbrev SYS_LEDGER_SYN_HI : Nat := 0x00418
abbrev SYS_LEDGER_DIS_LO : Nat := 0x0041C
abbrev SYS_LEDGER_DIS_HI : Nat := 0x00420
abbrev SYS_LEDGER_DEL_LO : Nat := 0x00424
abbrev SYS_LEDGER_DEL_HI : Nat := 0x00428
abbrev SYS_LEDGER_INF_LO : Nat := 0x0042C
abbrev SYS_LEDGER_INF_HI : Nat := 0x00430
abbrev SYS_LEDGER_CLIP : Nat := 0x00434
abbrev SYS_LEDGER_EVT : Nat := 0x00440
abbrev SYS_LEDGER_EVT_EN : Nat := 0x00444
abbrev SYS_LEDGER_FIRST : Nat := 0x00448
abbrev SYS_CREDIT_REPAIRS : Nat := 0x0044C
abbrev SYS_STAT_SAT : Nat := 0x00450
abbrev SYS_STAT_SAT_CLIPj : Nat := 0x00500
abbrev PWR_CFG : Nat := 0x10000
abbrev PWR_STAT : Nat := 0x10004
abbrev PWR_BOOT_STAT : Nat := 0x10008
abbrev PWR_RESET_CAUSE : Nat := 0x1000C
abbrev PWR_TEMP : Nat := 0x10010
abbrev PWR_RESET : Nat := 0x10020
abbrev PWR_EVT : Nat := 0x10040
abbrev PWR_EVT_EN : Nat := 0x10044
abbrev PWR_FALLBACKS : Nat := 0x10050
abbrev PWR_THERM_REDUCTIONS : Nat := 0x10054
abbrev PWR_HW_FAULTS : Nat := 0x10058
abbrev PWR_FROZEN_UPDATES : Nat := 0x1005C
abbrev PWR_STAT_SAT : Nat := 0x10060
abbrev PWR_FUSE_DATAk : Nat := 0x10080
abbrev PWR_FUSE_CMD : Nat := 0x100B0
abbrev PWR_FUSE_STAT : Nat := 0x100B4
abbrev PWR_ATTIC_CFG : Nat := 0x10100
abbrev PWR_CMP_THR : Nat := 0x10104
abbrev PWR_WAKE_SEC_LO : Nat := 0x10108
abbrev PWR_WAKE_SEC_HI : Nat := 0x1010C
abbrev PWR_ATTIC_STAT : Nat := 0x10110
abbrev TMB_MEDIA_CFG : Nat := 0x20000
abbrev TMB_MEDIA_STAT : Nat := 0x20004
abbrev TMB_HOLDOVER_LIMIT : Nat := 0x20008
abbrev TMB_MEDIA_CMD : Nat := 0x2000C
abbrev TMB_MSC_LO : Nat := 0x20010
abbrev TMB_MSC_HI : Nat := 0x20014
abbrev TMB_ORIGIN_LO : Nat := 0x20018
abbrev TMB_ORIGIN_HI : Nat := 0x2001C
abbrev TMB_ORIGIN_LAST : Nat := 0x20020
abbrev TMB_ORIGIN_STEPS : Nat := 0x20024
abbrev TMB_ORIGIN_LEAD : Nat := 0x20028
abbrev TMB_SNAP : Nat := 0x20030
abbrev TMB_SNAP_MSC_LO : Nat := 0x20034
abbrev TMB_SNAP_MSC_HI : Nat := 0x20038
abbrev TMB_TBn_SNAP_SEC_LO : Nat := 0x20040
abbrev TMB_TBn_SNAP_SEC_HI : Nat := 0x20044
abbrev TMB_TBn_SNAP_NS : Nat := 0x20048
abbrev TMB_IO_CFG : Nat := 0x20080
abbrev TMB_CLOAKp : Nat := 0x20090
abbrev TMB_CLOAK_HELDp : Nat := 0x20098
abbrev TMB_CLOAK_SKIPp : Nat := 0x200A0
abbrev TMB_EVT : Nat := 0x200C0
abbrev TMB_EVT_EN : Nat := 0x200C4
abbrev TMB_STAT_SAT : Nat := 0x200C8
abbrev TMB_TBn_CFG : Nat := 0x20100
abbrev TMB_TBn_STAT : Nat := 0x20104
abbrev TMB_TBn_OFFSET : Nat := 0x20108
abbrev TMB_TBn_FREQ : Nat := 0x2010C
abbrev TMB_TBn_BMCA : Nat := 0x20110
abbrev TMB_TBn_INTERVALS : Nat := 0x20114
abbrev TMB_TBn_ASYM0 : Nat := 0x20118
abbrev TMB_TBn_ASYM1 : Nat := 0x2011C
abbrev TMB_TBn_LEADER_LO : Nat := 0x20120
abbrev TMB_TBn_LEADER_HI : Nat := 0x20124
abbrev TMB_TBn_SET_SEC_LO : Nat := 0x20128
abbrev TMB_TBn_SET_SEC_HI : Nat := 0x2012C
abbrev TMB_TBn_UTC : Nat := 0x20130
abbrev TMB_TBn_LOSSES : Nat := 0x20134
abbrev TT_CFG : Nat := 0x30000
abbrev TT_STAT : Nat := 0x30004
abbrev TT_EVT : Nat := 0x30008
abbrev TT_EVT_EN : Nat := 0x3000C
abbrev TT_DEFERRALS : Nat := 0x30010
abbrev TT_EXPIRED : Nat := 0x30014
abbrev TT_BELLS_RUNG : Nat := 0x30018
abbrev TT_BELLS_SKIPPED : Nat := 0x3001C
abbrev TT_CUES_IGNORED : Nat := 0x30020
abbrev TT_STAT_SAT : Nat := 0x30024
abbrev TT_NEXT_BELL_LO : Nat := 0x30030
abbrev TT_NEXT_BELL_HI : Nat := 0x30034
abbrev TT_XFADE_END_LO : Nat := 0x30038
abbrev TT_XFADE_END_HI : Nat := 0x3003C
abbrev TT_SHELFk_STAT : Nat := 0x30100
abbrev TT_SHELFk_ID : Nat := 0x30140
abbrev HQ_CFG : Nat := 0x40000
abbrev HQ_STAT : Nat := 0x40004
abbrev HQ_EVT : Nat := 0x40040
abbrev HQ_EVT_EN : Nat := 0x40044
abbrev HQ_WDOG_CFG : Nat := 0x40050
abbrev HQ_WDOG_LEFT : Nat := 0x40054
abbrev HQ_BAD_ACCESS : Nat := 0x40060
abbrev HQ_DB_ERRS : Nat := 0x40064
abbrev HQ_DUP_TAGS : Nat := 0x40068
abbrev HQ_EVT_LOST : Nat := 0x4006C
abbrev HQ_CPL_DROPPED : Nat := 0x40070
abbrev HQ_WDOG_EXPIRIES : Nat := 0x40074
abbrev HQ_STAT_SAT : Nat := 0x40078
abbrev HQ_STATS_RECORDS : Nat := 0x40080
abbrev HQ_Qq_CTL : Nat := 0x41000
abbrev HQ_Qq_SQ_BASE_LO : Nat := 0x41004
abbrev HQ_Qq_SQ_BASE_HI : Nat := 0x41008
abbrev HQ_Qq_CQ_BASE_LO : Nat := 0x4100C
abbrev HQ_Qq_CQ_BASE_HI : Nat := 0x41010
abbrev HQ_Qq_STAT : Nat := 0x41014
abbrev HQ_Qq_SQ_HEAD : Nat := 0x41018
abbrev HQ_Qq_SQ_TAIL : Nat := 0x4101C
abbrev HQ_Qq_CQ_TAIL : Nat := 0x41020
abbrev HQ_Qq_CQ_HEAD : Nat := 0x41024
abbrev HQ_Qq_IRQ : Nat := 0x41028
abbrev HQ_Qq_OUTSTANDING : Nat := 0x4102C
abbrev HQ_Qq_FETCHED_LO : Nat := 0x41030
abbrev HQ_Qq_FETCHED_HI : Nat := 0x41034
abbrev DMA_CFG : Nat := 0x50000
abbrev DMA_CH_EVT : Nat := 0x50040
abbrev DMA_CH_EVT_EN : Nat := 0x50044
abbrev DMA_EVT : Nat := 0x50048
abbrev DMA_EVT_EN : Nat := 0x5004C
abbrev DMA_SHADOW_LATES : Nat := 0x50050
abbrev DMA_FAULTS : Nat := 0x50054
abbrev DMA_ABORT_IGNORED : Nat := 0x50058
abbrev DMA_SIG_STALLS : Nat := 0x5005C
abbrev DMA_STAT_SAT : Nat := 0x50060
abbrev DMA_Cc_CFG : Nat := 0x51000
abbrev DMA_Cc_CTL : Nat := 0x51004
abbrev DMA_Cc_STAT : Nat := 0x51008
abbrev DMA_Cc_PC_LO : Nat := 0x5100C
abbrev DMA_Cc_PC_HI : Nat := 0x51010
abbrev DMA_Cc_START_LO : Nat := 0x51014
abbrev DMA_Cc_START_HI : Nat := 0x51018
abbrev DMA_Cc_SPACE : Nat := 0x5101C
abbrev DMA_Cc_NEXT_PC_LO : Nat := 0x51020
abbrev DMA_Cc_NEXT_PC_HI : Nat := 0x51024
abbrev DMA_Cc_RESIDUE : Nat := 0x51028
abbrev DMA_Cc_BYTES_LO : Nat := 0x51030
abbrev DMA_Cc_BYTES_HI : Nat := 0x51034
abbrev DMA_Cc_ITER : Nat := 0x51038
abbrev MEM_CFG : Nat := 0x60000
abbrev MEM_STAT : Nat := 0x60004
abbrev MEM_EVT : Nat := 0x60040
abbrev MEM_EVT_EN : Nat := 0x60044
abbrev MEM_DRAM_CE : Nat := 0x60050
abbrev MEM_DRAM_UE : Nat := 0x60054
abbrev MEM_SRAM_CE : Nat := 0x60058
abbrev MEM_SRAM_UE : Nat := 0x6005C
abbrev MEM_CRC_REPLAYS : Nat := 0x60060
abbrev MEM_RETRAINS : Nat := 0x60064
abbrev MEM_RETRAIN_FAILS : Nat := 0x60068
abbrev MEM_NEIGHBOUR_REFRESHES : Nat := 0x6006C
abbrev MEM_CATCHUPS : Nat := 0x60070
abbrev MEM_CELLAR_LIMITS : Nat := 0x60074
abbrev MEM_STAT_SAT : Nat := 0x60078
abbrev MEM_UE_ADDR_LO : Nat := 0x60080
abbrev MEM_UE_ADDR_HI : Nat := 0x60084
abbrev MEM_REF_DEBT : Nat := 0x60088
abbrev MEM_ACT_THRESH : Nat := 0x6008C
abbrev MEM_SCRUB_PERIOD : Nat := 0x60090
abbrev MEM_PAUSE : Nat := 0x60094
abbrev MEM_CELLAR_MIN : Nat := 0x60098
abbrev MEM_XB_PRIOt : Nat := 0x60100
abbrev MEM_XB_PARKt : Nat := 0x60120
abbrev SAP_MASK_ACTIVEj : Nat := 0x70010
abbrev SAP_MASK_PENDINGj : Nat := 0x70018
abbrev SAP_EVT : Nat := 0x70040
abbrev SAP_EVT_EN : Nat := 0x70044
abbrev SAP_STAT_SATj : Nat := 0x70060
abbrev SAP_Gg_CFG : Nat := 0x70100
abbrev SAP_Gg_STAT : Nat := 0x70104
abbrev SAP_Gg_RATIO : Nat := 0x70108
abbrev SAP_Gg_LOSSES : Nat := 0x7010C
abbrev SAP_Gg_RELOCKS : Nat := 0x70110
abbrev SAP_Gg_FSYNC_FIXED : Nat := 0x70114
abbrev SAP_Gg_GLITCHES : Nat := 0x70118
abbrev SAP_Pp_CFG : Nat := 0x71000
abbrev SAP_Pp_MASK : Nat := 0x71004
abbrev SAP_Pp_MASKCTL : Nat := 0x71008
abbrev SAP_Pp_FRAMES_LO : Nat := 0x71010
abbrev SAP_Pp_FRAMES_HI : Nat := 0x71014
abbrev SAP_Pp_MASK_MSC_LO : Nat := 0x71018
abbrev SAP_Pp_MASK_MSC_HI : Nat := 0x7101C
abbrev NET_Pn_CFG : Nat := 0x80000
abbrev NET_Pn_STAT : Nat := 0x80004
abbrev NET_Pn_MAC_LO : Nat := 0x80008
abbrev NET_Pn_MAC_HI : Nat := 0x8000C
abbrev NET_Pn_IP : Nat := 0x80010
abbrev NET_Pn_I2C : Nat := 0x80014
abbrev NET_Pn_DROPPED : Nat := 0x80018
abbrev NET_EVT : Nat := 0x80100
abbrev NET_EVT_EN : Nat := 0x80104
abbrev NET_STAT_SAT : Nat := 0x80108
abbrev NET_FL_SEL : Nat := 0x80200
abbrev NET_FL_LATE : Nat := 0x80204
abbrev NET_FL_EARLY : Nat := 0x80208
abbrev NET_FL_DUP : Nat := 0x8020C
abbrev NET_FL_RECOVERED : Nat := 0x80210
abbrev NET_FL_MALFORMED : Nat := 0x80214
abbrev NET_FL_PKTS : Nat := 0x80218
abbrev NET_TRS_CFG : Nat := 0x80300
abbrev NET_TRS_GROUP : Nat := 0x80304
abbrev NET_TRS_ID : Nat := 0x80308
abbrev NET_TRS_REPLY : Nat := 0x8030C
abbrev NET_TRS_REPLY_PORT : Nat := 0x80310
abbrev NET_TRS_VER : Nat := 0x80314
abbrev NET_TRS_BAD : Nat := 0x80318
abbrev NET_TRS_OLD : Nat := 0x8031C
abbrev NET_TRS_DUP : Nat := 0x80320
abbrev NTK_CHAIN_STAT : Nat := 0x90000
abbrev NTK_HOLD : Nat := 0x90004
abbrev NTK_EVT : Nat := 0x90040
abbrev NTK_EVT_EN : Nat := 0x90044
abbrev NTK_MISSING : Nat := 0x90050
abbrev NTK_LATE_CELLS : Nat := 0x90054
abbrev NTK_INCOMPLETE : Nat := 0x90058
abbrev NTK_RING_PROT : Nat := 0x9005C
abbrev NTK_DUP_BLOCKS : Nat := 0x90060
abbrev NTK_EPOCH_SPLITS : Nat := 0x90064
abbrev NTK_STAT_SAT : Nat := 0x90068
abbrev NTK_MEMBERS_j : Nat := 0x90080
abbrev NTK_Pn_STAT : Nat := 0x90100
abbrev NTK_Pn_CFG : Nat := 0x90104
abbrev NTK_Pn_PROP : Nat := 0x90108
abbrev NTK_Pn_CREDITS : Nat := 0x9010C
abbrev NTK_Pn_FREE : Nat := 0x90110
abbrev NTK_Pn_TOTAL : Nat := 0x90114
abbrev NTK_Pn_I2C : Nat := 0x90118
abbrev NTK_Pn_CRC_ERRS : Nat := 0x90120
abbrev NTK_Pn_CREDIT_STALLS : Nat := 0x90124
abbrev NTK_INCOMPLETEj : Nat := 0x90200
abbrev OBJ_CFG : Nat := 0xA0000
abbrev OBJ_JUMP_DIST : Nat := 0xA0004
abbrev OBJ_LK_SEL : Nat := 0xA0010
abbrev OBJ_LK_STAT : Nat := 0xA0014
abbrev OBJ_LK_POS_X : Nat := 0xA0018
abbrev OBJ_LK_POS_Y : Nat := 0xA001C
abbrev OBJ_LK_POS_Z : Nat := 0xA0020
abbrev OBJ_LK_SAT : Nat := 0xA0024
abbrev OBJ_EVT : Nat := 0xA0040
abbrev OBJ_EVT_EN : Nat := 0xA0044
abbrev OBJ_POS_UPDATES : Nat := 0xA0050
abbrev OBJ_POS_LATE : Nat := 0xA0054
abbrev OBJ_JUMPS : Nat := 0xA0058
abbrev OBJ_JUMPS_HELD : Nat := 0xA005C
abbrev OBJ_SAT_TOTAL : Nat := 0xA0060
abbrev OBJ_PREDELAY_ERRS : Nat := 0xA0064
abbrev OBJ_CAP_OVERWRITTEN : Nat := 0xA0068
abbrev OBJ_STAT_SAT : Nat := 0xA006C
abbrev OBJ_CAP_STAT : Nat := 0xA0100
abbrev OBJ_CAP_START_LO : Nat := 0xA0108
abbrev OBJ_CAP_START_HI : Nat := 0xA010C
abbrev OBJ_CAP_FRAMES_LO : Nat := 0xA0110
abbrev OBJ_CAP_FRAMES_HI : Nat := 0xA0114
abbrev OBJ_RPL_STAT : Nat := 0xA0140
abbrev OBJ_RPL_START_LO : Nat := 0xA0148
abbrev OBJ_RPL_START_HI : Nat := 0xA014C
abbrev OBJ_RPL_FILL_LO : Nat := 0xA0150
abbrev OBJ_RPL_FILL_HI : Nat := 0xA0154
abbrev OBJ_RPL_READ_LO : Nat := 0xA0158
abbrev OBJ_RPL_READ_HI : Nat := 0xA015C
abbrev OBJ_STAT_SAT_LKj : Nat := 0xA0200
abbrev GEO_CFG : Nat := 0xB0000
abbrev GEO_NORM_LIMIT : Nat := 0xB0004
abbrev GEO_GAIN_FLOOR : Nat := 0xB0008
abbrev GEO_WAVE_REF : Nat := 0xB000C
abbrev GEO_STAT : Nat := 0xB0010
abbrev GEO_BUDGET_SEEN : Nat := 0xB0014
abbrev GEO_WORK_CORNERS : Nat := 0xB0018
abbrev GEO_WORK_DIRECT : Nat := 0xB001C
abbrev GEO_FRAME_LO : Nat := 0xB0020
abbrev GEO_FRAME_HI : Nat := 0xB0024
abbrev GEO_FADING : Nat := 0xB0028
abbrev GEO_EVT : Nat := 0xB0040
abbrev GEO_EVT_EN : Nat := 0xB0044
abbrev GEO_LATE_FRAMES : Nat := 0xB0050
abbrev GEO_LATE_LOCKERS : Nat := 0xB0054
abbrev GEO_PRUNED : Nat := 0xB0058
abbrev GEO_DELAY_CLAMPS : Nat := 0xB005C
abbrev GEO_NORM_LIMITS : Nat := 0xB0060
abbrev GEO_MEM_ERRS : Nat := 0xB0064
abbrev GEO_OUT_OF_GRID : Nat := 0xB0068
abbrev GEO_STAT_SAT : Nat := 0xB006C
abbrev GEO_LK_SEL : Nat := 0xB0080
abbrev GEO_LK_PATHS : Nat := 0xB0084
abbrev GEO_LK_NORM : Nat := 0xB0088
abbrev GEO_AIRz_STATE : Nat := 0xB0100
abbrev GEO_AIRz_SOUND : Nat := 0xB0104
abbrev PTH_CFG : Nat := 0xC0000
abbrev PTH_DOPPLER : Nat := 0xC0004
abbrev PTH_BUDGET : Nat := 0xC0010
abbrev PTH_BUDGET_NOW : Nat := 0xC0014
abbrev PTH_STAT : Nat := 0xC0018
abbrev PTH_LOAD : Nat := 0xC001C
abbrev PTH_EVT : Nat := 0xC0040
abbrev PTH_EVT_EN : Nat := 0xC0044
abbrev PTH_DOPPLER_CLAMPS : Nat := 0xC0050
abbrev PTH_PATH_SAT : Nat := 0xC0054
abbrev PTH_BUS_SAT : Nat := 0xC0058
abbrev PTH_REC_ERRS : Nat := 0xC005C
abbrev PTH_OVERRUNS : Nat := 0xC0060
abbrev PTH_STAT_SAT : Nat := 0xC0064
abbrev PTH_LK_SEL : Nat := 0xC0080
abbrev PTH_LK_STAT : Nat := 0xC0084
abbrev PTH_LK_LAG : Nat := 0xC0088
abbrev PTH_PROBE_SEL : Nat := 0xC00A0
abbrev PTH_PROBE_DELAY : Nat := 0xC00A4
abbrev PTH_PROBE_GAIN : Nat := 0xC00A8
abbrev PTH_PROBE_TILT : Nat := 0xC00AC
abbrev PTH_PROBE_STAT : Nat := 0xC00B0
abbrev PTH_PROBE_MSC_LO : Nat := 0xC00B8
abbrev PTH_PROBE_MSC_HI : Nat := 0xC00BC
abbrev PTH_BUS_CLIPj : Nat := 0xC0200
abbrev SPK_CFG : Nat := 0xD0000
abbrev SPK_STAT : Nat := 0xD0004
abbrev SPK_FIR_USED : Nat := 0xD0008
abbrev SPK_FIR_POOL : Nat := 0xD000C
abbrev SPK_LOAD : Nat := 0xD0010
abbrev SPK_EVT : Nat := 0xD0040
abbrev SPK_EVT_EN : Nat := 0xD0044
abbrev SPK_MIX_SAT : Nat := 0xD0050
abbrev SPK_EQ_SAT : Nat := 0xD0054
abbrev SPK_PEAK_ONSETS : Nat := 0xD0058
abbrev SPK_THERM_ONSETS : Nat := 0xD005C
abbrev SPK_PILOT_FAULTS : Nat := 0xD0060
abbrev SPK_CELLAR_ERRS : Nat := 0xD0064
abbrev SPK_DELAY_CLAMPS : Nat := 0xD0068
abbrev SPK_STAT_SAT : Nat := 0xD006C
abbrev SPK_FD_SEL : Nat := 0xD0080
abbrev SPK_FD_STAT : Nat := 0xD0084
abbrev SPK_FD_ALIGN : Nat := 0xD0088
abbrev SPK_FD_GR : Nat := 0xD008C
abbrev SPK_FD_PILOT : Nat := 0xD0090
abbrev SPK_PILOT_FAULTj : Nat := 0xD0200
abbrev SPK_CORR_EN : Nat := 0xD0400
abbrev SPK_CORR_ABSENT : Nat := 0xD0404
abbrev SPK_CORR_RAMPING : Nat := 0xD0408
abbrev SPK_CORR_SAT : Nat := 0xD040C
abbrev SPK_CORR_STBY_LO : Nat := 0xD0410
abbrev SPK_CORR_STBY_HI : Nat := 0xD0414
abbrev SPK_OVR_CFG : Nat := 0xD0480
abbrev SPK_OVR_GAIN : Nat := 0xD0484
abbrev SPK_MUTE_CFG : Nat := 0xD0488
abbrev SPK_OVR_CMD : Nat := 0xD048C
abbrev SPK_OVR_STAT : Nat := 0xD0490
abbrev SPK_OVR_EVT : Nat := 0xD0494
abbrev SPK_OVR_EVT_EN : Nat := 0xD0498
abbrev SPK_OVR_COUNT : Nat := 0xD04A0
abbrev SPK_MUTE_COUNT : Nat := 0xD04A4
abbrev SPK_OVR_STAT_SAT : Nat := 0xD04A8
abbrev SPK_OVR_K0_LO : Nat := 0xD04B0
abbrev SPK_OVR_K0_HI : Nat := 0xD04B4
abbrev DSK_SCH_EVT : Nat := 0xE0040
abbrev DSK_SCH_EVT_EN : Nat := 0xE0044
abbrev DSK_SCH_DRY : Nat := 0xE0050
abbrev DSK_SCH_MISSED : Nat := 0xE0054
abbrev DSK_SCH_HOLDS : Nat := 0xE0058
abbrev DSK_SCH_DISPATCHES : Nat := 0xE005C
abbrev DSK_SCH_STAT_SAT : Nat := 0xE0060
abbrev DSK_EVT_POSTED_LO : Nat := 0xE0080
abbrev DSK_EVT_POSTED_HI : Nat := 0xE0084
abbrev DSK_EVT_CONSUMED_LO : Nat := 0xE0088
abbrev DSK_EVT_CONSUMED_HI : Nat := 0xE008C
abbrev DSK_EVT_RETURNED_LO : Nat := 0xE0090
abbrev DSK_EVT_RETURNED_HI : Nat := 0xE0094
abbrev DSK_EVT_PENDING_LO : Nat := 0xE0098
abbrev DSK_EVT_PENDING_HI : Nat := 0xE009C
abbrev DSK_RL_0_p : Nat := 0xE0100
abbrev DSK_RL_1_p : Nat := 0xE0120
abbrev DSK_RL_2_p : Nat := 0xE0140
abbrev DSK_RL_3_p : Nat := 0xE0160
abbrev DSK_TASK_SEL : Nat := 0xE0200
abbrev DSK_TASK_STAT : Nat := 0xE0204
abbrev DSK_TASK_PENDING : Nat := 0xE0208
abbrev DSK_TASK_WAIT : Nat := 0xE0220
abbrev DSK_TASK_DRY : Nat := 0xE0224
abbrev DSK_TASK_RUNS : Nat := 0xE0228
abbrev DSK_DESK_EVT : Nat := 0xE3F00
abbrev DSK_DESK_EVT_EN : Nat := 0xE3F04
abbrev DSK_DESK_STAT_SAT : Nat := 0xE3F08
abbrev DSK_RET_MISSING : Nat := 0xE3F10
abbrev DSK_Dn_CFG : Nat := 0xE4000
abbrev DSK_Dn_CTL : Nat := 0xE4004
abbrev DSK_Dn_STAT : Nat := 0xE4008
abbrev DSK_Dn_PC : Nat := 0xE400C
abbrev DSK_Dn_BRK0 : Nat := 0xE4010
abbrev DSK_Dn_BRK1 : Nat := 0xE4014
abbrev DSK_Dn_BRK2 : Nat := 0xE4018
abbrev DSK_Dn_BRK3 : Nat := 0xE401C
abbrev DSK_Dn_DBG_SEL : Nat := 0xE4020
abbrev DSK_Dn_DBG_DATA : Nat := 0xE4024
abbrev DSK_Dn_CYCLES : Nat := 0xE402C
abbrev DSK_Dn_SPILL_BASE_LO : Nat := 0xE4030
abbrev DSK_Dn_SPILL_BASE_HI : Nat := 0xE4034
abbrev DSK_Dn_SPILL_SIZE : Nat := 0xE4038
abbrev DSK_Dn_RUN_LIMIT : Nat := 0xE403C
abbrev DSK_Dn_SAT : Nat := 0xE4040
abbrev DSK_Dn_FAULTS : Nat := 0xE4044
abbrev DSK_Dn_STOPS : Nat := 0xE4048
abbrev DSK_Dn_SIG_STALLS : Nat := 0xE404C
abbrev DSK_Dn_SPILL_ERRS : Nat := 0xE4050
abbrev DSK_Dn_LOAD : Nat := 0xE4054
abbrev SDAC_CFG : Nat := 0xF0000
abbrev SDAC_EVT : Nat := 0xF0040
abbrev SDAC_EVT_EN : Nat := 0xF0044
abbrev SDAC_ILIM : Nat := 0xF0048
abbrev SDAC_CLIPS : Nat := 0xF0050
abbrev SDAC_ILIM_EVENTS : Nat := 0xF0054
abbrev SDAC_STAT_SAT : Nat := 0xF005C
abbrev SDAC_CHn_STAT : Nat := 0xF0100
abbrev SDAC_CHn_HOLD : Nat := 0xF0104
end Reg

/-- A register, or an array of registers `stride` apart (R9, R10). -/
structure RegRow where
  off    : Nat
  stride : Nat
  count  : Nat
  reset  : Nat
  rw     : Nat
  w1c    : Nat
  rws    : Bool
deriving DecidableEq, Repr, Inhabited

/-- The registers of block 0. -/
def regRowsSys : List RegRow := [
  ⟨0x00000, 0x0, 1, 0x4A476410, 0x0, 0x0, false⟩,
  ⟨0x00004, 0x0, 1, 0xB0, 0x0, 0x0, false⟩,
  ⟨0x00008, 0x0, 1, 0x21212010, 0x0, 0x0, false⟩,
  ⟨0x00010, 0x0, 1, 0x0, 0x0, 0x0, false⟩,
  ⟨0x00014, 0x0, 1, 0x0, 0xFFFFFFFF, 0x0, true⟩,
  ⟨0x00020, 0x0, 1, 0x0, 0x0, 0x0, false⟩,
  ⟨0x00024, 0x0, 1, 0x0, 0x0, 0x0, false⟩,
  ⟨0x00028, 0x0, 1, 0x0, 0x0, 0x0, false⟩,
  ⟨0x00040, 0x0, 1, 0x0, 0x0, 0x1, false⟩,
  ⟨0x00044, 0x0, 1, 0x1, 0x1, 0x0, false⟩,
  ⟨0x00400, 0x0, 1, 0x0, 0x7FF, 0x0, false⟩,
  ⟨0x00404, 0x0, 1, 0x0, 0x0, 0x0, false⟩,
  ⟨0x00408, 0x0, 1, 0x0, 0x0, 0x0, false⟩,
  ⟨0x0040C, 0x0, 1, 0x0, 0x0, 0x0, false⟩,
  ⟨0x00410, 0x0, 1, 0x0, 0x0, 0x0, false⟩,
  ⟨0x00414, 0x0, 1, 0x0, 0x0, 0x0, false⟩,
  ⟨0x00418, 0x0, 1, 0x0, 0x0, 0x0, false⟩,
  ⟨0x0041C, 0x0, 1, 0x0, 0x0, 0x0, false⟩,
  ⟨0x00420, 0x0, 1, 0x0, 0x0, 0x0, false⟩,
  ⟨0x00424, 0x0, 1, 0x0, 0x0, 0x0, false⟩,
  ⟨0x00428, 0x0, 1, 0x0, 0x0, 0x0, false⟩,
  ⟨0x0042C, 0x0, 1, 0x0, 0x0, 0x0, false⟩,
  ⟨0x00430, 0x0, 1, 0x0, 0x0, 0x0, false⟩,
  ⟨0x00434, 0x0, 1, 0x0, 0x0, 0x0, false⟩,
  ⟨0x00440, 0x0, 1, 0x0, 0x0, 0x1F, false⟩,
  ⟨0x00444, 0x0, 1, 0xC, 0x1F, 0x0, false⟩,
  ⟨0x00448, 0x0, 1, 0x0, 0x0, 0x0, false⟩,
  ⟨0x0044C, 0x0, 1, 0x0, 0x0, 0x0, false⟩,
  ⟨0x00450, 0x0, 1, 0x0, 0x0, 0x1, false⟩,
  ⟨0x00500, 0x4, 48, 0x0, 0x0, 0xFFFFFFFF, false⟩]

/-- The registers of block 1. -/
def regRowsPwr : List RegRow := [
  ⟨0x10000, 0x0, 1, 0x1E00, 0xFF01, 0x0, false⟩,
  ⟨0x10004, 0x0, 1, 0x0, 0x0, 0x0, false⟩,
  ⟨0x10008, 0x0, 1, 0x0, 0x0, 0x0, false⟩,
  ⟨0x1000C, 0x0, 1, 0x0, 0x0, 0x0, false⟩,
  ⟨0x10010, 0x0, 1, 0x0, 0x0, 0x0, false⟩,
  ⟨0x10020, 0x0, 1, 0x0, 0x0, 0x0, false⟩,
  ⟨0x10040, 0x0, 1, 0x0, 0x0, 0xFF, false⟩,
  ⟨0x10044, 0x0, 1, 0xFF, 0xFF, 0x0, false⟩,
  ⟨0x10050, 0x0, 1, 0x0, 0x0, 0x0, false⟩,
  ⟨0x10054, 0x0, 1, 0x0, 0x0, 0x0, false⟩,
  ⟨0x10058, 0x0, 1, 0x0, 0x0, 0x0, false⟩,
  ⟨0x1005C, 0x0, 1, 0x0, 0x0, 0x0, false⟩,
  ⟨0x10060, 0x0, 1, 0x0, 0x0, 0xF, false⟩,
  ⟨0x10080, 0x4, 12, 0x0, 0xFFFFFFFF, 0x0, false⟩,
  ⟨0x100B0, 0x0, 1, 0x0, 0x0, 0x0, false⟩,
  ⟨0x100B4, 0x0, 1, 0x0, 0x0, 0x0, false⟩,
  ⟨0x10100, 0x0, 1, 0x0, 0x7FF, 0x0, false⟩,
  ⟨0x10104, 0x0, 1, 0x505050, 0xFFFFFF, 0x0, false⟩,
  ⟨0x10108, 0x0, 1, 0x0, 0xFFFFFFFF, 0x0, false⟩,
  ⟨0x1010C, 0x0, 1, 0x0, 0xFFFF, 0x0, false⟩,
  ⟨0x10110, 0x0, 1, 0x0, 0x0, 0x0, false⟩]

/-- The registers of block 2. -/
def regRowsTmb : List RegRow := [
  ⟨0x20000, 0x0, 1, 0x48, 0x3FF, 0x0, false⟩,
  ⟨0x20004, 0x0, 1, 0x0, 0x0, 0x0, false⟩,
  ⟨0x20008, 0x0, 1, 0x7D0, 0xFFFFFFFF, 0x0, false⟩,
  ⟨0x2000C, 0x0, 1, 0x0, 0x0, 0x0, false⟩,
  ⟨0x20010, 0x0, 1, 0x0, 0x0, 0x0, false⟩,
  ⟨0x20014, 0x0, 1, 0x0, 0x0, 0x0, false⟩,
  ⟨0x20018, 0x0, 1, 0x0, 0xFFFFFFFF, 0x0, false⟩,
  ⟨0x2001C, 0x0, 1, 0x0, 0xFFFFFFFF, 0x0, false⟩,
  ⟨0x20020, 0x0, 1, 0x0, 0x0, 0x0, false⟩,
  ⟨0x20024, 0x0, 1, 0x0, 0x0, 0x0, false⟩,
  ⟨0x20028, 0x0, 1, 0x8, 0x7F, 0x0, false⟩,
  ⟨0x20030, 0x0, 1, 0x0, 0x0, 0x0, false⟩,
  ⟨0x20034, 0x0, 1, 0x0, 0x0, 0x0, false⟩,
  ⟨0x20038, 0x0, 1, 0x0, 0x0, 0x0, false⟩,
  ⟨0x20040, 0x10, 4, 0x0, 0x0, 0x0, false⟩,
  ⟨0x20044, 0x10, 4, 0x0, 0x0, 0x0, false⟩,
  ⟨0x20048, 0x10, 4, 0x0, 0x0, 0x0, false⟩,
  ⟨0x20080, 0x0, 1, 0x3204, 0xFFFF, 0x0, false⟩,
  ⟨0x20090, 0x4, 2, 0x0, 0x0, 0x0, false⟩,
  ⟨0x20098, 0x4, 2, 0x0, 0x0, 0x0, false⟩,
  ⟨0x200A0, 0x4, 2, 0x0, 0x0, 0x0, false⟩,
  ⟨0x200C0, 0x0, 1, 0x0, 0x0, 0x3FF, false⟩,
  ⟨0x200C4, 0x0, 1, 0x3E, 0x3FF, 0x0, false⟩,
  ⟨0x200C8, 0x0, 1, 0x0, 0x0, 0xFFF, false⟩,
  ⟨0x20100, 0x40, 4, 0x10, 0x77FFF, 0x0, false⟩,
  ⟨0x20104, 0x40, 4, 0x0, 0x0, 0x0, false⟩,
  ⟨0x20108, 0x40, 4, 0x0, 0x0, 0x0, false⟩,
  ⟨0x2010C, 0x40, 4, 0x0, 0xFFFFFFFF, 0x0, false⟩,
  ⟨0x20110, 0x40, 4, 0x80FEF880, 0xFFFFFFFF, 0x0, false⟩,
  ⟨0x20114, 0x40, 4, 0x0, 0x8000FFFF, 0x0, false⟩,
  ⟨0x20118, 0x40, 4, 0x0, 0xFFFFFFFF, 0x0, false⟩,
  ⟨0x2011C, 0x40, 4, 0x0, 0xFFFFFFFF, 0x0, false⟩,
  ⟨0x20120, 0x40, 4, 0x0, 0x0, 0x0, false⟩,
  ⟨0x20124, 0x40, 4, 0x0, 0x0, 0x0, false⟩,
  ⟨0x20128, 0x40, 4, 0x0, 0x0, 0x0, false⟩,
  ⟨0x2012C, 0x40, 4, 0x0, 0x0, 0x0, false⟩,
  ⟨0x20130, 0x40, 4, 0x0, 0x0, 0x0, false⟩,
  ⟨0x20134, 0x40, 4, 0x0, 0x0, 0x0, false⟩]

/-- The registers of block 3. -/
def regRowsTt : List RegRow := [
  ⟨0x30000, 0x0, 1, 0x26408, 0x3FF7F, 0x0, false⟩,
  ⟨0x30004, 0x0, 1, 0x8000000, 0x0, 0x0, false⟩,
  ⟨0x30008, 0x0, 1, 0x0, 0x0, 0xFF, false⟩,
  ⟨0x3000C, 0x0, 1, 0xBE, 0xFF, 0x0, false⟩,
  ⟨0x30010, 0x0, 1, 0x0, 0x0, 0x0, false⟩,
  ⟨0x30014, 0x0, 1, 0x0, 0x0, 0x0, false⟩,
  ⟨0x30018, 0x0, 1, 0x0, 0x0, 0x0, false⟩,
  ⟨0x3001C, 0x0, 1, 0x0, 0x0, 0x0, false⟩,
  ⟨0x30020, 0x0, 1, 0x0, 0x0, 0x0, false⟩,
  ⟨0x30024, 0x0, 1, 0x0, 0x0, 0x1F, false⟩,
  ⟨0x30030, 0x0, 1, 0xFFFFFFFF, 0x0, 0x0, false⟩,
  ⟨0x30034, 0x0, 1, 0xFFFFFFFF, 0x0, 0x0, false⟩,
  ⟨0x30038, 0x0, 1, 0x0, 0x0, 0x0, false⟩,
  ⟨0x3003C, 0x0, 1, 0x0, 0x0, 0x0, false⟩,
  ⟨0x30100, 0x4, 9, 0x0, 0x0, 0x0, false⟩,
  ⟨0x30140, 0x4, 9, 0x0, 0x0, 0x0, false⟩]

/-- The registers of block 4. -/
def regRowsHq : List RegRow := [
  ⟨0x40000, 0x0, 1, 0x211, 0x0, 0x0, false⟩,
  ⟨0x40004, 0x0, 1, 0x0, 0x0, 0x0, false⟩,
  ⟨0x40040, 0x0, 1, 0x0, 0x0, 0xFF, false⟩,
  ⟨0x40044, 0x0, 1, 0xF6, 0xFF, 0x0, false⟩,
  ⟨0x40050, 0x0, 1, 0x3E80000, 0xFFFF0003, 0x0, false⟩,
  ⟨0x40054, 0x0, 1, 0x0, 0x0, 0x0, false⟩,
  ⟨0x40060, 0x0, 1, 0x0, 0x0, 0x0, false⟩,
  ⟨0x40064, 0x0, 1, 0x0, 0x0, 0x0, false⟩,
  ⟨0x40068, 0x0, 1, 0x0, 0x0, 0x0, false⟩,
  ⟨0x4006C, 0x0, 1, 0x0, 0x0, 0x0, false⟩,
  ⟨0x40070, 0x0, 1, 0x0, 0x0, 0x0, false⟩,
  ⟨0x40074, 0x0, 1, 0x0, 0x0, 0x0, false⟩,
  ⟨0x40078, 0x0, 1, 0x0, 0x0, 0x3F, false⟩,
  ⟨0x40080, 0x0, 1, 0x14D, 0x0, 0x0, false⟩,
  ⟨0x41000, 0x40, 16, 0x40, 0xF7, 0x0, false⟩,
  ⟨0x41004, 0x40, 16, 0x0, 0xFFFFFFFF, 0x0, false⟩,
  ⟨0x41008, 0x40, 16, 0x0, 0xFFFFFFFF, 0x0, false⟩,
  ⟨0x4100C, 0x40, 16, 0x0, 0xFFFFFFFF, 0x0, false⟩,
  ⟨0x41010, 0x40, 16, 0x0, 0xFFFFFFFF, 0x0, false⟩,
  ⟨0x41014, 0x40, 16, 0x10004, 0x0, 0x0, false⟩,
  ⟨0x41018, 0x40, 16, 0x0, 0x0, 0x0, false⟩,
  ⟨0x4101C, 0x40, 16, 0x0, 0x0, 0x0, false⟩,
  ⟨0x41020, 0x40, 16, 0x0, 0x0, 0x0, false⟩,
  ⟨0x41024, 0x40, 16, 0x0, 0x0, 0x0, false⟩,
  ⟨0x41028, 0x40, 16, 0x1, 0x3FFFFFF, 0x0, false⟩,
  ⟨0x4102C, 0x40, 16, 0x0, 0x0, 0x0, false⟩,
  ⟨0x41030, 0x40, 16, 0x0, 0x0, 0x0, false⟩,
  ⟨0x41034, 0x40, 16, 0x0, 0x0, 0x0, false⟩]

/-- The registers of block 5. -/
def regRowsDma : List RegRow := [
  ⟨0x50000, 0x0, 1, 0x0, 0x1, 0x0, false⟩,
  ⟨0x50040, 0x0, 1, 0x0, 0x0, 0xFFFFFFFF, false⟩,
  ⟨0x50044, 0x0, 1, 0xFFFFFFFF, 0xFFFFFFFF, 0x0, false⟩,
  ⟨0x50048, 0x0, 1, 0x0, 0x0, 0x7, false⟩,
  ⟨0x5004C, 0x0, 1, 0x7, 0x7, 0x0, false⟩,
  ⟨0x50050, 0x0, 1, 0x0, 0x0, 0x0, false⟩,
  ⟨0x50054, 0x0, 1, 0x0, 0x0, 0x0, false⟩,
  ⟨0x50058, 0x0, 1, 0x0, 0x0, 0x0, false⟩,
  ⟨0x5005C, 0x0, 1, 0x0, 0x0, 0x0, false⟩,
  ⟨0x50060, 0x0, 1, 0x0, 0x0, 0xF, false⟩,
  ⟨0x51000, 0x40, 32, 0x0, 0x3, 0x0, false⟩,
  ⟨0x51004, 0x40, 32, 0x0, 0x0, 0x0, false⟩,
  ⟨0x51008, 0x40, 32, 0x0, 0x0, 0x0, false⟩,
  ⟨0x5100C, 0x40, 32, 0x0, 0x0, 0x0, false⟩,
  ⟨0x51010, 0x40, 32, 0x0, 0x0, 0x0, false⟩,
  ⟨0x51014, 0x40, 32, 0x0, 0xFFFFFFFF, 0x0, false⟩,
  ⟨0x51018, 0x40, 32, 0x0, 0xFFFFFFFF, 0x0, false⟩,
  ⟨0x5101C, 0x40, 32, 0x0, 0x3, 0x0, false⟩,
  ⟨0x51020, 0x40, 32, 0x0, 0xFFFFFFFF, 0x0, false⟩,
  ⟨0x51024, 0x40, 32, 0x0, 0xFFFFFFFF, 0x0, false⟩,
  ⟨0x51028, 0x40, 32, 0x0, 0x0, 0x0, false⟩,
  ⟨0x51030, 0x40, 32, 0x0, 0x0, 0x0, false⟩,
  ⟨0x51034, 0x40, 32, 0x0, 0x0, 0x0, false⟩,
  ⟨0x51038, 0x40, 32, 0x0, 0x0, 0x0, false⟩]

/-- The registers of block 6. -/
def regRowsMem : List RegRow := [
  ⟨0x60000, 0x0, 1, 0x103C03, 0xFFFFFF03, 0x0, false⟩,
  ⟨0x60004, 0x0, 1, 0x0, 0x0, 0x0, false⟩,
  ⟨0x60040, 0x0, 1, 0x0, 0x0, 0x3FF, false⟩,
  ⟨0x60044, 0x0, 1, 0x39E, 0x3FF, 0x0, false⟩,
  ⟨0x60050, 0x0, 1, 0x0, 0x0, 0x0, false⟩,
  ⟨0x60054, 0x0, 1, 0x0, 0x0, 0x0, false⟩,
  ⟨0x60058, 0x0, 1, 0x0, 0x0, 0x0, false⟩,
  ⟨0x6005C, 0x0, 1, 0x0, 0x0, 0x0, false⟩,
  ⟨0x60060, 0x0, 1, 0x0, 0x0, 0x0, false⟩,
  ⟨0x60064, 0x0, 1, 0x0, 0x0, 0x0, false⟩,
  ⟨0x60068, 0x0, 1, 0x0, 0x0, 0x0, false⟩,
  ⟨0x6006C, 0x0, 1, 0x0, 0x0, 0x0, false⟩,
  ⟨0x60070, 0x0, 1, 0x0, 0x0, 0x0, false⟩,
  ⟨0x60074, 0x0, 1, 0x0, 0x0, 0x0, false⟩,
  ⟨0x60078, 0x0, 1, 0x0, 0x0, 0x3FF, false⟩,
  ⟨0x60080, 0x0, 1, 0x0, 0x0, 0x0, false⟩,
  ⟨0x60084, 0x0, 1, 0x0, 0x0, 0x0, false⟩,
  ⟨0x60088, 0x0, 1, 0x0, 0x0, 0x0, false⟩,
  ⟨0x6008C, 0x0, 1, 0x7D0, 0x3FFF, 0x0, false⟩,
  ⟨0x60090, 0x0, 1, 0x18, 0xFF, 0x0, false⟩,
  ⟨0x60094, 0x0, 1, 0x0, 0x0, 0x0, false⟩,
  ⟨0x60098, 0x0, 1, 0xC0, 0x0, 0x0, false⟩,
  ⟨0x60100, 0x4, 5, 0x16448ACF, 0xFFFFFFFF, 0x0, false⟩,
  ⟨0x60120, 0x4, 5, 0x1000010, 0xFFFF07FF, 0x0, false⟩]

/-- The registers of block 7. -/
def regRowsSap : List RegRow := [
  ⟨0x70010, 0x4, 2, 0x0, 0x0, 0x0, false⟩,
  ⟨0x70018, 0x4, 2, 0x0, 0x0, 0x0, false⟩,
  ⟨0x70040, 0x0, 1, 0x0, 0x0, 0x7F, false⟩,
  ⟨0x70044, 0x0, 1, 0x73, 0x7F, 0x0, false⟩,
  ⟨0x70060, 0x4, 2, 0x0, 0x0, 0xFFFFFFFF, false⟩,
  ⟨0x70100, 0x20, 16, 0x10220, 0x7FFFF, 0x0, false⟩,
  ⟨0x70104, 0x20, 16, 0x0, 0x0, 0x0, false⟩,
  ⟨0x70108, 0x20, 16, 0x0, 0x0, 0x0, false⟩,
  ⟨0x7010C, 0x20, 16, 0x0, 0x0, 0x0, false⟩,
  ⟨0x70110, 0x20, 16, 0x0, 0x0, 0x0, false⟩,
  ⟨0x70114, 0x20, 16, 0x0, 0x0, 0x0, false⟩,
  ⟨0x70118, 0x20, 16, 0x0, 0x0, 0x0, false⟩,
  ⟨0x71000, 0x40, 64, 0x0, 0xF, 0x0, false⟩,
  ⟨0x71004, 0x40, 64, 0xFF, 0xFFFFFFFF, 0x0, false⟩,
  ⟨0x71008, 0x40, 64, 0x0, 0x1, 0x0, false⟩,
  ⟨0x71010, 0x40, 64, 0x0, 0x0, 0x0, false⟩,
  ⟨0x71014, 0x40, 64, 0x0, 0x0, 0x0, false⟩,
  ⟨0x71018, 0x40, 64, 0x0, 0x0, 0x0, false⟩,
  ⟨0x7101C, 0x40, 64, 0x0, 0x0, 0x0, false⟩]

/-- The registers of block 8. -/
def regRowsNet : List RegRow := [
  ⟨0x80000, 0x40, 2, 0xC, 0xF, 0x0, false⟩,
  ⟨0x80004, 0x40, 2, 0x0, 0x0, 0x0, false⟩,
  ⟨0x80008, 0x40, 2, 0x0, 0xFFFFFFFF, 0x0, false⟩,
  ⟨0x8000C, 0x40, 2, 0x0, 0xFFFF, 0x0, false⟩,
  ⟨0x80010, 0x40, 2, 0x0, 0xFFFFFFFF, 0x0, false⟩,
  ⟨0x80014, 0x40, 2, 0x0, 0x7FFFFFF, 0x0, false⟩,
  ⟨0x80018, 0x40, 2, 0x0, 0x0, 0x0, false⟩,
  ⟨0x80100, 0x0, 1, 0x0, 0x0, 0x3F, false⟩,
  ⟨0x80104, 0x0, 1, 0x3B, 0x3F, 0x0, false⟩,
  ⟨0x80108, 0x0, 1, 0x0, 0x0, 0x7FF, false⟩,
  ⟨0x80200, 0x0, 1, 0x0, 0x1FF, 0x0, false⟩,
  ⟨0x80204, 0x0, 1, 0x0, 0x0, 0x0, false⟩,
  ⟨0x80208, 0x0, 1, 0x0, 0x0, 0x0, false⟩,
  ⟨0x8020C, 0x0, 1, 0x0, 0x0, 0x0, false⟩,
  ⟨0x80210, 0x0, 1, 0x0, 0x0, 0x0, false⟩,
  ⟨0x80214, 0x0, 1, 0x0, 0x0, 0x0, false⟩,
  ⟨0x80218, 0x0, 1, 0x0, 0x0, 0x0, false⟩,
  ⟨0x80300, 0x0, 1, 0x210, 0xFFFF0FF7, 0x0, false⟩,
  ⟨0x80304, 0x0, 1, 0x0, 0xFFFFFFFF, 0x0, false⟩,
  ⟨0x80308, 0x0, 1, 0x0, 0xFFFFFFFF, 0x0, false⟩,
  ⟨0x8030C, 0x0, 1, 0x0, 0xFFFFFFFF, 0x0, false⟩,
  ⟨0x80310, 0x0, 1, 0x0, 0xFFFF, 0x0, false⟩,
  ⟨0x80314, 0x0, 1, 0x0, 0x0, 0x0, false⟩,
  ⟨0x80318, 0x0, 1, 0x0, 0x0, 0x0, false⟩,
  ⟨0x8031C, 0x0, 1, 0x0, 0x0, 0x0, false⟩,
  ⟨0x80320, 0x0, 1, 0x0, 0x0, 0x0, false⟩]

/-- The registers of block 9. -/
def regRowsNtk : List RegRow := [
  ⟨0x90000, 0x0, 1, 0xFF00, 0x0, 0x0, false⟩,
  ⟨0x90004, 0x0, 1, 0x0, 0x0, 0x0, false⟩,
  ⟨0x90040, 0x0, 1, 0x0, 0x0, 0xFF, false⟩,
  ⟨0x90044, 0x0, 1, 0xDF, 0xFF, 0x0, false⟩,
  ⟨0x90050, 0x0, 1, 0x0, 0x0, 0x0, false⟩,
  ⟨0x90054, 0x0, 1, 0x0, 0x0, 0x0, false⟩,
  ⟨0x90058, 0x0, 1, 0x0, 0x0, 0x0, false⟩,
  ⟨0x9005C, 0x0, 1, 0x0, 0x0, 0x0, false⟩,
  ⟨0x90060, 0x0, 1, 0x0, 0x0, 0x0, false⟩,
  ⟨0x90064, 0x0, 1, 0x0, 0x0, 0x0, false⟩,
  ⟨0x90068, 0x0, 1, 0x0, 0x0, 0x3FF, false⟩,
  ⟨0x90080, 0x4, 8, 0x0, 0x0, 0x0, false⟩,
  ⟨0x90100, 0x40, 2, 0x0, 0x0, 0x0, false⟩,
  ⟨0x90104, 0x40, 2, 0x0, 0x1, 0x0, false⟩,
  ⟨0x90108, 0x40, 2, 0x0, 0x0, 0x0, false⟩,
  ⟨0x9010C, 0x40, 2, 0x0, 0x0, 0x0, false⟩,
  ⟨0x90110, 0x40, 2, 0x0, 0x0, 0x0, false⟩,
  ⟨0x90114, 0x40, 2, 0x0, 0x0, 0x0, false⟩,
  ⟨0x90118, 0x40, 2, 0x0, 0x7FFFFFF, 0x0, false⟩,
  ⟨0x90120, 0x40, 2, 0x0, 0x0, 0x0, false⟩,
  ⟨0x90124, 0x40, 2, 0x0, 0x0, 0x0, false⟩,
  ⟨0x90200, 0x4, 16, 0x0, 0x0, 0xFFFFFFFF, false⟩]

/-- The registers of block 10. -/
def regRowsObj : List RegRow := [
  ⟨0xA0000, 0x0, 1, 0x4, 0x3F, 0x0, false⟩,
  ⟨0xA0004, 0x0, 1, 0x10000, 0xFFFFFFFF, 0x0, false⟩,
  ⟨0xA0010, 0x0, 1, 0x0, 0x3FF, 0x0, false⟩,
  ⟨0xA0014, 0x0, 1, 0x4000, 0x0, 0x0, false⟩,
  ⟨0xA0018, 0x0, 1, 0x0, 0x0, 0x0, false⟩,
  ⟨0xA001C, 0x0, 1, 0x0, 0x0, 0x0, false⟩,
  ⟨0xA0020, 0x0, 1, 0x0, 0x0, 0x0, false⟩,
  ⟨0xA0024, 0x0, 1, 0x0, 0x0, 0x0, false⟩,
  ⟨0xA0040, 0x0, 1, 0x0, 0x0, 0xFF, false⟩,
  ⟨0xA0044, 0x0, 1, 0xF8, 0xFF, 0x0, false⟩,
  ⟨0xA0050, 0x0, 1, 0x0, 0x0, 0x0, false⟩,
  ⟨0xA0054, 0x0, 1, 0x0, 0x0, 0x0, false⟩,
  ⟨0xA0058, 0x0, 1, 0x0, 0x0, 0x0, false⟩,
  ⟨0xA005C, 0x0, 1, 0x0, 0x0, 0x0, false⟩,
  ⟨0xA0060, 0x0, 1, 0x0, 0x0, 0x0, false⟩,
  ⟨0xA0064, 0x0, 1, 0x0, 0x0, 0x0, false⟩,
  ⟨0xA0068, 0x0, 1, 0x0, 0x0, 0x0, false⟩,
  ⟨0xA006C, 0x0, 1, 0x0, 0x0, 0x7F, false⟩,
  ⟨0xA0100, 0x0, 1, 0x0, 0x0, 0x0, false⟩,
  ⟨0xA0108, 0x0, 1, 0x0, 0x0, 0x0, false⟩,
  ⟨0xA010C, 0x0, 1, 0x0, 0x0, 0x0, false⟩,
  ⟨0xA0110, 0x0, 1, 0x0, 0x0, 0x0, false⟩,
  ⟨0xA0114, 0x0, 1, 0x0, 0x0, 0x0, false⟩,
  ⟨0xA0140, 0x0, 1, 0x0, 0x0, 0x0, false⟩,
  ⟨0xA0148, 0x0, 1, 0x0, 0x0, 0x0, false⟩,
  ⟨0xA014C, 0x0, 1, 0x0, 0x0, 0x0, false⟩,
  ⟨0xA0150, 0x0, 1, 0x0, 0x0, 0x0, false⟩,
  ⟨0xA0154, 0x0, 1, 0x0, 0x0, 0x0, false⟩,
  ⟨0xA0158, 0x0, 1, 0x0, 0x0, 0x0, false⟩,
  ⟨0xA015C, 0x0, 1, 0x0, 0x0, 0x0, false⟩,
  ⟨0xA0200, 0x4, 32, 0x0, 0x0, 0xFFFFFFFF, false⟩]

/-- The registers of block 11. -/
def regRowsGeo : List RegRow := [
  ⟨0xB0000, 0x0, 1, 0x1081, 0xFFF1, 0x0, false⟩,
  ⟨0xB0004, 0x0, 1, 0x64007E0, 0xFFFFFFFF, 0x0, false⟩,
  ⟨0xB0008, 0x0, 1, 0x1E0, 0xFFFF, 0x0, false⟩,
  ⟨0xB000C, 0x0, 1, 0x400000, 0xFFFFFFFF, 0x0, false⟩,
  ⟨0xB0010, 0x0, 1, 0x0, 0x0, 0x0, false⟩,
  ⟨0xB0014, 0x0, 1, 0x0, 0x0, 0x0, false⟩,
  ⟨0xB0018, 0x0, 1, 0x0, 0x0, 0x0, false⟩,
  ⟨0xB001C, 0x0, 1, 0x0, 0x0, 0x0, false⟩,
  ⟨0xB0020, 0x0, 1, 0x0, 0x0, 0x0, false⟩,
  ⟨0xB0024, 0x0, 1, 0x0, 0x0, 0x0, false⟩,
  ⟨0xB0028, 0x0, 1, 0x0, 0x0, 0x0, false⟩,
  ⟨0xB0040, 0x0, 1, 0x0, 0x0, 0xFF, false⟩,
  ⟨0xB0044, 0x0, 1, 0xE3, 0xFF, 0x0, false⟩,
  ⟨0xB0050, 0x0, 1, 0x0, 0x0, 0x0, false⟩,
  ⟨0xB0054, 0x0, 1, 0x0, 0x0, 0x0, false⟩,
  ⟨0xB0058, 0x0, 1, 0x0, 0x0, 0x0, false⟩,
  ⟨0xB005C, 0x0, 1, 0x0, 0x0, 0x0, false⟩,
  ⟨0xB0060, 0x0, 1, 0x0, 0x0, 0x0, false⟩,
  ⟨0xB0064, 0x0, 1, 0x0, 0x0, 0x0, false⟩,
  ⟨0xB0068, 0x0, 1, 0x0, 0x0, 0x0, false⟩,
  ⟨0xB006C, 0x0, 1, 0x0, 0x0, 0x7F, false⟩,
  ⟨0xB0080, 0x0, 1, 0x0, 0x3FF, 0x0, false⟩,
  ⟨0xB0084, 0x0, 1, 0x0, 0x0, 0x0, false⟩,
  ⟨0xB0088, 0x0, 1, 0x0, 0x0, 0x0, false⟩,
  ⟨0xB0100, 0x8, 8, 0x32001400, 0x0, 0x0, false⟩,
  ⟨0xB0104, 0x8, 8, 0x0, 0x0, 0x0, false⟩]

/-- The registers of block 12. -/
def regRowsPth : List RegRow := [
  ⟨0xC0000, 0x0, 1, 0x1, 0x1, 0x0, false⟩,
  ⟨0xC0004, 0x0, 1, 0x8000, 0x1FFFF, 0x0, false⟩,
  ⟨0xC0010, 0x0, 1, 0x80000, 0xFFFFF, 0x0, false⟩,
  ⟨0xC0014, 0x0, 1, 0x0, 0x0, 0x0, false⟩,
  ⟨0xC0018, 0x0, 1, 0x0, 0x0, 0x0, false⟩,
  ⟨0xC001C, 0x0, 1, 0x0, 0x0, 0x0, false⟩,
  ⟨0xC0040, 0x0, 1, 0x0, 0x0, 0x3F, false⟩,
  ⟨0xC0044, 0x0, 1, 0x3C, 0x3F, 0x0, false⟩,
  ⟨0xC0050, 0x0, 1, 0x0, 0x0, 0x0, false⟩,
  ⟨0xC0054, 0x0, 1, 0x0, 0x0, 0x0, false⟩,
  ⟨0xC0058, 0x0, 1, 0x0, 0x0, 0x0, false⟩,
  ⟨0xC005C, 0x0, 1, 0x0, 0x0, 0x0, false⟩,
  ⟨0xC0060, 0x0, 1, 0x0, 0x0, 0x0, false⟩,
  ⟨0xC0064, 0x0, 1, 0x0, 0x0, 0x1F, false⟩,
  ⟨0xC0080, 0x0, 1, 0x0, 0x3FF, 0x0, false⟩,
  ⟨0xC0084, 0x0, 1, 0x0, 0x0, 0x0, false⟩,
  ⟨0xC0088, 0x0, 1, 0x0, 0x0, 0x0, false⟩,
  ⟨0xC00A0, 0x0, 1, 0x0, 0xFFFFFFF, 0x0, false⟩,
  ⟨0xC00A4, 0x0, 1, 0x0, 0x0, 0x0, false⟩,
  ⟨0xC00A8, 0x0, 1, 0x0, 0x0, 0x0, false⟩,
  ⟨0xC00AC, 0x0, 1, 0x0, 0x0, 0x0, false⟩,
  ⟨0xC00B0, 0x0, 1, 0x0, 0x0, 0x0, false⟩,
  ⟨0xC00B8, 0x0, 1, 0x0, 0x0, 0x0, false⟩,
  ⟨0xC00BC, 0x0, 1, 0x0, 0x0, 0x0, false⟩,
  ⟨0xC0200, 0x4, 16, 0x0, 0x0, 0xFFFFFFFF, false⟩]

/-- The registers of block 13. -/
def regRowsSpk : List RegRow := [
  ⟨0xD0000, 0x0, 1, 0x5, 0x7FF, 0x0, false⟩,
  ⟨0xD0004, 0x0, 1, 0x1, 0x0, 0x0, false⟩,
  ⟨0xD0008, 0x0, 1, 0x0, 0x0, 0x0, false⟩,
  ⟨0xD000C, 0x0, 1, 0x0, 0x0, 0x0, false⟩,
  ⟨0xD0010, 0x0, 1, 0x0, 0x0, 0x0, false⟩,
  ⟨0xD0040, 0x0, 1, 0x0, 0x0, 0x7F, false⟩,
  ⟨0xD0044, 0x0, 1, 0x78, 0x7F, 0x0, false⟩,
  ⟨0xD0050, 0x0, 1, 0x0, 0x0, 0x0, false⟩,
  ⟨0xD0054, 0x0, 1, 0x0, 0x0, 0x0, false⟩,
  ⟨0xD0058, 0x0, 1, 0x0, 0x0, 0x0, false⟩,
  ⟨0xD005C, 0x0, 1, 0x0, 0x0, 0x0, false⟩,
  ⟨0xD0060, 0x0, 1, 0x0, 0x0, 0x0, false⟩,
  ⟨0xD0064, 0x0, 1, 0x0, 0x0, 0x0, false⟩,
  ⟨0xD0068, 0x0, 1, 0x0, 0x0, 0x0, false⟩,
  ⟨0xD006C, 0x0, 1, 0x0, 0x0, 0x7F, false⟩,
  ⟨0xD0080, 0x0, 1, 0x0, 0x1FF, 0x0, false⟩,
  ⟨0xD0084, 0x0, 1, 0x0, 0x0, 0x0, false⟩,
  ⟨0xD0088, 0x0, 1, 0x0, 0x0, 0x0, false⟩,
  ⟨0xD008C, 0x0, 1, 0x0, 0x0, 0x0, false⟩,
  ⟨0xD0090, 0x0, 1, 0x0, 0x0, 0x0, false⟩,
  ⟨0xD0200, 0x4, 16, 0x0, 0x0, 0xFFFFFFFF, false⟩,
  ⟨0xD0400, 0x0, 1, 0x0, 0x0, 0x0, false⟩,
  ⟨0xD0404, 0x0, 1, 0x0, 0x0, 0x0, false⟩,
  ⟨0xD0408, 0x0, 1, 0x0, 0x0, 0x0, false⟩,
  ⟨0xD040C, 0x0, 1, 0x0, 0x0, 0x0, false⟩,
  ⟨0xD0410, 0x0, 1, 0x0, 0x0, 0x0, false⟩,
  ⟨0xD0414, 0x0, 1, 0x0, 0x0, 0x0, false⟩,
  ⟨0xD0480, 0x0, 1, 0x147E, 0x1FF7F, 0x0, false⟩,
  ⟨0xD0484, 0x0, 1, 0x780, 0xFFFF, 0x0, false⟩,
  ⟨0xD0488, 0x0, 1, 0xB, 0xFFF, 0x0, false⟩,
  ⟨0xD048C, 0x0, 1, 0x0, 0x3, 0x0, false⟩,
  ⟨0xD0490, 0x0, 1, 0x0, 0x0, 0x0, false⟩,
  ⟨0xD0494, 0x0, 1, 0x0, 0x0, 0x1F, false⟩,
  ⟨0xD0498, 0x0, 1, 0x1F, 0x1F, 0x0, false⟩,
  ⟨0xD04A0, 0x0, 1, 0x0, 0x0, 0x0, false⟩,
  ⟨0xD04A4, 0x0, 1, 0x0, 0x0, 0x0, false⟩,
  ⟨0xD04A8, 0x0, 1, 0x0, 0x0, 0x7, false⟩,
  ⟨0xD04B0, 0x0, 1, 0x0, 0x0, 0x0, false⟩,
  ⟨0xD04B4, 0x0, 1, 0x0, 0x0, 0x0, false⟩]

/-- The registers of block 14. -/
def regRowsDsk : List RegRow := [
  ⟨0xE0040, 0x0, 1, 0x0, 0x0, 0x1F, false⟩,
  ⟨0xE0044, 0x0, 1, 0x1D, 0x1F, 0x0, false⟩,
  ⟨0xE0050, 0x0, 1, 0x0, 0x0, 0x0, false⟩,
  ⟨0xE0054, 0x0, 1, 0x0, 0x0, 0x0, false⟩,
  ⟨0xE0058, 0x0, 1, 0x0, 0x0, 0x0, false⟩,
  ⟨0xE005C, 0x0, 1, 0x0, 0x0, 0x0, false⟩,
  ⟨0xE0060, 0x0, 1, 0x0, 0x0, 0xF, false⟩,
  ⟨0xE0080, 0x0, 1, 0x0, 0x0, 0x0, false⟩,
  ⟨0xE0084, 0x0, 1, 0x0, 0x0, 0x0, false⟩,
  ⟨0xE0088, 0x0, 1, 0x0, 0x0, 0x0, false⟩,
  ⟨0xE008C, 0x0, 1, 0x0, 0x0, 0x0, false⟩,
  ⟨0xE0090, 0x0, 1, 0x0, 0x0, 0x0, false⟩,
  ⟨0xE0094, 0x0, 1, 0x0, 0x0, 0x0, false⟩,
  ⟨0xE0098, 0x0, 1, 0x0, 0x0, 0x0, false⟩,
  ⟨0xE009C, 0x0, 1, 0x0, 0x0, 0x0, false⟩,
  ⟨0xE0100, 0x4, 8, 0x0, 0x0, 0x0, false⟩,
  ⟨0xE0120, 0x4, 8, 0x0, 0x0, 0x0, false⟩,
  ⟨0xE0140, 0x4, 8, 0x0, 0x0, 0x0, false⟩,
  ⟨0xE0160, 0x4, 8, 0x0, 0x0, 0x0, false⟩,
  ⟨0xE0200, 0x0, 1, 0x0, 0xFF, 0x0, false⟩,
  ⟨0xE0204, 0x0, 1, 0x0, 0x0, 0x0, false⟩,
  ⟨0xE0208, 0x0, 1, 0x0, 0x0, 0x0, false⟩,
  ⟨0xE0220, 0x0, 1, 0x0, 0x0, 0x0, false⟩,
  ⟨0xE0224, 0x0, 1, 0x0, 0x0, 0x0, false⟩,
  ⟨0xE0228, 0x0, 1, 0x0, 0x0, 0x0, false⟩,
  ⟨0xE3F00, 0x0, 1, 0x0, 0x0, 0x3F, false⟩,
  ⟨0xE3F04, 0x0, 1, 0x3B, 0x3F, 0x0, false⟩,
  ⟨0xE3F08, 0x0, 1, 0x0, 0x0, 0x1FFFF, false⟩,
  ⟨0xE3F10, 0x0, 1, 0x0, 0x0, 0x0, false⟩,
  ⟨0xE4000, 0x100, 16, 0x0, 0x7, 0x0, false⟩,
  ⟨0xE4004, 0x100, 16, 0x0, 0x0, 0x0, false⟩,
  ⟨0xE4008, 0x100, 16, 0x0, 0x0, 0x0, false⟩,
  ⟨0xE400C, 0x100, 16, 0x0, 0xFFFF, 0x0, false⟩,
  ⟨0xE4010, 0x100, 16, 0x0, 0x8000FFFF, 0x0, false⟩,
  ⟨0xE4014, 0x100, 16, 0x0, 0x8000FFFF, 0x0, false⟩,
  ⟨0xE4018, 0x100, 16, 0x0, 0x8000FFFF, 0x0, false⟩,
  ⟨0xE401C, 0x100, 16, 0x0, 0x8000FFFF, 0x0, false⟩,
  ⟨0xE4020, 0x100, 16, 0x0, 0xFFFF, 0x0, false⟩,
  ⟨0xE4024, 0x100, 16, 0x0, 0xFFFFFFFF, 0x0, false⟩,
  ⟨0xE402C, 0x100, 16, 0x0, 0x0, 0x0, false⟩,
  ⟨0xE4030, 0x100, 16, 0x0, 0xFFFFFFFF, 0x0, false⟩,
  ⟨0xE4034, 0x100, 16, 0x0, 0xFFFFFFFF, 0x0, false⟩,
  ⟨0xE4038, 0x100, 16, 0x0, 0xFFFFFFFF, 0x0, false⟩,
  ⟨0xE403C, 0x100, 16, 0x3D0900, 0xFFFFFFFF, 0x0, false⟩,
  ⟨0xE4040, 0x100, 16, 0x0, 0x0, 0x0, false⟩,
  ⟨0xE4044, 0x100, 16, 0x0, 0x0, 0x0, false⟩,
  ⟨0xE4048, 0x100, 16, 0x0, 0x0, 0x0, false⟩,
  ⟨0xE404C, 0x100, 16, 0x0, 0x0, 0x0, false⟩,
  ⟨0xE4050, 0x100, 16, 0x0, 0x0, 0x0, false⟩,
  ⟨0xE4054, 0x100, 16, 0x0, 0x0, 0x0, false⟩]

/-- The registers of block 15. -/
def regRowsSdac : List RegRow := [
  ⟨0xF0000, 0x0, 1, 0x0, 0xFF, 0x0, false⟩,
  ⟨0xF0040, 0x0, 1, 0x0, 0x0, 0x7, false⟩,
  ⟨0xF0044, 0x0, 1, 0x7, 0x7, 0x0, false⟩,
  ⟨0xF0048, 0x0, 1, 0x0, 0x0, 0xFF, false⟩,
  ⟨0xF0050, 0x0, 1, 0x0, 0x0, 0x0, false⟩,
  ⟨0xF0054, 0x0, 1, 0x0, 0x0, 0x0, false⟩,
  ⟨0xF005C, 0x0, 1, 0x0, 0x0, 0x3, false⟩,
  ⟨0xF0100, 0x10, 8, 0x0, 0x0, 0x0, false⟩,
  ⟨0xF0104, 0x10, 8, 0x0, 0x0, 0x0, false⟩]

/-- The registers of a block by its number (R434). -/
def regRows (block : Nat) : List RegRow :=
  match block with
  | 0 => regRowsSys
  | 1 => regRowsPwr
  | 2 => regRowsTmb
  | 3 => regRowsTt
  | 4 => regRowsHq
  | 5 => regRowsDma
  | 6 => regRowsMem
  | 7 => regRowsSap
  | 8 => regRowsNet
  | 9 => regRowsNtk
  | 10 => regRowsObj
  | 11 => regRowsGeo
  | 12 => regRowsPth
  | 13 => regRowsSpk
  | 14 => regRowsDsk
  | 15 => regRowsSdac
  | _ => []

/-- Whether a row describes the register at an offset. -/
def RegRow.has (r : RegRow) (off : Nat) : Bool :=
  off == r.off || (r.stride != 0 && r.off ≤ off && (off - r.off) % r.stride == 0 && (off - r.off) / r.stride < r.count)

/-- The description of the register at a BAR0 offset, if the manual names one there. -/
def regRow (off : Nat) : Option RegRow := (regRows (off / 0x10000)).find? (fun r => r.has off)

/-- The reset value of a register; 0 where no register is named (R434). -/
def regReset (off : Nat) : Word :=
  match regRow off with
  | some r => word r.reset
  | none => 0

/-- An event register of R441: its offset, its enable register, its saturation bit and its vector. -/
structure EvtRow where
  evt    : Nat
  en     : Nat
  satBit : Nat
  vector : Option Nat
deriving DecidableEq, Repr, Inhabited

/-- The event registers (R441); PWR_EVT raises vector 26 for bits 0–2 and 24 otherwise. -/
def evtRows : List EvtRow := [
  ⟨Reg.SYS_EVT, Reg.SYS_EVT_EN, 0, some 18⟩,
  ⟨Reg.SYS_LEDGER_EVT, Reg.SYS_LEDGER_EVT_EN, 4, some 18⟩,
  ⟨Reg.PWR_EVT, Reg.PWR_EVT_EN, 7, some 24⟩,
  ⟨Reg.TMB_EVT, Reg.TMB_EVT_EN, 9, some 17⟩,
  ⟨Reg.TT_EVT, Reg.TT_EVT_EN, 7, some 16⟩,
  ⟨Reg.HQ_EVT, Reg.HQ_EVT_EN, 7, none⟩,
  ⟨Reg.DMA_CH_EVT, Reg.DMA_CH_EVT_EN, 32, some 23⟩,
  ⟨Reg.DMA_EVT, Reg.DMA_EVT_EN, 2, some 23⟩,
  ⟨Reg.MEM_EVT, Reg.MEM_EVT_EN, 9, some 19⟩,
  ⟨Reg.SAP_EVT, Reg.SAP_EVT_EN, 6, some 17⟩,
  ⟨Reg.NET_EVT, Reg.NET_EVT_EN, 5, some 21⟩,
  ⟨Reg.NTK_EVT, Reg.NTK_EVT_EN, 7, some 20⟩,
  ⟨Reg.OBJ_EVT, Reg.OBJ_EVT_EN, 7, none⟩,
  ⟨Reg.GEO_EVT, Reg.GEO_EVT_EN, 7, none⟩,
  ⟨Reg.PTH_EVT, Reg.PTH_EVT_EN, 5, none⟩,
  ⟨Reg.SPK_EVT, Reg.SPK_EVT_EN, 6, none⟩,
  ⟨Reg.SPK_OVR_EVT, Reg.SPK_OVR_EVT_EN, 4, some 25⟩,
  ⟨Reg.DSK_SCH_EVT, Reg.DSK_SCH_EVT_EN, 4, some 22⟩,
  ⟨Reg.DSK_DESK_EVT, Reg.DSK_DESK_EVT_EN, 5, some 22⟩,
  ⟨Reg.SDAC_EVT, Reg.SDAC_EVT_EN, 2, none⟩]

def evtRow (off : Nat) : Option EvtRow := evtRows.find? (fun r => r.evt == off)
def evtRowByEn (off : Nat) : Option EvtRow := evtRows.find? (fun r => r.en == off)

/-- The vector an event bit raises (R441, R433). -/
def evtVector (r : EvtRow) (bit : Nat) : Option Nat :=
  if r.evt = Reg.PWR_EVT then (if bit ≤ 2 then some 26 else some 24) else r.vector

/-- A run of saturating counters and the STAT_SAT bits that report them (R443): `count` counters
`stride` apart from `off` use bits `bit`, `bit + bitStep`, … of the register at `sat`, whose setting
sets bit `evtBit` of the event register `evt`. -/
structure SatRow where
  off    : Nat
  stride : Nat
  count  : Nat
  sat    : Nat
  bit    : Nat
  bitStep : Nat
  evt    : Nat
  evtBit : Nat
deriving DecidableEq, Repr, Inhabited

def satRows : List SatRow := [
  ⟨Reg.SYS_CREDIT_REPAIRS, 4, 1, Reg.SYS_STAT_SAT, 0, 1, Reg.SYS_EVT, 0⟩,
  ⟨Reg.PWR_FALLBACKS, 4, 4, Reg.PWR_STAT_SAT, 0, 1, Reg.PWR_EVT, 7⟩,
  ⟨Reg.TMB_ORIGIN_STEPS, 4, 1, Reg.TMB_STAT_SAT, 0, 1, Reg.TMB_EVT, 9⟩,
  ⟨Reg.TMB_CLOAK_HELDp, 4, 2, Reg.TMB_STAT_SAT, 1, 1, Reg.TMB_EVT, 9⟩,
  ⟨Reg.TMB_CLOAK_SKIPp, 4, 2, Reg.TMB_STAT_SAT, 3, 1, Reg.TMB_EVT, 9⟩,
  ⟨Reg.TMB_TBn_LOSSES, 0x40, 4, Reg.TMB_STAT_SAT, 8, 1, Reg.TMB_EVT, 9⟩,
  ⟨Reg.TT_DEFERRALS, 4, 5, Reg.TT_STAT_SAT, 0, 1, Reg.TT_EVT, 7⟩,
  ⟨Reg.HQ_BAD_ACCESS, 4, 6, Reg.HQ_STAT_SAT, 0, 1, Reg.HQ_EVT, 7⟩,
  ⟨Reg.DMA_SHADOW_LATES, 4, 4, Reg.DMA_STAT_SAT, 0, 1, Reg.DMA_EVT, 2⟩,
  ⟨Reg.MEM_DRAM_CE, 4, 10, Reg.MEM_STAT_SAT, 0, 1, Reg.MEM_EVT, 9⟩,
  ⟨Reg.SAP_Gg_LOSSES, 0x20, 8, 0x70060, 0, 4, Reg.SAP_EVT, 6⟩,
  ⟨Reg.SAP_Gg_RELOCKS, 0x20, 8, 0x70060, 1, 4, Reg.SAP_EVT, 6⟩,
  ⟨Reg.SAP_Gg_FSYNC_FIXED, 0x20, 8, 0x70060, 2, 4, Reg.SAP_EVT, 6⟩,
  ⟨Reg.SAP_Gg_GLITCHES, 0x20, 8, 0x70060, 3, 4, Reg.SAP_EVT, 6⟩,
  ⟨0x7020C, 0x20, 8, 0x70064, 0, 4, Reg.SAP_EVT, 6⟩,
  ⟨0x70210, 0x20, 8, 0x70064, 1, 4, Reg.SAP_EVT, 6⟩,
  ⟨0x70214, 0x20, 8, 0x70064, 2, 4, Reg.SAP_EVT, 6⟩,
  ⟨0x70218, 0x20, 8, 0x70064, 3, 4, Reg.SAP_EVT, 6⟩,
  ⟨Reg.NET_Pn_DROPPED, 0x40, 2, Reg.NET_STAT_SAT, 0, 1, Reg.NET_EVT, 5⟩,
  ⟨Reg.NET_TRS_BAD, 4, 3, Reg.NET_STAT_SAT, 8, 1, Reg.NET_EVT, 5⟩,
  ⟨Reg.NTK_MISSING, 4, 6, Reg.NTK_STAT_SAT, 0, 1, Reg.NTK_EVT, 7⟩,
  ⟨Reg.NTK_Pn_CRC_ERRS, 0x40, 2, Reg.NTK_STAT_SAT, 6, 1, Reg.NTK_EVT, 7⟩,
  ⟨Reg.NTK_Pn_CREDIT_STALLS, 0x40, 2, Reg.NTK_STAT_SAT, 8, 1, Reg.NTK_EVT, 7⟩,
  ⟨Reg.OBJ_POS_UPDATES, 4, 7, Reg.OBJ_STAT_SAT, 0, 1, Reg.OBJ_EVT, 7⟩,
  ⟨Reg.GEO_LATE_FRAMES, 4, 7, Reg.GEO_STAT_SAT, 0, 1, Reg.GEO_EVT, 7⟩,
  ⟨Reg.PTH_DOPPLER_CLAMPS, 4, 5, Reg.PTH_STAT_SAT, 0, 1, Reg.PTH_EVT, 5⟩,
  ⟨Reg.SPK_MIX_SAT, 4, 7, Reg.SPK_STAT_SAT, 0, 1, Reg.SPK_EVT, 6⟩,
  ⟨Reg.SPK_OVR_COUNT, 4, 2, Reg.SPK_OVR_STAT_SAT, 0, 1, Reg.SPK_OVR_EVT, 4⟩,
  ⟨Reg.SPK_CORR_SAT, 4, 1, Reg.SPK_OVR_STAT_SAT, 2, 1, Reg.SPK_OVR_EVT, 4⟩,
  ⟨Reg.DSK_SCH_DRY, 4, 4, Reg.DSK_SCH_STAT_SAT, 0, 1, Reg.DSK_SCH_EVT, 4⟩,
  ⟨Reg.DSK_RET_MISSING, 4, 1, Reg.DSK_DESK_STAT_SAT, 16, 1, Reg.DSK_DESK_EVT, 5⟩,
  ⟨Reg.DSK_Dn_SAT, 0x100, 16, Reg.DSK_DESK_STAT_SAT, 0, 1, Reg.DSK_DESK_EVT, 5⟩,
  ⟨Reg.DSK_Dn_FAULTS, 0x100, 16, Reg.DSK_DESK_STAT_SAT, 0, 1, Reg.DSK_DESK_EVT, 5⟩,
  ⟨Reg.DSK_Dn_STOPS, 0x100, 16, Reg.DSK_DESK_STAT_SAT, 0, 1, Reg.DSK_DESK_EVT, 5⟩,
  ⟨Reg.DSK_Dn_SIG_STALLS, 0x100, 16, Reg.DSK_DESK_STAT_SAT, 0, 1, Reg.DSK_DESK_EVT, 5⟩,
  ⟨Reg.DSK_Dn_SPILL_ERRS, 0x100, 16, Reg.DSK_DESK_STAT_SAT, 0, 1, Reg.DSK_DESK_EVT, 5⟩,
  ⟨Reg.SDAC_CLIPS, 4, 2, Reg.SDAC_STAT_SAT, 0, 1, Reg.SDAC_EVT, 2⟩]

def SatRow.has (r : SatRow) (off : Nat) : Bool :=
  r.off ≤ off && (off - r.off) % r.stride == 0 && (off - r.off) / r.stride < r.count

/-- Where a counter reports its saturation: STAT_SAT offset, bit, event register and bit (R443). -/
def satOf (off : Nat) : Option (Nat × Nat × Nat × Nat) :=
  match satRows.find? (fun r => r.has off) with
  | some r => some (r.sat, r.bit + r.bitStep * ((off - r.off) / r.stride), r.evt, r.evtBit)
  | none => none

/-- The STAT_SAT registers that a statistics snapshot copies (R445). -/
def satRegs : List Nat :=
  [Reg.SYS_STAT_SAT] ++ (List.range 48).map (fun j => 0x500 + 4 * j) ++
  [Reg.PWR_STAT_SAT, Reg.TMB_STAT_SAT, Reg.TT_STAT_SAT, Reg.HQ_STAT_SAT, Reg.DMA_STAT_SAT,
   Reg.MEM_STAT_SAT, 0x70060, 0x70064, Reg.NET_STAT_SAT, Reg.NTK_STAT_SAT, Reg.OBJ_STAT_SAT] ++
  (List.range 32).map (fun j => 0xA0200 + 4 * j) ++
  [Reg.GEO_STAT_SAT, Reg.PTH_STAT_SAT, Reg.SPK_STAT_SAT, Reg.SPK_OVR_STAT_SAT, Reg.DSK_SCH_STAT_SAT,
   Reg.DSK_DESK_STAT_SAT, Reg.SDAC_STAT_SAT]

/-- The counters that a statistics snapshot copies (R445). -/
def statCounters : List Nat :=
  (satRows.map (fun r => (List.range r.count).map (fun k => r.off + r.stride * k))).flatten

/-- The registers of a statistics snapshot in ascending offset (R358, R445). -/
def statRegs : List Nat := (statCounters ++ satRegs).mergeSort (· ≤ ·)

end Sys2Proof.Machine
end

