-- ==== Sys2Proof/Machine/Objects.lean ====
section
/-!
DEFINITION. The object stage (spec chapter 04): one locker's block through source selection,
gain, biquads, pre-delay, decorrelator and window (R103), and the conditioning of aux inputs
(R184). Each function answers the new locker, the block and what it counts.
-/
namespace Sys2Proof.Machine

/-- What a stage of the pipeline reports beside its samples: a counter that gains, an event bit
that is set, a ledger that moves, a STAT_SAT bit that is set, an event record. -/
inductive Fx where
  | count (off n : Nat)
  | evt (off bit : Nat)
  | led (idx : Nat) (d : LedDelta)
  | sat (off bit evt evtBit : Nat)
  /-- an event record is posted: kind, bytes 13–14, RESULT (R360) -/
  | note (kind : Byte) (ident : Nat) (result : DWord)
deriving DecidableEq, Repr, Inhabited

/-- A counter gains `n`, if it gains at all. -/
def fxCount (off n : Nat) : List Fx := if n = 0 then [] else [.count off n]

/-- A counter and its event bit. -/
def fxBoth (off n evt bit : Nat) : List Fx := if n = 0 then [] else [.count off n, .evt evt bit]

/-- R106, R121: the gain a locker's fields ask for. -/
def lockerGain (c : LockerCfg) : Int :=
  if c.enable then (if c.invert then -gain427 c.gain else gain427 c.gain) else 0

/-- Source selection with the crossfade of R121, step 1 of R103. -/
def sourceBlock (fetch : Src → List Int × Bool) (src : Src) (old : Option (Src × Ramp)) :
    List Int × Option (Src × Ramp) × Nat :=
  match old with
  | none => ((fetch src).1, none, 0)
  | some (o, w) =>
    let (w1, ys, n) := mixBlock w (fetch o).1 (fetch src).1
    (ys, if w1.busy then some (o, w1) else none, n)

/-- A biquad chain with the crossfade of R108. -/
def eqBlock (qs : List Biquad) (old : Option (List Biquad × Ramp)) (xs : List Int) :
    List Biquad × Option (List Biquad × Ramp) × List Int × Nat :=
  let (qs1, ys, n) := chainBlock qs xs
  match old with
  | none => (qs1, none, ys, n)
  | some (os, w) =>
    let (os1, zs, m) := chainBlock os xs
    let (w1, mixed, k) := mixBlock w zs ys
    (qs1, if w1.busy then some (os1, w1) else none, mixed, n + m + k)

/-- A saturation count of a locker (R106, R107): the locker's own counter, OBJ_SAT_TOTAL, and the
STAT_SAT bit of the locker when its counter saturates (R443). -/
def lockerSat (i : Nat) (old : Word) (n : Nat) : Word × List Fx :=
  let v := min (old.toNat + n) 0xFFFFFFFF
  (word v, fxCount Reg.OBJ_SAT_TOTAL n ++
    (if n ≠ 0 ∧ v = 0xFFFFFFFF then [.sat (Reg.OBJ_STAT_SAT_LKj + 4 * (i / 32)) (i % 32) Reg.OBJ_EVT 7] else []))

/-- Steps 1 to 3 of R103: the block a locker takes to IP_OBJ. -/
def lockerDry (fetch : Src → List Int × Bool) (i : Nat) (l : Locker) : Locker × List Int × List Fx :=
  if l.live then
    let (xs, so, n0) := sourceBlock fetch l.src l.srcOld
    let (g, ys, n1) := rampBlock l.gain xs
    let (qs, bo, zs, n2) := eqBlock l.biquads l.bqOld ys
    let (sat, fx) := lockerSat i l.sat (n0 + n1 + n2)
    let gone := (fetch l.src).2
    ({ l with srcOld := so, gain := g, biquads := qs, bqOld := bo, sat := sat, absent := gone },
     zs, fx ++ (if gone && !l.absent then [.evt Reg.OBJ_EVT 2] else []))
  else (l, [], [])

/-- Sample `i` of a block of 16 as it is read back from a history that ends with that block. -/
def readBack (hist : List Int) (delay : Nat) : List Int :=
  (List.range 16).map (fun i => sampleAt hist (15 - i + delay))

/-- Step 5 of R103: the pre-delay line is written and read PRE_DELAY samples back (R109). -/
def preDelayBlock (l : Locker) (xs : List Int) : Locker × List Int × Nat :=
  if l.pdLost then (l, xs, 0)
  else
    let line := (xs.reverse ++ l.line).take 192016
    let ys := readBack line l.delay
    match l.delayOld with
    | none => ({ l with line := line }, ys, 0)
    | some (d, w) =>
      let (w1, mixed, k) := mixBlock w (readBack line d) ys
      ({ l with line := line, delayOld := if w1.busy then some (d, w1) else none }, mixed, k)

/-- Power of b0 + b1 e^(−jω) + b2 e^(−2jω) where cos ω = c / 2048, times 2²². -/
def quadPower (c b0 b1 b2 : Int) : Int :=
  (b0 * b0 + b1 * b1 + b2 * b2) * 2 ^ 22 + 2 * b1 * (b0 + b2) * c * 2 ^ 11 + 2 * b0 * b2 * (2 * c * c - 2 ^ 22)

/-- Its delay in samples times that power. -/
def quadDelay (c b0 b1 b2 : Int) : Int :=
  (b1 * b1 + 2 * b2 * b2) * 2 ^ 22 + b1 * (b0 + 3 * b2) * c * 2 ^ 11 + 2 * b0 * b2 * (2 * c * c - 2 ^ 22)

/-- At cos ω = c / 2048 a cascade has unit magnitude within ±0.01 dB, and from 200 Hz on at 96 kHz (c < 2048) a group delay of
at most 48 samples (R110). -/
def Biquad.passes (qs : List Biquad) (c : Int) : Bool :=
  let one : Int := 2 ^ 29
  let up : Int := (qs.map (fun q => quadPower c q.b0 q.b1 q.b2)).foldl (· * ·) 1
  let down : Int := (qs.map (fun q => quadPower c one q.a1 q.a2)).foldl (· * ·) 1
  let add (f : Int × Int) (n d : Int) : Int × Int := (f.1 * d + n * f.2, f.2 * d)
  let delay := qs.foldl (fun f q =>
    add (add f (quadDelay c q.b0 q.b1 q.b2) (quadPower c q.b0 q.b1 q.b2))
      (-(quadDelay c one q.a1 q.a2)) (quadPower c one q.a1 q.a2)) (0, 1)
  qs.all (fun q => decide (0 < quadPower c q.b0 q.b1 q.b2) && decide (0 < quadPower c one q.a1 q.a2)) &&
    decide (99770006 * down ≤ 100000000 * up) && decide (100000000 * up ≤ 100230524 * down) &&
    (c == 2048 || decide (delay.1 ≤ 48 * delay.2))

/-- Coefficients are Q2.29, and the section is stable. -/
def Biquad.sound (q : Biquad) : Bool :=
  [q.b0, q.b1, q.b2, q.a1, q.a2].all (fun x => decide (-(2 ^ 31) ≤ x) && decide (x < 2 ^ 31)) &&
    decide ((q.a2.natAbs : Int) < 2 ^ 29) && decide ((q.a1.natAbs : Int) < 2 ^ 29 + q.a2)

/-- The four sections of decorrelator `d` in zero state (R110): the renderer's fixed filters, held to what the rule says of them
at 4,097 frequencies; filters that break it stand as plain unit filters (assumption 1). -/
def decorChain (d : Nat) : List Biquad :=
  if d = 0 then []
  else
    let qs : List Biquad := (List.range 4).map (fun k =>
      { b0 := Config.decor d k 0, b1 := Config.decor d k 1, b2 := Config.decor d k 2,
        a1 := Config.decor d k 3, a2 := Config.decor d k 4, bypass := false })
    if qs.all Biquad.sound && (List.range 4097).all (fun i => Biquad.passes qs ((i : Int) - 2048)) then qs
    else List.replicate 4 { b0 := 2 ^ 29, b1 := 0, b2 := 0, a1 := 0, a2 := 0, bypass := false }

/-- Step 6 of R103. -/
def decorBlock (l : Locker) (xs : List Int) : Locker × List Int × Nat :=
  let (st, ys, n) := chainBlock l.decorSt xs
  match l.decorOld with
  | none => ({ l with decorSt := st }, ys, n)
  | some (d, os, w) =>
    let (os1, zs, m) := chainBlock os xs
    let (w1, mixed, k) := mixBlock w zs ys
    ({ l with decorSt := st, decorOld := if w1.busy then some (d, os1, w1) else none }, mixed, n + m + k)

/-- Steps 5 to 7 of R103 for block `n`: pre-delay, decorrelator, window. -/
def lockerWell (i n : Nat) (l : Locker) (xs : List Int) : Locker × List Fx :=
  let (l1, ys, n1) := preDelayBlock l xs
  let (l2, zs, n2) := decorBlock l1 ys
  let (sat, fx) := lockerSat i l2.sat (n1 + n2)
  ({ l2 with window := (zs.reverse ++ l2.window).take 4096, wellEnd := n + 16, sat := sat }, fx)

/-- A locker's conditioning as it stands after an entry to STANDBY (R130): running ramps and
crossfades completed, filter state discarded. -/
def lockerStandby (l : Locker) : Locker :=
  { l with gain := l.gain.done, srcOld := none, bqOld := none, biquads := l.biquads.map Biquad.cleared,
           delayOld := none, decorOld := none, decorSt := decorChain l.decor, line := [], window := [],
           live := l.cfg.enable, releasing := false, jump := none, jumpPlan := none, jumpDue := false, late := false, sets := [] }

/-- A locker whose changes act without ramp: no crossfade is left running. A disabled locker renders nothing, so
none of its changes ramps. -/
def Locker.quieten (l : Locker) : Locker :=
  { l with gain := l.gain.done, srcOld := none, bqOld := none, delayOld := none, decorOld := none }

/-- One field change of a locker at its block (R121). `n` is the ramp length. DESIGN CHOICE (assumption 64): a command that leaves
the target gain as it is while a ramp runs starts the ramp anew (R106). -/
def applyLocker (n : Nat) (c : LockerCfg) (l : Locker) : Locker :=
  let fresh := c.enable && !l.live
  let l1 : Locker := if fresh then
      { l with live := true, gain := {}, window := [], line := [], srcOld := none, src := c.src,
               biquads := l.biquads.map Biquad.cleared, bqOld := none, delay := c.preDelay, delayOld := none,
               decor := c.decor, decorSt := decorChain c.decor, decorOld := none, absent := false, pdLost := l.pdLost }
    else l
  let kept : LockerCfg :=
    { c with mode := l.cfg.mode, spread := l.cfg.spread, firstBus := l.cfg.firstBus, busCount := l.cfg.busCount,
             prio := l.cfg.prio, maxPaths := l.cfg.maxPaths }
  let l2 : Locker := { l1 with cfg := kept }
  let l3 : Locker := if lockerGain c * 65536 ≠ l2.gain.acc ∨ l2.gain.busy ∨ l2.gain.target ≠ lockerGain c ∨ c.enable ≠ l.cfg.enable
    then { l2 with gain := l2.gain.start (lockerGain c) n } else l2
  let l4 : Locker := if c.src ≠ l3.src then { l3 with src := c.src, srcOld := some (l3.src, Ramp.weight n) } else l3
  let l5 : Locker := if c.preDelay ≠ l4.delay
    then { l4 with delay := c.preDelay, delayOld := some (l4.delay, Ramp.weight n) } else l4
  let l6 : Locker := if c.decor ≠ l5.decor
    then { l5 with decor := c.decor, decorSt := decorChain c.decor,
                   decorOld := some (l5.decor, l5.decorSt, Ramp.weight n) }
    else l5
  if l6.live then l6 else l6.quieten

/-- R122: a change of gain alone. -/
def applyLockerGain (n code : Nat) (l : Locker) : Locker :=
  let c := { l.cfg with gain := code }
  let l1 : Locker := { l with cfg := c, gain := l.gain.start (lockerGain c) n }
  if l1.live then l1 else l1.quieten

/-- A list with the elements from `k` on replaced by `vs`. -/
def spliceAt {α : Type} (l : List α) (k : Nat) (vs : List α) : List α :=
  l.take k ++ vs.take (l.length - k) ++ l.drop (k + vs.length)

/-- R108, R123: new coefficients for the biquads from `first` on. -/
def applyBiquads (n first : Nat) (bs : List Biquad) (qs : List Biquad) : List Biquad × Option (List Biquad × Ramp) :=
  (inheritState qs (spliceAt qs first bs), some (qs, Ramp.weight n))

/-- An aux input's block to IP_AUX (R184). -/
def auxBlock (fetch : Src → List Int × Bool) (a : Aux) : Aux × List Int :=
  let (xs, so, _) := sourceBlock fetch a.src a.srcOld
  let (g, ys, _) := rampBlock a.gain xs
  ({ a with srcOld := so, gain := g, absent := (fetch a.src).2 }, ys)

/-- R184: the gain an aux input's fields ask for. -/
def auxGain (enable invert : Bool) (code : Nat) : Int :=
  if enable then (if invert then -gain427 code else gain427 code) else 0

end Sys2Proof.Machine
end

