-- ==== Sys2Proof/Machine/Paths.lean ====
section
/-!
DEFINITION. The path renderer (spec chapter 06): path-sample values (R167, R168), reading the
object well (R170), tilt (R172), accumulation into render buses (R177, R178) and the formation
of records at a hand-over (R166, R173).
-/
namespace Sys2Proof.Machine

/-- R168: a weight that rises from 0 over `len` samples from index `s`. -/
def risingWeight (s len p : Nat) : Int :=
  if p < s then 0 else if len = 0 ∨ s + len ≤ p then 2 ^ 22 else rdiv (2 ^ 22 * ((p - s : Nat) : Int)) len

def fallingWeight (s len p : Nat) : Int := 2 ^ 22 - risingWeight s len p

/-- R168: the weight W of a set at index p. -/
def setWeight (xf : Option Xfade) (jump : Option (Nat × Nat)) (t : PathSet) (p : Nat) : Int :=
  let ws := match xf with
    | some x => if t.slot = 15 then 2 ^ 22 else if t.slot = x.new then risingWeight x.m x.len p else fallingWeight x.m x.len p
    | none => 2 ^ 22
  let wj := match jump with
    | some (f, j) => if t.jumpIn then risingWeight f j p else if t.jumpOut then fallingWeight f j p else 2 ^ 22
    | none => 2 ^ 22
  rdiv (ws * wj) (2 ^ 22)

/-- R167: a value that moves linearly across the frame, at sample `j` of it. -/
def lerp128 (a b : Int) (j : Nat) : Int := a + rdiv ((b - a) * j) 128

def PathRec.delayAt (r : PathRec) (j : Nat) : Int := r.dStart + rdiv (r.dDelta * j) 128
def PathRec.gainAt (r : PathRec) (j : Nat) : Int := lerp128 r.gStart r.gEnd j
def PathRec.tiltAt (r : PathRec) (j : Nat) : Int := lerp128 r.tStart r.tEnd j

/-- R170: the interpolated sample at read position `p·4096 − d`, and whether it saturated. -/
def readWell (well : Int → Int) (kind : Nat) (p : Nat) (d : Int) : Int × Nat :=
  let pos : Int := (p : Int) * 4096 - d
  let k := pos / 4096
  let fr := pos % 4096
  let s := rdiv (((kernelOf kind).map (fun q => coeff kind fr q * well (k + q))).sum) (2 ^ 22)
  (sat427 s, sats s)

/-- One path-sample (R167–R177): the record's new filter state or ramp, the contribution, and the
saturations. `frame` is the first index of the frame, `w` the set's weight. -/
def pathSample (r96 tiltEn : Bool) (well : Int → Int) (frame p : Nat) (w : Int) (r : PathRec) : PathRec × Int × Nat :=
  let j := p - frame
  if r.lost then (r, 0, 0)
  else if r.kind = 2 then
    let ramp := r.ramp.next
    let ga := rdiv (ramp.value * w) (2 ^ 22)
    ({ r with ramp := ramp }, rdiv (well p * ga) (2 ^ 22), 0)
  else
    let (s, n) := readWell well r.kind p (r.delayAt j)
    let t := if tiltEn then (r.tiltAt j).toNat else 0
    let z := r.z + rdiv (tiltCoeff r96 t * (s * 2 ^ 32 - r.z)) (2 ^ 22)
    let u := sat427 (rdiv z (2 ^ 32))
    let ga := rdiv (r.gainAt j * w) (2 ^ 22)
    ({ r with z := z }, rdiv (u * ga) (2 ^ 22), n)

/-- A path over `k` samples of a block from index `p`: their contributions. -/
def pathBlock (r96 tiltEn : Bool) (well : Int → Int) (frame : Nat) (weight : Nat → Int) :
    Nat → Nat → PathRec → PathRec × List Int × Nat
  | 0, _, r => (r, [], 0)
  | k + 1, p, r =>
    let (r1, v, m) := pathSample r96 tiltEn well frame p (weight p) r
    let (r2, vs, m2) := pathBlock r96 tiltEn well frame weight k (p + 1) r1
    (r2, v :: vs, m + m2)

/-- Two blocks added sample by sample (exact, R177). -/
def addBlock : List Int → List Int → List Int
  | a :: as, b :: bs => (a + b) :: addBlock as bs
  | as, [] => as
  | [], bs => bs

/-- A block added to an accumulator of a table of blocks. -/
def accBlock (t : Tbl (List Int)) (k : Nat) (b : List Int) : Tbl (List Int) :=
  tset t k (addBlock ((tget t k).getD zeros16) b)

/-- A locker's window as a function of the pipeline index (R111). DEDUCED (assumption 19): its gain having ramped to 0, a disabled
locker's paths read 0 at the indices that it no longer writes, until they are released. -/
def wellOf (window : List Int) (wellEnd : Nat) (i : Int) : Int :=
  if i < (wellEnd : Int) then sampleAt window ((wellEnd : Int) - 1 - i).toNat else 0

/-- All paths of a set over block `n`; `done`, how many samples of the locker's `k`-th record its path unit renders (R179). -/
def renderPaths (r96 tiltEn : Bool) (well : Int → Int) (frame n : Nat) (weight : Nat → Int) (done : Nat → Nat) :
    Nat → List PathRec → Tbl (List Int) → List PathRec × Tbl (List Int) × Nat
  | _, [], acc => ([], acc, 0)
  | k, r :: rs, acc =>
    let (r1, vs, m) := pathBlock r96 tiltEn well frame weight (done k) n r
    let (rs1, acc1, m1) := renderPaths r96 tiltEn well frame n weight done (k + 1) rs (accBlock acc r.bus vs)
    (r1 :: rs1, acc1, m + m1)

def renderSets (r96 tiltEn : Bool) (xf : Option Xfade) (jump : Option (Nat × Nat)) (well : Int → Int) (frame n : Nat) (done : Nat → Nat) :
    Nat → List PathSet → Tbl (List Int) → List PathSet × Tbl (List Int) × Nat
  | _, [], acc => ([], acc, 0)
  | k, t :: ts, acc =>
    if t.past then
      let (ts1, acc2, m1) := renderSets r96 tiltEn xf jump well frame n done k ts acc
      (t :: ts1, acc2, m1)
    else
      let (ps, acc1, m) := renderPaths r96 tiltEn well frame n (setWeight xf jump t) done k t.paths acc
      let (ts1, acc2, m1) := renderSets r96 tiltEn xf jump well frame n done (k + t.paths.length) ts acc1
      ({ t with paths := ps } :: ts1, acc2, m + m1)

/-- The samples that a path unit renders of a locker's records: all 16, but where the unit does not finish (R179). -/
def rendered (cut : List (Nat × Nat × Nat)) (i k : Nat) : Nat :=
  match cut.find? (fun o => o.1 == i && o.2.1 == k) with
  | some o => min 16 o.2.2
  | none => 16

/-- The render slot of block `n` (R164): every path of every locker, accumulated per bus. -/
def renderBlock (r96 tiltEn : Bool) (xf : Option Xfade) (frame n : Nat) (cut : List (Nat × Nat × Nat)) :
    Tbl Locker → Tbl (List Int) → Tbl Locker × Tbl (List Int) × Nat
  | [], acc => ([], acc, 0)
  | (i, l) :: ls, acc =>
    let (ts, acc1, m) := renderSets r96 tiltEn xf l.jump (wellOf l.window l.wellEnd) frame n (rendered cut i) 0 l.sets acc
    let (ls1, acc2, m1) := renderBlock r96 tiltEn xf frame n cut ls acc1
    ((i, { l with sets := ts }) :: ls1, acc2, m + m1)

/-- R178: a bus block converted to Q4.27, its saturations counted and its clip bit set. -/
def busConvert (b : Nat) (xs : List Int) : List Int × List Fx :=
  let n := (xs.map sats).sum
  (xs.map sat427,
   if n = 0 then [] else [.count Reg.PTH_BUS_SAT n, .sat (Reg.PTH_BUS_CLIPj + 4 * (b / 32)) (b % 32) Reg.PTH_EVT 2,
                          .evt Reg.PTH_EVT 2])

/-- The cost of a record in path units (R157). -/
def PathRec.cost (r : PathRec) : Nat := if r.kind = 1 then 2 else 1

def setCost (t : PathSet) : Nat := if t.past then 0 else (t.paths.map PathRec.cost).sum
def setsCost (ts : List PathSet) : Nat := (ts.map setCost).sum
/-- The rendered cost of a block (R164). -/
def renderedCost (ls : Tbl Locker) : Nat := (ls.map (fun p => setsCost p.2.sets)).sum

/-- Cycles of the busiest path unit in a block of cost `c`, at most (R179). -/
def unitCycles (c : Nat) : Nat := ((c + 31) / 32 + 1) * 16 + 2048
def slotCycles (r96 : Bool) : Nat := if r96 then 166667 else 333333

/-- R166, R176: the record of an entering path. -/
def enterRecord (a : PathAim) : PathRec :=
  { speaker := a.speaker, kind := a.kind, bus := a.bus, enter := true, leave := a.leave, dStart := a.delay,
    gEnd := a.gain, tStart := a.tilt, tEnd := a.tilt, dist := a.dist, tabTilt := a.tabTilt,
    ramp := if a.kind = 2 then ({} : Ramp).start a.gain 128 else {} }

/-- R166, R173: the record of a path for the next frame; one whose record was lost enters (R180). -/
def formRecord (maxStep : Nat) (prev : Option PathRec) (a : PathAim) : PathRec :=
  match prev with
  | some r =>
    if r.lost then enterRecord a
    else
      let d := r.dStart + r.dDelta
      if a.leave then
        { r with enter := false, leave := true, clamped := false, dStart := d, dDelta := 0, gStart := r.gEnd, gEnd := 0,
                 tStart := r.tEnd, lag := 0,
                 ramp := if r.kind = 2 then r.ramp.start 0 128 else r.ramp }
      else
        let want := a.delay - d
        let got := clampI (-maxStep) maxStep want
        { r with kind := a.kind, bus := a.bus, enter := false, leave := false, clamped := want ≠ got, dStart := d, dDelta := got,
                 gStart := r.gEnd, gEnd := a.gain, tStart := r.tEnd, tEnd := a.tilt, lag := (want - got).natAbs,
                 dist := a.dist, tabTilt := a.tabTilt }
  | none => enterRecord a

/-- A set with its records formed for the next frame; records that were leaving are released. -/
def handOver (maxStep : Nat) (old : List PathRec) (aims : List PathAim) : List PathRec :=
  aims.map (fun a => formRecord maxStep (old.find? (fun r => r.speaker == a.speaker && !r.leave)) a)

end Sys2Proof.Machine
end

