-- ==== Sys2Proof/Machine/Speaker.lean ====
section
/-!
DEFINITION. The speaker stage (spec chapter 07): blend matrix, column gain, room correction,
alignment delay and its fades, limiters, pilot and supervision, mute and polarity.
-/
namespace Sys2Proof.Machine

/-- A ramp's sixteen values over a block, and the ramp after it. -/
def rampVals : Nat → Ramp → Ramp × List Int
  | 0, r => (r, [])
  | k + 1, r =>
    let r1 := r.next
    let (r2, vs) := rampVals k r1
    (r2, r1.value :: vs)

/-- Two blocks combined sample by sample. -/
def zip2 (f : Int → Int → Int) : List Int → List Int → List Int
  | a :: as, b :: bs => f a b :: zip2 f as bs
  | _, _ => []

/-! ### Blend matrix (R185, R186) -/

/-- Key of the node of input `i` and feed `f`. -/
def nodeKey (i f : Nat) : Nat := i * 512 + f

/-- The sum of a feed's column: each product rounded on its own (R185). -/
def columnSum (input : Nat → List Int) (f : Nat) : Tbl Node → List Int → List Int
  | [], acc => acc
  | (k, nd) :: rest, acc =>
    if k % 512 = f then
      columnSum input f rest
        (addBlock acc (zip2 (fun x g => rdiv (x * g) (2 ^ 27)) (input (k / 512)) (rampVals 16 nd.gain).2))
    else columnSum input f rest acc

/-- The number of a column's active inputs (R186). -/
def activeInputs (auxLive : Nat → Bool) (f : Nat) (m : Tbl Node) : Nat :=
  (m.filter (fun p => p.1 % 512 == f && p.2.code != 0 && (p.1 / 512 < 512 || auxLive (p.1 / 512 - 512)))).length

/-- R186: the column gain's effective code. -/
def effectiveCode (gain mode n : Nat) : Nat :=
  if gain = 0 then 0
  else
    let s := if n ≤ 1 ∨ mode = 0 then 0 else if mode = 1 then logSteps 160 n else logSteps 320 n
    if gain ≤ s then 1 else gain - s

def columnGain (gain mode n : Nat) : Int := gain427 (effectiveCode gain mode n)

/-- A node set by a command, with its ramp (R185). -/
def setNode (m : Tbl Node) (n : Nat) (rec : Nat × Nat × Nat) : Tbl Node :=
  let k := nodeKey rec.1 rec.2.1
  let old := (tget m k).getD {}
  tset m k { code := rec.2.2, gain := old.gain.start (gain427 rec.2.2) n }

/-- The nodes after a block: ramps advanced, nodes that stand at 0 removed. -/
def matrixNext (m : Tbl Node) : Tbl Node :=
  (tmap (fun _ nd => { nd with gain := (rampVals 16 nd.gain).1 }) m).filter (fun p => p.2.code != 0 || p.2.gain.busy)

/-! ### Room correction (R188, R189) -/

/-- One FIR output: each product rounded to Q.27, the sum exact. -/
def firSum : List Int → List Int → Int
  | c :: cs, x :: xs => rdiv (c * x) (2 ^ 30) + firSum cs xs
  | _, _ => 0

/-- A filter over a block, from the input history before it (newest first). -/
def firRun (taps : List Int) : List Int → List Int → List Int × Nat
  | _, [] => ([], 0)
  | hist, x :: xs =>
    let y := if taps = [] then x else firSum taps (x :: hist)
    let (ys, n) := firRun taps (x :: hist) xs
    (sat427 y :: ys, n + sats y)

/-- A feed's mix slot after the column sum: biquads 0–15, FIR with its crossfade. -/
def feedFilters (fd : Feed) (xs : List Int) : Feed × List Int × Nat :=
  let (qs, bo, ys, n1) := eqBlock fd.biquads fd.bqOld xs
  let (zs, n2) := firRun fd.fir fd.hist ys
  let hist := (ys.reverse ++ fd.hist).take 8192
  match fd.firOld with
  | none => ({ fd with biquads := qs, bqOld := bo, hist := hist }, zs, n1 + n2)
  | some (old, w) =>
    if w.busy then
      let (os, n3) := firRun old fd.hist ys
      let (w1, mixed, n4) := mixBlock w os zs
      ({ fd with biquads := qs, bqOld := bo, hist := hist, firOld := some (old, w1) }, mixed, n1 + n2 + n3 + n4)
    else ({ fd with biquads := qs, bqOld := bo, hist := hist }, zs, n1 + n2)

/-- The mix slot of one feed (R183): column, gain, filters. -/
def feedMixSlot (input : Nat → List Int) (m : Tbl Node) (f : Nat) (fd : Feed) : Feed × List Int × List Fx :=
  let acc := columnSum input f m zeros16
  let (col, gs) := rampVals 16 fd.col
  let xs := zip2 (fun a g => rdiv (a * g) (2 ^ 27)) acc gs
  let n := (xs.map sats).sum
  let (fd1, ys, k) := feedFilters fd (xs.map sat427)
  ({ fd1 with col := col }, ys, fxBoth Reg.SPK_MIX_SAT n Reg.SPK_EVT 0 ++ fxCount Reg.SPK_EQ_SAT k)

/-- R190: taps in use by one feed. -/
def feedTaps (fd : Feed) : Nat := fd.fir.length + (match fd.firOld with | some (o, _) => o.length | none => 0)

def firPool (r96 : Bool) : Nat := if r96 then 1048576 else 2097152

/-! ### Alignment delay (R193–R195) -/

/-- H of R194: 5 ms. -/
def fadeLen (r96 : Bool) : Nat := if r96 then 480 else 240

/-- The gain of an alignment fade at pipeline index q, Q1.22. -/
def fadeGain (h : Nat) (fd : Fade) (q : Nat) : Int :=
  let falling (p : Nat) : Int := if p < fd.fall then 2 ^ 22 else if fd.fall + h ≤ p then 0
    else rdiv (2 ^ 22 * ((h - (p - fd.fall) : Nat) : Int)) h
  match fd.rise with
  | some (r, g0) =>
    if q < r then falling q
    else if r + h ≤ q then 2 ^ 22
    else g0 + rdiv ((2 ^ 22 - g0) * ((q - r : Nat) : Int)) h
  | none => falling q

/-- A feed's fades together: each multiplies the output (R194). -/
def fadesGain (h : Nat) (fades : List Fade) (q : Nat) : Int := fades.foldl (fun g x => rdiv (g * fadeGain h x q) (2 ^ 22)) (2 ^ 22)

/-- A fade that has risen to 1.0 before index q is over. -/
def Fade.over (h : Nat) (x : Fade) (q : Nat) : Bool := x.rise.any (fun r => decide (r.1 + h ≤ q))

/-- At the commit of its epoch at index `n` the oldest fade that has fallen rises (R194). -/
def fadeRise (h n : Nat) : List Fade → List Fade
  | [] => []
  | x :: r =>
    if x.rise.isNone && (x.held || decide (x.fall + h ≤ n)) then { x with rise := some (n, 0) } :: r else x :: fadeRise h n r

/-! ### Limiters (R197–R199) -/

/-- ALPHA of R197, Q0.30. -/
def peakAlpha (fs rel : Nat) : Int := rdiv ((one64 - expNeg64 1000 (rel * fs)) * 2 ^ 30) one64

/-- r(q) of R197. -/
def peakR (thr : Int) (x : Int) : Int :=
  if (x.natAbs : Int) ≤ thr then 2 ^ 30 else rdiv (thr * 2 ^ 30) x.natAbs

/-- h of R197 for the sample at place `at_` of a history (newest first) with lookahead `la`. -/
def peakH (thr : Int) (hist : List Int) (at_ la : Nat) : Int :=
  ((List.range (la + 1)).map (fun k =>
    (2 : Int) ^ 30 - rdiv ((2 ^ 30 - peakR thr (sampleAt hist (at_ - k))) * ((la + 1 - k : Nat) : Int)) ((la + 1 : Nat) : Int))).foldl min (2 ^ 30)

/-- The peak limiter over the samples that stand at places `at_`, `at_` − 1, … of the line; `tap`
holds the samples at the output tap after the fade. -/
def peakRun (thr alpha : Int) (hist : List Int) (la : Nat) : List Int → List Int → Nat → Int → Int × List Int × Int
  | x :: xs, gth :: gs, at_, gp =>
    let h := peakH thr hist at_ la
    let g1 := min h (gp + rdiv ((2 ^ 30 - gp) * alpha) (2 ^ 30))
    let xt := rdiv (x * gth) (2 ^ 30)
    let y := sat427 (rdiv (xt * g1) (2 ^ 30))
    let (ge, ys, lo) := peakRun thr alpha hist la xs gs (at_ - 1) g1
    (ge, y :: ys, min lo g1)
  | _, _, _, gp => (gp, [], gp)

/-- A gain in Q1.30 as a reduction in 1/256 dB. -/
def reduction (g : Nat) : Nat := if g = 0 then 0xFFFF else min 0xFFFF (ratioDb (2 ^ 60) (g * g)).toNat

/-- A value moved toward a target by a coefficient in units of 2⁻⁶⁴. -/
def toward (x t c : Int) : Int := x + rdiv ((t - x) * c) one64

/-- Steps 1 to 3 of R198, exact: power estimate and gain in units of 2⁻⁶⁴ after a block of samples at the output tap. -/
def thermalExact (fs : Nat) (lim : LimiterCfg) (power ideal : Nat) (tap : List Int) : Nat × Nat :=
  let mean : Int := rdiv ((tap.map (fun x => x * x)).sum * 2 ^ 10) 16
  let p := (toward power mean (one64 - expNeg64 160 (lim.tau * fs))).toNat
  let root := isqrt (p * 2 ^ 64)
  let t0 := if root = 0 then 2 ^ 64 else min (2 ^ 64) (gainLin 27 lim.thermThr * 2 ^ 101 / root)
  let t := max t0 (min (2 ^ 64) (gainLin 30 lim.floor * 2 ^ 34))
  let ms := if t < ideal then lim.att else lim.rel
  (p, (toward ideal t (one64 - expNeg64 16000 (ms * fs))).toNat)

/-- Thermal limiter, once per block (R198): power estimate, exact gain, and the gain applied, within ±0.01 dB of it. -/
def thermalStep (fs : Nat) (lim : LimiterCfg) (power ideal : Nat) (tap : List Int) : Nat × Nat × Nat :=
  if lim.thermThr = 0 then (power, 2 ^ 64, 2 ^ 30)
  else
    let (p, g) := thermalExact fs lim power ideal tap
    if 2 ^ 64 ≤ g then (p, 2 ^ 64, 2 ^ 30)
    else
      let e : Int := rdiv g (2 ^ 34)
      (p, g, (clampI 0 (2 ^ 30) (within (e.toNat / 869) e (Config.tolerance [9, p, g]))).toNat)

/-- Both limiters over one block. A peak limiter that is off releases what gain reduction it still has, so that its gain does not
jump (R199). -/
def limiterBlock (fs : Nat) (fd : Feed) (hist tap raw : List Int) : Feed × List Int × List Fx :=
  let (p, ideal, g) := thermalStep fs fd.lim fd.power fd.thIdeal raw
  let gs : List Int := (List.range 16).map (fun j =>
    (fd.gthPrev : Int) + rdiv (((fd.gth : Int) - fd.gthPrev) * ((j + 1 : Nat) : Int)) 16)
  let la := min fd.lim.look fd.len
  let thr : Int := if fd.lim.peakThr = 0 then 2 ^ 32 else gain427 fd.lim.peakThr
  let (gp, ys, lo) := peakRun thr (peakAlpha fs fd.lim.peakRel) hist la tap gs (15 + fd.len) fd.gp
  let peak := decide (lo < 2 ^ 30)
  let therm := decide (fd.gth < 2 ^ 30) || decide (fd.gthPrev < 2 ^ 30)
  ({ fd with power := p, thIdeal := ideal, gthPrev := fd.gth, gth := g, gp := gp.toNat, peakOn := peak, thermOn := therm,
             gr := (reduction lo.toNat, reduction (min fd.gth fd.gthPrev)) }, ys,
   (if peak && !fd.peakOn then [.count Reg.SPK_PEAK_ONSETS 1, .evt Reg.SPK_EVT 1] else []) ++
   (if therm && !fd.thermOn then [.count Reg.SPK_THERM_ONSETS 1, .evt Reg.SPK_EVT 2] else []))

/-! ### Pilot and supervision (R200, R201) -/

/-- The pilot's phase increment. -/
def pilotInc (freq fs : Nat) : Nat := (rdiv (freq * 2 ^ 32) (16 * fs)).toNat

/-- A pilot sample at phase `phi` with amplitude `amp` (Q4.27), within 2⁻²⁶ of the exact value. -/
def pilotSample (amp : Int) (phi : Nat) : Int :=
  about 2 (amp * sin64 (twoPi64 * phi / 2 ^ 32)) (2 ^ 64) (Config.tolerance [amp, phi])

/-- The pilot over a block: ramped amplitude, phase advanced before each sample (R200). -/
def pilotRun (inc : Nat) : List Int → Nat → List Int × Nat
  | [], phi => ([], phi)
  | a :: as, phi =>
    let phi1 := (phi + inc) % 2 ^ 32
    let (ys, e) := pilotRun inc as phi1
    ((if a = 0 then 0 else pilotSample a phi1) :: ys, e)

/-- The sum of a window's samples with a weight that runs through the phases of an increment, in units of 2⁻⁵⁹. -/
def phased (w : Int → Int) (inc : Nat) (xs : List Int) : Int :=
  (xs.zipIdx.map (fun p => p.1 * w (twoPi64 * ((p.2 * inc % 2 ^ 32 : Nat) : Int) / 2 ^ 32))).sum / 2 ^ 32

/-- A of R201 over a window, in units of 2⁻⁵⁹. Which way the window is read changes nothing in an amplitude. -/
def toneAmplitude (inc : Nat) (xs : List Int) : Nat :=
  let re := phased cos64 inc xs
  let im := phased sin64 inc xs
  isqrt (re * re + im * im).toNat / 2048

/-- The end of a supervision window (R201): amplitude, fault state. -/
def superviseWindow (f : Nat) (fd : Feed) (fs : Nat) : Feed × List Fx :=
  let a := codeOf (toneAmplitude (pilotInc fd.pilot.freq fs) fd.win)
  let inside := decide (fd.pilot.lo ≤ a ∧ a ≤ fd.pilot.hi)
  let bad := if inside then 0 else fd.bad + 1
  let good := if inside then fd.good + 1 else 0
  let onset := !fd.fault && decide (fd.pilot.windows ≤ bad)
  let fault := if onset then true else if fd.pilot.windows ≤ good then false else fd.fault
  ({ fd with win := [], bad := bad, good := good, fault := fault, lastA := a },
   if onset then [.sat (Reg.SPK_PILOT_FAULTj + 4 * (f / 32)) (f % 32) Reg.SPK_EVT 3,
                  .count Reg.SPK_PILOT_FAULTS 1, .evt Reg.SPK_EVT 3] else [])

/-! ### The feed slot (R183) -/

/-- The feed slot of one feed for block `n`: line, fade, limiters, pilot, mutes, polarity. `stage`
holds the stage mute's sixteen gains. -/
def feedFeedSlot (r96 : Bool) (fs : Nat) (stage : List Int) (n : Nat) (fd : Feed) (xs : List Int) :
    Feed × List Int × List Fx :=
  let hist := xs.reverse ++ fd.line
  let h := fadeLen r96
  let raw := readBack hist fd.len
  let tap := (List.range 16).map (fun i => rdiv (sampleAt raw i * fadesGain h fd.fades (n + i)) (2 ^ 22))
  let (fd1, ys, fx) := limiterBlock fs fd hist tap raw
  let (pg, amps) := rampVals 16 fd1.pilGain
  let (pil, phi) := pilotRun (pilotInc fd1.pilot.freq fs) amps fd1.phi
  let pre := if fd1.pilot.inMute then ys else zip2 (fun a b => sat427 (a + b)) ys pil
  let (mg, ms, _) := rampBlock fd1.mute pre
  let muted := zip2 (fun a g => sat427 (rdiv (a * g) (2 ^ 27))) ms stage
  let post := if fd1.pilot.inMute then zip2 (fun a b => sat427 (a + b)) muted pil else muted
  let (pol, out, _) := rampBlock fd1.pol post
  ({ fd1 with line := hist.take fd.len, fades := fd.fades.filter (fun x => !x.over h (n + 16)), pilGain := pg, phi := phi,
              mute := mg, pol := pol }, out, fx)

/-- Samples of magnitude 1.0 or more (R40). -/
def clipCount (xs : List Int) : Nat := (xs.filter (fun x => decide (2 ^ 27 ≤ x.natAbs))).length

/-- A change of line length at its block (R194): samples dropped and zeros added. -/
def setLineLen (fd : Feed) (len : Nat) : Feed × Nat × Nat :=
  ({ fd with len := len, line := fd.line.take len }, fd.len - len, len - fd.len)

/-- A feed as it stands after an entry to STANDBY (R212). -/
def feedStandby (fd : Feed) : Feed :=
  { fd with col := fd.col.done, biquads := fd.biquads.map Biquad.cleared, bqOld := none, firOld := none, hist := [],
            line := [], fades := [], moved := none, power := 0, thIdeal := 2 ^ 64, gp := 2 ^ 30, gth := 2 ^ 30, gthPrev := 2 ^ 30, mute := fd.mute.done,
            pol := fd.pol.done, pilGain := fd.pilGain.done, phi := 0, win := [] }

def unity : Int := 2 ^ 27

/-- FEED_CONFIG OP 0, the part that acts at the mix slot (R208). `n` is the active-input count. -/
def applyFeedMix (len n : Nat) (c : FeedBasic) (ms : Nat) (fd : Feed) : Feed :=
  let cfg : FeedBasic := { fd.cfg with gain := c.gain, sumIn := c.sumIn, sumOut := c.sumOut }
  { fd with cfg := cfg, rampMs := ms, col := fd.col.start (columnGain c.gain fd.scale n) len }

/-- FEED_CONFIG OP 0, the part that acts at the feed slot: mute, polarity, destinations. -/
def applyFeedOut (len : Nat) (c : FeedBasic) (fd : Feed) : Feed :=
  let cfg : FeedBasic := { fd.cfg with mute := c.mute, invert := c.invert, dest0 := c.dest0, dest1 := c.dest1 }
  { fd with cfg := cfg, mute := fd.mute.start (if c.mute then 0 else unity) len,
            pol := fd.pol.start (if c.invert then -unity else unity) len }

/-- The supervision fields of R206. -/
def PilotCfg.watch (c : PilotCfg) : Bool × Nat × Nat × Nat × Nat × Nat × Nat :=
  (c.supEn, c.supType, c.supIndex, c.supChan, c.lo, c.hi, c.windows)

/-- FEED_CONFIG OP 2 (R200, R201). A change of supervision restarts the window count (R208). -/
def applyPilot (len : Nat) (c : PilotCfg) (fd : Feed) : Feed :=
  let f1 := { fd with pilot := c, phi := if c.enable && !fd.pilot.enable then 0 else fd.phi,
                      pilGain := fd.pilGain.start (if c.enable then gain427 c.level else 0) len }
  if c.watch = fd.pilot.watch then f1 else { f1 with win := [], bad := 0, good := 0 }

end Sys2Proof.Machine
end

