-- ==== Sys2Proof/Machine/Corridor.lean ====
section
/-!
DEFINITION. Corridor routes (R215), OVERRIDE_N and MUTE_N (R220–R222) and the service DAC
(R224–R230), one sample period at a time.
-/
namespace Sys2Proof.Machine

/-- One sample of a route (R215): the route after it, y, and its saturations. -/
def routeSample (fetch : Dest → Int × Bool) (r : Route) : Route × Int × Nat :=
  let (x0, gone) := fetch r.cfg.src
  let (x, so, n0) := match r.srcOld with
    | none => (x0, none, 0)
    | some (o, w) =>
      let w1 := w.next
      let z := rdiv ((fetch o).1 * (2 ^ 27 - w1.value) + x0 * w1.value) (2 ^ 27)
      (sat427 z, if w1.busy then some (o, w1) else none, sats z)
  let g := r.gain.next
  let y := rdiv (x * g.value) (2 ^ 27)
  let on := r.live && (r.cfg.enable || g.busy)
  ({ r with gain := g, srcOld := so, absent := gone, live := on, drop := if on then r.drop else [] },
   sat427 y, n0 + sats y)

/-- The gain a route's fields ask for. -/
def routeGain (c : RouteCfg) : Int :=
  if c.enable then (if c.invert then -gain427 c.gain else gain427 c.gain) else 0

/-- Destinations that the route sends to. -/
def Route.outs (r : Route) : List Dest := r.cfg.dests ++ r.drop

/-- A route change from its input index on (R218). A crossfade that runs goes on where the source stays; a destination that
ENABLE 0 drops is fed to the end of the ramp. -/
def applyRoute (n : Nat) (c : RouteCfg) (r : Route) : Route :=
  let so := if !r.live then none else if c.src ≠ r.cfg.src then some (r.cfg.src, Ramp.weight n) else r.srcOld
  { cfg := c, gain := (if r.live then r.gain else {}).start (routeGain c) n, live := r.live || c.enable,
    drop := if r.live && !c.enable then r.outs.filter (fun d => !c.dests.contains d) else [],
    srcOld := so, absent := r.absent }

/-! ### Override and mute -/

/-- One sample start of a pin's filter (R220): `level` is `true` when the pin is high. The pin's
recognised state changes when four consecutive sample starts disagree with it. -/
def pinFilter (level asserted : Bool) (count : Nat) : Bool × Nat :=
  if level = asserted then (if count + 1 ≥ 4 then (!asserted, 0) else (asserted, count + 1)) else (asserted, 0)

/-- The first multiple of 16 at or after r + 16 (R221, R222). -/
def rampStartAt (r : Nat) : Nat := ((r + 16 + 15) / 16) * 16

/-- The override weight w at output index k, Q1.22 (R221). -/
def ovrWeight (o : OvrSt) (k : Nat) : Int :=
  o.wFrom + rdiv ((o.wTo - o.wFrom) * risingWeight o.wStart o.wLen k) (2 ^ 22)

/-- Whether the weight is ramping at output index k. -/
def ovrFading (o : OvrSt) (k : Nat) : Bool := o.wStart ≤ k && decide (k < o.wStart + o.wLen) && o.wFrom != o.wTo

/-- A new ramp of w from the value it has at its start toward `to` (R221). -/
def ovrStart (o : OvrSt) (k : Nat × Int × Nat) : OvrSt :=
  { o with wFrom := ovrWeight o k.1, wTo := k.2.1, wStart := k.1, wLen := k.2.2 }

/-- The override with the ramps that start at or before output index k begun. -/
def ovrAt (o : OvrSt) (k : Nat) : OvrSt :=
  let o1 := (o.wNext.filter (fun n => n.1 ≤ k)).foldl ovrStart o
  { o1 with wNext := o.wNext.filter (fun n => decide (k < n.1)) }

/-- A ramp takes its place among those that are to start: one that was to start at its index or later goes. -/
def planRamp (l : List (Nat × Int × Nat)) (n : Nat × Int × Nat) : List (Nat × Int × Nat) :=
  l.filter (fun m => decide (m.1 < n.1)) ++ [n]

/-- The sample a feed destination sends (R221): feed, announcement, weight, MUTE_N gain. -/
def ovrMix (pass : Bool) (w mn feed ann : Int) : Int :=
  let a := if pass then ann * 2 ^ 27 else ann * mn
  sat427 (rdiv ((2 ^ 22 - w) * feed * mn + w * a) (2 ^ 49))

/-! ### Service DAC -/

/-- What an output drives (R224, R226), in units of 2.5 V / 65,536: V = c × F / 65,536 with F = 2.5 V or 5.0 V, and 0 V while
it is clamped. -/
def SdacCh.volts (c : SdacCh) : Nat := if c.clamped then 0 else if c.range then 2 * c.code else c.code

/-- A strobe of a channel (R226, R227): a stream-class channel ignores it; a change of range clamps. -/
def sdacStrobe (c : SdacCh) : SdacCh :=
  if c.stream then c
  else match c.pending with
    | some _ => { c with pending := some (c.holdCode, c.holdRange), loaded := false }
    | none =>
      if c.holdRange ≠ c.range then
        { c with pending := some (c.holdCode, c.holdRange), clamped := true, loaded := false }
      else if c.loaded ∨ c.first then
        { c with code := c.holdCode, range := c.holdRange, clamped := false, loaded := false, first := true }
      else c

/-- The range clamp of 20 µs ends (R226). -/
def sdacUnclamp (c : SdacCh) : SdacCh :=
  match c.pending with
  | some (code, rng) => { c with code := code, range := rng, clamped := false, pending := none, first := true }
  | none => c

/-- The stream sample formed at this instant, and whether a TAP sample saturated (R230). -/
def sdacSample (c : SdacCh) (tap : Int) : Nat × Bool :=
  let span : Int := (c.hi : Int) - c.lo
  if c.src = 0 then
    let v : Int := 32768 + rdiv tap (2 ^ 12)
    ((clampI 0 65535 v).toNat, decide (v < 0 ∨ 65535 < v))
  else if c.src = 1 then
    let t : Int := if c.phi < 2 ^ 31 then 2 * c.phi else 2 * (2 ^ 32 - (c.phi : Int))
    (((c.lo : Int) + span * t / 2 ^ 32).toNat, false)
  else if c.src = 2 then (((c.lo : Int) + span * c.phi / 2 ^ 32).toNat, false)
  else (((c.lo : Int) + (span + 1) * ((c.lfsr % 65536 : Nat) : Int) / 2 ^ 16).toNat, false)

/-- One stream sample output: code, phase and LFSR advance (R230). -/
def sdacAdvance (fs : Nat) (tap : Int) (c : SdacCh) : SdacCh × Bool :=
  let (code, clip) := sdacSample c tap
  let rate := if c.rate2 then 2 * fs else fs
  let inc := (rdiv (c.freq * 2 ^ 32) (16 * rate)).toNat
  let bit := (c.lfsr / 2 ^ 22 + c.lfsr / 2 ^ 17) % 2
  let c1 := { c with phi := (c.phi + inc) % 2 ^ 32, lfsr := (2 * c.lfsr + bit) % 2 ^ 23 }
  match c.pending with
  | some (_, r) => ({ c1 with pending := some (code, r) }, clip)
  | none => ({ c1 with code := code, clamped := false, first := true }, clip)

/-- The effect of an SDAC_WRITE when it applies (R226, R229). During a clamp the range in force is yet to be driven: the write
updates what is driven when the clamp ends. -/
def sdacApply (w : SdacWrite) (c : SdacCh) : SdacCh :=
  if w.stream then
    let same := c.stream && c.src == w.src && c.rate2 == w.rate2 && c.freq == w.freq && c.lo == w.lo && c.hi == w.hi &&
      c.tap == w.tap && c.seed == w.seed
    let c1 := { c with stream := true, src := w.src, rate2 := w.rate2, freq := w.freq, lo := w.lo, hi := w.hi,
                       tap := w.tap, seed := w.seed, loaded := false,
                       phi := if same then c.phi else 0, lfsr := if same then c.lfsr else w.seed }
    if c.pending.isSome ∨ w.range ≠ c.range then { c1 with pending := some (c.code, w.range), clamped := true }
    else { c1 with range := w.range, clamped := false, first := true }
  else
    let c1 := { c with stream := false, holdCode := w.code, holdRange := w.range, loaded := true }
    if w.strobe then sdacStrobe c1 else c1

end Sys2Proof.Machine
end

