-- ==== Sys2Proof/Machine/Geometry.lean ====
section
/-!
DEFINITION. The geometry unit (spec chapter 05): reading a shelf image, table and direct
evaluation, the air model, path targets, the normaliser, trimming, pruning and selection. An
image is given as a function from its byte offset to the byte.
-/
namespace Sys2Proof.Machine

/-- `n` bytes of an image at offset `o`, little-endian. -/
def imgNat (img : Nat → Byte) (o : Nat) : Nat → Nat
  | 0 => 0
  | n + 1 => (img o).toNat + 256 * imgNat img (o + 1) n

def imgInt (img : Nat → Byte) (o n : Nat) : Int := signed (8 * n) (imgNat img o n)

/-- Offset and length of the section of a type and SEC_VERSION 1 (R93, R94). -/
def findSection (img : Nat → Byte) (type : Nat) : Option (Nat × Nat) :=
  ((List.range (imgNat img 26 2)).find? (fun k =>
    imgNat img (64 + 32 * k) 2 == type && imgNat img (64 + 32 * k + 4) 4 == 1)).map
    (fun k => (imgNat img (64 + 32 * k + 8) 8, imgNat img (64 + 32 * k + 16) 8))

/-- A section's payload as an image of its own. -/
def sectionImg (img : Nat → Byte) (type : Nat) : Option (Nat → Byte) :=
  (findSection img type).map (fun s o => img (s.1 + o))

/-! ### Speaker table (R138) -/

structure Spk where
  bus    : Nat
  zone   : Nat
  direct : Bool
  interp8 : Bool
  exempt : Bool
  pos    : Pos
  offset : Nat
  trim   : Nat
  ref    : Nat
  az     : Int
  el     : Int
  cover  : Nat
  law    : Nat
deriving DecidableEq, Repr, Inhabited

def spkCount (g : Nat → Byte) : Nat := imgNat g 6 2

def spkRec (g : Nat → Byte) (k : Nat) : Spk :=
  let o := 64 + 32 * k
  { bus := imgNat g o 2, zone := imgNat g (o + 2) 1, direct := (imgNat g (o + 3) 1) % 2 == 1,
    interp8 := (imgNat g (o + 3) 1 / 2) % 2 == 1, exempt := (imgNat g (o + 3) 1 / 4) % 2 == 1,
    pos := ⟨imgInt g (o + 4) 4, imgInt g (o + 8) 4, imgInt g (o + 12) 4⟩, offset := imgNat g (o + 16) 4,
    trim := imgNat g (o + 20) 2, ref := imgNat g (o + 22) 2, az := imgInt g (o + 24) 2, el := imgInt g (o + 26) 2,
    cover := imgNat g (o + 28) 1, law := imgNat g (o + 29) 1 }

/-! ### Table evaluation (R142, R143) -/

/-- One axis of R142: the two voxels and the weight of the second. -/
def axis (p org : Int) (size n : Nat) : Nat × Nat × Nat :=
  let u0 : Int := ((p - org) * 65536).tdiv size - 32768
  let u := (clampI 0 (((n - 1) * 65536 : Nat) : Int) u0).toNat
  (u / 65536, min (u / 65536 + 1) (n - 1), u % 65536)

/-- The eight voxels around a point with their Q0.48 weights, on the grid whose header is at `g`. -/
def corners (g : Nat → Byte) (p : Pos) : List (Nat × Nat) :=
  let nx := imgNat g 0 2
  let ny := imgNat g 2 2
  let (i0, i1, fx) := axis p.x (imgInt g 8 4) (imgNat g 20 4) nx
  let (j0, j1, fy) := axis p.y (imgInt g 12 4) (imgNat g 24 4) ny
  let (k0, k1, fz) := axis p.z (imgInt g 16 4) (imgNat g 28 4) (imgNat g 4 2)
  let xs := [(i0, 65536 - fx), (i1, fx)]
  let ys := [(j0, 65536 - fy), (j1, fy)]
  let zs := [(k0, 65536 - fz), (k1, fz)]
  (zs.map (fun z => (ys.map (fun y => xs.map (fun x => (x.1 + nx * (y.1 + ny * z.1), x.2 * y.2 * z.2)))).flatten)).flatten

/-- Whether a position lies outside the grid (R143). -/
def outOfGrid (g : Nat → Byte) (p : Pos) : Bool :=
  let off (c : Int) (o so nO : Nat) : Bool :=
    let org := imgInt g o 4
    decide (c < org ∨ org + ((imgNat g nO 2 * imgNat g so 4 : Nat) : Int) ≤ c)
  off p.x 8 20 0 || off p.y 12 24 2 || off p.z 16 28 4

/-- The entries of a voxel: speaker, gain, distance, tilt (R139, R140). -/
def voxel (g : Nat → Byte) (v : Nat) : List (Nat × Nat × Nat × Nat) :=
  let o := imgNat g 40 4 + 8 * v
  let first := imgNat g o 4
  (List.range (imgNat g (o + 4) 1)).map (fun i =>
    let e := imgNat g 44 4 + 16 * (first + i)
    (imgNat g e 2, imgNat g (e + 2) 2, imgNat g (e + 4) 4, imgNat g (e + 8) 2))

/-- Insert into an ascending list without repeats. -/
def insertAsc (k : Nat) : List Nat → List Nat
  | [] => [k]
  | j :: r => if k < j then k :: j :: r else if k = j then j :: r else j :: insertAsc k r

/-- R142 at one point: a candidate (speaker, gain Q1.22, distance, tilt) per speaker named at a corner. A
corner of `bad` met an uncorrectable error and counts as empty (R143). A speaker named only at corners of zero
weight has gain 0; R142 divides by zero for its distance and tilt, which are free. The flag says it has none. -/
def tableEval (g : Nat → Byte) (bad : Nat → Bool) (p : Pos) : List ((Nat × Int × Int × Nat) × Bool) :=
  let cs := (corners g p).zipIdx.map (fun c => (c.1.2, if bad c.2 then [] else voxel g c.1.1))
  let named := cs.foldl (fun a c => c.2.foldl (fun a e => insertAsc e.1 a) a) []
  named.map (fun sp =>
    let hits := cs.filterMap (fun c => (c.2.find? (fun e => e.1 == sp)).map (fun e => (c.1, e)))
    let gs : Nat := (hits.map (fun h => h.1 * h.2.2.1)).sum
    let wp : Nat := (hits.map (fun h => h.1)).sum
    let ds : Nat := (hits.map (fun h => h.1 * h.2.2.2.1)).sum
    let ts : Nat := (hits.map (fun h => h.1 * h.2.2.2.2)).sum
    if wp = 0 then
      ((sp, 0, clampI 0 0xFFFFFFFF (Config.tolerance [7, p.x, p.y, p.z, sp]),
        (clampI 0 0xFFFF (Config.tolerance [8, p.x, p.y, p.z, sp])).toNat), true)
    else ((sp, sat122 (rdiv gs (2 ^ 41)), rdiv ds wp, (rdiv ts wp).toNat), false))

/-! ### Direct computation (R144–R146) -/

def Pos.sub (a b : Pos) : Pos := ⟨a.x - b.x, a.y - b.y, a.z - b.z⟩
def Pos.sq (a : Pos) : Nat := (a.x * a.x + a.y * a.y + a.z * a.z).toNat

/-- The unit vector of an ADM azimuth and elevation in units of 1/128 degree, scaled by 2⁶⁴ (R115). -/
def aimVec (az el : Int) : Pos :=
  let a := deg64 az 128
  let e := deg64 el 128
  ⟨-(mul64 (sin64 a) (cos64 e)), mul64 (cos64 a) (cos64 e), sin64 e⟩

/-- The angle between an aim and a direction, 2⁻¹⁶ degree, within ±0.01° (R144). -/
def angleTo (aim v : Pos) : Nat :=
  if v.sq = 0 then 0
  else
    let dot := (aim.x * v.x + aim.y * v.y + aim.z * v.z) / 2 ^ 32
    let exact : Int := acos16 dot (isqrt (v.sq * 2 ^ 64))
    (clampI 0 11796480 (within 655 exact (Config.tolerance [1, aim.x, aim.y, aim.z, v.x, v.y, v.z]))).toNat

/-- g_cov of R144 in units of 2⁻⁴⁰; `none` outside COVER + 15°. -/
def coverGain (cover theta : Nat) : Option Nat :=
  if cover = 180 ∨ theta ≤ cover * 65536 then some (2 ^ 40)
  else if theta < (cover + 15) * 65536 then some (((cover + 15) * 65536 - theta) * 2 ^ 40 / (15 * 65536))
  else none

/-- R144 for one DIRECT speaker at P. -/
def directEval (k : Nat) (s : Spk) (p : Pos) : Option (Nat × Int × Int × Nat) :=
  let v := s.pos.sub p
  let d : Nat := isqrt v.sq + (clampI 0 1 (Config.tolerance [2, v.x, v.y, v.z])).toNat
  (coverGain s.cover (angleTo (aimVec s.az s.el) v)).map (fun cov =>
    let ref := s.ref * 256
    let de := max d (ref / 2)
    let law := if s.law = 0 then ref * 2 ^ 40 / de else if s.law = 1 then isqrt (ref * 2 ^ 80 / de) else 2 ^ 40
    let g := cov * law / 2 ^ 58
    (k, within (g / 8700) g (Config.tolerance [3, v.x, v.y, v.z, k]), d, 0))

/-- R145 for one speaker and the direction `u` of the locker; the flag says the distance was negative. -/
def waveEval (waveRef : Nat) (k : Nat) (s : Spk) (u : Pos) : Option ((Nat × Int × Int × Nat) × Bool) :=
  let len := isqrt (u.sq * 2 ^ 32)
  let dot := u.x * s.pos.x + u.y * s.pos.y + u.z * s.pos.z
  let dist : Int := (waveRef : Int) - rdiv (dot * 2 ^ 16) len
  (coverGain s.cover (angleTo (aimVec s.az s.el) ⟨-u.x, -u.y, -u.z⟩)).map (fun cov =>
    ((k, ((cov / 2 ^ 18 : Nat) : Int), max dist 0, 0), decide (dist < 0)))

/-- The candidates at one point: table speakers and DIRECT speakers (R142, R144); the flag as in `tableEval`. -/
def pointEval (g : Nat → Byte) (bad : Nat → Bool) (p : Pos) : List ((Nat × Int × Int × Nat) × Bool) :=
  let ds := (List.range (spkCount g)).filterMap (fun k =>
    let s := spkRec g k
    if s.direct && s.trim != 0 then directEval k s p else none)
  tableEval g bad p ++ ds.map (fun e => (e, false))

/-- The six points at distance `r` from a centre along the axes (R146). -/
def around (c : Pos) (r : Int) : List Pos :=
  [⟨c.x + r, c.y, c.z⟩, ⟨c.x - r, c.y, c.z⟩, ⟨c.x, c.y + r, c.z⟩, ⟨c.x, c.y - r, c.z⟩, ⟨c.x, c.y, c.z + r⟩, ⟨c.x, c.y, c.z - r⟩]

/-- R146: the seven points of a SPREAD evaluation, combined per speaker. DEDUCED (assumption 20): a speaker counts as present at
a point where R142 or R144 gives it a distance; one that has none at any point keeps the free ones. -/
def spreadEval (g : Nat → Byte) (bad : Nat → Bool) (c : Pos) (r : Nat) : List (Nat × Int × Int × Nat) :=
  let ri : Int := r
  let at_ := pointEval g bad c
  let others := (around c ri).zipIdx.map (fun p => pointEval g (fun k => bad (8 * (p.2 + 1) + k)) p.1)
  let all := at_ :: others
  let named := all.foldl (fun a l => l.foldl (fun a e => insertAsc e.1.1 a) a) []
  let found (sp : Nat) (l : List ((Nat × Int × Int × Nat) × Bool)) := (l.find? (fun e => e.1.1 == sp && !e.2)).map (fun e => e.1)
  named.map (fun sp =>
    let real := all.filterMap (found sp)
    let hits := if real.isEmpty then (all.flatten.map (fun e => e.1)).filter (fun e => e.1 == sp) else real
    let sq : Int := (hits.map (fun (e : Nat × Int × Int × Nat) => e.2.1 * e.2.1)).sum
    let g2 : Int := isqrt (sq.toNat * 4 / 7)
    let n : Int := hits.length
    match found sp at_ with
    | some e => (sp, rdiv g2 2, e.2.2.1, e.2.2.2)
    | none => (sp, rdiv g2 2, rdiv (hits.map (fun (e : Nat × Int × Int × Nat) => e.2.2.1)).sum n,
        (rdiv (((hits.map (fun (e : Nat × Int × Int × Nat) => e.2.2.2)).sum : Nat) : Int) n).toNat))

/-! ### Air (R147, R148) -/

/-- c in µm/s from Q8.8 temperature and humidity, within ±0.01 m/s. -/
def soundSpeed (t h : Int) : Nat :=
  let exact : Int := isqrt ((331300000 * 331300000 * (699264 + 10 * t) / 699264).toNat) + 12400 * h / 256
  (within 10000 exact (Config.tolerance [4, t, h])).toNat

/-- K_z, Q10.30 samples per metre, relative error below 10⁻⁷. -/
def kz (fs c : Nat) : Nat :=
  let k := fs * 1000000 * 2 ^ 30 / c
  (within (k / 10000000) k (Config.tolerance [5, fs, c])).toNat

/-- The absorption A, in units of 2⁻¹⁶ dB/m divided by 1280·2560 (bilinear, exact). -/
def absorb (table : Nat → Nat → Nat) (t h : Int) : Nat :=
  let tt := (clampI (-5120) 14080 t + 5120).toNat
  let hh := (clampI 0 25600 h).toNat
  let i := min (tt / 1280) 14
  let j := min (hh / 2560) 9
  let f := tt - i * 1280
  let e := hh - j * 2560
  table i j * (1280 - f) * (2560 - e) + table (i + 1) j * f * (2560 - e) +
    table i (j + 1) * (1280 - f) * e + table (i + 1) (j + 1) * f * e

/-- Built-in absorption at −20 °C to +15 °C, one row a temperature, one entry a humidity, 2⁻¹⁶ dB/m. -/
def isoCold : List (List Nat) :=
  [[1011, 1072, 1174, 1314, 1488, 1693, 1927, 2185, 2465, 2764, 3079],
   [1026, 1150, 1377, 1695, 2089, 2548, 3060, 3612, 4192, 4785, 5378],
   [1041, 1294, 1791, 2482, 3322, 4264, 5257, 6253, 7202, 8067, 8816],
   [1056, 1572, 2621, 4036, 5648, 7278, 8762, 9979, 10871, 11433, 11706],
   [1071, 2108, 4215, 6819, 9331, 11280, 12465, 12944, 12902, 12535, 11994],
   [1087, 3124, 7027, 10925, 13415, 14262, 13996, 13194, 12220, 11252, 10362],
   [1104, 4971, 11243, 15049, 15548, 14420, 12904, 11477, 10260, 9252, 8420],
   [1120, 8082, 15864, 16854, 14831, 12604, 10795, 9406, 8341, 7511, 6855]]

/-- The same at +20 °C to +55 °C. -/
def isoWarm : List (List Nat) :=
  [[1137, 12660, 18596, 15852, 12687, 10410, 8828, 7701, 6873, 6246, 5760],
   [1155, 17926, 18297, 13565, 10479, 8575, 7335, 6484, 5875, 5424, 5083],
   [1172, 21788, 16132, 11271, 8714, 7243, 6322, 5710, 5287, 4988, 4772],
   [1190, 22589, 13597, 9435, 7458, 6377, 5731, 5327, 5069, 4907, 4809],
   [1209, 20841, 11414, 8121, 6666, 5923, 5523, 5311, 5211, 5183, 5202],
   [1227, 18091, 9765, 7284, 6289, 5857, 5691, 5668, 5728, 5837, 5975],
   [1246, 15405, 8635, 6880, 6310, 6181, 6251, 6422, 6643, 6886, 7135],
   [1265, 13200, 7979, 6890, 6737, 6915, 7227, 7589, 7958, 8311, 8638]]

/-- The built-in absorption table (R148): ISO 9613-1 at 10 kHz and 101.325 kPa, to the nearest 2⁻¹⁶ dB/m. PRESUMED
(assumption 65): the standard's formulas are not in the spec. -/
def isoAbsorption (i j : Nat) : Nat := ((isoCold ++ isoWarm).getD i []).getD j 0

/-- The absorption table in force for a shelf image (R148, R149). -/
def absorbTable (img : Nat → Byte) (i j : Nat) : Nat :=
  match sectionImg img 2 with
  | some a => if imgNat a 0 1 % 2 = 1 then imgNat a (80 + 2 * (i + 16 * j)) 2 else isoAbsorption i j
  | none => isoAbsorption i j

/-! ### Path targets (R152) -/

/-- Delay in 1/4,096 sample before clamping. -/
def pathDelay (fs k : Nat) (offset : Nat) (dist : Int) : Int :=
  (dist * k + 2 ^ 33) / 2 ^ 34 - (((offset * fs * 4096 + 500000000) / 1000000000 : Nat) : Int)

/-- Tilt with the air's share, 1/64 dB at 10 kHz. -/
def pathTilt (a : Nat) (dist : Int) (tab : Nat) : Nat :=
  min (tab + (rdiv (dist * a * 64) (2 ^ 32 * 3276800)).toNat) 0xFFFF

/-- Everything a frame's geometry reads beside the image: rate, air and registers. -/
structure GeoEnv where
  r96     : Bool
  fs      : Nat
  /-- per zone: K and the absorption of R148 -/
  zones   : List (Nat × Nat)
  waveRef : Nat
  floor   : Int
  normEn  : Bool
  up      : Int
  down    : Int
  slew    : Int
deriving DecidableEq, Repr, Inhabited

/-- R152 for one candidate of a set with normaliser gain `gn` (Q.30). -/
def pathAim (env : GeoEnv) (g : Nat → Byte) (gn : Nat) (c : Cand) : PathAim × Bool :=
  let s := spkRec g c.speaker
  let (k, a) := env.zones.getD s.zone (0, 0)
  let kind := if s.interp8 then 1 else 0
  let d := pathDelay env.fs k s.offset c.dist
  let dc := clampI (dMin kind) (dMax kind) d
  let gain := sat122 (rdiv (c.gain * gainLin 30 s.trim * (if s.exempt then 2 ^ 30 else gn)) (2 ^ 60))
  ({ speaker := c.speaker, kind := kind, bus := s.bus, delay := dc, gain := gain,
     tilt := pathTilt a c.dist c.tilt, dist := c.dist, tabTilt := c.tilt, leave := false }, d != dc)

/-! ### Evaluation of one set -/

/-- The candidates of a target on a shelf's geometry section, with TRIM, before culling. `bad`: the corner reads, 8 times the point
and the corner, that met an uncorrectable error. -/
def candidates (env : GeoEnv) (g : Nat → Byte) (bad : Nat → Bool) (t : GeoTarget) (dir : Option Pos) : List Cand :=
  let raw : List (Nat × Int × Int × Nat) :=
    if t.mode = 1 then
      (match dir with
       | none => []
       | some u => (List.range (spkCount g)).filterMap (fun k =>
           let s := spkRec g k
           if s.trim = 0 then none else (waveEval env.waveRef k s u).map (fun e => e.1)))
    else if t.mode = 2 ∧ t.spread ≠ 0 then spreadEval g bad t.pos t.spread
    else (pointEval g bad t.pos).map (fun e => e.1)
  raw.filterMap (fun e =>
    let s := spkRec g e.1
    if s.trim = 0 then none
    else some { speaker := e.1, gain := e.2.1, dist := e.2.2.1, tilt := e.2.2.2,
                trimmed := rdiv (e.2.1 * gainLin 30 s.trim) (2 ^ 30) })

/-- R156 step 1. -/
def floorCull (floor : Int) (cs : List Cand) : List Cand := cs.filter (fun c => decide (floor ≤ c.trimmed))

/-- Order of R156: higher gain first, ties in favour of the lower speaker number. -/
def candBefore (a b : Cand) : Bool := decide (b.trimmed < a.trimmed) || (a.trimmed == b.trimmed && a.speaker ≤ b.speaker)

/-- The energy of R154 over candidates. -/
def energy (g : Nat → Byte) (cs : List Cand) : Int :=
  (cs.map (fun c => if (spkRec g c.speaker).exempt then 0 else c.trimmed * c.trimmed)).sum

/-- Points of an evaluation that lie outside the grid (R143, R146). -/
def pointsOut (g : Nat → Byte) (t : GeoTarget) : Nat :=
  if t.mode = 1 then 0
  else
    let ps := if t.mode = 2 ∧ t.spread ≠ 0 then t.pos :: around t.pos t.spread else [t.pos]
    (ps.filter (outOfGrid g)).length

/-- Corner reads and direct units of an evaluation (R134). -/
def evalCost (g : Nat → Byte) (t : GeoTarget) : Nat × Nat :=
  let directs := ((List.range (spkCount g)).filter (fun k => (spkRec g k).direct)).length
  if t.mode = 1 then (0, spkCount g)
  else if t.mode = 2 ∧ t.spread ≠ 0 then (56, 7 * directs)
  else (8, directs)

/-! ### The normaliser (R154, R155) -/

/-- The normaliser target L at a position, a gain code with its fraction in units of 2⁻⁴⁸. -/
def normTarget (nrm : Nat → Byte) (p : Pos) : Nat :=
  ((corners nrm p).map (fun c => c.2 * imgNat nrm (64 + 2 * c.1) 2)).sum

/-- gn_db in 1/256 dB, whether it was limited, and whether the slew held it. -/
def normDb (env : GeoEnv) (nrm : Option (Nat → Byte)) (p : Pos) (prev : Option Int) (eFull eKept : Int) : Int × Bool × Bool :=
  if env.normEn = false ∨ eKept = 0 then (0, false, false)
  else
    let exact : Int := match nrm with
      | none => ratioDb eFull.toNat eKept.toNat
      | some n =>
        -- e_tgt = 10^((L − 1920)/160): 10·log10 of it is (L − 1920)/16 dB, i.e. 16·(L − 1920)/256 dB
        rdiv (16 * ((normTarget n p : Int) - 1920 * 2 ^ 48)) (2 ^ 48) - ratioDb eKept.toNat (2 ^ 44)
    let raw := within 1 exact (Config.tolerance [6, eFull, eKept, p.x, p.y, p.z])
    let lim := clampI env.down env.up raw
    let out := match prev with
      | some d => clampI (d - env.slew) (d + env.slew) lim
      | none => lim
    (out, lim != raw, out != lim)

/-- gn in units of 2⁻³⁰ from gn_db in 1/256 dB. R154 allows gn ±0.01 dB in all: `normDb` rounds twice and may be off by a step, which
leaves 0.002 dB here. -/
def gnLinear (db : Int) : Nat :=
  let num := powBig 2 (31 * 5120) * powBig 10 db.toNat
  let den := powBig 10 (-db).toNat
  let exact := if db = 0 then 2 ^ 30 else bitSearch (fun n => n == 0 || powBig (2 * n - 1) 5120 * den ≤ num) 33 0
  if db = 0 then exact else (within (exact / 4343) exact (Config.tolerance [7, db])).toNat

/-! ### Selection (R157, R158) -/

/-- A path that competes for the budget. -/
structure Rival where
  locker  : Nat
  set     : Nat
  speaker : Nat
  prio    : Nat
  gain    : Int
  cost    : Nat
  cont    : Bool
  top     : Bool
deriving DecidableEq, Repr, Inhabited

/-- The order of R158: what is pruned earlier comes first; the strongest path of each set last. -/
def pruneBefore (a b : Rival) : Bool :=
  if a.top ≠ b.top then !a.top
  else if a.prio ≠ b.prio then a.prio < b.prio
  else if a.gain ≠ b.gain then decide (a.gain < b.gain)
  else if a.locker ≠ b.locker then decide (b.locker < a.locker)
  else decide (b.speaker ≤ a.speaker)

/-- Prune in order until the kept cost fits; a continuing path that the fade allowance cannot take is
skipped. Answers the pruned paths, the kept cost and the allowance left. -/
def prune (budget : Nat) : List Rival → Nat → Nat → List Rival × Nat × Nat
  | [], kept, room => ([], kept, room)
  | r :: rs, kept, room =>
    if kept ≤ budget then ([], kept, room)
    else if r.cont then
      (if r.cost ≤ room then
        let (ps, k, m) := prune budget rs (kept - r.cost) (room - r.cost)
        (r :: ps, k, m)
       else prune budget rs kept room)
    else
      let (ps, k, m) := prune budget rs (kept - r.cost) room
      (r :: ps, k, m)

/-- CAP of R163 and the fade allowance of R157. -/
def pathCap (r96 : Bool) : Nat := if r96 then 262144 else 524288
def fadeAllowance (r96 : Bool) : Nat := if r96 then 65536 else 131072
/-- Capacities of R134. -/
def cornerCap (r96 : Bool) : Nat := if r96 then 8192 else 16384
def directCap (r96 : Bool) : Nat := if r96 then 786432 else 1572864

/-! ### Position conversion (R115) and jumps (R118) -/

/-- A polar update in Cartesian coordinates, each within 2 LSB, saturated to Q16.16. -/
def polar (az el dist : Int) : Pos :=
  let a := deg64 az 65536
  let e := deg64 el 65536
  let tol (k : Int) (x : Int) : Int := clampI (-(2 ^ 31)) (2 ^ 31 - 1) (within 1 x (Config.tolerance [8, k, az, el, dist]))
  ⟨tol 0 (rdiv (-(dist * mul64 (sin64 a) (cos64 e))) one64), tol 1 (rdiv (dist * mul64 (cos64 a) (cos64 e)) one64),
   tol 2 (rdiv (dist * sin64 e) one64)⟩

/-- R118: the direction of a WAVE locker changes by more than 10°. -/
def turned (a b : Pos) : Bool :=
  -- cos² compared: more than 10° apart when the dot product is negative or dot² < cos²(10°)·|a|²·|b|²
  let dot := a.x * b.x + a.y * b.y + a.z * b.z
  let c2 : Int := mul64 (cos64 (deg64 10 1)) (cos64 (deg64 10 1))
  decide (dot < 0 ∨ dot * dot * one64 < c2 * a.sq * b.sq)

/-- The distance of two positions exceeds a Q16.16 length. -/
def farther (dist : Nat) (a b : Pos) : Bool := decide (dist * dist < (a.sub b).sq)

end Sys2Proof.Machine
end

