-- ==== Sys2Proof/Machine/TypesIo.lean ====
section
/-!
DEFINITION. The kinds of state of the desks and their scheduler, the serial ports, the network
ports, Nitik Link, the DMA channels and the memory system (spec chapters 09 to 13, 15 and 16).
-/
namespace Sys2Proof.Machine

/-- DSK_Dn_STAT.STATE (R233). -/
inductive DeskState where
  | off | idle | running | halted | fault | lent
deriving DecidableEq, Repr, Inhabited

/-- A transfer between local memory and the spill window (R254); `todo` holds the words not yet moved. -/
structure Xfer where
  spill : Bool
  loc   : Nat
  off   : Nat
  todo  : List Nat
  /-- words of the whole transfer -/
  len   : Nat := 0
deriving DecidableEq, Repr, Inhabited

/-- A desk (R232–R258). -/
structure Desk where
  st      : DeskState := .off
  enable  : Bool := false
  group   : Nat := 0
  /-- goes to OFF when its task ends (R233) -/
  offAtEnd : Bool := false
  /-- local memory: words that are not 0 -/
  mem     : Tbl Word := []
  /-- words that hold an uncorrectable error (R234, R386) -/
  bad     : List Nat := []
  s       : List Word := List.replicate 32 0
  /-- lane l of V[r] at 8·r + l -/
  v       : List Word := List.replicate 256 0
  /-- lane l of ACC[a] at 8·a + l -/
  acc     : List Int := List.replicate 32 0
  p       : List Nat := List.replicate 8 0
  mb      : List Nat := List.replicate 8 0
  ml      : List Nat := List.replicate 8 0
  pc      : Nat := 0
  /-- innermost first: first instruction, END, iterations left -/
  loops   : List (Nat × Nat × Nat) := []
  calls   : List Nat := []
  xfer    : Option Xfer := none
  task    : Option Nat := none
  lastTask : Nat := 0
  cycles  : Nat := 0
  /-- busy cycles of the present block, and of the last 1,024 blocks, as of the full clock (R275) -/
  busy    : Nat := 0
  loads   : List Nat := []
  fault   : Nat := 0
  /-- a SIGNAL waits for room (R253) -/
  sigWait : Bool := false
  /-- an instruction waits for the running XFER -/
  xferWait : Bool := false
  /-- the instruction of a STEP waits for the running XFER (R257) -/
  stepWait : Bool := false
  /-- the repetitions of the instruction at PC that a REPEAT asked for, while a breakpoint holds it (R249) -/
  rep     : Option Nat := none
  /-- the cut-off of the task passed while the desk was HALTED (R257) -/
  late    : Bool := false
  /-- the RUN after a breakpoint passes the breakpoint at this index -/
  passBrk : Bool := false
  /-- the scalar and the vector register the last instruction loaded, the accumulators by age (R245) -/
  ldS     : Option Nat := none
  ldV     : Option Nat := none
  accAge  : List Nat := [2, 2, 2, 2]
deriving DecidableEq, Repr, Inhabited

/-- TASK_CREATE fields (R261). -/
structure TaskCfg where
  matchAll : Bool := false
  bound    : Bool := false
  prio     : Nat := 0
  group    : Nat := 0
  desk     : Nat := 0
  entry    : Nat := 0
  wait     : Word := 0
  ip       : Nat := 0
  layout   : Nat := 0
  first    : Nat := 0
  count    : Nat := 0
  retCount : Nat := 0
  retFirst : Nat := 0
  inbox    : Nat := 0
  outbox   : Nat := 0
  retbox   : Nat := 0
  xfade    : Nat := 0
deriving DecidableEq, Repr, Inhabited

/-- R263, with FREE as the absence of the task. -/
inductive TaskState where
  | waiting | ready | running
deriving DecidableEq, Repr, Inhabited

/-- A task (R261–R270). -/
structure Task where
  cfg      : TaskCfg
  st       : TaskState := .waiting
  pending  : Word := 0
  claimed  : Bool := false
  deskRun  : Nat := 0
  /-- attached from block b on; weight of the attachment crossfade -/
  from_    : Nat := 0
  attached : Bool := false
  weight   : Ramp := { acc := 2 ^ 43, target := 2 ^ 27 }
  /-- detaches: the block, and whether its crossfade has begun -/
  detachAt : Option Nat := none
  detaching : Bool := false
  /-- a release whose INBOX write is due or held: pipeline index and blocks -/
  inboxDue : Option (Nat × List (List Int)) := none
  /-- released block awaiting its outcome: pipeline index -/
  released : Option Nat := none
  /-- outputs handed back for the released block -/
  output   : Option (List (List Int) × List (List Int)) := none
  /-- the TASK_CANCEL commands that wait for the removal -/
  cancel   : List (CmdRef × Bool) := []
  waits    : Nat := 0
  dry      : Word := 0
  runs     : Word := 0
deriving DecidableEq, Repr, Inhabited

/-- Who posted flags that are held (R264). -/
inductive Poster where
  | host (cmd : CmdRef) (adj : Bool)
  | dma (c : Nat)
  | desk (n : Nat)
  | bell (stream : Bool) (id : Nat)
deriving DecidableEq, Repr, Inhabited

structure HeldPost where
  src  : Poster
  task : Nat
  mask : Word
deriving DecidableEq, Repr, Inhabited

/-- The scheduler (R261–R273). -/
structure SchedSt where
  tasks    : Tbl Task := []
  /-- ready lists by 8·group + priority: task numbers, oldest first -/
  lists    : Tbl (List Nat) := []
  high     : Tbl Nat := []
  held     : List HeldPost := []
  posted   : Nat := 0
  consumed : Nat := 0
  returned : Nat := 0
  /-- return blocks by pipeline index and channel -/
  rets     : List ((Nat × Nat) × List Int) := []
deriving DecidableEq, Repr, Inhabited

/-! ### Serial ports (chapter 11) -/

/-- SAP_Gg_STAT.STATE (R285). -/
inductive GroupState where
  | off | acquiring | locked | relock | lost | leading
deriving DecidableEq, Repr, Inhabited

/-- A clock group with its rate bridge (R276–R292). Its SAP_Gg_CFG stands with the registers. -/
structure Group where
  st      : GroupState := .off
  cfgErr  : Bool := false
  /-- the ENABLE that has acted (R292) -/
  acts    : Bool := false
  /-- an ENABLE change that waits: its value and the earliest boundary -/
  wait    : Option (Bool × Nat) := none
  /-- consecutive framing faults (R287) -/
  faults  : Nat := 0
  /-- the first input index that is not built from received data, once LOST or in RELOCK -/
  lostAt  : Option Nat := none
  /-- the input index from which a lock fades in (R285) -/
  fadeIn  : Option Nat := none
  /-- gain of the loss, relock or lock fade -/
  fade    : Ramp := {}
  /-- the fade plays the last 2 ms again (R286) -/
  again   : Bool := false
deriving DecidableEq, Repr, Inhabited

/-- A serial port. Its SAP_Pp_CFG and the mask shadow stand with the registers. -/
structure Port where
  /-- the ENABLE that has acted, and a change that waits -/
  acts    : Bool := false
  wait    : Option (Bool × Nat) := none
  /-- the mask and COMPACT in force (R283) -/
  mask    : Word := 0xFF
  compact : Bool := false
  /-- the pending pair (R284) -/
  pend    : Option (Word × Bool) := none
  toggle  : Bool := false
  frames  : Nat := 0
  maskMsc : Nat := 0
  /-- first index counted since the port's stream was added -/
  from_   : Nat := 0
  /-- the first output index whose frame an output port drives -/
  first   : Nat := 0
  /-- an input port: samples received and not yet ingested, by input index and logical slot -/
  rx      : Tbl (Tbl Int) := []
  /-- how many words of the latest frames received from a leader's pins the clip counter counts, by input index -/
  rxClip  : Tbl Nat := []
  /-- the latest input indexes that a follower's bridge did not build from received frames -/
  rxSyn   : List Nat := []
  /-- frames received from a follower's pins, newest first: the time of their end in 1/4096 sample, whether the frame repeats
  the one before it (R287), the samples of its 32 logical slots -/
  raw     : List ((Nat × Bool) × List Int) := []
  /-- the last frame received from a follower's pins, by wire slot -/
  wire    : List Int := []
  /-- input: bridge output of the last 2 ms, newest first; output: samples that entered the bridge -/
  tail    : List (List Int) := []
  /-- an output port: samples taken from emit and not yet sent, by output index and logical slot, each with
  whether a feed holds the slot -/
  queue   : Tbl (Tbl (Bool × Int)) := []
  /-- the last frame driven on the pin: one value for each wire slot, `none` high impedance -/
  pin     : List (Option Int) := []
deriving DecidableEq, Repr, Inhabited

/-! ### Network (chapter 12) -/

/-- A packet the renderer sent. -/
inductive NetOut where
  | rtp (port : Fin 2) (dest : Word) (udp : Nat) (ssrc : Word) (pt seq : Nat) (stamp : Word) (dscp vlan : Nat)
      (payload : List Byte)
  | arpReply (port : Fin 2) (ip : Word) (to_ : Word)
  | echoReply (port : Fin 2) (to_ : Word) (payload : List Byte)
  | igmpReport (port : Fin 2) (v2 : Bool) (group : Word) (sources : List Word) (vlan : Nat)
  | igmpLeave (port : Fin 2) (group : Word) (vlan : Nat)
  | trosynHello (port : Fin 2) (dest : Word) (udp verMin verMax : Nat)
deriving DecidableEq, Repr, Inhabited

/-- A network port (R293, R294); its registers stand with the others. -/
structure NetPort where
  link   : NetLink := .down
  module : Bool := false
  /-- SPEED 2 tries 1000BASE-X (R293) -/
  tryLow : Bool := false
  /-- the sample period from which on the layer is tried (R293) -/
  triedAt : Nat := 0
  /-- an IGMP v2 querier has been seen (R295) -/
  v2     : Bool := false
deriving DecidableEq, Repr, Inhabited

/-- FLOW_ADD fields (R301). -/
structure FlowCfg where
  tx       : Bool := false
  dual     : Bool := false
  vlan     : Bool := false
  ssm      : Bool := false
  l24      : Bool := false
  channels : Nat := 1
  ptype    : Nat := 96
  pkt      : Nat := 48
  addrA    : Word := 0
  addrB    : Word := 0
  udpA     : Nat := 1024
  udpB     : Nat := 1024
  srcA     : Word := 0
  srcB     : Word := 0
  ssrc     : Word := 0
  rtpOff   : Nat := 0
  linkOff  : Nat := 0
  dscp     : Nat := 0
  port     : Nat := 0
  vlanA    : Nat := 1
  vlanB    : Nat := 1
deriving DecidableEq, Repr, Inhabited

/-- A packet time-stamp a receive flow has seen, and from which legs (R300). -/
structure Seen where
  stamp : Word
  legA  : Bool
  legB  : Bool
  /-- input index of its first sample -/
  first : Nat
deriving DecidableEq, Repr, Inhabited

/-- A configured flow (R296–R303); `n` holds the counters of R300 in the order LATE, EARLY, DUP,
RECOVERED, MALFORMED, PKTS. -/
structure Flow where
  cfg   : FlowCfg := {}
  /-- first index counted -/
  from_ : Nat := 0
  /-- its stream runs -/
  runs  : Bool := false
  /-- receive: samples by input index, each a list of channels; transmit: samples by output index -/
  buf   : Tbl (List Int) := []
  seen  : List Seen := []
  seq   : Nat := 0
  n     : List Word := [0, 0, 0, 0, 0, 0]
deriving DecidableEq, Repr, Inhabited

/-- The Trosyn receiver (R305–R307). -/
structure TrosynSt where
  last  : Option Nat := none
  /-- consecutive valid packets dropped as not later -/
  old   : Nat := 0
  /-- SEQ and port of the packets that were judged by their SEQ, newest first, for copies -/
  heard : List (Nat × Fin 2) := []
  ver   : Nat := 0
  /-- the sample periods of the last DATA packet accepted and of the last HELLO -/
  lastAt : Nat := 0
  helloAt : Option Nat := none
deriving DecidableEq, Repr, Inhabited

structure NetSt where
  ports  : List NetPort
  rx     : Tbl Flow
  tx     : Tbl Flow
  trs    : TrosynSt
  /-- packets sent, latest first -/
  sent   : List NetOut
deriving DecidableEq, Repr, Inhabited

/-! ### Nitik Link (chapter 13) -/

/-- NTK_Pn_STAT.LINK (R310). -/
inductive LinkState where
  | down | training | up | incompatible | ready
deriving DecidableEq, Repr, Inhabited

/-- NTK_CHAIN_STAT.STATE (R315). -/
inductive ChainState where
  | alone | forming | joining | member | cut
deriving DecidableEq, Repr, Inhabited

/-- A publication record (R336). -/
structure Pub where
  chan : Nat
  src  : Src
deriving DecidableEq, Repr, Inhabited

/-- CHAIN_CONFIG PUBLISH (R336). -/
structure ChainPublish where
  pubs : List Pub := []
deriving DecidableEq, Repr, Inhabited

/-- A control record sent in the next block frame of a port (R312). -/
inductive CtlRecord where
  | block (msc : Nat) (state position : Nat)
  | time (t : Nat) (origin : Nat) (rate96 : Bool)
  | credit (count total : Nat)
  | rollCall (recs : List RollRecord)
  | rollReply (recs : List RollRecord)
  | epochReport (id : Word) (position : Nat) (st : ReportState)
  | epochDecision (id : Word) (m : Nat) (outcome : Decision)
  | step (k : Int) (boundary : Nat)
  | audit (boundary received free : Nat)
  | join (rec : RollRecord)
  | leave (position reason : Nat)
  | linkDelay (probe : Nat) (echo : Option Nat)
  | broken (position : Nat)
deriving DecidableEq, Repr, Inhabited

/-- What waits to leave on a port. -/
inductive OutCell where
  | control (recs : List CtlRecord)
  | object (c : Cell)
  | sum (c : Cell)
deriving DecidableEq, Repr, Inhabited

/-- A Nitik Link port (R310–R330). -/
structure NtkPort where
  link     : LinkState := .down
  module   : Bool := false
  version  : Nat := 0
  prop     : Nat := 0
  /-- sending side: credits held, the receiver's CREDIT_TOTAL, cells sent -/
  credits  : Nat := 0
  total    : Nat := 0
  sent     : Nat := 0
  /-- receiving side: cells received, cells in the buffer, cells freed since the last CREDIT record
  and in all -/
  received : Nat := 0
  used     : Nat := 0
  freed    : Nat := 0
  returned : Nat := 0
  /-- the partner's running total of credits returned (R312) -/
  partner  : Nat := 0
  /-- control records for the next block frame, cells held for want of credit, oldest first -/
  records  : List CtlRecord := []
  queue    : List OutCell := []
  /-- how many of the queue's oldest cells a frame left there for want of credit -/
  waiting  : Nat := 0
  /-- cells that left with the last block frame -/
  frame    : List OutCell := []
  /-- block periods since the last valid BLOCK record, control frames of valid frames in a row -/
  silent   : Nat := 0
  /-- a probe to be echoed in the next block frame -/
  echo     : Option Nat := none
  /-- the audits of R330 under way, oldest first: boundary, cells sent, the sender's credits -/
  auditAt  : List (Nat × Nat × Nat) := []
  /-- the CREDIT records that came since the oldest of them: how many credits, the running total -/
  backs    : List (Nat × Nat) := []
  /-- what the repair sets the sender's credits to (R330) -/
  repair   : Option Nat := none
deriving DecidableEq, Repr, Inhabited

/-- A member as the head and the roll call know it. -/
structure ChainMember where
  entry  : RollRecord
  /-- control frames since it was last heard (R317) -/
  silent : Nat := 0
deriving DecidableEq, Repr, Inhabited

/-- A chain channel-block that has arrived or is formed here: the copy kept and its port (R325, R332). -/
structure ChainBlk where
  words  : List Int
  port   : Fin 2
  incomplete : Bool := false
  contrib : Nat := 0
  /-- the cell it came in: shared by up to four channel-blocks (R327) -/
  cell   : Nat := 0
deriving DecidableEq, Repr, Inhabited

/-- The chain (R313–R337). -/
structure ChainSt where
  st       : ChainState := .alone
  head     : Bool := false
  ring     : Bool := false
  split    : Bool := false
  cfgPos   : Nat := 255
  position : Nat := 255
  verMin   : Nat := 16
  verMax   : Nat := 32
  version  : Nat := 0
  fail     : Nat := 0
  budget   : Nat := 0
  hold     : Nat := 0
  pubs     : List Pub := []
  /-- the members, in hop order from the head, and the propagation of the links between them in ns -/
  members  : List ChainMember := []
  hops     : List Nat := []
  /-- contributor counts of the tails (R326) -/
  contrib  : Tbl Nat := []
  /-- the CHAIN_CONFIG that is not completed: its reference and OP -/
  cmd      : Option (CmdRef × Nat) := none
  /-- the head waits for ROLL_REPLY -/
  calling  : Bool := false
  /-- object and sum channel-blocks by (chain block, channel) -/
  objs     : List ((Nat × Nat) × ChainBlk) := []
  sums     : List ((Nat × Nat) × ChainBlk) := []
  /-- channel-blocks of which a copy was used, by (chain block, channel) (R332) -/
  used     : List (Nat × Nat) := []
  /-- cells in the receive buffers: cell, port and channel-blocks not yet delivered -/
  cells    : List (Nat × Fin 2 × Nat) := []
  nextCell : Nat := 0
  /-- hop index at which this renderer appended its record to the last ROLL_CALL (R315) -/
  place    : Nat := 0
  /-- the pipeline index from which its chain inputs count -/
  since    : Nat := 0
  /-- the head's ORIGIN as the last TIME record gave it -/
  origin   : Option Nat := none
  /-- members whose ring link is reported DOWN (R333) -/
  broken   : List Nat := []
  /-- the JOIN record was sent -/
  asked    : Bool := false
  /-- control frames of valid frames in a row, on the port in use, while CUT (R317) -/
  good     : Nat := 0
  /-- the head: reports of epochs that its host has not opened yet: epoch, position, report (R89) -/
  early    : List (Word × Nat × ReportState) := []
  /-- the head's epoch decisions, repeated in every block frame until their commit MSC (R331) -/
  decisions : List (Word × Nat × Decision) := []
deriving DecidableEq, Repr, Inhabited

structure NtkSt where
  ports : List NtkPort
  chain : ChainSt
deriving DecidableEq, Repr, Inhabited

/-! ### DMA (chapter 15) -/

/-- DMA_Cc_STAT.STATE (R366). -/
inductive DmaState where
  | idle | running | waiting | paused | idleAtEnd | fault
deriving DecidableEq, Repr, Inhabited

/-- A running LOOP (R370): the address of its first instruction, BODY, COUNT and i. -/
structure DmaLoop where
  first : Nat
  body  : Nat
  count : Nat
  i     : Nat
deriving DecidableEq, Repr, Inhabited

/-- A MOVE in progress (R369). -/
structure DmaMove where
  srcSpace : Nat
  dstSpace : Nat
  srcFixed : Bool
  dstFixed : Bool
  len      : Nat
  src      : Nat
  dst      : Nat
  pattern  : Word
  /-- bytes written -/
  done     : Nat := 0
deriving DecidableEq, Repr, Inhabited

/-- Why a channel is WAITING. -/
inductive DmaWait where
  | msc (t : Nat)
  | reg (off t : Nat)
deriving DecidableEq, Repr, Inhabited

/-- A DMA channel (R366–R384). -/
structure DmaChan where
  st          : DmaState := .idle
  status      : Nat := 0
  abortIgnored : Bool := false
  shadowValid : Bool := false
  shadowLate  : Bool := false
  dbPending   : Bool := false
  held        : Bool := false
  faultCode   : Nat := 0
  pc          : Nat := 0
  space       : Nat := 0
  shadow      : Nat := 0
  /-- the address that was handed over last: what NEXT_PC reads (R10, R375) -/
  nextPc      : Nat := 0
  start       : Nat := 0
  startSpace  : Nat := 0
  /-- innermost first -/
  loops       : List DmaLoop := []
  move        : Option DmaMove := none
  wait        : Option DmaWait := none
  residue     : Nat := 0
  bytes       : Nat := 0
  /-- an abort was sampled and the issued bursts run; the DMA_ABORT that completes at the stop -/
  aborting    : Bool := false
  abortCmds   : List CmdRef := []
  /-- a pause was sampled; the DMA_PAUSE commands that complete with it -/
  pausing     : Bool := false
  pauseCmds   : List CmdRef := []
  /-- the last instruction was a MOVE, which is complete -/
  afterMove   : Bool := false
  /-- the abort was sampled after the final response of a MOVE, with no valid shadow (R379) -/
  late        : Bool := false
deriving DecidableEq, Repr, Inhabited

/-! ### Memory system (chapter 16) -/

/-- A subchannel: refresh debt, the failed replays and the retry buffer of R399 (64-byte blocks written, newest
first) and the bank activation trackers of R398. -/
structure SubChan where
  debt     : Nat := 0
  fails    : Nat := 0
  retry    : List Nat := []
  tracker  : List ((Nat × Nat) × Nat) := []
deriving DecidableEq, Repr, Inhabited

/-- A DRAM channel's training and refresh state (R394–R397). -/
structure DramChan where
  x2        : Bool := false
  /-- what MR4 reported last -/
  hot       : Bool := false
  marginLost : Bool := false
  /-- slices of the retrain under way -/
  retrain   : Option Nat := none
  /-- the retrain was ordered by R399, so a failure is a DRAM failure -/
  forced    : Bool := false
  retries   : Nat := 0
  /-- the sample period in which MR4 reported the normal rate again (R397) -/
  coolFrom  : Nat := 0
  /-- the sample period and the die temperature of the last training (R395) -/
  trainedAt : Nat := 0
  trainTemp : Int := 0
deriving DecidableEq, Repr, Inhabited

structure MemSt where
  config    : Nat
  speed     : Nat
  trained   : Bool
  failed    : Bool
  selfRef   : Bool
  sub       : List SubChan
  chan      : List DramChan
  /-- uncorrectable errors in the last second: the MSC-independent sample counts at which they fell -/
  ues       : List Nat
  ueAddr    : Nat
  /-- pauses of the last 1 ms: sample count and length in ns -/
  pauses    : List (Nat × Nat)
  pauseHigh : Nat
  cellarMin : Nat
  /-- 64-byte blocks that hold the poison pattern (R399) -/
  poison    : List Nat
  /-- the on-chip copy of the safe shelf (R90) -/
  fallback  : Mem
deriving DecidableEq, Repr, Inhabited

end Sys2Proof.Machine
end

