-- ==== Sys2Proof/Machine/Types.lean ====
section
/-!
DEFINITION. Changes, epochs and the other kinds of state that span the chapters.
-/
namespace Sys2Proof.Machine

/-- MATRIX_SET OP 1 fields (R205). -/
structure AuxCfg where
  enable : Bool := false
  invert : Bool := false
  src    : Src := {}
  code   : Nat := 0
deriving DecidableEq, Repr, Inhabited

/-- A change to the configuration of the audio path or of the tables beside it, as a command, a shelf section or a cue asks for it. A ramp time
is in milliseconds. -/
inductive Change where
  | objConfig (l : Nat) (c : LockerCfg)
  /-- the frame-granular fields of OBJ_CONFIG (R121) -/
  | objGeo (l : Nat) (c : LockerCfg) (pathsFrom : Nat)
  | objGain (l code ms : Nat)
  | objEq (l first : Nat) (bs : List Biquad)
  /-- `staged`: the geometry unit computed the path sets beforehand (R136) -/
  | objPos (ups : List PosUpdate) (staged : Bool)
  | busGain (l : Nat) (gains : List Nat) (ms : Nat)
  | air (mask ms : Nat) (temp humid : Int)
  | nodes (recs : List (Nat × Nat × Nat)) (ms : Nat)
  | matrix (recs : List (Nat × Nat × Nat)) (ms : Nat)
  | aux (i : Nat) (c : AuxCfg) (ms : Nat)
  | scale (first count mode ms : Nat)
  | scales (modes : List Nat) (ms : Nat)
  /-- `stored` becomes the feed's ramp time (R206) -/
  | feedMix (f : Nat) (c : FeedBasic) (ms stored : Nat)
  | feedOut (f : Nat) (c : FeedBasic) (ms : Nat)
  | align (f len : Nat)
  | feedEq (f first : Nat) (bs : List Biquad) (ms stored : Nat)
  | pilot (f : Nat) (c : PilotCfg) (ms stored : Nat)
  | fir (f : Nat) (taps : List Int) (ms : Nat)
  | limiter (f : Nat) (c : LimiterCfg)
  | route (r : Nat) (c : RouteCfg) (ms : Nat)
  | ovr (cfg gain : Word)
  | flowAdd (i : Nat) (c : FlowCfg)
  | flowRemove (i : Nat)
  | taskCreate (t : Nat) (c : TaskCfg)
  | taskCancel (t : Nat)
  | chainPublish (p : ChainPublish)
  /-- a member joins at a hop index, or leaves (R334, R335), with the propagation of the links as they are then -/
  | membership (rec : RollRecord) (joins : Bool) (place : Nat) (hops : List Nat)
  /-- mismatched credits are repaired at the commit boundary of an epoch (R43) -/
  | creditRepair
  /-- active inputs changed: the column gains follow over the ramp (R186) -/
  | recount (ms : Nat)
deriving DecidableEq, Repr, Inhabited

/-- The slot or granularity at which a change acts (R121, R208, R218, R15). -/
inductive Stage where
  | commit | geo | obj | render | mix | feed | input
deriving DecidableEq, Repr, Inhabited

/-- A change that waits: it acts from pipeline index `at_` on. `key` is the order in which its command was fetched, `none` for
what an epoch brings, which acts before the commands of the same boundary (R73). -/
structure Sched where
  stage : Stage
  at_   : Nat
  chg   : Change
  key   : Option Nat := none
deriving DecidableEq, Repr, Inhabited

/-- A member of an epoch (R80, R81). -/
structure Member where
  chgs   : List Change
  switch : Option Switch
  /-- its stages have staged it -/
  staged : Bool
  /-- the geometry unit stages it: path sets (R136) -/
  geo    : Bool
  /-- the corner reads and direct units that its staging has had -/
  paid   : Nat × Nat := (0, 0)
  /-- FIR taps reserved for it (R190) -/
  taps   : Nat := 0
deriving DecidableEq, Repr, Inhabited

/-- An epoch that is not final (R79–R89). -/
structure Epoch where
  id        : Word
  st        : EpState
  chain     : Bool := false
  parts     : Nat := 0
  deadline  : Nat
  deferrals : Nat := 0
  m         : Nat := 0
  adjusted  : Bool := false
  defective : Bool := false
  /-- deferred DEADLINE times: it expires (R84) -/
  expiring  : Bool := false
  members   : List Member := []
  order     : Nat := 0
  commit    : Option CmdRef := none
  /-- formed by a SHELF_SWITCH or FEED_CONFIG of its own (R98, R194) -/
  own       : Bool := false
  /-- the safe-shelf selection of R101 -/
  safe      : Bool := false
  /-- reports of the participants, by chain position (R331) -/
  reports   : List (Nat × ReportState) := []
  /-- what this participant last reported -/
  told      : Option ReportState := none
deriving DecidableEq, Repr, Inhabited

/-- The blocks in the pipeline (R18), keyed by source, locker, aux input, bus or feed. -/
structure Pipe where
  /-- samples of the block that is entering ingest, oldest first -/
  cur     : Tbl (List Int) := []
  /-- the block in the object slot: ingest channels, locker blocks at IP_OBJ, aux blocks at IP_AUX -/
  last    : Tbl (List Int) := []
  objDry  : Tbl (List Int) := []
  auxDry  : Tbl (List Int) := []
  /-- aux blocks in the render slot and in the mix slot -/
  auxRend : Tbl (List Int) := []
  auxMix  : Tbl (List Int) := []
  /-- aux inputs that are active in the block of the object, render and mix slot (R184, R186) -/
  auxOn   : List Nat := []
  auxOnR  : List Nat := []
  auxOnM  : List Nat := []
  /-- render buses in the mix slot (IP_BUS) -/
  buses   : Tbl (List Int) := []
  /-- feed blocks in the feed slot (IP_FEED) -/
  mixOut  : Tbl (List Int) := []
  /-- feed blocks in emit -/
  emit    : Tbl (List Int) := []
  /-- their destinations -/
  emitTo  : Tbl (Dest × Dest) := []
  /-- the last blocks at each tap point (R125), newest first, with their pipeline index -/
  taps    : Tbl (List (Nat × List Int)) := []
  /-- pipeline index of the first block rendered since the pipeline last started -/
  start   : Nat := 0
  running : Bool := false
deriving DecidableEq, Repr, Inhabited

end Sys2Proof.Machine
end

