-- ==== Sys2Proof/Machine/State.lean ====
section
/-!
DEFINITION. The state of the GDP-6410: every register, buffer, line, queue, counter, mode and pin
the spec gives the renderer, as plain data, with the queue of the commands that wait; the state
after reset; and the ways a command can stop.
-/
namespace Sys2Proof.Machine

/-- The block has no fault: every error the spec describes is an effect on the state (an event bit,
a status, a completion), so no command ends in one. -/
inductive Fault
deriving DecidableEq, Repr

/-- Why a command is refused. -/
inductive Refusal where
  /-- a command that has no meaning yet; raised by `exec` alone; safe: nothing can be proved of it -/
  | notModelled (mnemonic : String)
  /-- an access to the DBG block in factory mode, whose contents are not part of the manual (R436);
  raised by the register accesses; safe: the run stops where the manual says nothing -/
  | factoryTestBlock
deriving DecidableEq, Repr

/-- The machine. -/
structure State where
  /-- commands that wait, first in first out -/
  pending  : List Instr
  /-- registers that were written or counted, by offset; any other reads its reset value (R9, R10) -/
  regs     : Tbl Word
  /-- read latches (R12, R437) and write latches (R438): offset of the low word, master, value -/
  rlatch   : List ((Nat × Master) × Word)
  wlatch   : List ((Nat × Master) × Word)
  host     : HostSt
  led      : LedgerSt
  /-- timed commands in the order in which they were fetched (R73) -/
  timed    : List Timed
  clock    : ClockSt
  /-- the timetable: host bells and position-stream bells (R71) -/
  bells    : Tbl Bell
  cues     : Tbl Bell
  epochs   : List Epoch
  /-- how each identifier's last epoch ended: 3 COMMITTED, 4 EXPIRED, 5 CANCELLED (R79) -/
  finals   : Tbl Nat
  /-- next order number of an epoch (R79) -/
  epochSeq : Nat
  /-- changes that wait for their stage to reach their pipeline index (R16) -/
  sched    : List Sched
  shelves  : List ShelfSlot
  /-- the ACTIVE slot; slot 8 before any (TT_STAT.ACTIVE_SHELF) -/
  active   : Nat
  /-- shelf crossfades committed and not ended, oldest first (R100) -/
  xfades   : List Xfade
  dram     : Mem
  lockers  : Tbl Locker
  capture  : Capture
  replay   : Replay
  geo      : GeoSt
  path     : PathSt
  matrix   : Tbl Node
  auxs     : Tbl Aux
  feeds    : Tbl Feed
  /-- stage mute (R202) -/
  stage    : Ramp
  firUsed  : Nat
  routes   : Tbl Route
  ovr      : OvrSt
  /-- corridor samples by output index and destination, with the exempt mark (R214–R216) -/
  corr     : List ((Nat × Dest) × (Int × Bool))
  sdac     : List SdacCh
  sdacWait : List SdacTimed
  desks    : List Desk
  tasks    : SchedSt
  groups   : List Group
  ports    : List Port
  net      : NetSt
  ntk      : NtkSt
  dma      : List DmaChan
  memory   : MemSt
  pwr      : PwrSt
  pipe     : Pipe
  /-- a block boundary is due: the sample period at a multiple of 16 has begun and its boundary has not
  been worked (R14) -/
  boundary : Bool
  /-- steps 3 to 5 of the boundary wait for the change of mode that is due in its step 2 (R34, R411) -/
  tail     : Bool
  /-- sample periods that have begun since the reset -/
  samples  : Nat
  /-- the counter of the free values: the model's own field, no part of the spec's machine -/
  free     : Nat
deriving DecidableEq, Repr

/-- The matrix, path and register tables are empty at reset: an absent entry reads as its reset value. -/
def State.reset : State where
  pending  := []
  regs     := []
  rlatch   := []
  wlatch   := []
  host     := { queues := List.replicate 16 {}, freeSlots := 512, version := 1, ready := [], evtSeq := 0, lost := 0,
                rrLast := 15, msix := {}, linkUp := true, bme := false, dropRec := false, fetchOrder := 0, wdogRun := false,
                wdogLeft := 0, answer := none, mem := [] }
  led      := { tab := [], pend := [], lastMsc := 0, snapSeq := 0, statSeq := 0, mismatch := [0, 0, 0],
                audits := [] }
  timed    := []
  clock    := { tb := List.replicate 4 {}, cloak := List.replicate 2 {}, media := {}, snapTod := [0, 0, 0, 0],
                snapMsc := 0, ppsHigh := false, atticDue := false, sent := [] }
  bells    := []
  cues     := []
  epochs   := []
  finals   := []
  epochSeq := 0
  sched    := []
  shelves  := List.replicate 9 {}
  active   := 8
  xfades   := []
  dram     := []
  lockers  := []
  capture  := {}
  replay   := {}
  geo      := { frozen := [], airNow := List.replicate 8 (5120, 12800), air := List.replicate 8 {}, airSet := false,
                reEval := false, budget := 0, ready := none, firstFrame := 0, holds := [], kept := 0, fading := 0,
                pruned := false, pruning := false, lateLast := false, past := false, frame := 0, corners := 0, cornersHigh := 0, left := (0, 0),
                direct := 0, sound := [] }
  path     := { rendered := 0, clamping := false, tiltEn := true, maxStep := 0,
                probeFrom := none, lkClamped := [] }
  matrix   := []
  auxs     := []
  feeds    := []
  stage    := { acc := 0, target := 0 }
  firUsed  := 0
  routes   := []
  ovr      := {}
  corr     := []
  sdac     := List.replicate 8 {}
  sdacWait := []
  desks    := List.replicate 16 {}
  tasks    := {}
  groups   := List.replicate 16 {}
  ports    := List.replicate 64 {}
  net      := { ports := [{}, {}], rx := [], tx := [], trs := {}, sent := [] }
  ntk      := { ports := [{}, {}], chain := {} }
  dma      := List.replicate 32 {}
  memory   := { config := 0, speed := 0, trained := false, failed := false, selfRef := false,
                sub := List.replicate 4 {}, chan := List.replicate 2 {}, ues := [], ueAddr := 0, pauses := [],
                pauseHigh := 0, cellarMin := 192, poison := [], fallback := [] }
  pwr      := { mode := .reset, wait := none, auto := none, entering := none, fbDram := false, fbWdog := false,
                fbTherm := false, pendDram := false, pendWdog := false, pendTherm := false, freeze := false,
                thermStandby := false, dormantReady := false,
                straps := { bootMode := 1, profSel := 0, chainHead := false },
                bootStage := 0, bootCause := 0, bootMs := 0, bootHeld := false, imageB := false, image := [],
                resetCause := 0, temp := 0, tempMax := 0, hot := [0, 0, 0], cold := [0, 0, 0],
                stepOn := [false, false, false], hotFor := 0, setupAt := 0, hostSeen := false,
                autoArmed := false, xtalFault := false, woken := false, wakeN := true, alertN := true, resetN := false,
                railsUp := true, atticUp := true, io33 := true, attic := {}, fuses := {}, smb := none, jtag := {} }
  pipe     := {}
  boundary := false
  tail     := false
  samples  := 0
  free     := 0

end Sys2Proof.Machine
end

