-- ==== Sys2Proof/Machine/Ops.lean ====
section
/-!
DEFINITION. The operations every meaning is built from: registers and their counters, events,
vectors and event records (R8, R360–R362, R441–R443), ledgers (R31), completions (R348–R353), the
clock of the block and its boundaries (R14, R15, R463), and the free values.
-/
namespace Sys2Proof.Machine

/-! ### Registers -/

/-- A register whose home is the register file: as last written or counted, or its reset value. -/
def State.reg (s : State) (off : Nat) : Word := (tget s.regs off).getD (regReset off)

def State.setReg (s : State) (off : Nat) (v : Word) : State := { s with regs := tset s.regs off v }

/-- Sets bits of a register that the hardware reports in. -/
def State.orReg (s : State) (off : Nat) (m : Nat) : State := s.setReg off (s.reg off ||| word m)

/-! ### Events -/

/-- The EVENT record of one bit (R360). -/
def evtResult (off bit : Nat) : DWord := BitVec.ofNat 64 (off * 2 ^ 32 + 2 ^ bit)

def isRecord : ReadyItem → Bool
  | .record _ _ _ => true
  | .completion _ _ _ _ => false

/-- Event records that wait (R361). -/
def State.records (s : State) : Nat := (s.host.ready.filter (fun p => isRecord p.2)).length

/-- Raises an interrupt vector (R362): a masked vector becomes pending, and so does any while the
renderer may not write to host memory (R340). -/
def State.raiseVec (s : State) (v : Nat) : State :=
  let m := s.host.msix
  if s.host.linkUp ∧ m.enabled then
    let m1 := if m.funMask ∨ ¬ s.host.bme ∨ m.mask.contains v
      then { m with pend := if m.pend.contains v then m.pend else m.pend ++ [v] }
      else { m with sent := v :: m.sent }
    { s with host := { s.host with msix := m1 } }
  else s

/-- Adds what moved to a ledger; it shows at the next boundary (R31). -/
def State.addLed (s : State) (i : Nat) (d : LedDelta) : State :=
  let o := (tget s.led.pend i).getD {}
  let n : LedDelta :=
    { acc := o.acc + d.acc, syn := o.syn + d.syn, dis := o.dis + d.dis, del := o.del + d.del, clip := o.clip + d.clip }
  { s with led := { s.led with pend := tset s.led.pend i n } }

/-- Puts a record at the end of the order in which completions and records become ready. -/
def State.pushReady (s : State) (q : Nat) (x : ReadyItem) : State :=
  { s with host := { s.host with ready := s.host.ready ++ [(q, x)] } }

/-- The vector of an event bit; TT_EVT.BELL posts no EVENT record and raises none (R441). -/
def armed (off bit : Nat) : List Fx × Option Nat :=
  if off = Reg.TT_EVT ∧ bit = 0 then ([], none)
  else ([.note 0 0 (evtResult off bit)], (evtRow off).bind (fun r => evtVector r bit))

/-- One report acts on the state. An event bit may post a record, a record that finds the queue full is
counted, a counter that saturates sets a STAT_SAT bit, and that one an event bit: `fuel` bounds the
chain, which has at most eight links. -/
def applyFxF : Nat → State → Fx → State
  | 0, s, _ => s
  | fuel + 1, s, fx =>
    match fx with
    | .led i d => s.addLed i d
    | .sat off bit e eb =>
      if bitOf (s.reg off) bit then s else applyFxF fuel (s.orReg off (2 ^ bit)) (.evt e eb)
    | .count off n =>
      if n = 0 then s
      else
        let v := min ((s.reg off).toNat + n) 0xFFFFFFFF
        let s1 := s.setReg off (word v)
        if v = 0xFFFFFFFF then
          match satOf off with
          | some (so, b, e, eb) => applyFxF fuel s1 (.sat so b e eb)
          | none => s1
        else s1
    | .evt off bit =>
      let s1 := s.orReg off (2 ^ bit)
      if bitOf (s.reg off) bit then s1
      else
        match evtRow off with
        | none => s1
        | some r =>
          if bitOf (s.reg r.en) bit then
            let s2 := (armed off bit).1.foldl (applyFxF fuel) s1
            match (armed off bit).2 with
            | some v => s2.raiseVec v
            | none => s2
          else s1
    | .note kind ident res =>
      if s.host.dropRec ∨ ¬ s.host.linkUp then applyFxF fuel s (.count Reg.HQ_CPL_DROPPED 1)
      else if s.records < 256 then s.pushReady 0 (.record kind ident res)
      else
        let s1 := { s with host := { s.host with lost := s.host.lost + 1 } }
        applyFxF fuel (applyFxF fuel s1 (.count Reg.HQ_EVT_LOST 1)) (.evt Reg.HQ_EVT 4)

def State.fx (s : State) (f : Fx) : State := applyFxF 10 s f

/-- Every report of a list, in order. -/
def State.fxs (s : State) (l : List Fx) : State := l.foldl State.fx s

/-- A statistics counter gains `n` (R8). -/
def State.count (s : State) (off n : Nat) : State := s.fx (.count off n)
/-- A hardware event sets a bit (R441). -/
def State.evt (s : State) (off bit : Nat) : State := s.fx (.evt off bit)
/-- A counter gains 1 and its event bit is set. -/
def State.both (s : State) (off evt bit : Nat) : State := (s.count off 1).evt evt bit

/-- An enable bit that is written 1 while its event bit is set arms it (R441). -/
def State.arm (s : State) (off bit : Nat) : State :=
  let s2 := s.fxs (armed off bit).1
  match (armed off bit).2 with
  | some v => s2.raiseVec v
  | none => s2

/-! ### Free values -/

/-- A fresh free value (assumption 1). -/
def State.draw (s : State) : Int × State := (Config.freeValue s.free, { s with free := s.free + 1 })

/-! ### The clock of the block -/

/-- Sample rate in force. -/
def State.fs (s : State) : Nat := if s.clock.media.rate96 then 96000 else 48000

/-- `us` µs may have passed since sample period `since`: no timer ends before its time. DEDUCED (assumption 68). -/
def State.passed (s : State) (since us : Nat) : Bool := decide (us * s.fs ≤ (s.samples + 1 - since) * 1000000)

def State.valid (s : State) : Bool := s.clock.media.valid
def State.msc (s : State) : Nat := s.clock.media.msc

/-- The MSC as a result names it: 0 while it is not valid (R17). -/
def State.resMsc (s : State) : Nat := if s.valid then s.msc else 0

/-- SETUP, SHOW, FALLBACK and SERVICE: the pipeline runs while the MSC is valid (R407). -/
def Mode.runs : Mode → Bool
  | .setup => true
  | .show_ => true
  | .fallback => true
  | .service => true
  | .reset => false
  | .boot => false
  | .dormant => false
  | .standby => false

/-- Modes in which the part works: the running modes and STANDBY. -/
def Mode.awake (m : Mode) : Bool := m.runs || m == .standby

/-- A register write from outside: without effect in RESET, BOOT and DORMANT (R435). -/
def barWrite (k : State → State) (s : State) : State := if s.pwr.mode.awake then k s else s

def Mode.code : Mode → Nat
  | .reset => 0
  | .boot => 1
  | .dormant => 2
  | .standby => 3
  | .setup => 4
  | .show_ => 5
  | .fallback => 6
  | .service => 7

def modeOf (n : Nat) : Option Mode :=
  if n = 2 then some .dormant else if n = 3 then some .standby else if n = 4 then some .setup
  else if n = 5 then some .show_ else if n = 7 then some .service else none

def State.runs (s : State) : Bool := s.pwr.mode.runs
/-- The pipeline runs. -/
def State.piping (s : State) : Bool := s.pwr.mode.runs && s.clock.media.valid

/-- The ledgers count: not in STANDBY (R35). -/
def State.counting (s : State) : Bool := s.piping

/-- Counts that STANDBY freezes (R35). -/
def State.tally (s : State) (i : Nat) (d : LedDelta) : State := if s.counting then s.addLed i d else s

/-- The first multiple of `k` after the present sample period's start (R463). -/
def State.nextMul (s : State) (k : Nat) : Nat := (s.msc / k + 1) * k

/-- `p` rounded up to a multiple of `k`. -/
def upTo (k p : Nat) : Nat := (p + (k - 1)) / k * k

/-- The first multiple of `k` at or after `p`, and whether it had passed, so that the next one serves (R463). -/
def State.mulFor (s : State) (k p : Nat) : Nat × Bool :=
  let b := upTo k p
  if s.msc < b then (b, false) else (s.nextMul k, true)

/-- An MSC that comes in with 64 bits, as the model counts it (R4, R7, assumption 11): the number congruent to it modulo 2⁶⁴
that lies at most 2⁶³ before the present or comes after it; 0 stays 0. -/
def State.mscOf (s : State) (p : DWord) : Nat :=
  if p = 0 then 0 else p.toNat + 2 ^ 64 * ((s.msc + 2 ^ 63 - p.toNat) / 2 ^ 64)

/-- Milliseconds in samples. -/
def State.ms (s : State) (t : Nat) : Nat := s.fs * t / 1000

/-! ### Completions -/

def stOk : Byte := 0x00
def stAdjusted : Byte := 0x01
def stBadOpcode : Byte := 0x10
def stBadParam : Byte := 0x11
def stBadVersion : Byte := 0x12
def stNoResource : Byte := 0x20
def stBudget : Byte := 0x21
def stLate : Byte := 0x30
def stExpired : Byte := 0x31
def stAborted : Byte := 0x40
def stMemError : Byte := 0x41
def stModeRefused : Byte := 0x50

def State.queue (s : State) (q : Nat) : Queue := s.host.queues.getD q {}
def State.setQueue (s : State) (q : Nat) (v : Queue) : State :=
  { s with host := { s.host with queues := s.host.queues.set q v } }

/-- A command leaves the outstanding ones: its slot is free again (R42). -/
def State.freeSlot (s : State) (c : CmdRef) : State :=
  let q := s.queue c.queue.val
  if q.out.contains c then
    let s1 := s.setQueue c.queue.val { q with out := q.out.erase c }
    { s1 with host := { s1.host with freeSlots := s1.host.freeSlots + 1 } }
  else s

/-- A completion that nobody will read is dropped and counted (R343, R365). -/
def State.dropCompletion (s : State) (c : CmdRef) : State := (s.freeSlot c).count Reg.HQ_CPL_DROPPED 1

/-- A command completes (R352, R353): its entry waits for room in the ring. A status of 0x10 or higher
carries the result its section names, 0 otherwise (R359). -/
def State.complete (s : State) (c : CmdRef) (status : Byte) (result : Nat) : State :=
  let q := s.queue c.queue.val
  let gone := !q.out.contains c || !s.host.linkUp || q.st == .error || q.st == .disabled
  if gone then s.dropCompletion c
  else s.pushReady c.queue.val (.completion c status (BitVec.ofNat 64 result) (s.host.version == 2))

def adjusted (adj : Bool) : Byte := if adj then stAdjusted else stOk

def State.completeMany (s : State) (cs : List CmdRef) (status : Byte) (result : Nat) : State :=
  cs.foldl (fun t c => t.complete c status result) s

/-! ### Memory of the host and of the part -/

def State.hostWrite (s : State) (addr : Nat) (bs : List Byte) : State :=
  { s with host := { s.host with mem := memWrite s.host.mem addr bs } }

/-- Two channels are fitted (R387). -/
def State.twoChannels (s : State) : Bool := decide (3 ≤ s.memory.config)

/-- The subchannel of a DRAM address, 0–3 (R388). -/
def State.subOf (s : State) (addr : Nat) : Nat :=
  2 * (if s.twoChannels then addr / 256 % 2 else 0) + b2n (Config.subChannel (addr / 64))

/-- The 64-byte blocks that `n` bytes from `addr` on touch, last one first. -/
def blocksOf (addr n : Nat) : List Nat :=
  if n = 0 then [] else ((List.range ((addr + n - 1) / 64 - addr / 64 + 1)).map (fun k => (addr / 64 + k) * 64)).reverse

/-- A write to DRAM: it enters the retry buffers, and a block written again no longer holds the poison pattern (R399). -/
def State.dramWrite (s : State) (addr : Nat) (bs : List Byte) : State :=
  let bl := blocksOf addr bs.length
  let sub := s.memory.sub.zipIdx.map (fun p => { p.1 with retry := (bl.filter (fun b => s.subOf b == p.2) ++ p.1.retry).take 64 })
  { s with dram := memWrite s.dram addr bs,
           memory := { s.memory with poison := s.memory.poison.filter (fun b => !bl.contains b), sub := sub } }

/-- DRAM capacity in bytes by configuration (R387). -/
def State.dramCap (s : State) : Nat :=
  if s.memory.config = 1 then 2 ^ 33 else if s.memory.config = 2 ∨ s.memory.config = 3 then 2 ^ 34
  else if s.memory.config = 4 then 2 ^ 35 else 0

/-- A range lies wholly in one of the general areas (R388). -/
def State.inGeneral (s : State) (a n : Nat) : Bool :=
  (0x4000000 ≤ a && a + n ≤ 0x80000000) || (0x1C8000000 ≤ a && a + n ≤ s.dramCap)

/-- DRAM address of a shelf slot's image (R388). -/
def slotBase (slot : Nat) : Nat := if slot = 8 then 0x1000000 else 0x80000000 + slot * 0x40000000

/-- FALLBACK with DRAM failed is in force (R421). -/
def State.noDram (s : State) : Bool := s.pwr.mode == .fallback && s.pwr.fbDram

/-- FALLBACK in which nothing is released or dispatched, uncounted (R274, R420). -/
def State.tasksStill (s : State) : Bool := s.pwr.mode == .fallback && (s.pwr.fbDram || s.pwr.fbTherm)

def State.setEpoch (s : State) (e : Epoch) : State :=
  { s with epochs := s.epochs.map (fun d => if d.order = e.order then e else d) }

/-- The image in a slot, by byte offset; the safe shelf's on-chip copy where DRAM has failed (R90, R162). -/
def State.image (s : State) (slot : Nat) (o : Nat) : Byte :=
  if slot = 8 ∧ s.noDram then memGet s.memory.fallback o else memGet s.dram (slotBase slot + o)

/-- The 105 °C step acts (R416). -/
def State.throttled (s : State) : Bool := s.pwr.stepOn.getD 1 false && s.runs

/-! ### FAULT_N and SMB_ALERT_N -/

/-- FAULT_N is driven low (R432). -/
def State.faultLow (s : State) : Bool :=
  s.pwr.bootCause == 1 || s.pwr.bootCause == 2 || s.pwr.bootCause == 5 || s.pwr.xtalFault || s.pwr.mode == .fallback ||
  s.pwr.thermStandby || bitOf (s.reg Reg.PWR_EVT) 4

/-- The thermal step in force (R416), as PWR_STAT.THERM_STEP reads. -/
def State.thermNow (s : State) : Nat :=
  if s.pwr.stepOn.getD 2 false then 3 else if s.pwr.stepOn.getD 1 false then 2 else if s.pwr.stepOn.getD 0 false then 1 else 0

/-- SMB_ALERT_N goes low when what it reports changes (R457). -/
def watched (k : State → State) (s : State) : State :=
  let t := k s
  if t.faultLow = s.faultLow ∧ t.thermNow = s.thermNow then t else { t with pwr := { t.pwr with alertN := false } }

/-! ### Boundaries at which a change acts -/

/-- A command waits for its boundary, in its place in the order of fetching (R73, R36). -/
def State.addTimed (s : State) (c : CmdRef) (at_ : Nat) (adj : Bool) (a : TimedAct) : State :=
  { s with timed := s.timed.filter (fun x => decide (x.cmd.order ≤ c.order)) ++ [{ cmd := c, at_ := at_, adj := adj, act := a }] ++
      s.timed.filter (fun x => decide (c.order < x.cmd.order)) }

/-- Whether a change with key `x` acts after one with key `k` (R73). -/
def keyAfter (k x : Option Nat) : Bool :=
  match k, x with
  | none, some _ => true
  | some a, some b => decide (a < b)
  | _, none => false

/-- A change joins those that wait, which stand in the order in which they act at one boundary (R73). -/
def State.schedule (s : State) (st : Stage) (key : Option Nat) (at_ : Nat) (c : Change) : State :=
  { s with sched := s.sched.filter (fun x => !keyAfter key x.key) ++ [{ stage := st, at_ := at_, chg := c, key := key }] ++
      s.sched.filter (fun x => keyAfter key x.key) }

end Sys2Proof.Machine
end

