-- ==== Sys2Proof/Machine/Submit.lean ====
section
/-!
DEFINITION. How a host command is admitted: its turn in its queue, the ordered checks of R350, and the
fields of its entry (R346, R347, R349, R350).
-/
namespace Sys2Proof.Machine

/-! ### Fields of an entry -/

/-- The `n` bytes at byte `o` of the entry, little-endian; `o` counts from the start of the entry. -/
def sub (e : Submission) (o n : Nat) : Nat := fieldAt e.body (o - 16) n
/-- The bytes from `o` up to `o + n` are 0. -/
def subZero (e : Submission) (o n : Nat) : Bool := zeroSpan e.body (o - 16) n
def subBit (e : Submission) (o i : Nat) : Bool := sub e o 1 / 2 ^ i % 2 == 1

/-! ### The catalogue (R355) -/

def knownOpcodes : List Nat :=
  [0x00, 0x01, 0x08, 0x09, 0x0A, 0x0B, 0x10, 0x11, 0x12, 0x18, 0x19, 0x20, 0x21, 0x22, 0x23, 0x28, 0x30, 0x31,
   0x32, 0x33, 0x38, 0x40, 0x41, 0x48, 0x50, 0x51, 0x52, 0x58, 0x59, 0x5A, 0x5B, 0x60, 0x61, 0x62, 0x68, 0x69,
   0x6A, 0x70, 0x71, 0x78]

/-- Admin opcodes, accepted on queue 0 alone. -/
def adminOpcodes : List Nat := [0x01, 0x08, 0x09, 0x0A]

/-- Commands that may be members of an epoch or that name one. -/
def epochOpcodes : List Nat :=
  [0x09, 0x10, 0x11, 0x12, 0x20, 0x21, 0x22, 0x23, 0x28, 0x30, 0x31, 0x32, 0x33, 0x38, 0x40, 0x41, 0x48, 0x50, 0x52]

/-! ### Admission -/

/-- A completion of the command already waits to be written. -/
def State.isReady (s : State) (c : CmdRef) : Bool :=
  s.host.ready.any (fun p => match p.2 with
    | .completion d _ _ _ => d == c
    | .record _ _ _ => false)

/-- With FENCE, an earlier command of the queue has not completed (R347). -/
def State.fenced (s : State) (q : Nat) (flags : Byte) (order : Nat) : Bool :=
  bitOf flags 1 && (s.queue q).out.any (fun c => c.order < order && !s.isReady c)

/-- R350, check 1: another outstanding command of the queue holds the tag. -/
def State.dupTag (s : State) (c : CmdRef) : Bool :=
  (s.queue c.queue.val).out.any (fun d => d.tag == c.tag && d.order < c.order)

/-- Checks 1 to 5 of R350, in their order; the outcome of the first that fails. -/
def State.entryCheck (s : State) (c : CmdRef) (flags : Byte) (epoch : Word) : Option Byte :=
  if s.dupTag c then some stBadParam
  else if !knownOpcodes.contains c.opcode.toNat then some stBadOpcode
  else if adminOpcodes.contains c.opcode.toNat ∧ c.queue ≠ 0 then some stBadOpcode
  else if flags.toNat ≥ 4 then some stBadParam
  else if bitOf flags 0 ∧ s.host.version = 1 then some stBadVersion
  else if epoch ≠ 0 ∧ !epochOpcodes.contains c.opcode.toNat then some stBadParam
  else none

/-- A command that fails the checks completes; a duplicate tag is reported and counted (R350). -/
def State.refuseEntry (s : State) (c : CmdRef) (index : Nat) (st : Byte) : State :=
  if s.dupTag c then ((s.both Reg.HQ_DUP_TAGS Reg.HQ_EVT 3).complete c st (2 ^ 63 + index % 4096))
  else s.complete c st 0

/-- Entries with an unknown opcode at the front of what was fetched complete as their turn comes. -/
def settleF : Nat → Nat → State → State
  | 0, _, s => s
  | fuel + 1, q, s =>
    match (s.queue q).fetched with
    | [] => s
    | (i, o, f) :: rest =>
      if knownOpcodes.contains f.opcode.toNat then s
      else
        match (s.queue q).out.find? (fun c => c.order == o) with
        | none => s
        | some c =>
          if s.fenced q f.flags c.order then s
          else
            let s1 := s.setQueue q { s.queue q with fetched := rest }
            settleF fuel q (s1.refuseEntry c i ((s1.entryCheck c f.flags f.epoch).getD stBadOpcode))

def State.settle (s : State) (q : Nat) : State := settleF 16 q s

/-- The entry's fields as they stood in the ring. -/
def sameEntry (op : Byte) (e : Submission) (f : FetchedEntry) : Bool :=
  f.opcode == op && f.flags == e.flags && f.tag == e.tag && f.epoch == e.epoch && f.present == e.present && f.body == e.body

/-- A command takes a slot and its place in the order of fetching (R42, R73). -/
def State.take (s : State) (q : Fin 16) (op flags : Byte) (tag : BitVec 16) : CmdRef × State :=
  let c : CmdRef := { queue := q, tag := tag, opcode := op, suppress := bitOf flags 0 && s.host.version != 1, order := s.host.fetchOrder,
                       fetched := s.msc }
  let v := s.queue q.val
  let s1 := s.setQueue q.val { v with out := v.out ++ [c], total := v.total + 1 }
  (c, { s1 with host := { s1.host with freeSlots := s1.host.freeSlots - 1, fetchOrder := s1.host.fetchOrder + 1 } })

/-- The queue may fetch (R340, R343, R346). -/
def State.mayFetch (s : State) (q : Nat) : Bool :=
  s.host.linkUp && s.host.bme && (s.queue q).st == .running && !(s.queue q).held && 0 < s.host.freeSlots

/-- The command whose turn it is: the oldest entry fetched and not processed or, with none, the entry
itself, which the renderer fetches now (assumption 4). -/
def State.admitEntry (s : State) (op : Byte) (e : Submission) : Option (CmdRef × State) :=
  let q := s.queue e.queue.val
  match q.fetched with
  | [] =>
    if s.mayFetch e.queue.val then
      let r := s.take e.queue op e.flags e.tag
      let v := r.2.queue e.queue.val
      some (r.1, r.2.setQueue e.queue.val { v with sqHead := (e.index + 1) % 2 ^ v.size })
    else none
  | (_, o, f) :: rest =>
    if sameEntry op e f then
      match q.out.find? (fun c => c.order == o) with
      | some c => some (c, s.setQueue e.queue.val { q with fetched := rest })
      | none => none
    else none

/-- A host command: it waits its turn and for its FENCE, fails the first check that fails, or acts by `k`. -/
def hostCommand (op : Byte) (e : Submission) (k : CmdRef → State → State) (s : State) : State :=
  match s.admitEntry op e with
  | none => s
  | some (c, s1) =>
    if s1.fenced e.queue.val e.flags c.order then s
    else
      match s1.entryCheck c e.flags e.epoch with
      | some st => (s1.refuseEntry c e.index st).settle e.queue.val
      | none => (k c s1).settle e.queue.val

/-- Completes with `st` when `bad` holds, else goes on. -/
def guardCmd (bad : Bool) (st : Byte) (c : CmdRef) (k : State → State) (s : State) : State :=
  if bad then s.complete c st 0 else k s

end Sys2Proof.Machine
end

