-- ==== Sys2Proof/Machine/HostQ.lean ====
section
/-!
DEFINITION. The host interface (spec chapter 14): queues and their doorbells, fetching, completions and
event records, interrupts, the watchdog, the loss of the link, and the commands VERSION_SET, NOP,
LEDGER_SNAPSHOT, STATS_SNAPSHOT, CREDIT_AUDIT and WATCHDOG_KICK.
-/
namespace Sys2Proof.Machine

/-! ### Queues -/

def Queue.empty (q : Queue) : Bool := q.sqHead == q.sqTail && q.out.isEmpty && q.cqHead == q.cqTail
def Queue.len (q : Queue) : Nat := 2 ^ q.size

/-- SIZE and PRIO as R344 takes them. -/
def Queue.config (q : Queue) (prio size : Nat) : Queue :=
  if prio = q.prio ∧ size = q.size then q
  else if q.st = .disabled ∧ q.empty then { q with prio := prio, size := size, cfgStatus := 0 }
  else { q with cfgStatus := 0x11 }

/-- ENABLE 1 while DISABLED: heads and tails 0, phase 1, or refused (R344). -/
def Queue.turnOn (q : Queue) : Queue :=
  if q.sqBase.toNat % 4096 ≠ 0 ∨ q.cqBase.toNat % 4096 ≠ 0 ∨ q.size < 4 ∨ 12 < q.size then { q with cfgStatus := 0x11 }
  else { q with st := .running, enable := true, sqHead := 0, sqTail := 0, cqTail := 0, cqHead := 0, phase := true,
                credit := 2 ^ q.size - 1, unsig := 0, fetched := [], cfgStatus := 0 }

def Queue.turnOff (q : Queue) : Queue :=
  match q.st with
  | .running => { q with st := .draining, enable := false }
  | .error => { q with enable := false }
  | .disabled => q
  | .draining => q

/-- A write of HQ_Qq_CTL (R343, R344). -/
def writeQueueCtl (q : Fin 16) (v : Word) (s : State) : State :=
  let a := (s.queue q.val).config (fieldOf v 1 2) (fieldOf v 4 4)
  let refused := (fieldOf v 1 2 != a.prio || fieldOf v 4 4 != a.size)
  let b0 := if bitOf v 0 then (if a.st = .disabled then a.turnOn else a) else a.turnOff
  let b := if refused then { b0 with cfgStatus := 0x11 } else b0
  let s1 := s.setQueue q.val b
  if q = 0 ∧ b.st = .running ∧ a.st = .disabled then
    { s1 with host := { s1.host with dropRec := false }, pwr := { s1.pwr with hostSeen := true } }
  else s1

/-- A ring base is written whole, at its _HI half (R344, R438). -/
def writeRingBase (q : Fin 16) (cq : Bool) (v : DWord) (s : State) : State :=
  let a := s.queue q.val
  if v = (if cq then a.cqBase else a.sqBase) then s
  else if a.st = .disabled ∧ a.empty then
    s.setQueue q.val (if cq then { a with cqBase := v, cfgStatus := 0 } else { a with sqBase := v, cfgStatus := 0 })
  else s.setQueue q.val { a with cfgStatus := 0x11 }

def execQueueEnable (q : Fin 16) (v : Word) (s : State) : Host.Outcome State Fault Refusal := .next (barWrite (fun s => writeQueueCtl q v s) s)
def execQueueDisable (q : Fin 16) (v : Word) (s : State) : Host.Outcome State Fault Refusal := .next (barWrite (fun s => writeQueueCtl q v s) s)

/-- DRAINING, or ERROR with ENABLE 0, with nothing outstanding: DISABLED (R343). -/
def execQueueDrainEnd (q : Fin 16) (s : State) : Host.Outcome State Fault Refusal :=
  let a := s.queue q.val
  if (a.st = .draining ∨ (a.st = .error ∧ a.enable = false)) ∧ a.out = [] then
    .next (s.setQueue q.val { a with st := .disabled, enable := false })
  else .next s

/-- A doorbell acts on a queue that is RUNNING or DRAINING (R345). -/
def Queue.rings (q : Queue) : Bool := q.st == .running || q.st == .draining

def sqTail (q : Fin 16) (v : Word) (s : State) : State :=
  let a := { s.queue q.val with tailBell := v }
  if a.rings then
    if v.toNat < a.len then s.setQueue q.val { a with sqTail := v.toNat }
    else (s.setQueue q.val a).both Reg.HQ_DB_ERRS Reg.HQ_EVT 1
  else s.setQueue q.val a

def execSqTailWrite (q : Fin 16) (v : Word) (s : State) : Host.Outcome State Fault Refusal := .next (barWrite (fun s => sqTail q v s) s)

/-- Entries from `a` up to `b` in a ring of `n`. -/
def ringDist (n a b : Nat) : Nat := (b + n - a) % n

/-- CQ_HEAD: between the completion head and tail, both included; the entries consumed are free again (R345, R348). -/
def cqHead (q : Fin 16) (v : Word) (s : State) : State :=
  let a := { s.queue q.val with headBell := v }
  let d := ringDist a.len a.cqHead v.toNat
  if a.rings then
    if v.toNat < a.len ∧ d ≤ ringDist a.len a.cqHead a.cqTail then
      s.setQueue q.val { a with cqHead := v.toNat, credit := a.credit + d }
    else (s.setQueue q.val a).both Reg.HQ_DB_ERRS Reg.HQ_EVT 1
  else s.setQueue q.val a

def execCqHeadWrite (q : Fin 16) (v : Word) (s : State) : Host.Outcome State Fault Refusal := .next (barWrite (fun s => cqHead q v s) s)

/-! ### Fetching -/

/-- Entries wait in the submission ring. -/
def Queue.waiting (q : Queue) : Nat := ringDist q.len q.sqHead q.sqTail

/-- Whether the queue may be picked (R346). -/
def State.eligible (s : State) (q : Nat) : Bool := s.mayFetch q && 0 < (s.queue q).waiting

/-- The queue R346 picks: queue 0, else the highest PRIO, in round robin from the one after the last. -/
def State.pick (s : State) : Option Nat :=
  if s.eligible 0 then some 0
  else
    let order := (List.range 16).map (fun i => (s.host.rrLast + 1 + i) % 16)
    let els := order.filter (fun q => q ≠ 0 ∧ s.eligible q)
    let best := els.foldl (fun m q => max m (s.queue q).prio) 0
    els.find? (fun q => (s.queue q).prio == best)

/-- Entries are fetched: each takes a slot (R42, R346). -/
def fetchAll (q : Fin 16) : List FetchedEntry → State → State
  | [], s => s
  | f :: rest, s =>
    let a := s.queue q.val
    let s1 := s.setQueue q.val { a with fetched := a.fetched ++ [(a.sqHead, s.host.fetchOrder, f)], sqHead := (a.sqHead + 1) % a.len }
    fetchAll q rest (s1.take q f.opcode f.flags f.tag).2

/-- Entry to ERROR: the completions that wait for this queue are dropped (R343). -/
def queueError (q : Fin 16) (s : State) : State :=
  let drop := s.host.ready.filterMap (fun p => match p.2 with
    | .completion c _ _ _ => if p.1 = q.val then some c else none
    | .record _ _ _ => none)
  let s1 := { s with host := { s.host with ready := s.host.ready.filter (fun p => p.1 ≠ q.val ∨ isRecord p.2) } }
  let s2 := (drop.foldl State.dropCompletion s1)
  (s2.setQueue q.val { s2.queue q.val with st := .error }).evt Reg.HQ_EVT 2

def entryFetch (q : Fin 16) (entries : Option (List FetchedEntry)) (s : State) : State :=
  if s.pick = some q.val then
    match entries with
    | none => queueError q s
    | some l =>
      let n := min 8 (min (s.queue q.val).waiting s.host.freeSlots)
      let s1 := fetchAll q (l.take n) s
      let s2 := { s1 with host := { s1.host with rrLast := if q = 0 then s1.host.rrLast else q.val } }
      s2.settle q.val
  else s

def execEntryFetch (q : Fin 16) (entries : Option (List FetchedEntry)) (s : State) : Host.Outcome State Fault Refusal :=
  .next (entryFetch q entries s)

/-! ### Completions and records -/

/-- The 16 bytes of an entry (R352, R360). -/
def completionBytes (result tag bytes13 : Nat) (q : Nat) (status op : Byte) (phase : Bool) : List Byte :=
  leBytes 8 result ++ leBytes 2 tag ++ [BitVec.ofNat 8 q, status, op] ++ leBytes 2 bytes13 ++ [BitVec.ofNat 8 (b2n phase)]

/-- COUNT of R362, 0 treated as 1. -/
def State.irqCount (s : State) (q : Nat) : Nat := max 1 (fieldOf (s.reg (Reg.HQ_Qq_IRQ + 0x40 * q)) 0 8)
def State.irqTimer (s : State) (q : Nat) : Nat := fieldOf (s.reg (Reg.HQ_Qq_IRQ + 0x40 * q)) 16 10

/-- The moderation of R362 after entries have been written. -/
def signalQueue (q : Fin 16) (s : State) : State :=
  let a := s.queue q.val
  if 0 < a.unsig ∧ (s.irqCount q.val ≤ a.unsig ∨ s.irqTimer q.val = 0) then
    (s.setQueue q.val { a with unsig := 0 }).raiseVec q.val
  else s

/-- An entry goes to the ring; it counts toward the interrupt unless suppressed (R348, R362). -/
def putEntry (q : Fin 16) (bs : Bool → List Byte) (suppress : Bool) (s : State) : State :=
  let a := s.queue q.val
  let tail := (a.cqTail + 1) % a.len
  let s1 := s.hostWrite (a.cqBase.toNat + 16 * a.cqTail) (bs a.phase)
  let b := { a with cqTail := tail, phase := if tail = 0 then !a.phase else a.phase, credit := a.credit - 1,
                    unsig := if suppress then a.unsig else a.unsig + 1,
                    unsigAt := if a.unsig = 0 then s.samples else a.unsigAt }
  signalQueue q (s1.setQueue q.val b)

/-- The first item that waits for a queue, and the list without it. -/
def firstReady (q : Nat) : List (Nat × ReadyItem) → Option (ReadyItem × List (Nat × ReadyItem))
  | [] => none
  | p :: rest =>
    if p.1 = q then some (p.2, rest) else (firstReady q rest).map (fun r => (r.1, p :: r.2))

/-- The renderer may write an entry to the ring (R340, R343, R348). -/
def State.mayWrite (s : State) (q : Nat) : Bool :=
  s.host.linkUp && s.host.bme && (s.queue q).rings && 0 < (s.queue q).credit

def completionWrite (q : Fin 16) (linkOk : Bool) (s : State) : State :=
  if s.mayWrite q.val then
    match firstReady q.val s.host.ready with
    | some (.completion c st res v2, rest) =>
      if linkOk then
        let s1 := ({ s with host := { s.host with ready := rest } }).freeSlot c
        let head := if v2 then (s.queue q.val).sqHead else 0
        (putEntry q (fun ph => completionBytes res.toNat c.tag.toNat head q.val st c.opcode ph) c.suppress s1).settle q.val
      else queueError q s
    | some (.record _ _ _, _) => s
    | none => s
  else s

def execCompletionWrite (q : Fin 16) (linkOk : Bool) (s : State) : Host.Outcome State Fault Refusal :=
  .next (completionWrite q linkOk s)

/-- Room again in the event queue: an OVERFLOW record goes ahead of any later one (R361). -/
def overflowRecord (s : State) : State :=
  if 0 < s.host.lost ∧ s.records < 256 then
    ({ s with host := { s.host with lost := 0 } }).pushReady 0 (.record 2 0 (BitVec.ofNat 64 s.host.lost))
  else s

/-- The sequence number of the next record goes up (R360). -/
def nextSeq (s : State) : State := { s with host := { s.host with evtSeq := s.host.evtSeq + 1 } }

def eventRecordWrite (linkOk : Bool) (s : State) : State :=
  if s.mayWrite 0 then
    match firstReady 0 s.host.ready with
    | some (.record kind ident res, rest) =>
      let s1 := { s with host := { s.host with ready := rest } }
      if linkOk then
        let n := s.host.evtSeq % 65536
        overflowRecord (nextSeq (putEntry 0 (fun ph => completionBytes res.toNat n ident 0 kind 0xFF ph) false s1))
      else queueError 0 (s1.count Reg.HQ_CPL_DROPPED 1)
    | some (.completion _ _ _ _, _) => s
    | none => s
  else s

def execEventRecordWrite (linkOk : Bool) (s : State) : Host.Outcome State Fault Refusal := .next (eventRecordWrite linkOk s)

/-! ### Interrupts -/

/-- TIMER has passed since the oldest unsignalled entry was written (R362). -/
def execIrqTimerExpiry (q : Fin 16) (s : State) : Host.Outcome State Fault Refusal :=
  let a := s.queue q.val
  if 0 < a.unsig ∧ s.passed a.unsigAt (s.irqTimer q.val) then .next ((s.setQueue q.val { a with unsig := 0 }).raiseVec q.val) else .next s

/-- Pending messages that may be sent now are sent. -/
def sendPending (s : State) : State :=
  let m := s.host.msix
  if s.host.linkUp ∧ s.host.bme ∧ m.enabled ∧ ¬ m.funMask then
    let go := m.pend.filter (fun v => !m.mask.contains v)
    { s with host := { s.host with msix :=
        { m with pend := m.pend.filter (fun v => m.mask.contains v), sent := go.reverse ++ m.sent } } }
  else s

def setMask (v : Nat) (masked : Bool) (s : State) : State :=
  let m := s.host.msix
  let l := m.mask.filter (fun k => k ≠ v)
  sendPending { s with host := { s.host with msix := { m with mask := if masked then l ++ [v] else l } } }

def execMsixUnmask (v : Fin 32) (s : State) : Host.Outcome State Fault Refusal := .next (barWrite (fun s => setMask v.val false s) s)

/-- One message for each vector 0–26 whose bit is 1 (R442). -/
def irqTest (v : Word) (s : State) : State :=
  ((List.range 27).filter (fun i => bitOf v i)).foldl State.raiseVec s

def execIrqTestWrite (v : Word) (s : State) : Host.Outcome State Fault Refusal := .next (barWrite (fun s => irqTest v s) s)

/-! ### Watchdog -/

def State.wdogMode (s : State) : Bool := s.pwr.mode == .show_ || s.pwr.mode == .service
/-- TIMEOUT, 10–60,000 ms (R363). -/
def State.wdogTimeout (s : State) : Nat := clampN 10 60000 (fieldOf (s.reg Reg.HQ_WDOG_CFG) 16 16)

/-- A restart with the full TIMEOUT, or a stop where the watchdog does not run (R363); the time left is
held in units of 1/96 ms. -/
def wdogRestart (s : State) : State :=
  if bitOf (s.reg Reg.HQ_WDOG_CFG) 0 ∧ s.wdogMode then
    { s with host := { s.host with wdogRun := true, wdogLeft := 96 * s.wdogTimeout } }
  else { s with host := { s.host with wdogRun := false, wdogLeft := 0 } }

def watchdogExpiry (s : State) : State :=
  if s.host.wdogRun ∧ s.wdogMode ∧ s.host.wdogLeft = 0 then
    let s1 := { s with host := { s.host with wdogRun := false } }
    let s2 := s1.both Reg.HQ_WDOG_EXPIRIES Reg.HQ_EVT 5
    if bitOf (s.reg Reg.HQ_WDOG_CFG) 1 ∧ s.pwr.mode = .show_ then { s2 with pwr := { s2.pwr with pendWdog := true } } else s2
  else s

def execWatchdogExpiry (s : State) : Host.Outcome State Fault Refusal := .next (watchdogExpiry s)

def execWdogCfgWrite (v : Word) (s : State) : Host.Outcome State Fault Refusal :=
  .next (barWrite (fun s => wdogRestart (s.setReg Reg.HQ_WDOG_CFG (v &&& 0xFFFF0003))) s)

/-! ### The link -/

/-- The link goes down, PERST_N asserts or a hot reset arrives (R365, R430): what was fetched and not
processed is dropped, what waits to be written is dropped and counted. -/
def linkLoss (s : State) : State :=
  if s.host.linkUp then
    let n := s.host.ready.length
    let qs := s.host.queues.map (fun q => { q with fetched := [], unsig := 0, held := false })
    let h := { s.host with linkUp := false, bme := false, ready := [], queues := qs, dropRec := true, lost := 0,
                           msix := { s.host.msix with mask := List.range 32, pend := [] } }
    ({ s with host := h }).count Reg.HQ_CPL_DROPPED n
  else s

def execPcieLinkLoss (s : State) : Host.Outcome State Fault Refusal := .next (linkLoss s)

/-- The link returns: every queue DISABLED and empty, its configuration kept (R365). -/
def linkReturn (s : State) : State :=
  if s.host.linkUp then s
  else
    let qs := s.host.queues.map (fun q =>
      { q with st := .disabled, enable := false, sqHead := 0, sqTail := 0, cqTail := 0, cqHead := 0, phase := true,
               out := [], fetched := [], held := false, credit := 2 ^ q.size - 1, unsig := 0 })
    ({ s with host := { s.host with linkUp := true, queues := qs, freeSlots := 512 } }).evt Reg.HQ_EVT 6

def execPcieLinkReturn (s : State) : Host.Outcome State Fault Refusal := .next (linkReturn s)

/-- An access of a width or alignment that breaks R9 or R341; a read of that kind returns all ones. -/
def execBadAccess (isRead : Bool) (s : State) : Host.Outcome State Fault Refusal :=
  let s1 : State := if isRead then { s with host := { s.host with answer := some 0xFFFFFFFF } } else s
  .next (s1.both Reg.HQ_BAD_ACCESS Reg.HQ_EVT 0)

def execBusMasterEnableChange (on : Bool) (s : State) : Host.Outcome State Fault Refusal :=
  .next (sendPending { s with host := { s.host with bme := on } })

/-! ### Commands -/

/-- VERSION_SET (R354). -/
def versionSet (e : Submission) (c : CmdRef) (s : State) : State :=
  let lo := sub e 16 1
  let hi := sub e 17 1
  let others := (List.range 16).any (fun q => q ≠ 0 ∧ (s.queue q).st ≠ .disabled)
  let bad := lo < 1 || 2 < lo || hi < 1 || 2 < hi || decide (hi < lo) || !subZero e 18 46 || others ||
    decide (s.host.freeSlots ≠ 511)
  guardCmd bad stBadParam c (fun s =>
    let s1 := s.complete c stOk hi
    { s1 with host := { s1.host with version := hi } }) s

def execVersionSet (e : Submission) (s : State) : Host.Outcome State Fault Refusal :=
  .next (hostCommand 0x01 e (versionSet e) s)

/-- NOP (R356, R17). -/
def nopAct (e : Submission) (c : CmdRef) (s : State) : State :=
  guardCmd (!subZero e 24 40) stBadParam c (fun s =>
    if e.present = 0 then s.complete c stOk (sub e 16 8)
    else
      guardCmd (!s.valid) stModeRefused c (fun s =>
        let b := s.mulFor 16 (s.mscOf e.present)
        s.addTimed c b.1 b.2 .nop) s) s

def execNop (e : Submission) (s : State) : Host.Outcome State Fault Refusal := .next (hostCommand 0x00 e (nopAct e) s)

/-- The boundary of a snapshot or an audit (R36): with a presentation MSC of 0 the first after the command was fetched. -/
def State.snapAt (s : State) (c : CmdRef) (p : Nat) : Nat × Bool := s.mulFor 16 (if p = 0 then c.fetched + 1 else p)

/-- A command that is taken at a block boundary; refused while the MSC is not valid (R17). -/
def atBoundary (e : Submission) (c : CmdRef) (a : TimedAct) (s : State) : State :=
  guardCmd (!s.valid) stModeRefused c (fun s =>
    let b := s.snapAt c (s.mscOf e.present)
    s.addTimed c b.1 b.2 a) s

/-- LEDGER_SNAPSHOT (R36). -/
def ledgerSnapshot (e : Submission) (c : CmdRef) (s : State) : State :=
  guardCmd (decide (sub e 16 8 % 64 ≠ 0 ∨ sub e 24 4 < 52432) || !subZero e 28 36) stBadParam c
    (atBoundary e c (.ledgerSnapshot (BitVec.ofNat 64 (sub e 16 8)))) s

def execLedgerSnapshot (e : Submission) (s : State) : Host.Outcome State Fault Refusal :=
  .next (hostCommand 0x68 e (ledgerSnapshot e) s)

/-- Length of a statistics snapshot (R358, R445). -/
def statsLength : Nat := 64 + 8 * 333

/-- STATS_SNAPSHOT (R358). -/
def statsSnapshot (e : Submission) (c : CmdRef) (s : State) : State :=
  guardCmd (decide (sub e 16 8 % 64 ≠ 0) || !subZero e 28 36) stBadParam c (fun s =>
    if sub e 24 4 < statsLength then s.complete c stBadParam statsLength
    else atBoundary e c (.statsSnapshot (BitVec.ofNat 64 (sub e 16 8))) s) s

def execStatsSnapshot (e : Submission) (s : State) : Host.Outcome State Fault Refusal :=
  .next (hostCommand 0x69 e (statsSnapshot e) s)

/-- CREDIT_AUDIT (R43). -/
def creditAudit (e : Submission) (c : CmdRef) (s : State) : State :=
  guardCmd (!subZero e 16 48) stBadParam c (atBoundary e c .creditAudit) s

def execCreditAudit (e : Submission) (s : State) : Host.Outcome State Fault Refusal :=
  .next (hostCommand 0x6A e (creditAudit e) s)

/-- WATCHDOG_KICK (R364). -/
def watchdogKick (e : Submission) (c : CmdRef) (s : State) : State :=
  guardCmd (!subZero e 24 40 || e.present != 0) stBadParam c (fun s => (wdogRestart s).complete c stOk (sub e 16 8)) s

def execWatchdogKick (e : Submission) (s : State) : Host.Outcome State Fault Refusal :=
  .next (hostCommand 0x78 e (watchdogKick e) s)

end Sys2Proof.Machine
end

