-- ==== Sys2Proof/Machine/Clock.lean ====
section
/-!
DEFINITION. Time bases and the media clock (spec chapter 02): measurements and states (R45–R48, R67), holdover
(R63, R64), steps and slews of the origin (R58–R60), changeovers (R61, R62), the clock pins and the attic's time
(R54, R66, R68).
-/
namespace Sys2Proof.Machine

/-! ### Time bases -/

def State.tb (s : State) (n : Nat) : TimeBase := s.clock.tb.getD n {}
def State.setTb (s : State) (n : Nat) (t : TimeBase) : State := { s with clock := { s.clock with tb := s.clock.tb.set n t } }
def State.setMedia (s : State) (m : MediaClock) : State := { s with clock := { s.clock with media := m } }
/-- A register of time base `n`. -/
def tbReg (off n : Nat) : Nat := off + 0x40 * n
def State.tbCfg (s : State) (n : Nat) : Word := s.reg (tbReg Reg.TMB_TBn_CFG n)
/-- SOURCE of R45. -/
def State.tbSource (s : State) (n : Nat) : Nat := fieldOf (s.tbCfg n) 1 3

/-- One second and one nanosecond, in units of 2⁻¹⁶ ns. -/
def second16 : Nat := 65536000000000
def ns16 : Nat := 65536

def unitsOf (t : TimeStamp) : Nat := t.sec * second16 + t.ns * ns16 + t.sub

/-- A bit of TMB_MEDIA_CFG. -/
def State.mediaBit (s : State) (i : Nat) : Bool := bitOf (s.reg Reg.TMB_MEDIA_CFG) i
/-- PRIMARY and SECONDARY as they are in force. -/
def State.primaryTb (s : State) : Nat := s.clock.media.primary
def State.secondaryTb (s : State) : Nat := s.clock.media.secondary

/-- The active time base counts as LOCKED (R63). -/
def State.tbLocked (s : State) : Bool :=
  let t := s.tb s.clock.media.active.val
  t.st == .locked || (s.mediaBit 9 && t.st == .free)

/-- FREE_OK of TMB_MEDIA_CFG: a time base that the attic seeded counts as LOCKED too, for R57 and R63. -/
def State.tbGood (s : State) : Bool := s.tbLocked || (s.mediaBit 9 && s.clock.media.seeded)

/-- Holdover of the media clock starts or ends with the state of the active time base (R63, R64). -/
def State.checkHold (s : State) : State :=
  let m := s.clock.media
  if !m.valid then s
  else if s.tbGood then
    if m.holding then s.setMedia { m with holding := false, timerOn := false, returned := true } else s
  else if m.holding then s
  else s.setMedia { m with holding := true, timerOn := true, holdFor := 0, expired := false, returned := false }

/-- A time base enters ACQUIRING. -/
def TimeBase.acquire (t : TimeBase) : TimeBase := { t with st := .acquiring, good := 0, bad := 0 }

/-- The source is there: a Sync was accepted, a pulse or a measurement came (R47). -/
def TimeBase.heard (t : TimeBase) : TimeBase := { t with seen := t.run }

/-- HOLDOVER of a time base (R47). -/
def State.loseTb (s : State) (n : Nat) : State :=
  let s1 := ((s.setTb n { s.tb n with st := .holdover }).count (tbReg Reg.TMB_TBn_LOSSES n) 1).evt Reg.TMB_EVT 1
  let m := s1.clock.media
  let s2 := if n = s1.primaryTb ∧ s1.mediaBit 6 then s1.setMedia { m with primLost := true } else s1
  if n = m.active.val then s2.checkHold else s2

/-- The frequency correction lies within ±200 ppm, in units of 2⁻¹⁶ ppm (R48). -/
def servoClamp (x : Int) : Int := clampI (-13107200) 13107200 x

/-- One measurement of a time base against its source, `off` in units of 2⁻¹⁶ ns (R47, R48): time base minus source. -/
def State.measureTb (s : State) (n : Nat) (off : Int) : State :=
  let t0 := (s.tb n).heard
  let t := if t0.st = .holdover then t0.acquire else t0
  let nsOff := rdiv off 65536
  let t1 := { t with offset := nsOff }
  if t.st = .acquiring then
    let stepped := decide (50000 * 65536 < off.natAbs)
    let t2 := if stepped then { t1 with tod := ((t1.tod : Int) - off).toNat }
      else { t1 with servo := servoClamp (Config.servo t1.servo nsOff) }
    s.setTb n { t2 with good := if off.natAbs ≤ 1000 * 65536 then t.good + 1 else 0 }
  else if t.st = .locked then
    s.setTb n { t1 with servo := servoClamp (Config.servo t1.servo nsOff),
                        bad := if 10000 * 65536 < off.natAbs then t.bad + 1 else 0 }
  else s

/-- R47: the eighth measurement in a row within ±1,000 ns. -/
def timeBaseLocked (n : Nat) (s : State) : State :=
  let t := s.tb n
  if t.st = .acquiring ∧ 8 ≤ t.good then
    let m := s.clock.media
    let m1 := { m with primLost := m.primLost && decide (n ≠ s.primaryTb), seeded := m.seeded && decide (n ≠ m.active.val) }
    let s1 := ((s.setTb n { t with st := .locked, bad := 0 }).setMedia m1).evt Reg.TMB_EVT 0
    if n = m.active.val then s1.checkHold else s1
  else s

def execTimeBaseLocked (tb : Fin 4) (s : State) : Host.Outcome State Fault Refusal := .next (timeBaseLocked tb.val s)

/-- R47: the fourth measurement in a row beyond ±10,000 ns. -/
def timeBaseUnlock (n : Nat) (s : State) : State :=
  let t := s.tb n
  if t.st = .locked ∧ 4 ≤ t.bad then
    let s1 := s.setTb n t.acquire
    if n = s.clock.media.active.val then s1.checkHold else s1
  else s

def execTimeBaseUnlock (tb : Fin 4) (s : State) : Host.Outcome State Fault Refusal := .next (timeBaseUnlock tb.val s)

/-- A span of 2^`l` seconds in units of 2⁻¹⁶ ns. -/
def logSpan (l : Int) : Nat := if l < 0 then second16 / 2 ^ l.natAbs else second16 * 2 ^ l.natAbs

/-- The defaults of R50's profiles: logSync, logAnnounce, announceReceiptTimeout, logMinDelayReq. -/
def ptpDefaults (profile : Nat) : Int × Int × Int × Int :=
  if profile = 1 then (-3, 1, 3, -3) else if profile = 2 then (-3, -2, 3, -3) else (0, 1, 3, 0)

/-- The intervals of an instance (R50): the profile's, or with CUSTOM those of TMB_TBn_INTERVALS, each brought into its range. -/
def State.ptpIntervals (s : State) (n : Nat) : Int × Int × Int × Int :=
  let r := s.reg (tbReg Reg.TMB_TBn_INTERVALS n)
  let log (i : Nat) : Int := (r.extractLsb' i 4).toInt
  if bitOf r 31 then (clampI (-7) 1 (log 0), clampI (-3) 3 (log 4), clampI 2 10 (fieldOf r 8 4), clampI (-7) 5 (log 12))
  else ptpDefaults (fieldOf (s.tbCfg n) 6 2)

/-- The Sync interval of the chosen leader: the one its Syncs carry, within R50's range; until the first, the instance's own. -/
def State.syncSpan (s : State) (n : Nat) : Nat := logSpan (match (s.tb n).syncLog with
  | some l => clampI (-7) 1 l
  | none => (s.ptpIntervals n).1)

/-- How long a source stays silent before it is lost (R47), in units of 2⁻¹⁶ ns: four Sync intervals; two pulses, the second of
them at most 1 ms late; four periods of a word clock at the media rate. DEDUCED (assumption 68). -/
def State.lossSpan (s : State) (n : Nat) : Nat :=
  if s.tbSource n = 1 then 4 * s.syncSpan n
  else if s.tbSource n = 2 then 2 * second16 + second16 / 1000
  else 4 * (second16 / s.fs)

/-- Nothing has come from the source for so long. A PTP instance misses its chosen leader's Syncs only. -/
def State.silent (s : State) (n : Nat) : Bool :=
  let t := s.tb n
  (s.tbSource n != 1 || t.leader.isSome) && decide (t.seen + s.lossSpan n ≤ t.run)

/-- A time base that runs on a source loses it. -/
def State.dropSource (s : State) (n : Nat) : State :=
  if (s.tb n).st = .acquiring ∨ (s.tb n).st = .locked then s.loseTb n else s

/-- A source is lost by what it misses (R47); CHAIN is lost by CHAIN_SOURCE_LOST (R316). -/
def sourceLost (n : Nat) (s : State) : State := if s.tbSource n ≠ 4 ∧ s.silent n then s.dropSource n else s

def execSourceLost (tb : Fin 4) (s : State) : Host.Outcome State Fault Refusal := .next (sourceLost tb.val s)

/-- The enabled time base that uses a source. -/
def State.tbWith (s : State) (src : Nat) : Option Nat :=
  (List.range 4).find? (fun n => (s.tb n).st != .disabled && s.tbSource n == src)

/-- A rising edge on PPS_IN marks a whole second (R67): the offset from the nearest one. -/
def ppsInPulse (s : State) : State :=
  match s.tbWith 2 with
  | some n =>
    let f := ((s.tb n).tod + second16 / 2) % second16
    s.measureTb n ((f : Int) - ((second16 / 2 : Nat) : Int))
  | none => s

def execPpsInPulse (s : State) : Host.Outcome State Fault Refusal := .next (ppsInPulse s)

def execWclkMeasurement (offsetNs : Int) (s : State) : Host.Outcome State Fault Refusal :=
  match s.tbWith 3 with
  | some n => .next (s.measureTb n (offsetNs * 65536))
  | none => .next s

/-! ### Configuration of a time base (R45, R46) -/

/-- Bits of TMB_TBn_CFG that are kept. -/
def tbCfgMask : Word := 0x00077FFF

/-- Another enabled time base uses PPS_IN, WCLK_IN or CHAIN (R46). -/
def State.tbConflict (s : State) (n src : Nat) : Bool :=
  (src == 2 || src == 3 || src == 4) && (List.range 4).any (fun k => k != n && (s.tb k).st != .disabled && s.tbSource k == src)

def tmbTbCfgWrite (n : Nat) (v : Word) (s : State) : State :=
  let s1 := s.setReg (tbReg Reg.TMB_TBn_CFG n) (v &&& tbCfgMask)
  let src := s1.tbSource n
  let t := s.tb n
  let role := fieldOf (s1.tbCfg n) 16 2
  let base : TimeBase := { t with good := 0, bad := 0, conflict := false, isLeader := src == 1 && role == 2, leader := none,
                                  foreign := [], sync := none, pathDelay := 0, reqOut := none, run := 0, seen := 0, syncLog := none }
  let s2 :=
    if ¬bitOf v 0 ∨ 5 ≤ src then s1.setTb n { base with st := .disabled, isLeader := false }
    else if s1.tbConflict n src then
      (s1.setTb n { base with st := .disabled, conflict := true, isLeader := false }).evt Reg.TMB_EVT 8
    else if src = 0 then s1.setTb n { base with st := .free }
    else s1.setTb n { base with st := .acquiring }
  if n = s.clock.media.active.val then s2.checkHold else s2

def execTmbTbCfgWrite (tb : Fin 4) (v : Word) (s : State) : Host.Outcome State Fault Refusal := .next (barWrite (fun s => tmbTbCfgWrite tb.val v s) s)

/-- A write of TMB_TBn_SET_SEC (R45): taken at the next whole second with SOURCE 0, 2 and 3. -/
def State.setSec (s : State) (n sec : Nat) : State :=
  let src := s.tbSource n
  if src = 0 ∨ src = 2 ∨ src = 3 then s.setTb n { s.tb n with setSec := some (sec % 2 ^ 48) } else s

/-- The low word that a master wrote before (R438); 0 with none. -/
def State.lowWord (s : State) (off : Nat) (m : Master) : Nat :=
  match s.wlatch.find? (fun p => p.1 == (off, m)) with
  | some p => p.2.toNat
  | none => 0

def execTmbSetSecWrite (tb : Fin 4) (hi : Word) (s : State) : Host.Outcome State Fault Refusal :=
  .next (barWrite (fun s => s.setSec tb.val (s.lowWord (tbReg Reg.TMB_TBn_SET_SEC_LO tb.val) .host + 2 ^ 32 * fieldOf hi 0 16)) s)

/-! ### Clock pins and the attic (R54, R66, R68) -/

/-- A clock output pin: driven low, or a square wave of so many cycles a second that rises with the sample starts. -/
inductive ClkPin where
  | low
  | square (hz : Nat)
deriving DecidableEq, Repr, Inhabited

/-- WCLK_OUT (R66). -/
def State.wclkOut (s : State) : ClkPin := if bitOf (s.reg Reg.TMB_IO_CFG) 0 && s.valid then .square s.fs else .low

/-- MCLK_OUT (R66): 128, 256 or 512 times the media rate. -/
def State.mclkOut (s : State) : ClkPin :=
  if bitOf (s.reg Reg.TMB_IO_CFG) 1 && s.valid then .square (s.fs * 128 * 2 ^ min 2 (fieldOf (s.reg Reg.TMB_IO_CFG) 2 2)) else .low

/-- PPS_OUT is driven (R66). -/
def State.ppsOn (s : State) : Bool := bitOf (s.reg Reg.TMB_IO_CFG) 4 && s.valid

/-- PPS_OUT (R66). -/
def State.ppsOut (s : State) : Bool := s.clock.ppsHigh && s.ppsOn

/-- PPS_WIDTH in units of 2⁻¹⁶ ns: 0 means 1 ms. DESIGN CHOICE (assumption 63): 501 to 511 stand as they are. -/
def State.ppsWidth (s : State) : Nat := max 1 (fieldOf (s.reg Reg.TMB_IO_CFG) 7 9) * (second16 / 1000)

/-- The time base that PPS_OUT follows. -/
def State.ppsTb (s : State) : Nat := fieldOf (s.reg Reg.TMB_IO_CFG) 5 2

/-- A pulse that the pin no longer drives is over. -/
def State.ppsCheck (s : State) : State := if s.ppsOn then s else { s with clock := { s.clock with ppsHigh := false } }

def wholeSecond (n : Nat) (s : State) : State :=
  let t := s.tb n
  if t.second then
    let t1 := match t.setSec with
      | some x => { t with tod := x * second16 + t.tod % second16, setSec := none, second := false }
      | none => { t with second := false }
    let s1 := s.setTb n t1
    if s.ppsOn ∧ s.ppsTb = n then { s1 with clock := { s1.clock with ppsHigh := true } } else s1
  else s

def execWholeSecond (tb : Fin 4) (s : State) : Host.Outcome State Fault Refusal := .next (wholeSecond tb.val s)

/-- PPS_WIDTH has passed since the whole second: PPS_OUT falls (R66). -/
def ppsWidthEnd (s : State) : State :=
  if s.ppsWidth ≤ (s.tb s.ppsTb).tod % second16 then { s with clock := { s.clock with ppsHigh := false } } else s

def execPpsWidthEnd (s : State) : Host.Outcome State Fault Refusal := .next (ppsWidthEnd s)

/-- TMB_SNAP.GO (R54). -/
def tmbSnapGo (s : State) : State :=
  { s with clock := { s.clock with snapTod := s.clock.tb.map (fun t => if t.st = .disabled then 0 else t.tod), snapMsc := s.msc } }

def execTmbSnapGo (s : State) : Host.Outcome State Fault Refusal := .next (barWrite (fun s => tmbSnapGo s) s)

/-- The attic's resolution of 100 ns, in units of 2⁻¹⁶ ns (R68). -/
def atticTick16 : Nat := 100 * ns16

/-- A time-of-day as the attic holds it. -/
def atticTime (tod : Nat) : Nat := tod / atticTick16 * atticTick16

/-- At each whole second the attic takes its time from the active media time base (R68). -/
def atticTimeReload (s : State) : State :=
  if s.clock.atticDue then
    { s with clock := { s.clock with atticDue := false },
             pwr := { s.pwr with attic := { s.pwr.attic with tod := atticTime (s.tb s.clock.media.active.val).tod, timeValid := true } } }
  else s

def execAtticTimeReload (s : State) : Host.Outcome State Fault Refusal := .next (atticTimeReload s)

def atticClk (on : Bool) (s : State) : State := { s with pwr := { s.pwr with attic := { s.pwr.attic with extClk := on } } }

def execAtticClkPresent (s : State) : Host.Outcome State Fault Refusal := .next (atticClk true s)

def execAtticClkAbsent (s : State) : Host.Outcome State Fault Refusal := .next (atticClk false s)

/-- Parts per million, in units of 2⁻¹⁶. -/
def million16 : Nat := 65536000000

/-- The frequency correction of a time base, in units of 2⁻¹⁶ ppm: the one written while it is FREE, else the servo's (R45–R48). -/
def State.correction (s : State) (n : Nat) : Int :=
  if (s.tb n).st = .free then (s.reg (tbReg Reg.TMB_TBn_FREQ n)).toInt else (s.tb n).servo

/-- A time base advances by what XTAL_25M counted, corrected; a time-of-day ends at 2⁴⁸ s (R4). -/
def TimeBase.advance (t : TimeBase) (corr : Int) (xtal : Nat) : TimeBase :=
  let x := xtal * ((million16 : Int) + corr).toNat + t.frac
  let d := x / million16
  let tod := min (t.tod + d) (2 ^ 48 * second16 - 1)
  if t.st = .disabled then t
  else { t with tod := tod, frac := x % million16, run := t.run + d, second := t.second || tod / second16 != t.tod / second16 }

/-- Every time base's time advances by what the sample period brought. -/
def State.advanceTime (s : State) (xtal : Nat) : State :=
  let tbs := s.clock.tb.zipIdx.map (fun p => p.1.advance (s.correction p.2) xtal)
  let m := s.clock.media
  let crossed := (tbs.getD m.active.val {}).tod / second16 != (s.tb m.active.val).tod / second16
  { s with clock := { s.clock with tb := tbs, atticDue := s.clock.atticDue || crossed } }

/-! ### The media sample counter (R56–R60) -/

/-- A media count in units of 2⁻¹⁶·10⁻⁹ samples. -/
def sample16 : Nat := 65536000000000

/-- N of R56 for the active time base. -/
def State.mediaCount (s : State) : Nat := (s.tb s.clock.media.active.val).tod * s.fs / sample16

/-- e of R58 in units of 2⁻¹⁶·10⁻⁹ samples. -/
def State.mediaError (s : State) : Int :=
  (((s.tb s.clock.media.active.val).tod * s.fs : Nat) : Int) - (((s.msc + s.clock.media.origin) * sample16 : Nat) : Int)

/-- The value of slewLeft for a residual: |r| / 10 ppm, in samples (R58). -/
def slewFor (r : Int) : Nat := if r = 0 then 0 else (r.natAbs * 100000 + (sample16 - 1)) / sample16 + 1

/-- Lead of a step in control frames; a chain head's lets the step reach every member (R316). -/
def State.originLead (s : State) : Nat :=
  let n := clampN 1 64 (fieldOf (s.reg Reg.TMB_ORIGIN_LEAD) 0 7)
  if s.ntk.chain.head then max n ((s.ntk.chain.budget + 127) / 128 + 2) else n

/-- The head sends its step to the members (R60). -/
def State.sendStep (s : State) (k : Int) (b : Nat) : State :=
  if s.ntk.chain.head then
    { s with ntk := { s.ntk with ports := s.ntk.ports.map (fun p => if p.link = .ready then { p with records := p.records ++ [.step k b] } else p) } }
  else s

/-- 50 ms. -/
def State.len50 (s : State) : Nat := s.fs / 20

/-- Muted outputs ramp back (R64). -/
def State.unmuteOut (s : State) : State :=
  let m := s.clock.media
  s.setMedia { m with outMute := if m.outMute.target = 0 then m.outMute.start (2 ^ 27) s.len50 else m.outMute, returned := false,
                      unmuteAtStep := false }

/-- The measurement at a control-frame boundary (R58) and what it does for muted outputs (R64). -/
def State.measureMedia (s : State) : State :=
  let m := s.clock.media
  if !s.tbLocked then s
  else
    let s1 :=
      if m.step.isSome ∨ m.slewLeft ≠ 0 then s
      else
        let e := s.mediaError
        let k := rdiv e sample16
        if k = 0 then s.setMedia { m with slewLeft := slewFor e }
        else if s.tbSource m.active.val = 4 then s
        else
          let b := s.nextMul 128 + 128 * s.originLead
          (s.setMedia { m with step := some (k, b, e - k * sample16) }).sendStep k b
    let m1 := s1.clock.media
    if m1.returned then
      if m1.step.isSome then s1.setMedia { m1 with returned := false, unmuteAtStep := true } else s1.unmuteOut
    else s1

/-- The origin's part of a step that its boundary has reached (R58, R59). -/
def State.stepOrigin (s : State) (k : Int) (r : Int) : State :=
  let m := s.clock.media
  let s1 := s.setMedia { m with origin := (((m.origin : Int) + k) % 2 ^ 64).toNat, step := none, slewLeft := slewFor r }
  let s2 := ((s1.setReg Reg.TMB_ORIGIN_LAST (BitVec.ofInt 32 k)).count Reg.TMB_ORIGIN_STEPS 1).evt Reg.TMB_EVT 4
  if m.unmuteAtStep then s2.unmuteOut else s2

/-- The slew has run its length (R58). -/
def slewEnd (s : State) : State :=
  if s.clock.media.slewLeft = 1 then s.setMedia { s.clock.media with slewLeft := 0 } else s

def execSlewEnd (s : State) : Host.Outcome State Fault Refusal := .next (slewEnd s)

/-- TMB_ORIGIN (R57): kept only while the MSC is not valid. -/
def tmbOriginWrite (v : DWord) (s : State) : State :=
  if s.valid then s.setMedia { s.clock.media with rejected := true }
  else s.setMedia { s.clock.media with originWritten := some v.toNat }

def execTmbOriginWrite (v : DWord) (s : State) : Host.Outcome State Fault Refusal := .next (barWrite (fun s => tmbOriginWrite v s) s)

/-! ### Changeover (R61, R62) -/

/-- What the media clock changes over to at this control-frame boundary. -/
def State.changeoverTo (s : State) : Option Nat :=
  let m := s.clock.media
  let p := s.primaryTb
  let q := s.secondaryTb
  let onPrimary := m.active.val == p
  if s.mediaBit 5 && onPrimary && q != p && (s.tb q).st == .locked && ((s.mediaBit 6 && m.primLost) || m.force == some true) then some q
  else if !onPrimary && (s.tb p).st == .locked && ((m.revertDue && s.mediaBit 7) || m.force == some false) then some p
  else none

def mediaChangeover (s : State) : State :=
  if s.boundary ∧ s.msc % 128 = 0 then
    match s.changeoverTo with
    | some n =>
      let m := s.clock.media
      let s1 := s.setMedia { m with active := Fin.ofNat 4 n, force := none, revertDue := false, primGood := 0 }
      s1.checkHold.evt Reg.TMB_EVT 3
    | none => s
  else s

def execMediaChangeover (s : State) : Host.Outcome State Fault Refusal := .next (mediaChangeover s)

/-- PRIMARY has been LOCKED for 10 s with REVERT set. -/
def revertTimeout (s : State) : State :=
  let m := s.clock.media
  if s.mediaBit 7 ∧ m.active.val ≠ s.primaryTb ∧ 10 * s.fs ≤ m.primGood then s.setMedia { m with revertDue := true } else s

def execRevertTimeout (s : State) : Host.Outcome State Fault Refusal := .next (revertTimeout s)

/-- TMB_MEDIA_CMD.FORCE: a changeover is asked for. -/
def forceMedia (secondary : Bool) (s : State) : State := s.setMedia { s.clock.media with force := some secondary }

def execForceSecondary (s : State) : Host.Outcome State Fault Refusal := .next (barWrite (fun s => forceMedia true s) s)

def execForcePrimary (s : State) : Host.Outcome State Fault Refusal := .next (barWrite (fun s => forceMedia false s) s)

/-! ### Holdover (R63) -/

/-- TMB_HOLDOVER_LIMIT in milliseconds. -/
def State.holdLimit (s : State) : Nat := clampN 1 3600000 (s.reg Reg.TMB_HOLDOVER_LIMIT).toNat

def holdoverExpiry (s : State) : State :=
  let m := s.clock.media
  if m.timerOn && decide (s.holdLimit * s.fs ≤ m.holdFor * 1000) then
    let m1 := { m with timerOn := false, expired := true,
                       outMute := if s.mediaBit 8 then m.outMute else m.outMute.start 0 s.len50 }
    (s.setMedia m1).evt Reg.TMB_EVT 2
  else s

def execHoldoverExpiry (s : State) : Host.Outcome State Fault Refusal := .next (holdoverExpiry s)

def execTmbHoldoverLimitWrite (v : Word) (s : State) : Host.Outcome State Fault Refusal :=
  .next (barWrite (fun s => s.setReg Reg.TMB_HOLDOVER_LIMIT v) s)

/-- What a sample period does to the media clock's timers. A REVERT whose 10 s are over lapses when PRIMARY is not LOCKED any
more (R61). DESIGN CHOICE (assumption 63): the 10 s begin while another time base is active, not before. -/
def State.mediaTick (s : State) : State :=
  let m := s.clock.media
  let back := m.active.val != s.primaryTb && (s.tb s.primaryTb).st == .locked
  s.setMedia { m with slewLeft := if 1 < m.slewLeft then m.slewLeft - 1 else m.slewLeft,
                      holdFor := if m.timerOn then m.holdFor + 1 else m.holdFor,
                      primGood := if back then m.primGood + 1 else 0, revertDue := m.revertDue && back, outMute := m.outMute.next }

end Sys2Proof.Machine
end

