-- ==== Sys2Proof/Machine/DeskCore.lean ====
section
/-!
DEFINITION. A desk as its program sees it (spec chapter 09): fields of an instruction (R242), local
memory (R234), pointers (R246, R247), loops and calls (R248), and the effect of every instruction on the
desk alone (R243–R252). What an instruction asks of the scheduler and of the DRAM it answers as a result.
-/
namespace Sys2Proof.Machine

/-! ### Fields (R242) -/

def fD (w : DeskBits) : Nat := fieldOf w 51 5
def fX (w : DeskBits) : Nat := fieldOf w 46 5
def fY (w : DeskBits) : Nat := fieldOf w 41 5
def fPA (w : DeskBits) : Nat := fieldOf w 38 3
def fPB (w : DeskBits) : Nat := fieldOf w 35 3
def fAC (w : DeskBits) : Nat := fieldOf w 33 2
def fI (w : DeskBits) : Bool := bitOf w 32
def fSA (w : DeskBits) : Int := signed 8 (fieldOf w 24 8)
def fSB (w : DeskBits) : Int := signed 8 (fieldOf w 16 8)
def fImm (w : DeskBits) : Nat := fieldOf w 0 16
def fLow (w : DeskBits) : Word := word (fieldOf w 0 32)
/-- IMM16 sign-extended. -/
def fImmS (w : DeskBits) : Word := BitVec.ofInt 32 (signed 16 (fImm w))

/-- The bits of the fields an instruction uses, by the fields' letters. -/
inductive Fld where
  | d | x | y | pa | pb | ac | i | sa | sb | imm
deriving DecidableEq, Repr

def Fld.mask : Fld → Nat
  | .d => 0x1F * 2 ^ 51
  | .x => 0x1F * 2 ^ 46
  | .y => 0x1F * 2 ^ 41
  | .pa => 7 * 2 ^ 38
  | .pb => 7 * 2 ^ 35
  | .ac => 3 * 2 ^ 33
  | .i => 2 ^ 32
  | .sa => 0xFF * 2 ^ 24
  | .sb => 0xFF * 2 ^ 16
  | .imm => 0xFFFF

/-- A field that the instruction does not use is not 0 (R242). -/
def strayBits (used : List Fld) (w : DeskBits) : Bool :=
  (w &&& ~~~(BitVec.ofNat 56 (used.map Fld.mask).sum)) != 0

/-! ### Registers and memory -/

/-- S0 reads 0 (R236). -/
def Desk.sreg (k : Desk) (r : Nat) : Word := if r = 0 then 0 else k.s.getD r 0
/-- A write to S0 is ignored (R236). -/
def Desk.setS (k : Desk) (r : Nat) (v : Word) : Desk := if r = 0 then k else { k with s := k.s.set r v }
def Desk.lane (k : Desk) (r l : Nat) : Word := k.v.getD (8 * r + l) 0
def Desk.vec (k : Desk) (r : Nat) : List Word := (List.range 8).map (k.lane r)
def Desk.setV (k : Desk) (r : Nat) (xs : List Word) : Desk :=
  { k with v := k.v.take (8 * r) ++ xs ++ k.v.drop (8 * r + 8) }
def Desk.accs (k : Desk) (a : Nat) : List Int := (List.range 8).map (fun l => k.acc.getD (8 * a + l) 0)
def Desk.setAcc (k : Desk) (a : Nat) (xs : List Int) : Desk :=
  { k with acc := k.acc.take (8 * a) ++ xs ++ k.acc.drop (8 * a + 8) }
def Desk.ptr (k : Desk) (p : Nat) : Nat := k.p.getD p 0
def Desk.setPtr (k : Desk) (p a : Nat) : Desk := { k with p := k.p.set p a }

/-- A word of local memory; words that are 0 are not listed. -/
def Desk.mget (k : Desk) (a : Nat) : Word := (tget k.mem a).getD 0
def Desk.mset (k : Desk) (a : Nat) (v : Word) : Desk :=
  { k with mem := if v = 0 then tdel k.mem a else tset k.mem a v, bad := k.bad.filter (fun b => b != a) }

/-- R246: an address folds into the pointer's buffer; a linear one wraps modulo 2¹⁷. -/
def Desk.fold (k : Desk) (p : Nat) (a : Int) : Nat :=
  let l := k.ml.getD p 0
  let m : Int := k.mb.getD p 0
  if l = 0 then (a % 131072).toNat else (m + (a - m) % l).toNat

/-- The addresses of an access of `n` words at offset `o` from a pointer; `none`: beyond the memory (R246). -/
def Desk.addrs (k : Desk) (p o n : Nat) : Option (List Nat) :=
  let a := k.ptr p + o
  if k.ml.getD p 0 = 0 then (if a + n ≤ 131072 then some ((List.range n).map (a + ·)) else none)
  else some ((List.range n).map (fun j => k.fold p (a + j : Nat)))

def Desk.load (k : Desk) (as : List Nat) : List Word := as.map k.mget
def Desk.store (k : Desk) (as : List Nat) (vs : List Word) : Desk :=
  (as.zip vs).foldl (fun d p => d.mset p.1 p.2) k
/-- A post-increment. -/
def Desk.bump (k : Desk) (p : Nat) (d : Int) : Desk := k.setPtr p (k.fold p (k.ptr p + d))

/-! ### Results -/

/-- What an instruction does beside changing the desk (R243). -/
inductive DRes where
  /-- goes on at the next instruction; lanes that saturated -/
  | ok (k : Desk) (sat : Nat)
  /-- goes on at PC as the desk has it; cycles beyond the row's -/
  | jump (k : Desk) (extra : Nat)
  /-- R255 -/
  | fault (code : Nat)
  | halt
  | retire
  /-- `n` repetitions of the next instruction -/
  | repeat_ (n : Nat)
  | signal (task : Nat) (mask : Word)
  | xfer (x : Xfer)
  /-- waits for the running XFER -/
  | stall
deriving DecidableEq, Repr

def fIllegal : Nat := 1
def fAddress : Nat := 2
def fStack : Nat := 3
def fRepeat : Nat := 4
def fSpill : Nat := 5
def fMemory : Nat := 6
def fRunaway : Nat := 7

/-- Goes on, or an ADDRESS fault where the access has no addresses. -/
def orAddress (o : Option (List Nat)) (f : List Nat → DRes) : DRes :=
  match o with
  | some as => f as
  | none => .fault fAddress

/-- The same for a read; one that meets an uncorrectable error is a MEMORY fault (R234, R255). -/
def orRead (k : Desk) (o : Option (List Nat)) (f : List Nat → DRes) : DRes :=
  orAddress o (fun as => if as.any k.bad.contains then .fault fMemory else f as)

/-! ### Loops (R248) -/

/-- Ends of loop bodies at instruction `pc`: the innermost loop that has iterations left starts again, and
loops whose count is used up are dropped. -/
def loopEnd (pc : Nat) : List (Nat × Nat × Nat) → Nat × List (Nat × Nat × Nat)
  | [] => (pc + 1, [])
  | (st, en, left) :: r =>
    if en = pc then (if 1 < left then (st, (st, en, left - 1) :: r) else loopEnd pc r) else (pc + 1, (st, en, left) :: r)

/-- PC after an instruction that does not branch; `none`: past 0xFFFF (R255). -/
def Desk.advance (k : Desk) : Option Desk :=
  let r := loopEnd k.pc k.loops
  if r.1 < 65536 then some { k with pc := r.1, loops := r.2 } else none

/-- A taken branch leaves every loop, innermost first, whose body does not hold the target. -/
def Desk.branch (k : Desk) (t : Nat) : Desk :=
  { k with pc := t, loops := k.loops.dropWhile (fun l => t < l.1 || l.2.1 < t) }

/-! ### Control (R243) -/

def condition (d : Nat) (a b : Word) : Option Bool :=
  match d with
  | 0 => some true
  | 1 => some (a == b)
  | 2 => some (a != b)
  | 3 => some (a.slt b)
  | 4 => some (!a.slt b)
  | 5 => some (a.ult b)
  | 6 => some (!a.ult b)
  | _ => none

def opBr (w : DeskBits) (k : Desk) : DRes :=
  match condition (fD w) (k.sreg (fX w)) (k.sreg (fY w)) with
  | none => .fault fIllegal
  | some true => .jump (k.branch (fImm w)) 2
  | some false => .ok k 0

def opCall (w : DeskBits) (k : Desk) : DRes :=
  if 8 ≤ k.calls.length then .fault fStack
  else if k.pc + 1 < 65536 then .jump { k with calls := (k.pc + 1) :: k.calls, pc := fImm w } 0
  else .fault fAddress

def opRet (k : Desk) : DRes :=
  match k.calls with
  | [] => .fault fStack
  | a :: r => .jump { k with calls := r, pc := a } 0

def opLoop (w : DeskBits) (k : Desk) : DRes :=
  let en := fieldOf w 0 16
  let n := if fX w = 0 then fieldOf w 16 16 else fieldOf (k.sreg (fX w)) 0 16
  if en ≤ k.pc then .fault fIllegal
  else if 4 ≤ k.loops.length then .fault fStack
  else if n = 0 then
    (match ({ k with pc := en } : Desk).advance with
     | some k1 => .jump k1 0
     | none => .fault fAddress)
  else .jump { k with loops := (k.pc + 1, en, n) :: k.loops, pc := k.pc + 1 } 0

def opRepeat (w : DeskBits) (k : Desk) : DRes :=
  let n := if fX w = 0 then fImm w else (k.sreg (fX w)).toNat
  if 4096 < n then .fault fRepeat else .repeat_ n

/-- RETIRE waits for a running XFER (R243). -/
def opRetire (k : Desk) : DRes := if k.xfer.isSome then .stall else .retire

def opSignal (w : DeskBits) (k : Desk) : DRes := .signal (fieldOf (k.sreg (fX w)) 0 8) (k.sreg (fY w))

/-- XFER (R254): the local range is linear; `spill` words fit the window. -/
def opXfer (window : Nat) (w : DeskBits) (k : Desk) : DRes :=
  let n := (k.sreg (fY w)).toNat
  let o := (k.sreg (fX w)).toNat
  let p := k.ptr (fPA w)
  if k.xfer.isSome then .stall
  else if 131072 < p + n then .fault fAddress
  else if 16384 < n ∨ window < 4 * (o + n) then .fault fSpill
  else if n = 0 then .ok k 0
  else .xfer { spill := fI w, loc := p, off := o, todo := List.range n, len := n }

def opXwait (k : Desk) : DRes := if k.xfer.isSome then .stall else .ok k 0

/-! ### Scalar instructions -/

/-- The second operand: S[Y], or IMM16 sign-extended when I is 1. -/
def aluB (w : DeskBits) (k : Desk) : Word := if fI w then fImmS w else k.sreg (fY w)

/-- A scalar result; it wraps and is not counted (R244). -/
def alu (f : Word → Word → Word) (w : DeskBits) (k : Desk) : DRes :=
  .ok (k.setS (fD w) (f (k.sreg (fX w)) (aluB w k))) 0

def opLi (w : DeskBits) (k : Desk) : DRes := .ok (k.setS (fD w) (fLow w)) 0
def opAdd (w : DeskBits) (k : Desk) : DRes := alu (· + ·) w k
def opSub (w : DeskBits) (k : Desk) : DRes := alu (· - ·) w k
def opAnd (w : DeskBits) (k : Desk) : DRes := alu (· &&& ·) w k
def opOr (w : DeskBits) (k : Desk) : DRes := alu (· ||| ·) w k
def opXor (w : DeskBits) (k : Desk) : DRes := alu (· ^^^ ·) w k
def opShl (w : DeskBits) (k : Desk) : DRes := alu (fun a b => a <<< (fieldOf b 0 5)) w k
def opShr (w : DeskBits) (k : Desk) : DRes := alu (fun a b => a >>> (fieldOf b 0 5)) w k
def opSar (w : DeskBits) (k : Desk) : DRes := alu (fun a b => a.sshiftRight (fieldOf b 0 5)) w k
def opMul (w : DeskBits) (k : Desk) : DRes := alu (· * ·) w k

def opLds (w : DeskBits) (k : Desk) : DRes :=
  orRead k (k.addrs (fPA w) 0 1) (fun as =>
    .ok ((k.setS (fD w) ((k.load as).getD 0 0)).bump (fPA w) (fSA w)) 0)

def opSts (w : DeskBits) (k : Desk) : DRes :=
  orAddress (k.addrs (fPA w) 0 1) (fun as => .ok ((k.store as [k.sreg (fX w)]).bump (fPA w) (fSA w)) 0)

def opSetp (w : DeskBits) (k : Desk) : DRes :=
  let a := ((k.sreg (fX w)).toNat + fImm w) % 131072
  .ok (k.setPtr (fPA w) (k.fold (fPA w) a)) 0

/-- SETM (R247). -/
def opSetm (w : DeskBits) (k : Desk) : DRes :=
  let b := fieldOf (k.sreg (fX w)) 0 17
  let l := fieldOf (k.sreg (fY w)) 0 18
  if 131072 < b + l then .fault fAddress
  else
    let k1 := { k with mb := k.mb.set (fPA w) b, ml := k.ml.set (fPA w) l }
    let p := k.ptr (fPA w)
    .ok (if l = 0 ∨ (b ≤ p ∧ p < b + l) then k1 else k1.setPtr (fPA w) (k1.fold (fPA w) p)) 0

def opGetp (w : DeskBits) (k : Desk) : DRes := .ok (k.setS (fD w) (word (k.ptr (fPA w)))) 0

/-! ### Vector instructions -/

def sat32 (x : Int) : Int := clampI (-2147483648) 2147483647 x
def sats32 (x : Int) : Nat := if x < -2147483648 ∨ 2147483647 < x then 1 else 0
def satAcc (x : Int) : Int := clampI (-(2 ^ 71)) (2 ^ 71 - 1) x
def satsAcc (x : Int) : Nat := if x < -(2 ^ 71) ∨ 2 ^ 71 - 1 < x then 1 else 0

/-- Eight exact results saturate into V[D] and each saturation counts (R244). -/
def toVec (k : Desk) (d : Nat) (xs : List Int) : DRes :=
  .ok (k.setV d (xs.map (fun x => BitVec.ofInt 32 (sat32 x)))) (xs.map sats32).sum

def ints (ws : List Word) : List Int := ws.map BitVec.toInt

def vec2 (f : Int → Int → Int) (w : DeskBits) (k : Desk) : DRes :=
  toVec k (fD w) ((ints (k.vec (fX w))).zipWith f (ints (k.vec (fY w))))

def vec1 (f : Int → Int) (w : DeskBits) (k : Desk) : DRes := toVec k (fD w) ((ints (k.vec (fX w))).map f)

def opVld (w : DeskBits) (k : Desk) : DRes :=
  orRead k (k.addrs (fPA w) 0 8) (fun as => .ok ((k.setV (fD w) (k.load as)).bump (fPA w) (fSA w)) 0)

def opVst (w : DeskBits) (k : Desk) : DRes :=
  orAddress (k.addrs (fPA w) 0 8) (fun as => .ok ((k.store as (k.vec (fX w))).bump (fPA w) (fSA w)) 0)

def opVldb (w : DeskBits) (k : Desk) : DRes :=
  orRead k (k.addrs (fPA w) 0 1) (fun as =>
    .ok ((k.setV (fD w) (List.replicate 8 ((k.load as).getD 0 0))).bump (fPA w) (fSA w)) 0)

def opVins (w : DeskBits) (k : Desk) : DRes :=
  .ok (k.setV (fD w) ((k.vec (fD w)).set (fImm w % 8) (k.sreg (fX w)))) 0

def opVext (w : DeskBits) (k : Desk) : DRes := .ok (k.setS (fD w) (k.lane (fX w) (fImm w % 8))) 0

def opVadd (w : DeskBits) (k : Desk) : DRes := vec2 (· + ·) w k
def opVsub (w : DeskBits) (k : Desk) : DRes := vec2 (· - ·) w k
def opVmin (w : DeskBits) (k : Desk) : DRes := vec2 min w k
def opVmax (w : DeskBits) (k : Desk) : DRes := vec2 max w k
def opVabs (w : DeskBits) (k : Desk) : DRes := vec1 (fun x => (x.natAbs : Int)) w k
def opVneg (w : DeskBits) (k : Desk) : DRes := vec1 (fun x => -x) w k
def opVmul (w : DeskBits) (k : Desk) : DRes := vec2 (fun x y => rdiv (x * y) (2 ^ (fImm w % 64))) w k
def opVshl (w : DeskBits) (k : Desk) : DRes := vec1 (fun x => x * 2 ^ (fImm w % 32)) w k
def opVsar (w : DeskBits) (k : Desk) : DRes := vec1 (fun x => rdiv x (2 ^ (fImm w % 32))) w k

def opVclr (w : DeskBits) (k : Desk) : DRes := .ok (k.setAcc (fAC w) (List.replicate 8 0)) 0

/-- Products join an accumulator, which saturates (R244). -/
def accumulate (k : Desk) (a : Nat) (ps : List Int) : Desk × Nat :=
  let ys := (k.accs a).zipWith (· + ·) ps
  (k.setAcc a (ys.map satAcc), (ys.map satsAcc).sum)

def opVmac (w : DeskBits) (k : Desk) : DRes :=
  let r := accumulate k (fAC w) ((ints (k.vec (fX w))).zipWith (· * ·) (ints (k.vec (fY w))))
  .ok r.1 r.2

def opVmsu (w : DeskBits) (k : Desk) : DRes :=
  let r := accumulate k (fAC w) ((ints (k.vec (fX w))).zipWith (fun x y => -(x * y)) (ints (k.vec (fY w))))
  .ok r.1 r.2

def opVmacm (w : DeskBits) (k : Desk) : DRes :=
  orRead k (k.addrs (fPA w) 0 8) (fun as =>
    orRead k (k.addrs (fPB w) 0 8) (fun bs =>
      let r := accumulate k (fAC w) ((ints (k.load as)).zipWith (· * ·) (ints (k.load bs)))
      .ok ((r.1.bump (fPA w) (fSA w)).bump (fPB w) (fSB w)) r.2))

/-- FTAP (R250). -/
def opFtap (w : DeskBits) (k : Desk) : DRes :=
  orRead k (k.addrs (fPA w) 0 8) (fun hs =>
    orAddress (k.addrs (fPA w) 8 8) (fun ts =>
      orRead k (k.addrs (fPB w) 0 (if fI w then 1 else 8)) (fun cs =>
        let h := k.load hs
        let c := if fI w then List.replicate 8 ((k.load cs).getD 0 0) else k.load cs
        let r := accumulate k (fAC w) ((ints h).zipWith (· * ·) (ints c))
        .ok (((r.1.store ts h).bump (fPA w) (fSA w)).bump (fPB w) (fSB w)) r.2)))

def opVsta (w : DeskBits) (k : Desk) : DRes :=
  toVec k (fD w) ((k.accs (fAC w)).map (fun x => rdiv x (2 ^ (fImm w % 64))))

/-- The bits below the sign bit that equal it (R251). -/
def rsb (v : Word) : Nat :=
  let x := if bitOf v 31 then (~~~v).toNat else v.toNat
  31 - (if x = 0 then 0 else x.log2 + 1)

def minRsb (old : Word) (vs : List Word) : Word := word (vs.foldl (fun m v => min m (rsb v)) old.toNat)

/-- BEXP (R251). -/
def opBexp (w : DeskBits) (k : Desk) : DRes :=
  if fI w then .ok (k.setS (fD w) (minRsb (k.sreg (fD w)) (k.vec (fX w)))) 0
  else
    orRead k (k.addrs (fPA w) 0 8) (fun as =>
      .ok ((k.setS (fD w) (minRsb (k.sreg (fD w)) (k.load as))).bump (fPA w) (fSA w)) 0)

/-- The results of one butterfly before saturation: A′ and B′, real and imaginary (R252). -/
def butterfly (sh : Nat) (a b t : Nat → Int) (k : Nat) : List Int × List Int :=
  let tr := rdiv (b (2 * k) * t (2 * k) - b (2 * k + 1) * t (2 * k + 1)) (2 ^ 30)
  let ti := rdiv (b (2 * k) * t (2 * k + 1) + b (2 * k + 1) * t (2 * k)) (2 ^ 30)
  ([rdiv (a (2 * k) + tr) (2 ^ sh), rdiv (a (2 * k + 1) + ti) (2 ^ sh)],
   [rdiv (a (2 * k) - tr) (2 ^ sh), rdiv (a (2 * k + 1) - ti) (2 ^ sh)])

def opBfly (w : DeskBits) (k : Desk) : DRes :=
  let pw := fX w % 8
  let sh := fieldOf w 8 2
  if sh = 3 then .fault fIllegal
  else
    orRead k (k.addrs (fPA w) 0 8) (fun as =>
      orRead k (k.addrs (fPB w) 0 8) (fun bs =>
        orRead k (k.addrs pw 0 8) (fun ws =>
          let at_ (l : List Word) (i : Nat) : Int := (l.getD i 0).toInt
          let rs := (List.range 4).map (butterfly sh (at_ (k.load as)) (at_ (k.load bs)) (at_ (k.load ws)))
          let xa := (rs.map Prod.fst).flatten
          let xb := (rs.map Prod.snd).flatten
          let out (xs : List Int) : List Word := xs.map (fun x => BitVec.ofInt 32 (sat32 x))
          let k1 := k.setS (fD w) (minRsb (k.sreg (fD w)) (out xa ++ out xb))
          let k2 := (k1.store as (out xa)).store bs (out xb)
          .ok (((k2.bump (fPA w) (fSA w)).bump (fPB w) (fSB w)).bump pw (signed 8 (fieldOf w 0 8)))
            (((xa ++ xb).map sats32).sum))))

/-! ### The instruction table (R243) -/

/-- One row: the fields it uses with I 0 and with I 1, its cycles, whether REPEAT takes it, and the
registers it reads: scalar X, Y and D, vector X, Y and D. -/
structure DeskRow where
  used0  : List Fld
  used1  : List Fld
  cycles : Nat
  rep    : Bool
  readS  : List Fld
  readV  : List Fld

def aluRow (c : Nat) : DeskRow := ⟨[.d, .x, .y], [.d, .x, .i, .imm], c, true, [.x, .y], []⟩
def plainRow (fs : List Fld) (rep : Bool) (rs rv : List Fld) : DeskRow := ⟨fs, fs, 1, rep, rs, rv⟩

def deskRow (op : Nat) : Option DeskRow :=
  match op with
  | 0x00 => some (plainRow [] true [] [])
  | 0x01 => some (plainRow [] false [] [])
  | 0x02 => some (plainRow [.d, .x, .y, .imm] false [.x, .y] [])
  | 0x03 => some ⟨[.imm], [.imm], 3, false, [], []⟩
  | 0x04 => some ⟨[], [], 3, false, [], []⟩
  | 0x05 => some (plainRow [.x, .sa, .sb, .imm] false [.x] [])
  | 0x06 => some (plainRow [.x, .imm] false [.x] [])
  | 0x07 => some (plainRow [] false [] [])
  | 0x08 => some ⟨[.x, .y], [.x, .y], 2, false, [.x, .y], []⟩
  | 0x10 => some (plainRow [.d, .sa, .sb, .imm] false [] [])
  | 0x11 => some (aluRow 1)
  | 0x12 => some (aluRow 1)
  | 0x13 => some (aluRow 1)
  | 0x14 => some (aluRow 1)
  | 0x15 => some (aluRow 1)
  | 0x16 => some (aluRow 1)
  | 0x17 => some (aluRow 1)
  | 0x18 => some (aluRow 1)
  | 0x19 => some (aluRow 2)
  | 0x1A => some (plainRow [.d, .pa, .sa] true [] [])
  | 0x1B => some (plainRow [.x, .pa, .sa] true [.x] [])
  | 0x1C => some (plainRow [.x, .pa, .imm] false [.x] [])
  | 0x1D => some (plainRow [.x, .y, .pa] false [.x, .y] [])
  | 0x1E => some (plainRow [.d, .pa] false [] [])
  | 0x20 => some (plainRow [.d, .pa, .sa] true [] [])
  | 0x21 => some (plainRow [.x, .pa, .sa] true [] [.x])
  | 0x22 => some (plainRow [.d, .pa, .sa] true [] [])
  | 0x23 => some (plainRow [.d, .x, .imm] true [.x] [.d])
  | 0x24 => some (plainRow [.d, .x, .imm] true [] [.x])
  | 0x30 => some (plainRow [.d, .x, .y] true [] [.x, .y])
  | 0x31 => some (plainRow [.d, .x, .y] true [] [.x, .y])
  | 0x32 => some (plainRow [.d, .x, .y] true [] [.x, .y])
  | 0x33 => some (plainRow [.d, .x, .y] true [] [.x, .y])
  | 0x34 => some (plainRow [.d, .x] true [] [.x])
  | 0x35 => some (plainRow [.d, .x] true [] [.x])
  | 0x36 => some (plainRow [.d, .x, .y, .imm] true [] [.x, .y])
  | 0x37 => some (plainRow [.d, .x, .imm] true [] [.x])
  | 0x38 => some (plainRow [.d, .x, .imm] true [] [.x])
  | 0x40 => some (plainRow [.ac] true [] [])
  | 0x41 => some (plainRow [.x, .y, .ac] true [] [.x, .y])
  | 0x42 => some (plainRow [.x, .y, .ac] true [] [.x, .y])
  | 0x43 => some (plainRow [.pa, .pb, .ac, .sa, .sb] true [] [])
  | 0x44 => some (plainRow [.pa, .pb, .ac, .i, .sa, .sb] true [] [])
  | 0x45 => some (plainRow [.d, .ac, .imm] true [] [])
  | 0x48 => some ⟨[.d, .pa, .sa], [.d, .x, .i], 1, true, [.d], []⟩
  | 0x49 => some ⟨[.d, .x, .pa, .pb, .sa, .sb, .imm], [.d, .x, .pa, .pb, .sa, .sb, .imm], 2, true, [.d], []⟩
  | 0x50 => some (plainRow [.x, .y, .pa, .i] false [.x, .y] [])
  | 0x51 => some (plainRow [] false [] [])
  | _ => none

/-- The effect of an instruction whose fields are in order; `window` is the spill window in bytes. -/
def deskOp (window op : Nat) (w : DeskBits) (k : Desk) : DRes :=
  match op with
  | 0x00 => .ok k 0
  | 0x01 => opRetire k
  | 0x02 => opBr w k
  | 0x03 => opCall w k
  | 0x04 => opRet k
  | 0x05 => opLoop w k
  | 0x06 => opRepeat w k
  | 0x07 => .halt
  | 0x08 => opSignal w k
  | 0x10 => opLi w k
  | 0x11 => opAdd w k
  | 0x12 => opSub w k
  | 0x13 => opAnd w k
  | 0x14 => opOr w k
  | 0x15 => opXor w k
  | 0x16 => opShl w k
  | 0x17 => opShr w k
  | 0x18 => opSar w k
  | 0x19 => opMul w k
  | 0x1A => opLds w k
  | 0x1B => opSts w k
  | 0x1C => opSetp w k
  | 0x1D => opSetm w k
  | 0x1E => opGetp w k
  | 0x20 => opVld w k
  | 0x21 => opVst w k
  | 0x22 => opVldb w k
  | 0x23 => opVins w k
  | 0x24 => opVext w k
  | 0x30 => opVadd w k
  | 0x31 => opVsub w k
  | 0x32 => opVmin w k
  | 0x33 => opVmax w k
  | 0x34 => opVabs w k
  | 0x35 => opVneg w k
  | 0x36 => opVmul w k
  | 0x37 => opVshl w k
  | 0x38 => opVsar w k
  | 0x40 => opVclr w k
  | 0x41 => opVmac w k
  | 0x42 => opVmsu w k
  | 0x43 => opVmacm w k
  | 0x44 => opFtap w k
  | 0x45 => opVsta w k
  | 0x48 => opBexp w k
  | 0x49 => opBfly w k
  | 0x50 => opXfer window w k
  | 0x51 => opXwait k
  | _ => .fault fIllegal

/-- `n` executions of an instruction: the desk, the lanes that saturated and, where a repetition faults, the
code; the repetitions before it stand. -/
def repeatOp (window op : Nat) (w : DeskBits) : Nat → Desk → Nat → Desk × Nat × Option Nat
  | 0, k, n => (k, n, none)
  | i + 1, k, n =>
    match deskOp window op w k with
    | .ok k1 m => repeatOp window op w i k1 (n + m)
    | .fault c => (k, n, some c)
    | .jump _ _ => (k, n, some fRepeat)
    | .halt => (k, n, some fRepeat)
    | .retire => (k, n, some fRepeat)
    | .repeat_ _ => (k, n, some fRepeat)
    | .signal _ _ => (k, n, some fRepeat)
    | .xfer _ => (k, n, some fRepeat)
    | .stall => (k, n, some fRepeat)

/-! ### Interlocks (R245) -/

def fldReg (w : DeskBits) : Fld → Nat
  | .d => fD w
  | .x => fX w
  | .y => fY w
  | .pa => 0
  | .pb => 0
  | .ac => 0
  | .i => 0
  | .sa => 0
  | .sb => 0
  | .imm => 0

/-- Cycles an instruction waits for its operands. -/
def interlock (op : Nat) (r : DeskRow) (w : DeskBits) (k : Desk) : Nat :=
  let hitS := r.readS.any (fun f => k.ldS == some (fldReg w f) && fldReg w f != 0 && !(f == .y && fI w))
  let hitV := r.readV.any (fun f => k.ldV == some (fldReg w f)) ||
    (op == 0x48 && fI w && k.ldV == some (fX w))
  max (if hitS || hitV then 1 else 0) (if op = 0x45 then 2 - k.accAge.getD (fAC w) 2 else 0)

/-- The desk is busy for `n` cycles of its task (R256, R275). -/
def Desk.spend (k : Desk) (n : Nat) : Desk := { k with cycles := k.cycles + n, busy := k.busy + n }

/-- The interlock's memory after an instruction that took `c` cycles. -/
def Desk.issued (k : Desk) (op c : Nat) (w : DeskBits) : Desk :=
  let writes := op = 0x40 ∨ op = 0x41 ∨ op = 0x42 ∨ op = 0x43 ∨ op = 0x44
  let ages := k.accAge.map (fun a => min 2 (a + c))
  { k.spend c with
    ldS := if op = 0x1A then some (fD w) else none,
    ldV := if op = 0x20 ∨ op = 0x22 then some (fD w) else none,
    accAge := if writes then ages.set (fAC w) 0 else ages }

end Sys2Proof.Machine
end

