-- ==== Sys2Proof/Machine/DmaCore.lean ====
section
/-!
DEFINITION. The DMA channels: starts, doorbells, stops and faults (R366, R370, R374, R375, R377–R380, R383).
-/
namespace Sys2Proof.Machine

def State.dch (s : State) (c : Nat) : DmaChan := s.dma.getD c {}
def State.setDch (s : State) (c : Nat) (k : DmaChan) : State := { s with dma := s.dma.set c k }

/-- RUNNING, WAITING or PAUSED. -/
def DmaChan.live (k : DmaChan) : Bool := k.st == .running || k.st == .waiting || k.st == .paused

/-- Iteration index of the innermost running LOOP (R369). -/
def DmaChan.iter (k : DmaChan) : Nat := match k.loops with
  | [] => 0
  | l :: _ => l.i

/-- The end of a body: the next iteration, or the test of the next level out (R370). -/
def dmaLoopEnd (pc : Nat) : List DmaLoop → Nat × List DmaLoop
  | [] => (pc, [])
  | l :: r =>
    if pc = l.first + 32 * l.body then
      if l.i + 1 < l.count then (l.first, { l with i := l.i + 1 } :: r) else dmaLoopEnd pc r
    else (pc, l :: r)

/-- PC moves past the instruction. -/
def DmaChan.advance (k : DmaChan) : DmaChan :=
  let r := dmaLoopEnd ((k.pc + 32) % 2 ^ 64) k.loops
  { k with pc := r.1, loops := r.2 }

/-! ### Stops -/

/-- A channel stops as `k` says: its commands complete, `written` being the bytes of its current MOVE, and one
interrupt is raised (R382, R383). -/
def State.dmaStopped (s : State) (c : Nat) (k : DmaChan) (written : Nat) : State :=
  let k1 : DmaChan := { k with abortCmds := [], pauseCmds := [], aborting := false, pausing := false, late := false,
                               move := none, wait := none, held := false, afterMove := false }
  let s1 := (s.setDch c k1).completeMany k.pauseCmds stOk (2 ^ 32 + written)
  (s1.completeMany k.abortCmds stOk (k.residue + 2 ^ 32 * b2n k.abortIgnored)).evt Reg.DMA_CH_EVT c

def DmaMove.left (m : DmaMove) : Nat := m.len - m.done

/-- A fault stops the channel at its instruction (R378). -/
def State.dmaFault (s : State) (c code : Nat) : State :=
  let k := s.dch c
  let left := (k.move.map DmaMove.left).getD 0
  let done := (k.move.map DmaMove.done).getD 0
  (s.count Reg.DMA_FAULTS 1).dmaStopped c { k with st := .fault, status := 3, faultCode := code, residue := left } done

/-- An END stops the channel (R373). -/
def State.dmaAtEnd (s : State) (c : Nat) : State :=
  s.dmaStopped c { s.dch c with st := .idleAtEnd, status := 1, residue := 0 } 0

/-! ### Starts -/

/-- The channel runs from an address; SPACE 3 is DRAM. -/
def DmaChan.begin (k : DmaChan) (addr space : Nat) : DmaChan :=
  { k with st := .running, pc := addr, space := if space = 3 then 1 else space, loops := [], move := none, wait := none,
           afterMove := false }

/-- A doorbell (R374), from a register write or a bell. -/
def dmaDoorbell (c : Nat) (s : State) : State :=
  let k := s.dch c
  if c < 28 ∧ s.runs then
    match k.st with
    | .idle => s.setDch c (k.begin k.start k.startSpace)
    | .fault => s.setDch c (k.begin k.start k.startSpace)
    | .idleAtEnd => s.setDch c { k with st := .running }
    | .running => s.setDch c { k with dbPending := true }
    | .waiting => s.setDch c { k with dbPending := true }
    | .paused => s.setDch c { k with dbPending := true }
  else s

def execDmaDoorbell (c : Fin 32) (s : State) : Host.Outcome State Fault Refusal := .next (barWrite (fun s => dmaDoorbell c.val s) s)

/-- DMA_START acts (R381). -/
def State.dmaStartNow (s : State) (cmd : CmdRef) (adj : Bool) (c addr space : Nat) : State :=
  let k := s.dch c
  if s.pwr.mode = .standby then s.complete cmd stModeRefused 0
  else if k.live then s.complete cmd stBadParam 0
  else
    let k1 : DmaChan := { k with start := addr, startSpace := space, shadowValid := false, shadowLate := false, dbPending := false }
    (s.setDch c (k1.begin addr space)).complete cmd (adjusted adj) s.resMsc

/-! ### Abort -/

/-- An abort is sampled (R379); a held SIGNAL is released unapplied. -/
def State.dmaAbortSample (s : State) (c : Nat) : State :=
  let k := s.dch c
  if k.live ∧ k.aborting = false then
    let late := k.st == .running && k.afterMove && k.move.isNone && !k.shadowValid
    let s1 : State := { s with tasks := { s.tasks with held := s.tasks.held.filter (fun h => h.src != .dma c) } }
    s1.setDch c { k with aborting := true, late := late, held := false }
  else s

/-- DMA_Cc_CTL.ABORT (R366, R379). -/
def dmaCtlAbort (c : Nat) (s : State) : State := if c < 28 then s.dmaAbortSample c else s

def execDmaCtlAbort (c : Fin 32) (s : State) : Host.Outcome State Fault Refusal := .next (barWrite (fun s => dmaCtlAbort c.val s) s)

/-- Every running channel is aborted (R384). -/
def State.dmaAbortAll (s : State) : State := (List.range 32).foldl State.dmaAbortSample s

/-! ### Registers -/

def dmaReg (off c : Nat) : Nat := off + 0x40 * c

/-- NEXT_PC is written (R375); `same`, in the cycle of a copy. -/
def dmaNextPc (c v : Nat) (same : Bool) (s : State) : State :=
  if 28 ≤ c then s
  else
    let s1 := s.setDch c { s.dch c with shadow := v, shadowValid := true, shadowLate := same }
    if same then s1.both Reg.DMA_SHADOW_LATES Reg.DMA_EVT 0 else s1

/-- DMA_CFG.MODE (R377). -/
def dmaModeWrite (v : Word) (s : State) : State :=
  if s.dma.any DmaChan.live then s.evt Reg.DMA_EVT 1 else s.setReg Reg.DMA_CFG (v &&& 1)

def execDmaModeWrite (v : Word) (s : State) : Host.Outcome State Fault Refusal := .next (barWrite (fun s => dmaModeWrite v s) s)

end Sys2Proof.Machine
end

