-- ==== Sys2Proof/Machine/Sched.lean ====
section
/-!
DEFINITION. The task scheduler (spec chapter 10) and the block exchange of R239: event flags and held
posts, ready lists, dispatch, the end of a run, cut-offs, removal, release and outputs.
-/
namespace Sys2Proof.Machine

/-! ### Desks and tasks in the state -/

def State.desk (s : State) (d : Nat) : Desk := s.desks.getD d {}
def State.setDesk (s : State) (d : Nat) (k : Desk) : State := { s with desks := s.desks.set d k }
def State.task (s : State) (t : Nat) : Option Task := tget s.tasks.tasks t
def State.setTask (s : State) (t : Nat) (k : Task) : State := { s with tasks := { s.tasks with tasks := tset s.tasks.tasks t k } }
/-- A register of desk `d`. -/
def dskReg (off d : Nat) : Nat := off + 0x100 * d

/-- R261: a bound task belongs to the group of its desk. -/
def State.groupOf (s : State) (c : TaskCfg) : Nat := if c.bound then (s.desk c.desk).group else c.group
/-- The ready list of a task: 8·group + priority (R266). -/
def State.listKey (s : State) (c : TaskCfg) : Nat := 8 * s.groupOf c + c.prio
/-- Entries reserved in a list (R269). -/
def State.reserved (s : State) (key : Nat) : Nat :=
  (s.tasks.tasks.filter (fun p => p.2.cfg.ip != 0 && s.listKey p.2.cfg == key)).length
/-- Entries that flag-triggered tasks hold or have claimed. -/
def State.flagEntries (s : State) (key : Nat) : Nat :=
  (s.tasks.tasks.filter (fun p => p.2.cfg.ip == 0 && s.listKey p.2.cfg == key && (p.2.st == .ready || p.2.claimed))).length
def State.room (s : State) (key : Nat) : Bool := s.flagEntries key < 64 - s.reserved key

def State.joinList (s : State) (key t : Nat) : State :=
  let l := (tget s.tasks.lists key).getD [] ++ [t]
  let h := max l.length ((tget s.tasks.high key).getD 0)
  { s with tasks := { s.tasks with lists := tset s.tasks.lists key l, high := tset s.tasks.high key h } }

def State.leaveList (s : State) (key t : Nat) : State :=
  { s with tasks := { s.tasks with lists := tset s.tasks.lists key (((tget s.tasks.lists key).getD []).erase t) } }

/-! ### Event flags (R264, R265) -/

def popcount (v : Word) : Nat := ((List.range 32).filter (fun i => bitOf v i)).length

/-- R265. -/
def flagsMeet (c : TaskCfg) (pending : Word) : Bool :=
  if c.matchAll then pending &&& c.wait == c.wait else pending &&& c.wait != 0

/-- The post would make the task READY or claim an entry. -/
def Task.wakes (k : Task) (mask : Word) : Bool :=
  k.cfg.ip == 0 && (k.st == .waiting || (k.st == .running && !k.claimed)) && flagsMeet k.cfg (k.pending ||| mask)

/-- Neither condition of R264 holds the post. -/
def State.canPost (s : State) (t : Nat) (mask : Word) : Bool :=
  match s.task t with
  | none => false
  | some k => k.pending &&& mask == 0 && (!k.wakes mask || s.room (s.listKey k.cfg))

/-- The flags are set at once. -/
def State.applyPost (s : State) (t : Nat) (mask : Word) : State :=
  match s.task t with
  | none => s
  | some k =>
    let wake := k.wakes mask
    let k1 := { k with pending := k.pending ||| mask, claimed := k.claimed || (wake && k.st == .running),
                       st := if wake && k.st == .waiting then .ready else k.st }
    let s1 := s.setTask t k1
    let s2 := { s1 with tasks := { s1.tasks with posted := s1.tasks.posted + popcount mask } }
    if wake && k.st == .waiting then s2.joinList (s.listKey k.cfg) t else s2

/-- The post is held (R264). -/
def State.hold (s : State) (src : Poster) (t : Nat) (mask : Word) : State :=
  let h : HeldPost := { src := src, task := t, mask := mask }
  ({ s with tasks := { s.tasks with held := s.tasks.held ++ [h] } }).both
    Reg.DSK_SCH_HOLDS Reg.DSK_SCH_EVT 1

/-! ### Bells (R72, R75) -/

/-- The acting point of ring `j` of a bell. -/
def Bell.point (b : Bell) (j : Nat) : Nat :=
  let m := b.msc + j * b.period
  if b.kind = 0 ∨ b.kind = 3 then m else upTo 16 m

/-- Rings not worked yet whose acting points are at or before `now`, or before a cancel (R77). -/
def Bell.due (b : Bell) (now : Nat) : Nat :=
  let h := b.stop.getD now
  if !b.armed || decide (h < b.next) then 0
  else if b.period = 0 then 1
  else
    let j := ((if b.kind = 0 ∨ b.kind = 3 then h else h / 16 * 16) - b.msc) / b.period + 1
    (if b.count = 0 then j else min j b.count) - b.ring

/-- A bell after a ring of it: armed for the next one, or retired. -/
def Bell.after (b : Bell) (acted : Bool) : Bell :=
  let n := b.ring + 1
  let b1 := { b with acted := if acted then b.acted + 1 else b.acted }
  if b.period = 0 ∨ (b.count ≠ 0 ∧ b.count ≤ n) then { b1 with armed := false }
  else { b1 with ring := n, next := b.point n, armed := b.armed && b.stop.all (fun x => decide (b.point n ≤ x)) }

/-- A ring is over: it acted and is counted, or it is dropped uncounted. -/
def State.bellOver (s : State) (stream : Bool) (id : Nat) (acted : Bool) : State :=
  match tget (if stream then s.cues else s.bells) id with
  | none => s
  | some b =>
    let s1 := if stream then (if (b.after acted).armed then { s with cues := tset s.cues id (b.after acted) }
        else { s with cues := tdel s.cues id }) else { s with bells := tset s.bells id (b.after acted) }
    if acted then s1.count Reg.TT_BELLS_RUNG 1 else s1

/-! ### Ends of runs -/

/-- Posts that a stopped desk waits with are dropped (R253). -/
def State.dropSignal (s : State) (d : Nat) : State :=
  { s with tasks := { s.tasks with held := s.tasks.held.filter (fun h => h.src != .desk d) } }

/-- The desk is free of its task: IDLE, OFF, or HALTED where it stood HALTED (R233, R257). -/
def Desk.free (k : Desk) (keepHalted : Bool) : Desk :=
  let st := if k.offAtEnd then .off else if keepHalted then .halted else .idle
  { k with st := st, task := none, sigWait := false, late := false, rep := none, xferWait := false, stepWait := false, offAtEnd := false }

/-- The run of a task is over: WAITING, or READY when it claimed an entry (R263). -/
def State.runEnds (s : State) (t : Nat) : State :=
  match s.task t with
  | none => s
  | some k =>
    if k.claimed then (s.setTask t { k with st := .ready, claimed := false }).joinList (s.listKey k.cfg) t
    else s.setTask t { k with st := .waiting }

/-- A block is substituted (R268, R240): counted unless FALLBACK keeps the tasks still (R274, R420). -/
def State.substitute (s : State) (t : Nat) : State :=
  match s.task t with
  | none => s
  | some k =>
    let s1 := s.setTask t { k with released := none, output := none, inboxDue := none,
                                   dry := if s.tasksStill then k.dry else word (min (k.dry.toNat + 1) 0xFFFFFFFF) }
    if s.tasksStill then s1
    else
      let s2 := s1.both Reg.DSK_SCH_DRY Reg.DSK_SCH_EVT 0
      if k.cfg.retCount = 0 then s2 else (s2.count Reg.DSK_RET_MISSING k.cfg.retCount).evt Reg.DSK_DESK_EVT 3

/-- The desk that runs a task. -/
def State.runner (s : State) (t : Nat) : Option Nat := (List.range 16).find? (fun d => (s.desk d).task == some t)

/-- A running task is stopped: the desk is free, its outputs are not taken (R239, R259, R270). -/
def State.stopRun (s : State) (t : Nat) : State :=
  match s.runner t with
  | none => s
  | some d =>
    let s1 := s.dropSignal d
    (s1.setDesk d ((s1.desk d).free ((s1.desk d).st == .halted))).runEnds t

/-- An entry that no desk took (R268). -/
def State.missed (s : State) : State := if s.tasksStill then s else s.count Reg.DSK_SCH_MISSED 1

/-- The cut-off of a block that has no outcome yet (R239, R257, R268). -/
def State.cutoff (s : State) (t : Nat) : State :=
  match s.task t with
  | none => s
  | some k =>
    match k.released with
    | none => s
    | some _ =>
      match k.st, s.runner t with
      | .running, some d =>
        let s1 := (s.count (dskReg Reg.DSK_Dn_STOPS d) 1).evt Reg.DSK_DESK_EVT 2
        if (s.desk d).st = .halted then
          (s1.setDesk d { s1.desk d with late := true }).substitute t
        else (s1.stopRun t).substitute t
      | .running, none => s.substitute t
      | .ready, _ =>
        let s1 := (s.leaveList (s.listKey k.cfg) t).setTask t { k with st := .waiting }
        (s1.missed).substitute t
      | .waiting, _ => (s.missed).substitute t

/-! ### Local memory as the exchange engine sees it (R239) -/

/-- Word of sample `i` of channel `c` in a box. -/
def boxWord (layout base c i : Nat) : Nat :=
  (base + (if layout = 0 then 16 * c + i else 128 * (c / 8) + 8 * i + c % 8)) % 131072

def Desk.putBox (k : Desk) (layout base : Nat) (blocks : List (List Int)) : Desk :=
  let n := if layout = 0 then blocks.length else (blocks.length + 7) / 8 * 8
  (List.range n).foldl (fun k c =>
    (List.range 16).foldl (fun k i =>
      k.mset (boxWord layout base c i) (BitVec.ofInt 32 (sampleAt (blocks.getD c []) i))) k) k

def Desk.getBox (k : Desk) (layout base count : Nat) : List (List Int) :=
  (List.range count).map (fun c => (List.range 16).map (fun i => (k.mget (boxWord layout base c i)).toInt))

/-- Samples from the start of the pipeline to the slot of an insertion point, and its length (R238). -/
def ipSlot (ip : Nat) : Nat := if ip = 3 then 48 else if ip = 4 then 64 else 16
/-- Return offset D (R238). -/
def ipReturn (ip : Nat) : Nat := if ip = 3 then 48 else if ip = 4 then 64 else 16

/-- The desks whose memory a task may run from. -/
def State.desksOf (s : State) (c : TaskCfg) : List Nat :=
  if c.bound then [c.desk] else (List.range 16).filter (fun d => (s.desk d).group == c.group)

/-- INBOX of one task is written and the task becomes READY. -/
def State.inboxOne (s : State) (t : Nat) : State :=
  match s.task t with
  | none => s
  | some k =>
    match k.inboxDue, k.st with
    | some (_, blocks), .waiting =>
      let s1 := (s.desksOf k.cfg).foldl (fun s d =>
        if (s.desk d).st = .lent then s else s.setDesk d ((s.desk d).putBox k.cfg.layout k.cfg.inbox blocks)) s
      (s1.setTask t { k with inboxDue := none, st := .ready }).joinList (s.listKey k.cfg) t
    | _, _ => s

/-- Two tasks released to one ready list with blocks of one size at one boundary are ready in the same desk cycle (R266).
DESIGN CHOICE (assumption 64). -/
def State.sameCycle (s : State) (k j : Task) : Bool :=
  s.listKey j.cfg == s.listKey k.cfg && j.cfg.count == k.cfg.count && j.st == .waiting && j.inboxDue.isSome &&
    j.released.map (· + ipSlot j.cfg.ip) == k.released.map (· + ipSlot k.cfg.ip)

/-- INBOX is written and the task becomes READY (R239, R268). Of the tasks that become ready in the same cycle, those of later
slots join the list first, each kind in ascending ID (R266). -/
def State.inboxWritten (s : State) (t : Nat) : State :=
  match s.task t with
  | none => s
  | some k =>
    if k.inboxDue.isSome && k.st == .waiting then
      let first := s.tasks.tasks.filter (fun p => s.sameCycle k p.2 &&
        (decide (k.cfg.ip < p.2.cfg.ip) || (p.2.cfg.ip == k.cfg.ip && decide (p.1 < t))))
      (([4, 3, 2, 1].map (fun ip => (first.filter (fun p => p.2.cfg.ip == ip)).map Prod.fst)).flatten ++ [t]).foldl State.inboxOne s
    else s

/-! ### Dispatch (R237, R267) -/

/-- The entry desk `d` picks: highest priority first, oldest first, unbound or bound to it. -/
def State.pickTask (s : State) (d : Nat) : Option Nat :=
  let g := (s.desk d).group
  ([7, 6, 5, 4, 3, 2, 1, 0].filterMap (fun p =>
    ((tget s.tasks.lists (8 * g + p)).getD []).find? (fun t =>
      match s.task t with
      | some k => !k.cfg.bound || k.cfg.desk == d
      | none => false))).head?

/-- Whether the scheduler dispatches in the present mode (R259, R274). -/
def State.dispatching (s : State) : Bool := s.pwr.mode.runs && !s.tasksStill

def Desk.dispatch (k : Desk) (t : Nat) (c : TaskCfg) (block : Nat) (flags : Word) : Desk :=
  { k with st := .running, task := some t, lastTask := t, pc := c.entry, cycles := 0, loops := [], calls := [],
           p := [c.inbox, c.outbox, c.retbox, 0, 0, 0, 0, 0], mb := List.replicate 8 0, ml := List.replicate 8 0,
           s := k.s.take 1 ++ [word t, word block, word (block / 2 ^ 32), flags] ++ k.s.drop 5,
           sigWait := false, xferWait := false, stepWait := false, rep := none, late := false, passBrk := false, ldS := none, ldV := none,
           accAge := [2, 2, 2, 2] }

/-- A desk that is IDLE and enabled picks a task. -/
def State.dispatchOne (s : State) (d : Nat) : State :=
  if (s.desk d).st = .idle ∧ (s.desk d).enable ∧ s.dispatching then
    match s.pickTask d with
    | none => s
    | some t =>
      match s.task t with
      | none => s
      | some k =>
        let flags := k.pending &&& k.cfg.wait
        let r := s.draw
        let wait := clampN 1 65535 r.1.toNat
        let k1 := { k with st := .running, deskRun := d, pending := k.pending &&& ~~~k.cfg.wait,
                           waits := wait + 65536 * max wait (k.waits / 65536) }
        let s1 := (r.2.leaveList (s.listKey k.cfg) t).setTask t k1
        let s2 := { s1 with tasks := { s1.tasks with consumed := s1.tasks.consumed + popcount flags } }
        (s2.setDesk d ((s2.desk d).dispatch t k.cfg (k.released.getD 0) flags)).count Reg.DSK_SCH_DISPATCHES 1
  else s

/-- Desk `d` picks; desks of its group with lower numbers that can pick in this cycle do so before it (R267). -/
def State.dispatch (s : State) (d : Nat) : State :=
  if (s.desk d).st = .idle ∧ (s.desk d).enable then
    (((List.range d).filter (fun j => (s.desk j).group == (s.desk d).group)) ++ [d]).foldl State.dispatchOne s
  else s

/-! ### RETIRE and faults (R239, R255) -/

def State.retireTask (s : State) (d : Nat) : State :=
  let k := s.desk d
  let halted := k.st == .halted
  match k.task with
  | none => s.setDesk d (k.free halted)
  | some t =>
    match s.task t with
    | none => s.setDesk d (k.free halted)
    | some tk =>
      let s1 := s.setDesk d (k.free halted)
      let runs := word (min (tk.runs.toNat + 1) 0xFFFFFFFF)
      if tk.cfg.ip = 0 then (s1.setTask t { tk with runs := runs }).runEnds t
      else if k.late then s1.runEnds t
      else
        let outs := k.getBox tk.cfg.layout tk.cfg.outbox tk.cfg.count
        let rets := k.getBox tk.cfg.layout tk.cfg.retbox tk.cfg.retCount
        let j := tk.released.getD 0 + ipReturn tk.cfg.ip
        let s2 := s1.setTask t { tk with runs := runs, released := none, output := some (outs, rets) }
        let recs := (List.range tk.cfg.retCount).map (fun i => ((j, tk.cfg.retFirst + i), rets.getD i zeros16))
        ({ s2 with tasks := { s2.tasks with rets := s2.tasks.rets ++ recs } }).runEnds t

/-- A fault stops the task at the faulting instruction (R255). -/
def State.deskFault (s : State) (d code : Nat) : State :=
  let k := s.desk d
  let s1 := (s.dropSignal d).setDesk d
    { k with st := .fault, fault := code, task := none, sigWait := false, late := false, rep := none, xferWait := false,
             stepWait := false, offAtEnd := false }
  let s2 := (s1.count (dskReg Reg.DSK_Dn_FAULTS d) 1).evt Reg.DSK_DESK_EVT 0
  match k.task with
  | none => s2
  | some t =>
    match s.task t with
    | none => s2
    | some tk => if tk.cfg.ip = 0 ∨ k.late then s2.runEnds t else (s2.substitute t).runEnds t

/-- A run that has had RUN_LIMIT desk cycles without a RETIRE faults (R256). -/
def State.runLimit (s : State) (d : Nat) : State :=
  let n := (s.reg (dskReg Reg.DSK_Dn_RUN_LIMIT d)).toNat
  if (s.desk d).task.isSome ∧ n ≠ 0 ∧ n ≤ (s.desk d).cycles then s.deskFault d fRunaway else s

/-! ### Sources of posts -/

/-- A desk's SIGNAL is over: PC moves on; the cycles of the wait are not stated. -/
def State.signalOver (s : State) (d : Nat) : State :=
  let k := s.desk d
  let r := s.draw
  let k1 := { k.spend r.1.toNat with sigWait := false }
  match k1.advance with
  | some k2 => (r.2.setDesk d k2).runLimit d
  | none => (r.2.setDesk d k1).deskFault d fAddress

/-- A held post's source goes on (R264, R271): it was applied, or its task is gone. -/
def State.releasePoster (s : State) (src : Poster) (applied : Bool) : State :=
  match src with
  | .host c adj =>
    let more := s.tasks.held.any (fun h => match h.src with
      | .host d _ => d.queue == c.queue
      | .dma _ => false
      | .desk _ => false
      | .bell _ _ => false)
    let s1 := s.setQueue c.queue.val { s.queue c.queue.val with held := more }
    if applied then s1.complete c (adjusted adj) s.resMsc else s1.complete c stBadParam 0
  | .dma c =>
    let k := s.dch c
    s.setDch c { k.advance with held := false, st := if k.st = .waiting then .running else k.st }
  | .desk d => s.signalOver d
  | .bell stream id => s.bellOver stream id applied

/-! ### Removal (R270, R271) -/

/-- Held posts to a task that goes: applied where they fit, else their sources go on unapplied. -/
def settleHeld (t : Nat) : List HeldPost → State → State
  | [], s => s
  | h :: rest, s =>
    if h.task = t then
      let s1 := { s with tasks := { s.tasks with held := s.tasks.held.erase h } }
      if s1.canPost t h.mask then settleHeld t rest ((s1.applyPost t h.mask).releasePoster h.src true)
      else settleHeld t rest (s1.releasePoster h.src false)
    else settleHeld t rest s

/-- A task becomes FREE: its result (R270). -/
def State.removeTask (s : State) (t : Nat) : Nat × State :=
  let s0 := settleHeld t s.tasks.held s
  match s0.task t with
  | none => (0, s0)
  | some k =>
    let res := k.pending.toNat + (if k.st = .running then 2 ^ 32 else 0) + (if k.st = .ready then 2 ^ 33 else 0)
    let s1 := if k.st = .running then (s0.setTask t { k with claimed := false }).stopRun t else s0
    let s2 := if k.st = .ready then s1.leaveList (s0.listKey k.cfg) t else s1
    let tasks := { s2.tasks with tasks := tdel s2.tasks.tasks t, returned := s2.tasks.returned + popcount k.pending }
    (res, { s2 with tasks := tasks })

/-- A change that is to attach the task. -/
def Change.attaches (t : Nat) (c : Change) : Bool := match c with
  | .taskCreate u _ => u == t
  | _ => false

/-- A change that is to detach it. -/
def Change.detaches (t : Nat) (c : Change) : Bool := match c with
  | .taskCancel u => u == t
  | _ => false

/-- What was to attach or detach a task that goes: its place in an epoch, and what waits for its block. -/
def State.forgetTask (s : State) (t : Nat) : State :=
  { s with sched := s.sched.filter (fun c => !c.chg.attaches t && !c.chg.detaches t),
           epochs := s.epochs.map (fun e => { e with members := e.members.map (fun m => { m with chgs := m.chgs.filter (fun c => !c.attaches t) }) }) }

/-- The task goes and its TASK_CANCEL, if one waits, completes. -/
def State.finishTask (s : State) (t : Nat) : State :=
  let cs := ((s.task t).map Task.cancel).getD []
  let r := (s.forgetTask t).removeTask t
  cs.foldl (fun s c => s.complete c.1 (adjusted c.2) r.1) r.2

/-- The last crossfade block of a detaching task has ended (R270). -/
def Task.gone (k : Task) : Bool := k.detaching && !k.weight.busy

/-! ### Release and outputs in the pipeline (R239, R262, R268) -/

/-- An attached task takes part in block `n`. -/
def Task.takes (k : Task) (n : Nat) : Bool := k.cfg.ip != 0 && k.attached && k.from_ ≤ n && !k.gone

/-- The detachment crossfade starts at its block. -/
def Task.atBlock (k : Task) (fs n : Nat) : Task :=
  match k.detachAt with
  | some b => if b ≤ n ∧ k.detaching = false then { k with detaching := true, weight := k.weight.start 0 (rampLen fs k.cfg.xfade) } else k
  | none => k

/-- Release of block `n` (R268) with the blocks of the task's channels. -/
def State.release (s : State) (t n : Nat) (input : Nat → List Int) : State :=
  match s.task t with
  | none => s
  | some k0 =>
    let k := k0.atBlock s.fs n
    if k.takes n ∧ s.dispatching then
      s.setTask t { k with released := some n, output := none,
                           inboxDue := some (n, (List.range k.cfg.count).map (fun i => input (k.cfg.first + i))) }
    else s.setTask t k

/-- The block of one channel as it leaves the insertion point. -/
def Task.outBlock (k : Task) (ch : Nat) (dry : List Int) : List Int :=
  let out := match k.output with
    | some o => o.1.getD (ch - k.cfg.first) dry
    | none => dry
  (mixBlock k.weight dry out).2.1

/-- The slot of block `n` ends: a block without an outcome is past its cut-off. -/
def State.slotEnd (s : State) (t : Nat) : State :=
  let s1 := s.cutoff t
  match s1.task t with
  | none => s1
  | some k => s1.setTask t { k with output := none, weight := (mixBlock k.weight zeros16 zeros16).1 }

/-- The attached tasks of an insertion point that take part in block `n`. -/
def State.tasksAt (s : State) (ip n : Nat) : List Nat :=
  (s.tasks.tasks.filter (fun p => p.2.cfg.ip == ip && p.2.takes n)).map Prod.fst

/-- The task, if any, that has channel `ch` of an insertion point for block `n`. -/
def State.taskFor (s : State) (ip n ch : Nat) : Option Task :=
  (s.tasks.tasks.find? (fun p => p.2.cfg.ip == ip && p.2.takes n && p.2.cfg.first ≤ ch && ch < p.2.cfg.first + p.2.cfg.count)).map
    Prod.snd

/-! ### Meanings -/

def execInboxWritten (task : Nat) (s : State) : Host.Outcome State Fault Refusal := .next (s.inboxWritten task)

def execTaskDispatch (desk : Fin 16) (s : State) : Host.Outcome State Fault Refusal := .next (s.dispatch desk.val)

def execTaskCutoff (task : Nat) (s : State) : Host.Outcome State Fault Refusal := .next (s.cutoff task)

/-- RUN_LIMIT desk cycles have passed without a RETIRE (R256): the cycles that are counted, or those of a wait that goes on. -/
def runaway (d : Nat) (s : State) : State :=
  let k := s.desk d
  let n := (s.reg (dskReg Reg.DSK_Dn_RUN_LIMIT d)).toNat
  if k.st = .running ∧ n ≠ 0 ∧ (n ≤ k.cycles ∨ k.sigWait ∨ k.xferWait) then
    (s.setDesk d (k.spend (n - k.cycles))).deskFault d fRunaway
  else s

def execRunaway (desk : Fin 16) (s : State) : Host.Outcome State Fault Refusal := .next (runaway desk.val s)

/-- Posts of bells act at block boundaries alone (R264). -/
def State.heldMayApply (s : State) (h : HeldPost) : Bool :=
  s.canPost h.task h.mask && (match h.src with
    | .bell _ _ => s.valid && s.msc % 16 == 0 && !s.boundary
    | .host _ _ => true
    | .dma _ => true
    | .desk _ => true)

/-- The ring of a bell that comes to act in STANDBY is skipped (R76). -/
def State.heldSkips (s : State) (h : HeldPost) : Bool := s.pwr.mode == .standby && (match h.src with
  | .bell _ _ => s.msc % 16 == 0 && !s.boundary
  | .host _ _ => false
  | .dma _ => false
  | .desk _ => false)

def heldPostApply (s : State) : State :=
  match s.tasks.held.find? (fun h => s.heldSkips h || s.heldMayApply h) with
  | none => s
  | some h =>
    let s1 := { s with tasks := { s.tasks with held := s.tasks.held.erase h } }
    if s.heldSkips h then (s1.both Reg.TT_BELLS_SKIPPED Reg.TT_EVT 1).releasePoster h.src false
    else (s1.applyPost h.task h.mask).releasePoster h.src true

def execHeldPostApply (s : State) : Host.Outcome State Fault Refusal := .next (heldPostApply s)

def execTaskRemoval (task : Nat) (s : State) : Host.Outcome State Fault Refusal :=
  match s.task task with
  | some k => if k.gone then .next (s.finishTask task) else .next s
  | none => .next s

end Sys2Proof.Machine
end

