-- ==== Sys2Proof/Machine/Memory.lean ====
section
/-!
DEFINITION. The memory system (spec chapter 16): DRAM and SRAM errors (R386, R400, R401), refresh (R397), row
activations (R398), write CRC (R399), retraining (R395, R396), the maintenance pauses and the cellar's margin
(R402–R404).
-/
namespace Sys2Proof.Machine

def State.setMemory (s : State) (m : MemSt) : State := { s with memory := m }

/-! ### Errors in DRAM -/

/-- The channel of a DRAM address (R388). -/
def State.chanOf (s : State) (addr : Nat) : Nat := if s.twoChannels then addr / 256 % 2 else 0

def State.dramChan (s : State) (c : Nat) : DramChan := s.memory.chan.getD c {}
def State.setDramChan (s : State) (c : Nat) (v : DramChan) : State :=
  s.setMemory { s.memory with chan := s.memory.chan.set c v }

/-- A DRAM failure is declared (R401): FALLBACK with DRAM failed is to be entered. -/
def State.dramFailure (s : State) : State :=
  if s.memory.failed then s
  else
    let s1 : State := { s.setMemory { s.memory with failed := true } with pwr := { s.pwr with pendDram := true } }
    s1.evt Reg.MEM_EVT 8

/-- UE_LIMIT of R401. -/
def State.ueLimit (s : State) : Nat := max 1 (fieldOf (s.reg Reg.MEM_CFG) 16 16)

/-- An uncorrectable DRAM error at an address (R400, R396, R401). -/
def State.dramUe (s : State) (addr : Nat) : State :=
  let ues := s.samples :: s.memory.ues.filter (fun t => decide (s.samples < t + s.fs))
  let s1 := (s.setMemory { s.memory with ues := ues, ueAddr := addr }).both Reg.MEM_DRAM_UE Reg.MEM_EVT 1
  if (s.dramChan (s.chanOf addr)).marginLost ∨ s.ueLimit < ues.length then s1.dramFailure else s1

/-- The DRAM answers requests (R401, R405). -/
def State.dramUp (s : State) : Bool := s.memory.trained && !s.memory.failed && !s.memory.selfRef

/-- A block that holds the poison pattern lies in a range (R399). -/
def State.poisoned (s : State) (addr n : Nat) : Bool := (blocksOf addr n).any s.memory.poison.contains

/-- SCRUB reads an address (R400). -/
def dramScrub (addr : Nat) (o : EccOutcome) (s : State) : State :=
  if bitOf (s.reg Reg.MEM_CFG) 0 && s.dramUp && decide (addr < s.dramCap) then
    match (if s.poisoned addr 1 then .uncorrectable else o) with
    | .clean => s
    | .corrected => s.both Reg.MEM_DRAM_CE Reg.MEM_EVT 0
    | .uncorrectable => s.dramUe addr
  else s

def execDramScrub (addr : Nat) (outcome : EccOutcome) (s : State) : Host.Outcome State Fault Refusal :=
  .next (dramScrub addr outcome s)

/-! ### Errors in SRAM (R386) -/

def zeroAt (l : List Int) (i : Nat) : List Int := l.set i 0

def lostPath (i : Nat) : List PathRec → List PathRec
  | [] => []
  | r :: rs => match i with
    | 0 => { r with lost := true } :: rs
    | k + 1 => r :: lostPath k rs

/-- The `i`-th path record of a locker's sets is lost (R180). -/
def lostRec (i : Nat) : List PathSet → List PathSet
  | [] => []
  | t :: ts => if i < t.paths.length then { t with paths := lostPath i t.paths } :: ts else t :: lostRec (i - t.paths.length) ts

/-- A sample of a stream's buffer reads as 0: DISCARDED and SYNTHESIZED (R33); `holds`, the word holds one. -/
def State.sampleLost (s : State) (led : Nat) (holds : Bool) : State := if holds then s.tally led { dis := 1, syn := 1 } else s

/-- Sample `i` of a table of frames set to 0; frames are counted channel by channel. -/
def zeroFrames (i : Nat) : Tbl (List Int) → Tbl (List Int)
  | [] => []
  | (k, f) :: r => if i < f.length then (k, zeroAt f i) :: r else (k, f) :: zeroFrames (i - f.length) r

/-- What a consumer does about an uncorrectable error in its word. -/
def State.sramEffect (s : State) (e : SramError) : State :=
  match e.area with
  | .objectWell =>
    match tget s.lockers e.unit with
    | some l => { s with lockers := tset s.lockers e.unit { l with window := zeroAt l.window e.index } }
    | none => s
  | .pathStore =>
    match tget s.lockers e.unit with
    | some l => ({ s with lockers := tset s.lockers e.unit { l with sets := lostRec e.index l.sets } } : State).both
        Reg.PTH_REC_ERRS Reg.PTH_EVT 3
    | none => s
  | .firCoeff =>
    match tget s.feeds e.unit with
    | some f => { s with feeds := tset s.feeds e.unit { f with fir := zeroAt f.fir e.index } }
    | none => s
  | .firHistory =>
    match tget s.feeds e.unit with
    | some f => { s with feeds := tset s.feeds e.unit { f with hist := zeroAt f.hist e.index } }
    | none => s
  | .desk =>
    let k := s.desk e.unit
    s.setDesk e.unit { k with bad := if k.bad.contains e.index then k.bad else k.bad ++ [e.index] }
  | .matrix =>
    let key := nodeKey e.index e.unit
    match tget s.matrix key with
    | some nd => { s with matrix := tset s.matrix key { nd with gain := nd.gain.done } }
    | none => s
  | .cellar =>
    if e.unit < 1024 then
      match tget s.lockers e.unit with
      | some l => ({ s with lockers := tset s.lockers e.unit { l with line := zeroAt l.line e.index } } : State).both
          Reg.OBJ_PREDELAY_ERRS Reg.OBJ_EVT 3
      | none => s
    else
      match tget s.feeds (e.unit - 1024) with
      | some f => (({ s with feeds := tset s.feeds (e.unit - 1024) { f with line := zeroAt f.line e.index } } : State).sampleLost
          (0x400 + (e.unit - 1024)) (e.index < min f.line.length f.len)).both Reg.SPK_CELLAR_ERRS Reg.SPK_EVT 5
      | none => s
  | .geoCache => s
  | .fallback => s
  | .flow =>
    match tget s.net.rx e.unit with
    | some f => ({ s with net := { s.net with rx := tset s.net.rx e.unit { f with buf := zeroFrames e.index f.buf } } } : State).sampleLost
        (0x100 + e.unit) (e.index < (f.buf.map (fun r => r.2.length)).sum)
    | none => s
  | .chain =>
    let go (p : (Nat × Nat) × ChainBlk) : (Nat × Nat) × ChainBlk :=
      if p.1 == (e.unit / 1024, e.unit % 1024) then (p.1, { p.2 with words := zeroAt p.2.words e.index }) else p
    let c := s.ntk.chain
    match c.objs.find? (fun p => p.1 == (e.unit / 1024, e.unit % 1024)) with
    | some p => ({ s with ntk := { s.ntk with chain := { c with objs := c.objs.map go } } } : State).sampleLost (0x300 + p.2.port.val)
        (e.index < p.2.words.length)
    | none => s
  | .bridge =>
    let p := s.ports.getD e.unit {}
    let raw := p.raw.zipIdx.map (fun f => if f.2 = e.index / 32 then (f.1.1, zeroAt f.1.2 (e.index % 32)) else f.1)
    ({ s with ports := s.ports.set e.unit { p with raw := raw } } : State).sampleLost e.unit
      (decide (e.unit < 64) && p.raw.zipIdx.any (fun f => f.2 == e.index / 32 && decide (e.index % 32 < f.1.2.length)))

/-- The scrubber's pass over the SRAM with the errors it met (R386). -/
def sramScrub : List SramError → State → State
  | [], s => s
  | e :: r, s =>
    sramScrub r (if e.uncorrectable then (s.both Reg.MEM_SRAM_UE Reg.MEM_EVT 2).sramEffect e else s.count Reg.MEM_SRAM_CE 1)

def execSramScrub (errors : List SramError) (s : State) : Host.Outcome State Fault Refusal := .next (sramScrub errors s)

/-! ### Pauses (R402, R403) -/

/-- A pause of `ns`: in a running pipeline each line with a cellar FIFO gives up a word per sample period. -/
def State.pause (s : State) (ns : Nat) : State :=
  let keep := s.memory.pauses.filter (fun p => decide (s.samples < p.1 + s.fs / 1000))
  let words := (ns * s.fs + 999999999) / 1000000000
  let lines := s.piping && (s.lockers.any (fun p => p.2.live) || s.feeds.any (fun p => p.2.used))
  s.setMemory { s.memory with pauses := (s.samples, ns) :: keep, pauseHigh := max ns s.memory.pauseHigh,
                              cellarMin := if lines then min s.memory.cellarMin (192 - words) else s.memory.cellarMin }

/-! ### Refresh (R397) -/

def State.subChan (s : State) (k : Nat) : SubChan := s.memory.sub.getD k {}
def State.setSub (s : State) (k : Nat) (v : SubChan) : State := s.setMemory { s.memory with sub := s.memory.sub.set k v }

/-- tRFC1 in ns: 295 for 16 Gb devices, 195 for 8 Gb. -/
def State.trfc (s : State) : Nat := if s.memory.config = 2 ∨ s.memory.config = 4 then 295 else 195

/-- A refresh interval ends: `issued`, whether its refreshes were all issued; `k` all-bank refreshes of the
catch-up, each of which clears one interval. -/
def refreshInterval (sub : Nat) (issued : Bool) (k : Nat) (s : State) : State :=
  if s.dramUp then
    let v := s.subChan sub
    let d := if issued ∨ 4 ≤ v.debt then v.debt else v.debt + 1
    let n := min k (if 4 < v.debt then v.debt - 4 else d)
    let s1 := s.setSub sub { v with debt := d - n }
    if 4 < v.debt ∧ 0 < n then s1.pause (n * s.trfc) else s1
  else s

def execRefreshInterval (sub : Fin 4) (issued : Bool) (catchUp : Nat) (s : State) : Host.Outcome State Fault Refusal :=
  .next (refreshInterval sub.val issued catchUp s)

/-- The debts of a channel's two subchannels. -/
def State.mapDebt (s : State) (c : Nat) (f : Nat → Nat) : State :=
  s.setMemory { s.memory with sub := s.memory.sub.zipIdx.map (fun p => if p.2 / 2 = c then { p.1 with debt := f p.1.debt } else p.1) }

/-- MR4 is read: a doubled rate is recounted, with a catch-up where more than four intervals are owed. -/
def mr4Read (c : Nat) (doubled : Bool) (s : State) : State :=
  if s.dramUp then
    let v := s.dramChan c
    let s1 := s.setDramChan c { v with hot := doubled, x2 := v.x2 || doubled, coolFrom := if v.hot then s.samples else v.coolFrom }
    if doubled && !v.x2 then
      let s2 := (s1.mapDebt c (fun d => 2 * d)).evt Reg.MEM_EVT 5
      if (s2.subChan (2 * c)).debt ≤ 4 ∧ (s2.subChan (2 * c + 1)).debt ≤ 4 then s2 else s2.count Reg.MEM_CATCHUPS 1
    else s1
  else s

def execMr4Read (ch : Fin 2) (doubled : Bool) (s : State) : Host.Outcome State Fault Refusal := .next (mr4Read ch.val doubled s)

/-- 32 ms of the normal rate: the debt halves, rounded up. -/
def refreshRateReturn (c : Nat) (s : State) : State :=
  let v := s.dramChan c
  if v.x2 && !v.hot && s.passed v.coolFrom 32000 then (s.setDramChan c { v with x2 := false }).mapDebt c (fun d => (d + 1) / 2) else s

def execRefreshRateReturn (ch : Fin 2) (s : State) : Host.Outcome State Fault Refusal := .next (refreshRateReturn ch.val s)

/-! ### Row activations (R398) -/

def execActivationWindowReset (s : State) : Host.Outcome State Fault Refusal :=
  .next (s.setMemory { s.memory with sub := s.memory.sub.map (fun v => { v with tracker := [] }) })

/-- A row's count reached MEM_ACT_THRESH: its neighbours are refreshed and the count is 0. A bank's tracker has 16 entries. -/
def neighbourRefresh (sub bank row : Nat) (s : State) : State :=
  let v := s.subChan sub
  let own := v.tracker.filter (fun p => p.1.1 == bank && p.1 != (bank, row))
  let rest := own.take 15 ++ v.tracker.filter (fun p => p.1.1 != bank)
  (s.setSub sub { v with tracker := ((bank, row), 0) :: rest }).both Reg.MEM_NEIGHBOUR_REFRESHES Reg.MEM_EVT 6

def execNeighbourRefresh (sub : Fin 4) (bank row : Nat) (s : State) : Host.Outcome State Fault Refusal :=
  .next (neighbourRefresh sub.val bank row s)

/-! ### Retraining (R395, R396) -/

/-- A channel that is fitted and answers. -/
def State.chanUp (s : State) (c : Nat) : Bool := s.dramUp && (c == 0 || s.twoChannels)

/-- RETRAIN_PERIOD has passed since the channel's last training, or the die temperature has moved by more than 10 °C (R395). -/
def State.retrainNow (s : State) (v : DramChan) : Bool :=
  s.passed v.trainedAt (max 10 (fieldOf (s.reg Reg.MEM_CFG) 8 8) * 1000000) || decide (2560 < (s.pwr.temp - v.trainTemp).natAbs)

def retrainDue (c : Nat) (s : State) : State :=
  let v := s.dramChan c
  if s.chanUp c && bitOf (s.reg Reg.MEM_CFG) 1 && v.retrain.isNone && s.retrainNow v then
    s.setDramChan c { v with retrain := some 0, forced := false, retries := 0 }
  else s

def execRetrainDue (ch : Fin 2) (s : State) : Host.Outcome State Fault Refusal := .next (retrainDue ch.val s)

/-- One of the 64 slices of a retrain, a pause of `ns`. -/
def retrainSlice (c ns : Nat) (s : State) : State :=
  let v := s.dramChan c
  match v.retrain with
  | some k => if k < 64 ∧ s.chanUp c then (s.setDramChan c { v with retrain := some (k + 1) }).pause ns else s
  | none => s

def execRetrainSlice (ch : Fin 2) (ns : Nat) (s : State) : Host.Outcome State Fault Refusal := .next (retrainSlice ch.val ns s)

/-- The last slice has ended: new settings, or none that works. -/
def retrainEnd (c : Nat) (found : Bool) (s : State) : State :=
  let v := { s.dramChan c with trainedAt := s.samples, trainTemp := s.pwr.temp }
  if v.retrain = some 64 ∧ s.chanUp c then
    let s1 := s.count Reg.MEM_RETRAINS 1
    if found then s1.setDramChan c { v with retrain := none, marginLost := false, forced := false, retries := 0 }
    else
      let s2 := (s1.setDramChan c { v with retrain := none, marginLost := true, forced := false }).both
        Reg.MEM_RETRAIN_FAILS Reg.MEM_EVT 4
      if v.forced then s2.dramFailure else s2
  else s

def execRetrainEnd (ch : Fin 2) (found : Bool) (s : State) : Host.Outcome State Fault Refusal := .next (retrainEnd ch.val found s)

/-- A retry after 1 s, up to eight times. -/
def retrainRetry (c : Nat) (s : State) : State :=
  let v := s.dramChan c
  if s.chanUp c && v.marginLost && v.retrain.isNone && decide (v.retries < 8) && s.passed v.trainedAt 1000000 then
    s.setDramChan c { v with retrain := some 0, forced := false, retries := v.retries + 1 }
  else s

def execRetrainRetry (ch : Fin 2) (s : State) : Host.Outcome State Fault Refusal := .next (retrainRetry ch.val s)

/-! ### Write CRC (R399) -/

/-- An ALERT_N pulse: `during`, whether it fell in a replay, which has then failed; `recent`, the alerts of the
last 1 ms before it. It replays the writes; after the third failure they are poisoned instead (R402: at most three replays
in 1 ms). -/
def alertNPulse (sub : Nat) (during : Bool) (recent : Nat) (s : State) : State :=
  if s.chanUp (sub / 2) then
    let v := s.subChan sub
    let fails := if recent ≥ 3 then 3 else if during then v.fails + 1 else 0
    if 3 ≤ fails then
      let s2 := s.setSub sub { v with fails := 0 }
      let s3 := s2.setMemory { s2.memory with poison := s2.memory.poison ++ v.retry.filter (fun b => !s2.memory.poison.contains b) }
      s3.setDramChan (sub / 2) { s3.dramChan (sub / 2) with retrain := some 0, forced := true, retries := 0 }
    else ((s.both Reg.MEM_CRC_REPLAYS Reg.MEM_EVT 3).setSub sub { v with fails := fails }).pause 500
  else s

def execAlertNPulse (sub : Fin 4) (during : Bool) (recent : Nat) (s : State) : Host.Outcome State Fault Refusal :=
  .next (alertNPulse sub.val during recent s)

end Sys2Proof.Machine
end

