-- ==== Sys2Proof/Machine/Chain.lean ====
section
/-!
DEFINITION. The chain as roll call knows it (spec chapter 13): versions (R314), the checks of a roll call or a join
(R315, R321, R322, R329), holds and contributor counts, membership and what a chain input holds (R320–R327, R334, R335).
-/
namespace Sys2Proof.Machine

/-! ### Versions (R314) -/

def chainVersions : List Nat := [0x10, 0x11, 0x20]

/-- The highest version that two ranges share; 0 with none. -/
def agreeVersion (a b : Nat × Nat) : Nat :=
  (chainVersions.filter (fun v => decide (max a.1 b.1 ≤ v ∧ v ≤ min a.2 b.2))).foldl max 0

/-- Adjacent pairs of a list, and in a ring the last with the first. -/
def linksOf {α : Type} (ring : Bool) (l : List α) : List (α × α) :=
  l.zip (l.drop 1 ++ (if ring then l.take 1 else []))

/-- The lowest version agreed on any link. -/
def chainVersion (ring : Bool) (recs : List RollRecord) : Nat :=
  let vs := (linksOf ring recs).map (fun p => agreeVersion (p.1.verMin, p.1.verMax) (p.2.verMin, p.2.verMax))
  match vs with
  | [] => 0
  | v :: r => r.foldl min v

/-! ### Paths along the chain (R318, R320–R323) -/

/-- The chain as its members are listed from the head: ring or chain, sample rate, records, propagation of the links in ns. -/
structure Roll where
  ring : Bool
  fs   : Nat
  recs : List RollRecord
  hops : List Nat
deriving DecidableEq, Repr, Inhabited

/-- Propagation over the `h` links from hop index `i` on, in ns. -/
def Roll.prop (r : Roll) (i h : Nat) : Nat :=
  ((List.range h).map (fun k => r.hops.getD ((i + k) % max 1 r.hops.length) 0)).sum

/-- 16 × ceil(p / 16) for a propagation in ns. -/
def Roll.ceil16 (r : Roll) (ns : Nat) : Nat := 16 * ((ns * r.fs + 16000000000 - 1) / 16000000000)

/-- Paths from publisher `q` to reader `i`: the number of hops and their propagation; both directions in a ring. -/
def Roll.paths (r : Roll) (q i : Nat) : List (Nat × Nat) :=
  let n := r.recs.length
  if q = i then []
  else if r.ring then
    let h := (i + n - q) % n
    [(h, r.prop q h), (n - h, r.prop i (n - h))]
  else if q < i then [(i - q, r.prop q (i - q))]
  else []

/-- R321: the cost of a path. -/
def Roll.cost (r : Roll) (p : Nat × Nat) : Nat := 16 * p.1 + r.ceil16 p.2

/-- Where the partial sum of feed `f` that member `i` sends goes: the members that add it on, the tail last. -/
def Roll.sumPath (r : Roll) (f : Nat) : Nat → Nat → List Nat
  | 0, _ => []
  | fuel + 1, i =>
    let next := (List.range r.recs.length).find? (fun k => decide (i < k) &&
      (let m := r.recs.getD k default; m.sumIn.contains f || m.sumOut.contains f))
    match next with
    | none => []
    | some k =>
      let m := r.recs.getD k default
      if !m.sumIn.contains f then []
      else if m.sumOut.contains f then k :: r.sumPath f fuel k
      else [k]

/-- The tail that a member's partial sum of feed `f` reaches. -/
def Roll.tailOf (r : Roll) (f i : Nat) : Option Nat :=
  match (r.sumPath f r.recs.length i).getLast? with
  | some k => if (r.recs.getD k default).sumOut.contains f then none else some k
  | none => none

/-- H of the member at hop index `i`, before its sign is checked (R322). -/
def Roll.holdInt (r : Roll) (budget : Nat) (split : Bool) (i : Nat) : Int :=
  if !split then budget
  else
    let less (j : Nat) : Int := (((List.range (j - i)).map (fun k => 16 + r.ceil16 (r.prop (i + k) 1))).sum : Nat)
    let hs := (r.recs.getD i default).sumOut.filterMap (fun f => (r.tailOf f i).map (fun j => (budget : Int) - less j))
    hs.foldl min budget

/-- Contributors whose sums reach member `i` for feed `f` (R326). -/
def Roll.contributors (r : Roll) (f i : Nat) : Nat :=
  ((List.range i).filter (fun k => (r.recs.getD k default).sumOut.contains f && (r.sumPath f r.recs.length k).contains i)).length

/-- R321: every path that the member reads over fits its hold. -/
def Roll.fits (r : Roll) (i : Nat) (h : Int) : Bool :=
  (r.recs.getD i default).reads.all (fun c =>
    (List.range r.recs.length).all (fun q =>
      !(r.recs.getD q default).pubs.contains c || (r.paths q i).all (fun p => decide ((r.cost p : Int) ≤ h))))

/-- R329 for one receiving port: cells of the channels read, plus CONTROL, times the blocks that are held. -/
def Roll.credit (r : Roll) (i h : Nat) (second : Bool) : Bool :=
  let m := r.recs.getD i default
  let path (q : Nat) : Option (Nat × Nat) := (r.paths q i)[(if second then 1 else 0)]?
  let pubs := (List.range r.recs.length).filter (fun q => (path q).isSome)
  let groups (q : Nat) : List Nat := (((r.recs.getD q default).pubs.filter m.reads.contains).map (· / 4)).eraseDups
  let sums := if second then 0 else (m.sumIn.map (· / 4)).eraseDups.length
  let cells := (pubs.map (fun q => (groups q).length)).sum + sums
  let span (p : Nat × Nat) : Nat := ((h + 16 - 16 * p.1) * 1000000000 - p.2 * r.fs + (16000000000 - 1)) / 16000000000
  let blocks := ((pubs.filter (fun q => !(groups q).isEmpty)).filterMap path).map span
  decide ((cells + 1) * max 1 (blocks.foldl max 0) ≤ 2048)

/-- Automatic positions take the lowest unused one in hop order (R315). -/
def assignPositions : List Nat → List RollRecord → List RollRecord
  | _, [] => []
  | used, r :: rest =>
    if r.position = 255 then
      let p := ((List.range 255).find? (fun k => k != 0 && !used.contains k)).getD 255
      { r with position := p } :: assignPositions (p :: used) rest
    else r :: assignPositions used rest

def Roll.assigned (r : Roll) : Roll :=
  { r with recs := assignPositions ((r.recs.map (fun m => m.position)).filter (fun p => p != 255)) r.recs }

def repeats (l : List Nat) : Bool := l.eraseDups.length != l.length

/-- The first reason for which a roll call fails; 0 when it succeeds (R315, NTK_CHAIN_STAT.FAIL). -/
def Roll.fail (r : Roll) : Nat :=
  let head := r.recs.getD 0 default
  let v := chainVersion r.ring r.recs
  let hs := (List.range r.recs.length).map (fun i => (i, r.holdInt head.budget head.split i))
  if r.recs.any (fun m => m.rate96 != head.rate96) then 1
  else if r.recs.any (fun m => m.budget != head.budget || m.ring != head.ring || m.split != head.split) then 2
  else if repeats (r.recs.map (fun m => m.position)) then 3
  else if v = 0 ∨ (r.ring ∧ v < 0x20) then 4
  else if repeats ((r.recs.map (fun m => m.pubs)).flatten) then 5
  else if hs.any (fun p => decide (p.2 < 0) || !r.fits p.1 p.2) then 6
  else if hs.any (fun p => !r.credit p.1 p.2.toNat false || (r.ring && !r.credit p.1 p.2.toNat true)) then 7
  else 0

/-! ### The chain in the state -/

def State.chain (s : State) : ChainSt := s.ntk.chain
def State.setChain (s : State) (c : ChainSt) : State := { s with ntk := { s.ntk with chain := c } }
def State.ntkPort (s : State) (n : Nat) : NtkPort := s.ntk.ports.getD n {}
def State.setNtkPort (s : State) (n : Nat) (p : NtkPort) : State := { s with ntk := { s.ntk with ports := s.ntk.ports.set n p } }
def ntkReg (off n : Nat) : Nat := off + 0x40 * n
def State.ntkReady (s : State) (n : Nat) : Bool := (s.ntkPort n).link == .ready

/-- The chain as this renderer knows it. -/
def State.roll (s : State) : Roll :=
  { ring := s.chain.ring, fs := s.fs, recs := s.chain.members.map (fun m => m.entry), hops := s.chain.hops }

/-- Hop index of this renderer. -/
def State.hopIndex (s : State) : Nat := (s.chain.members.findIdx? (fun m => m.entry.position == s.chain.position)).getD 0

/-- Hold, contributor counts and version follow the membership (R320, R322, R326). -/
def State.settleChain (s : State) : State :=
  let c := s.chain
  let r := s.roll
  let i := s.hopIndex
  let me := r.recs.getD i default
  s.setChain { c with hold := (r.holdInt c.budget c.split i).toNat, version := chainVersion c.ring r.recs,
                      contrib := me.sumIn.foldl (fun t f => tset t f (r.contributors f i)) [] }

/-- Ledger of a port's chain input (R28). -/
def chainLedger (p : Nat) : Nat := 0x300 + p

/-- A channel-block is done with: its cell is freed once it was the last one in it (R327). -/
def State.releaseCopy (s : State) (b : ChainBlk) : State :=
  match s.chain.cells.find? (fun c => c.1 == b.cell) with
  | none => s
  | some (id, port, n) =>
    let cells := s.chain.cells.filter (fun c => c.1 != id)
    if 1 < n then s.setChain { s.chain with cells := cells ++ [(id, port, n - 1)] }
    else
      let p := s.ntkPort port.val
      (s.setChain { s.chain with cells := cells }).setNtkPort port.val { p with used := p.used - 1, freed := p.freed + 1 }

/-- What a chain input holds is DISCARDED. In a ring, where only a used copy is counted, object blocks leave uncounted. -/
def State.chainDiscard (s : State) : State :=
  let c := s.chain
  let objs := if c.ring then [] else c.objs
  let s1 := (objs.map Prod.snd ++ c.sums.map Prod.snd).foldl (fun s b => s.addLed (chainLedger b.port.val) { dis := 16 }) s
  let s2 := (c.objs.map Prod.snd ++ c.sums.map Prod.snd).foldl State.releaseCopy s1
  s2.setChain { s2.chain with objs := [], sums := [] }

/-- The chain is left: ALONE. -/
def State.chainAlone (s : State) : State :=
  let s1 := s.chainDiscard
  s1.setChain { s1.chain with st := .alone, head := false, position := 255, version := 0, members := [], hops := [], contrib := [],
                              calling := false, asked := false, broken := [], decisions := [], early := [], good := 0, hold := 0, budget := 0,
                              ring := false, split := false }

/-- A renderer that left its chain hears its head no more: the time base that followed it holds over (R335). -/
def State.chainUnled (s : State) : State :=
  match s.tbWith 4 with
  | some k => s.dropSource k
  | none => s

/-- New publications (R336). -/
def State.publish (s : State) (ps : List Pub) : State :=
  let c := s.chain
  let own (m : ChainMember) : ChainMember :=
    if m.entry.position = c.position then { m with entry := { m.entry with pubs := ps.map (fun p => p.chan) } } else m
  s.setChain { c with pubs := ps, members := c.members.map own }

/-- The CHAIN_CONFIG that waits completes. -/
def State.chainDone (s : State) (st : Byte) (res : Nat) : State :=
  match s.chain.cmd with
  | some (c, _) => (s.setChain { s.chain with cmd := none }).complete c st res
  | none => s

/-- A join or a leave takes effect from pipeline index m (R334, R335). -/
def State.memberChange (s : State) (m : Nat) (rec : RollRecord) (joins : Bool) (place : Nat) (hops : List Nat) : State :=
  let c := s.chain
  let mine := rec.position == c.position
  let ours := match c.cmd with
    | some (_, op) => (op == 1 && joins && mine) || (op == 2 && !joins)
    | none => false
  let s1 := (if ours then s.chainDone stOk m else s).evt Reg.NTK_EVT 6
  if joins then
    let ms := c.members.filter (fun x => x.entry.position != rec.position)
    let c1 := { s1.chain with members := ms.take place ++ [{ entry := rec }] ++ ms.drop place, hops := hops,
                              st := if mine then .member else s1.chain.st, since := if mine then m else s1.chain.since }
    (s1.setChain c1).settleChain
  else if mine then s1.chainAlone.chainUnled
  else
    let c1 := { s1.chain with members := c.members.filter (fun x => x.entry.position != rec.position), hops := hops }
    (s1.setChain c1).settleChain

end Sys2Proof.Machine
end

