-- ==== Sys2Proof/Machine/GeoUnit.lean ====
section
/-!
DEFINITION. The geometry unit at work (spec chapter 05): the freeze of a frame's inputs with jumps and
held jumps (R117–R119, R131, R150), evaluation in order of capacity (R132–R135), selection (R153–R160),
the hand-over of the path sets (R166, R173, R174), and the ends of holds and crossfades.
-/
namespace Sys2Proof.Machine

/-! ### Lockers in the state -/

def State.locker (s : State) (i : Nat) : Locker := (tget s.lockers i).getD {}
def State.setLocker (s : State) (i : Nat) (l : Locker) : State := { s with lockers := tset s.lockers i l }

/-- J of R118 in samples. -/
def State.jumpLen (s : State) : Nat := 128 * clampN 1 32 (fieldOf (s.reg Reg.OBJ_CFG) 0 6)
def State.jumpDist (s : State) : Nat := (s.reg Reg.OBJ_JUMP_DIST).toNat

/-- The budget in force (R163). -/
def State.budgetNow (s : State) : Nat :=
  let b := min (fieldOf (s.reg Reg.PTH_BUDGET) 0 20) (pathCap s.clock.media.rate96)
  if s.throttled then b / 2 else b

/-! ### Air (R150) -/

/-- The value of a zone in force for frame `f`. -/
def AirZone.at_ (z : AirZone) (f : Nat) : Int × Int :=
  let j := (f - z.start) / 128
  let mid (a b : Int) : Int := rdiv (a * z.frames + (b - a) * j) z.frames
  if z.frames ≤ j ∨ f < z.start then (z.toT, z.toH) else (mid z.fromT z.toT, mid z.fromH z.toH)

/-- AIR_SET applies to a zone at frame `f`. -/
def AirZone.set (z : AirZone) (fs f ms : Nat) (t h : Int) : AirZone :=
  let v := z.at_ f
  { fromT := v.1, fromH := v.2, toT := t, toH := h, start := f, frames := (ms * fs + 127999) / 128000 }

/-! ### The freeze (R131, R117–R119) -/

/-- What a frame's changes ask of one locker. -/
structure GeoEdit where
  pos  : Option PosUpdate := none
  cfg  : Option (LockerCfg × Nat) := none
  paid : Bool := true
deriving DecidableEq, Repr, Inhabited

/-- The changes of a frame by locker; a later update of a locker replaces an earlier one (R117). -/
def geoEdits (l : List Change) : Tbl GeoEdit :=
  l.foldl (fun t c =>
    match c with
    | .objPos ups staged => ups.foldl (fun t u =>
        let e := (tget t u.locker).getD {}
        tset t u.locker { e with pos := some u, paid := e.paid && staged }) t
    | .objGeo l c pf =>
        let e := (tget t l).getD {}
        tset t l { e with cfg := some (c, pf), paid := false }
    | _ => t) []

def Pos.zero (p : Pos) : Bool := p.x == 0 && p.y == 0 && p.z == 0

/-- The target a locker's fields and position make. -/
def Locker.geoTarget (l : Locker) : GeoTarget :=
  { pos := l.target, mode := l.cfg.mode, spread := l.cfg.spread, firstBus := l.cfg.firstBus, busCount := l.cfg.busCount }

/-- The locker with a target of its own; its WAVE direction follows the position (R112). -/
def Locker.retarget (l : Locker) (g : GeoTarget) : Locker :=
  let keep := if g.mode = l.cfg.mode then l.dir else none
  { l with target := g.pos, dir := if g.mode ≠ 1 then none else if g.pos.zero then keep else some g.pos,
           posHold := g.mode == 1 && g.pos.zero,
           cfg := { l.cfg with mode := g.mode, spread := g.spread, firstBus := g.firstBus, busCount := g.busCount } }

/-- R118: a change of fields that is carried out as a jump. -/
def cfgJumps (dist : Nat) (a b : GeoTarget) : Bool :=
  a.mode != b.mode || decide (dist < max a.spread b.spread - min a.spread b.spread) ||
    (b.mode == 3 && (a.firstBus != b.firstBus || a.busCount != b.busCount))

/-- R118: an update that is a jump from the locker's target. -/
def Locker.posJumps (l : Locker) (dist : Nat) (u : PosUpdate) : Bool :=
  if l.cfg.mode = 3 then false
  else if l.cfg.mode = 1 then
    match l.dir with
    | some d => !u.pos.zero && (u.force || (!u.never && turned d u.pos))
    | none => false
  else u.force || (!u.never && farther dist l.target u.pos)

/-- One locker at the freeze of frame `f`: the locker, whether it is evaluated, whether it jumps, and the
updates held (R119). `had`: it has paths in the frame before. -/
def Locker.freeze (l : Locker) (f jl dist : Nat) (had : Bool) (e : GeoEdit) : Locker × Bool × Bool × Nat :=
  -- a jump crossfade that ends at F, and what it held
  let ended : Bool := match l.jumpPlan with
    | some (s, j) => decide (s + j ≤ f)
    | none => false
  let l0 := if ended then { l with jumpPlan := none, held := none } else l
  let g0 := l0.geoTarget
  let due := if ended then l.held else none
  let g1 : GeoTarget := match due with
    | none => g0
    | some h =>
      let c := h.cfg.getD g0
      { c with pos := h.pos.getD g0.pos }
  let l1 := if due.isSome then l0.retarget g1 else l0
  let running := l1.jumpPlan.isSome && had
  -- fields
  let want : GeoTarget := match e.cfg with
    | none => l1.geoTarget
    | some (c, _) => { pos := l1.target, mode := c.mode, spread := c.spread, firstBus := c.firstBus, busCount := c.busCount }
  let latest : GeoTarget := match l1.held.bind (fun h => h.cfg) with
    | some g => { g with pos := l1.target }
    | none => l1.geoTarget
  let cfgDiffers := want != l1.geoTarget
  let holdCfg := running && e.cfg.isSome && want != latest
  let cfgJump := had && !running && cfgJumps dist l1.geoTarget want
  let h0 := l1.held.getD {}
  let l2 := if holdCfg then { l1 with held := some { h0 with cfg := some want } } else if running then l1 else l1.retarget want
  let l3 : Locker := match e.cfg with
    | none => l2
    | some (c, _) => { l2 with cfg := { l2.cfg with prio := c.prio, maxPaths := c.maxPaths } }
  let limits := l3.cfg.prio != l.cfg.prio || l3.cfg.maxPaths != l.cfg.maxPaths
  -- position
  let posJump := had && (match e.pos with
    | some u => l3.posJumps dist u
    | none => false)
  let h1 := l3.held.getD {}
  let (l4, moved) : Locker × Bool := match e.pos with
    | none => (l3, false)
    | some u =>
      if running && posJump then ({ l3 with held := some { h1 with pos := some u.pos } }, false)
      else (l3.retarget { l3.geoTarget with pos := u.pos }, u.pos != l3.target || u.force)
  let jump := had && !running && (due.isSome || cfgJump || posJump)
  let l5 := if jump then { l4 with jumpPlan := some (f, jl) } else l4
  (l5, due.isSome || (cfgDiffers && !running) || limits || moved, jump,
   b2n holdCfg + b2n (running && posJump))

/-- An enable that is a new one reaches the frames (R121). -/
def Locker.enableGeo (l : Locker) (e : GeoEdit) : Locker :=
  match e.cfg with
  | some (c, pf) =>
    if c.enable && (!l.geoOn || l.releasing) then
      { l with geoOn := true, pathsFrom := pf, dir := none, jumpPlan := none, held := none, late := false, jumpDue := false }
    else l
  | none => l

/-- The frame's changes of the air. -/
def airEdits (fs f : Nat) (zs : List AirZone) (l : List Change) : List AirZone :=
  l.foldl (fun zs c =>
    match c with
    | .air mask ms t h => zs.zipIdx.map (fun p => if mask / 2 ^ p.2 % 2 = 1 then p.1.set fs f ms t h else p.1)
    | _ => zs) zs

/-- Freeze of every locker: the lockers, the inputs of the frame, the updates held. -/
def freezeLockers (f first jl dist : Nat) (allEval switch : Bool) (es : Tbl GeoEdit) :
    Tbl Locker → Tbl Locker × Tbl GeoInput × Nat
  | [] => ([], [], 0)
  | (i, l) :: r =>
    let (ls, ins, n) := freezeLockers f first jl dist allEval switch es r
    let e := (tget es i).getD { paid := true }
    let la := l.enableGeo e
    let had := la.geoOn && decide (la.pathsFrom < f) && decide (first < f)
    let (lb, ev, jump, held) := la.freeze f jl dist had e
    let on := lb.geoOn && decide (lb.pathsFrom ≤ f) && decide (first ≤ f)
    let enter := lb.pathsFrom == f || first == f
    let inp : GeoInput :=
      { tgt := lb.geoTarget, dir := lb.dir, eval := ev || enter || allEval || switch,
        prepaid := !enter && !allEval && (ev || switch) && (!ev || (e.paid && (tget es i).isSome)), jump := jump,
        shelf := (match e.pos with | some u => u.shelf | none => false),
        prio := lb.cfg.prio, maxPaths := lb.cfg.maxPaths, plan := lb.jumpPlan }
    ((i, lb) :: ls, if on then (i, inp) :: ins else ins, n + held)

/-- The slots whose sets a frame renders, with SET bit 1 of each (R100). -/
def State.frameSlots (s : State) (f : Nat) : List (Nat × Bool) :=
  match s.xfades.find? (fun x => decide (x.m ≤ f) && decide (f < x.m + x.len)) with
  | some x => (match x.old with | some o => [(o, false)] | none => []) ++ [(x.new, true)]
  | none =>
    match s.xfades.find? (fun x => decide (f < x.m)) with
    | some x => (match x.old with | some o => [(o, false)] | none => [])
    | none => if s.active = 15 then [] else [(s.active, false)]

/-- The shelf crossfade whose weights hold at pipeline index `n`: the last that began. -/
def State.xfadeAt (s : State) (n : Nat) : Option Xfade := (s.xfades.filter (fun x => decide (x.m ≤ n))).getLast?

/-- Freeze of the inputs of frame `f` at MSC f − 128 (R131). -/
def State.freezeGeo (s : State) (f : Nat) : State :=
  let due := (s.sched.filter (fun c => c.stage == .geo && decide (c.at_ ≤ f))).map (fun c => c.chg)
  let es := geoEdits due
  let tbl := es.foldl (fun t p => if (tget t p.1).isSome then t else tset t p.1 {}) s.lockers
  let air := airEdits s.fs f s.geo.air due
  let vals := air.map (fun z => z.at_ f)
  let switch := s.xfades.any (fun x => x.m == f)
  let (ls, ins, held) := freezeLockers f s.geo.firstFrame s.jumpLen s.jumpDist s.geo.reEval switch es tbl
  let table := match s.frameSlots f with
    | [] => isoAbsorption
    | p :: _ => absorbTable (s.image ((s.frameSlots f).getLastD p).1)
  let sound := vals.map (fun v => ((soundSpeed v.1 v.2 * 128 + 500000) / 1000000, (rdiv (absorb table v.1 v.2) 3276800).toNat))
  let fr : GeoFrame := { frame := f, inputs := ins, budget := s.budgetNow, prev := s.geo.airNow, air := vals }
  let s1 : State := { s with
    sched := s.sched.filter (fun c => !(c.stage == .geo && decide (c.at_ ≤ f))), lockers := ls,
    geo := { s.geo with air := air, airNow := vals, sound := sound, reEval := false, frozen := s.geo.frozen ++ [fr] } }
  s1.fxs (fxBoth Reg.OBJ_JUMPS_HELD held Reg.OBJ_EVT 1)

/-! ### Evaluation in order (R132–R135) -/

/-- What a set reads beside its image. -/
def State.geoEnv (s : State) (img : Nat → Byte) (air : List (Int × Int)) : GeoEnv :=
  let cfg := s.reg Reg.GEO_CFG
  let lim := s.reg Reg.GEO_NORM_LIMIT
  let up := max 1920 (fieldOf lim 0 16)
  let down := clampN 1 1920 (fieldOf lim 16 16)
  { r96 := s.clock.media.rate96, fs := s.fs,
    zones := air.map (fun a => (kz s.fs (soundSpeed a.1 a.2), absorb (absorbTable img) a.1 a.2)),
    waveRef := (s.reg Reg.GEO_WAVE_REF).toNat, floor := gain122 (fieldOf (s.reg Reg.GEO_GAIN_FLOOR) 0 16),
    normEn := bitOf cfg 0, up := 16 * ((up : Int) - 1920), down := 16 * ((down : Int) - 1920),
    slew := 16 * (max 1 (fieldOf cfg 8 8) : Nat) }

/-- The GEOMETRY section of a slot; a slot without one names no speaker. -/
def State.geoImg (s : State) (slot : Nat) : Nat → Byte := (sectionImg (s.image slot) 1).getD (fun _ => 0)

/-- Corner reads and direct units of a locker over the shelves it is evaluated for (R132, R134). -/
def State.evalNeed (s : State) (slots : List (Nat × Bool)) (i : GeoInput) : Nat × Nat :=
  if i.prepaid then (0, 0)
  else slots.foldl (fun a p => let c := evalCost (s.geoImg p.1) i.tgt; (a.1 + c.1, a.2 + c.2)) (0, 0)

/-- The lockers of steps 1 and 2 of R133 that fit, those that are late, and what they used. One whose sets are staged needs no
evaluation (R136). -/
def takeFit (need : GeoInput → Nat × Nat) : List (Nat × GeoInput) → Nat → Nat → List Nat × List Nat × Nat × Nat
  | [], _, _ => ([], [], 0, 0)
  | (i, x) :: r, c, d =>
    let n := need x
    if n.1 ≤ c ∧ n.2 ≤ d then
      let (fit, late, uc, ud) := takeFit need r (c - n.1) (d - n.2)
      (i :: fit, late, uc + n.1, ud + n.2)
    else ((r.filter (fun p => p.2.prepaid)).map (fun p => p.1), i :: (r.filter (fun p => !p.2.prepaid)).map (fun p => p.1), 0, 0)

/-- Step 3 of R133: refreshes that fit; the first that does not, and every later one, is late. -/
def takeRefresh : List (Nat × Nat) → Nat → List Nat × List Nat × Nat
  | [], _ => ([], [], 0)
  | (i, n) :: r, d =>
    if n ≤ d then
      let (fit, late, u) := takeRefresh r (d - n)
      (i :: fit, late, u + n)
    else ([], i :: r.map (fun p => p.1), 0)

/-! ### Selection (R153–R160) -/

/-- A set on its way through selection. -/
structure Draft where
  locker   : Nat
  prio     : Nat
  maxPaths : Nat
  origin   : Option (Nat × Bool × Bool)
  set      : PathSet
  /-- the paths of the frame before that were not leaving -/
  prev     : List PathRec
  /-- evaluated for this frame -/
  fresh    : Bool
  /-- late: its targets are the values it reached (R135) -/
  hold     : Bool
  keep     : List Cand := []
  fade     : List PathRec := []
  /-- pruned before, its hold over: it may re-enter (R159) -/
  outs     : List Cand := []
  /-- how many were trimmed -/
  cut      : Nat := 0
deriving DecidableEq, Repr, Inhabited

def PathSet.num (t : PathSet) : Nat := 2 * b2n t.shelfIn + b2n t.jumpIn

/-- The paths of a DIRECT locker (R112). -/
def directCands (c : LockerCfg) (g : GeoTarget) : List Cand :=
  (List.range g.busCount).map (fun k =>
    { speaker := k, gain := gain122 (c.busGain.getD k 0), dist := 0, tilt := 0, trimmed := gain122 (c.busGain.getD k 0) })

/-- The sets of a locker for frame `f` as they begin selection (R118, R100): those of the frame before that
are not over, and the new ones. -/
def lockerDrafts (i f : Nat) (l : Locker) (x : GeoInput) (slots : List (Nat × Bool)) (evaluated late jump : Bool) : List Draft :=
  let jumpEnd : Bool := match l.jump with
    | some (a, j) => decide (a + j ≤ f)
    | none => true
  let need := if x.tgt.mode = 3 then [(15, false)] else slots
  let carried := l.sets.filter (fun t => !t.past && !(t.jumpOut && jumpEnd) && (t.slot == 15 || slots.any (fun p => p.1 == t.slot)))
  let mk (o : Option (Nat × Bool × Bool)) (t : PathSet) (prev : List PathRec) (fresh : Bool) : Draft :=
    { locker := i, prio := x.prio, maxPaths := x.maxPaths, origin := o, set := t, prev := prev, fresh := fresh, hold := late }
  let old := carried.map (fun t =>
    let bit := slots.any (fun p => p.1 == t.slot && p.2)
    let t1 : PathSet := { t with shelfIn := bit, jumpIn := t.jumpIn && !jumpEnd && !jump, jumpOut := t.jumpOut || jump }
    let moves := evaluated && !t1.jumpOut && !(x.shelf && !bit && slots.length == 2)
    mk (some (t.slot, t.jumpIn, t.jumpOut)) (if moves then { t1 with target := x.tgt, dir := x.dir } else t1)
      (t.paths.filter (fun r => !r.leave)) (evaluated && !t1.jumpOut))
  let missing := need.filter (fun p => jump || !carried.any (fun t => t.slot == p.1 && !t.jumpOut))
  let new := missing.map (fun p =>
    mk none { slot := p.1, shelfIn := p.2, jumpIn := jump, target := x.tgt, dir := x.dir } [] true)
  if late then old else if evaluated || x.tgt.mode = 3 then old ++ new else old

/-- A draft with its candidates: evaluated, taken from the fields of a DIRECT locker, or those of its last
evaluation (R142–R146, R156). -/
def State.fill (s : State) (air : List (Int × Int)) (bad : Nat → Nat → Nat → Bool) (l : Locker) (d : Draft) : Draft :=
  if d.set.target.mode = 3 then
    { d with set := { d.set with cands := if d.set.jumpOut ∨ d.hold then d.set.cands else directCands l.cfg d.set.target } }
  else if d.fresh then
    let g := s.geoImg d.set.slot
    let env := s.geoEnv (s.image d.set.slot) air
    let cs := floorCull env.floor (candidates env g (bad d.locker d.set.slot) d.set.target d.set.dir)
    { d with set := { d.set with cands := cs, eFull := energy g cs } }
  else d

/-- A path has a record that goes on. -/
def Draft.has (d : Draft) (sp : Nat) : Bool := d.prev.any (fun r => r.speaker == sp)

/-- The hold of a pruned path: the frame up to which it stays out; 0, a hold that is over (R159). -/
def holdOf (holds : List ((Nat × Nat × Nat) × Nat)) (d : Draft) (c : Cand) : Option Nat :=
  (holds.find? (fun h => h.1 == (d.locker, d.set.num, c.speaker))).map (fun h => h.2)

/-- R156, R159: the candidates that are kept before the budget applies, those that may re-enter, and those trimmed. -/
def Draft.trim (holds : List ((Nat × Nat × Nat) × Nat)) (d : Draft) : Draft × List Cand :=
  let cs := sortBy candBefore d.set.cands
  let top := cs.take d.maxPaths
  let cut := cs.drop d.maxPaths
  ({ d with keep := top.filter (fun c => d.has c.speaker || (holdOf holds d c).isNone),
            outs := if d.hold then [] else top.filter (fun c => !d.has c.speaker && holdOf holds d c == some 0),
            cut := if d.fresh then cut.length else (cut.filter (fun c => d.has c.speaker)).length }, cut)

/-- Leavers that find room in the fade allowance; one that does not stays behind. -/
def takeFades : List PathRec → Nat → List PathRec × List PathRec × Nat
  | [], room => ([], [], room)
  | r :: rs, room =>
    if r.lost then takeFades rs room
    else if r.cost ≤ room then
      let (a, b, m) := takeFades rs (room - r.cost)
      (r :: a, b, m)
    else
      let (a, b, m) := takeFades rs room
      (a, r :: b, m)

/-- R157: paths whose speaker is no longer a candidate leave first. -/
def fadeGone : List (Draft × List Cand) → Nat → List (Draft × List Cand) × Nat
  | [], room => ([], room)
  | (d, cut) :: r, room =>
    let gone := d.prev.filter (fun p => !d.set.cands.any (fun c => c.speaker == p.speaker))
    let (a, _, m) := takeFades gone room
    let (ds, m1) := fadeGone r m
    (({ d with fade := a }, cut) :: ds, m1)

/-- R157: then trimmed paths; one that finds no room stays kept. -/
def fadeTrimmed : List (Draft × List Cand) → Nat → List Draft × Nat
  | [], room => ([], room)
  | (d, cut) :: r, room =>
    let trimmed := d.prev.filter (fun p => cut.any (fun c => c.speaker == p.speaker))
    let (a, b, m) := takeFades trimmed room
    let (ds, m1) := fadeTrimmed r m
    let stay := cut.filter (fun c => b.any (fun p => p.speaker == c.speaker))
    ({ d with fade := d.fade ++ a, keep := d.keep ++ stay, cut := d.cut - stay.length } :: ds, m1)

/-- The cost of a kept candidate (R157). -/
def State.candCost (s : State) (d : Draft) (c : Cand) : Nat :=
  if d.set.slot ≠ 15 ∧ (spkRec (s.geoImg d.set.slot) c.speaker).interp8 then 2 else 1

/-- The rivals among some candidates of a draft (R158); `w` is its weight at F + 128. -/
def State.rivals (s : State) (w : Int) (d : Draft) (cs : List Cand) : List Rival :=
  let rs := cs.map (fun c =>
    ({ locker := d.locker, set := d.set.num, speaker := c.speaker, prio := d.prio,
       gain := (rdiv (c.trimmed * w) (2 ^ 22)).natAbs, cost := s.candCost d c, cont := d.has c.speaker, top := false } : Rival))
  match sortBy (fun a b => pruneBefore b a) rs with
  | [] => []
  | t :: _ => rs.map (fun r => if r.speaker = t.speaker then { r with top := true } else r)

/-- Paths re-enter in order until one does not fit (R159). -/
def reenter (budget : Nat) : List Rival → Nat → List Rival
  | [], _ => []
  | r :: rs, kept => if kept + r.cost ≤ budget then r :: reenter budget rs (kept + r.cost) else []

/-- A draft with the paths that re-enter. -/
def Draft.back (rs : List Rival) (d : Draft) : Draft :=
  let mine := d.outs.filter (fun c => rs.any (fun r => r.locker == d.locker && r.set == d.set.num && r.speaker == c.speaker))
  { d with keep := d.keep ++ mine }

/-- A draft without the paths pruned from it. -/
def Draft.cutBy (ps : List Rival) (d : Draft) : Draft :=
  let mine := ps.filter (fun r => r.locker == d.locker && r.set == d.set.num)
  let out (sp : Nat) : Bool := mine.any (fun r => r.speaker == sp)
  { d with keep := d.keep.filter (fun c => !out c.speaker),
           fade := d.fade ++ d.prev.filter (fun p => out p.speaker && !p.lost) }

/-- The kept paths of a set differ from those of the frame before. -/
def Draft.changed (d : Draft) : Bool :=
  d.keep.any (fun c => !d.has c.speaker) || d.prev.any (fun p => !d.keep.any (fun c => c.speaker == p.speaker))

/-- R154: the normaliser gain of a draft; the flag says that it was limited now. DEDUCED (assumption 18): a set that holds (R135) keeps its
gains, though paths of it are pruned. -/
def State.normalise (s : State) (air : List (Int × Int)) (d : Draft) : Draft × Bool :=
  if d.set.target.mode = 3 ∨ d.hold ∨ ¬(d.fresh ∨ d.changed ∨ d.set.gnHeld) then (d, false)
  else
    let img := s.image d.set.slot
    let env := s.geoEnv img air
    let kept := energy (s.geoImg d.set.slot) d.keep
    let (db, lim, held) := normDb env (sectionImg img 3) d.set.target.pos (d.origin.map (fun _ => d.set.gnDb)) d.set.eFull kept
    ({ d with set := { d.set with gnDb := db, gnHeld := held, limited := lim } }, lim)

/-- R152, R153: the targets of a draft's paths, and its delays clamped anew. `moved`: the zones whose air changed (R151); `stale`, a
refresh that is late or that the set does not take. -/
def State.aims (s : State) (air : List (Int × Int)) (moved : Nat → Bool) (stale : Bool) (d : Draft) : List PathAim × Nat × Bool :=
  let g := s.geoImg d.set.slot
  let env := s.geoEnv (s.image d.set.slot) air
  let gn := gnLinear d.set.gnDb
  let one (c : Cand) : PathAim × Nat × Bool :=
    let old := d.prev.find? (fun r => r.speaker == c.speaker && !r.lost)
    if d.set.target.mode = 3 then
      ({ speaker := c.speaker, kind := 2, bus := d.set.target.firstBus + c.speaker, delay := 0, gain := c.gain, tilt := 0,
         dist := 0, tabTilt := 0, leave := false }, 0, false)
    else
      let (a, cl) := pathAim env g gn c
      match old with
      | some r =>
        if d.hold ∨ stale then
          ({ a with delay := r.dStart + r.dDelta, tilt := r.tEnd.toNat, gain := if d.hold then r.gEnd else a.gain }, 0, cl)
        else (a, b2n (cl && (d.fresh || moved (spkRec g c.speaker).zone)), cl)
      | none => (a, b2n cl, cl)
  let ks := d.keep.map one
  let fs := d.fade.map (fun r =>
    ({ speaker := r.speaker, kind := r.kind, bus := r.bus, delay := r.dStart + r.dDelta, gain := 0, tilt := r.tEnd.toNat,
       dist := r.dist, tabTilt := r.tabTilt, leave := true } : PathAim))
  (ks.map (fun k => k.1) ++ fs, (ks.map (fun k => k.2.1)).sum, ks.any (fun k => k.2.2))

/-- The report of R161 for a locker's drafts, newest set last. -/
def reportOf (oog late : Bool) (ds : List (Draft × Bool)) (kept : Draft → Int) : GeoReport :=
  let full := (ds.map (fun d => d.1.set.eFull)).sum
  let left := (ds.map (fun d => kept d.1)).sum
  { kept := (ds.map (fun d => d.1.keep.length)).sum,
    pruned := (ds.map (fun d => d.1.set.cands.length - (d.1.keep.filter (fun c => d.1.set.cands.contains c)).length)).sum,
    share := if full ≤ 0 then 0 else min 65535 (rdiv ((full - left) * 65536) full).toNat,
    late := late, oog := oog, limited := ds.any (fun d => d.1.set.limited), clamped := ds.any (fun d => d.2),
    norm := match ds.getLast? with | some d => d.1.set.gnDb | none => 0 }

/-- The target of a locker lies outside the grid of the newest shelf (R143). -/
def State.oogOf (s : State) (slots : List (Nat × Bool)) (x : GeoInput) : Bool :=
  match slots.getLast? with
  | some p => x.tgt.mode != 1 && x.tgt.mode != 3 && outOfGrid (s.geoImg p.1) x.tgt.pos
  | none => false

/-! ### Staging (R133 step 4, R136) -/

/-- The lockers whose path sets a change of the geometry's inputs touches; `none`: all of them. -/
def Change.geoTouches : Change → Option (List Nat)
  | .objGeo l _ _ => some [l]
  | .objPos ups _ => some (ups.map (fun u => u.locker))
  | _ => none

/-- The fields that a member's changes give a locker, else its own. -/
def State.memberTarget (s : State) (m : Member) (i : Nat) : GeoTarget :=
  let own := (s.locker i).geoTarget
  match (m.chgs.filterMap (fun c => match c with
    | .objGeo l c _ => if l = i then some c else none
    | _ => none)).getLast? with
  | some c => { own with mode := c.mode, spread := c.spread, firstBus := c.firstBus, busCount := c.busCount }
  | none => own

/-- What staging a member costs (R136): its lockers' evaluations on the shelves that they have sets of; for a switch, every enabled
locker's on the new shelf. -/
def State.stageNeed (s : State) (e : Epoch) (m : Member) : Nat × Nat :=
  let slots : List Nat := match m.switch with
    | some w => [w.target]
    | none => (s.frameSlots e.m).map (fun p => p.1)
  let mine : List Nat := match m.switch with
    | some _ => s.lockers.map (fun p => p.1)
    | none => ((m.chgs.filterMap Change.geoTouches).flatten).eraseDups
  let costs := ((mine.filter (fun i => (s.locker i).geoOn && (s.memberTarget m i).mode != 3)).map (fun i =>
    slots.map (fun t => evalCost (s.geoImg t) (s.memberTarget m i)))).flatten
  ((costs.map (fun c => c.1)).sum, (costs.map (fun c => c.2)).sum)

/-- The members whose path sets are to be computed, in the order in which their epochs were sealed: epoch and place. -/
def State.stageQueue (s : State) : List (Nat × Nat) :=
  ((sortBy (fun a b => decide (a.order ≤ b.order)) (s.epochs.filter (fun e => e.st == .sealed || e.st == .waiting))).map (fun e =>
    (e.members.zipIdx.filter (fun p => p.1.geo && !p.1.staged)).map (fun p => (e.order, p.2)))).flatten

/-- One member takes of the capacity that is left what its staging still needs (R136). -/
def State.stageOne (s : State) (q : Nat × Nat) : State :=
  match s.epochs.find? (fun e => e.order == q.1) with
  | none => s
  | some e =>
    match e.members[q.2]? with
    | none => s
    | some m =>
      let n := s.stageNeed e m
      let l := s.geo.left
      let c := min l.1 (n.1 - m.paid.1)
      let d := min l.2 (n.2 - m.paid.2)
      let s1 : State := { s with geo := { s.geo with left := (l.1 - c, l.2 - d) } }
      s1.setEpoch { e with members := e.members.set q.2 { m with paid := (m.paid.1 + c, m.paid.2 + d) } }

/-- Step 4 of R133: staging takes whatever capacity the frame has left. -/
def State.stageWork (s : State) : State := s.stageQueue.foldl State.stageOne s

/-- The evaluations of a member's path sets are done (R136). -/
def State.stagePaid (s : State) (e : Epoch) (m : Member) : Bool :=
  let n := s.stageNeed e m
  decide (n.1 ≤ m.paid.1) && decide (n.2 ≤ m.paid.2)

/-- The deadline of a frame at MSC F + 16: lateness, then selection (R133–R135, R153–R160). -/
def State.evaluateGeo (s00 : State) (x : GeometryInput) : State :=
  let s0 := s00.stageWork
  match s0.geo.frozen with
  | [] => s0
  | fr :: later =>
    let f := fr.frame
    let r96 := s0.clock.media.rate96
    let (fv, s) := s0.draw
    let slots := s.frameSlots f
    -- R134: what DRAM pauses remove is at most 7 corner reads a microsecond
    let cap := cornerCap r96 - (clampI 0 ((7 * x.stallUs : Nat) : Int) fv).toNat
    let isLate (i : Nat) : Bool := (s.locker i).late
    let work := fr.inputs.filter (fun p => p.2.tgt.mode != 3 && (p.2.eval || isLate p.1))
    let order := work.filter (fun p => isLate p.1) ++
      sortBy (fun a b => decide (b.2.prio < a.2.prio) || (a.2.prio == b.2.prio && decide (a.1 ≤ b.1)))
        (work.filter (fun p => !isLate p.1))
    let (fit, late, uc, ud) := takeFit (s.evalNeed slots) order cap (directCap r96)
    -- R151: refreshes of the lockers that are not evaluated
    let moved (z : Nat) : Bool := fr.prev.getD z (0, 0) != fr.air.getD z (0, 0)
    let touched (t : PathSet) : Nat :=
      if t.past ∨ t.slot = 15 then 0 else (t.paths.filter (fun r => !r.leave && moved (spkRec (s.geoImg t.slot) r.speaker).zone)).length
    let idle := fr.inputs.filter (fun p => !fit.contains p.1 && !late.contains p.1 && p.2.tgt.mode != 3)
    let refresh := (idle.map (fun p => (p.1, (((s.locker p.1).sets).map touched).sum))).filter (fun p => p.2 != 0)
    let (_, lateR, ur) := takeRefresh refresh (directCap r96 - ud)
    let allLate := late ++ lateR
    -- R143
    let bad (i slot k : Nat) : Bool := x.recordErr.any (fun r => r.1 == i && (slots.getD r.2.1 (16, false)).1 == slot && r.2.2 == k)
    let errs := (x.recordErr.eraseDups.filter (fun r => fit.contains r.1 && decide (r.2.1 < slots.length) &&
      (tget fr.inputs r.1).any (fun y => y.tgt.mode != 1 && decide (r.2.2 < (evalCost (fun _ => 0) y.tgt).1)))).length
    let outs := (fit.map (fun i => match tget fr.inputs i with
      | some y => (slots.map (fun p => pointsOut (s.geoImg p.1) y.tgt)).sum
      | none => 0)).sum
    -- drafts
    let jumpNow (i : Nat) (y : GeoInput) : Bool := y.jump || (s.locker i).jumpDue
    let planned (i : Nat) : Option (Nat × Nat) := (tget fr.inputs i).bind (fun y => y.plan)
    let drafts := (fr.inputs.map (fun p =>
      (lockerDrafts p.1 f (s.locker p.1) p.2 slots (fit.contains p.1) (late.contains p.1) (jumpNow p.1 p.2 && !late.contains p.1)).map
        (s.fill fr.air bad (s.locker p.1)))).flatten
    let renum := drafts.map (fun d => (d.locker, (match d.origin with
      | some (sl, ji, _) => 2 * b2n ((((s.locker d.locker).sets).find? (fun t => t.slot == sl && t.jumpIn == ji)).map (fun t => t.shelfIn) == some true) + b2n ji
      | none => d.set.num), d.set.num))
    let carried := s.geo.holds.map (fun h =>
      match renum.find? (fun q => q.1 == h.1.1 && q.2.1 == h.1.2.1) with
      | some q => ((h.1.1, q.2.2, h.1.2.2), h.2)
      | none => h)
    let (d1, room1) := fadeGone (drafts.map (Draft.trim carried)) (fadeAllowance r96)
    let (d2, room2) := fadeTrimmed d1 room1
    let xf := s.xfadeAt f
    let jumpOf (d : Draft) : Option (Nat × Nat) :=
      if d.set.jumpIn ∨ d.set.jumpOut then
        (match d.origin with
         | some (_, ji, jo) => if ji = d.set.jumpIn ∧ jo = d.set.jumpOut then (s.locker d.locker).jump else planned d.locker
         | none => planned d.locker)
      else none
    let weight (d : Draft) : Int := setWeight xf (jumpOf d) d.set (f + 128)
    let rivals := sortBy pruneBefore ((d2.map (fun d => s.rivals (weight d) d d.keep)).flatten)
    let cost := (rivals.map (fun r => r.cost)).sum
    let waiting := sortBy (fun a b => pruneBefore b a) ((d2.map (fun d =>
      (s.rivals (weight d) d (d.keep ++ d.outs)).filter (fun r => d.outs.any (fun c => c.speaker == r.speaker)))).flatten)
    let back := reenter fr.budget waiting cost
    let (pruned, kept, _) := prune fr.budget rivals (cost + (back.map (fun r => r.cost)).sum) room2
    let d3 := d2.map (fun d => (d.back back).cutBy pruned)
    let normed := d3.map (s.normalise fr.air)
    let limits := (normed.filter (fun p => p.2)).length
    let done := normed.map (fun p =>
      let a := s.aims fr.air moved (lateR.contains p.1.locker || (fit.contains p.1.locker && !p.1.fresh)) p.1
      (p.1, a.1, a.2.1, a.2.2))
    let clamps := (done.map (fun p => p.2.2.1)).sum
    let planOf (i : Nat) (y : GeoInput) : GeoPlan :=
      let mine := done.filter (fun p => p.1.locker == i)
      let jumped := jumpNow i y && !late.contains i
      { sets := mine.map (fun p => { origin := p.1.origin, aims := p.2.1,
                                     set := { p.1.set with pruned := p.1.set.cands.length - p.1.keep.length, clampSeen := p.2.2.2 } }),
        jump := if jumped then y.plan else (s.locker i).jump, jumped := jumped,
        report := reportOf (s.oogOf slots y) (allLate.contains i) (mine.map (fun p => (p.1, p.2.2.2)))
          (fun d => energy (s.geoImg d.set.slot) d.keep) }
    let plans := fr.inputs.map (fun p => (p.1, planOf p.1 p.2))
    -- R135: a late jump waits for the frame that completes, and runs its full J from there
    let puts (i : Nat) (y : GeoInput) : Bool := late.contains i && jumpNow i y
    let shifted (i : Nat) (z : GeoInput) : GeoInput :=
      match tget fr.inputs i with
      | some y => if puts i y ∧ ¬z.jump then { z with plan := y.plan.map (fun j => (f + 128, j.2)) } else z
      | none => z
    let next := later.map (fun g => { g with inputs := tmap shifted g.inputs })
    let lockers := tmap (fun i (l : Locker) =>
      let lt := allLate.contains i
      match tget fr.inputs i with
      | none => l
      | some y =>
        if puts i y then
          { l with late := true, jumpDue := true,
                   jumpPlan := if next.any (fun g => (tget g.inputs i).any (fun z => z.jump)) then l.jumpPlan
                     else y.plan.map (fun j => (f + 128, j.2)) }
        else { l with late := lt, jumpDue := l.jumpDue && late.contains i }) s.lockers
    -- R159
    let until_ := f + 128 * max 1 (fieldOf (s.reg Reg.GEO_CFG) 4 4)
    let fresh := pruned.map (fun r => ((r.locker, r.set, r.speaker), until_))
    let same (h : (Nat × Nat × Nat) × Nat) (r : Rival) : Bool := h.1 == (r.locker, r.set, r.speaker)
    let waits (h : (Nat × Nat × Nat) × Nat) : Bool := h.2 != 0 || d3.any (fun d => d.locker == h.1.1 && d.set.num == h.1.2.1 &&
      (d.hold || d.outs.any (fun c => c.speaker == h.1.2.2)))
    let holds := carried.filter (fun h => !fresh.any (fun p => p.1 == h.1) && !back.any (same h) && waits h) ++ fresh
    let past := decide (fr.budget < kept)
    let out := decide (pruned ≠ []) || d3.any (fun d => d.set.cands.any (fun c => holds.any (fun h => h.1 == (d.locker, d.set.num, c.speaker))))
    let was (i : Nat) : GeoReport := (s.locker i).report
    let evs : List Fx :=
      fxBoth Reg.GEO_MEM_ERRS errs Reg.GEO_EVT 5 ++ fxCount Reg.GEO_OUT_OF_GRID outs ++
      fxCount Reg.GEO_DELAY_CLAMPS clamps ++ fxBoth Reg.GEO_NORM_LIMITS limits Reg.GEO_EVT 2 ++
      fxCount Reg.GEO_LATE_LOCKERS allLate.length ++ (if allLate = [] then [] else [.count Reg.GEO_LATE_FRAMES 1, .evt Reg.GEO_EVT 0]) ++
      fxCount Reg.GEO_PRUNED (pruned.length + (d3.map (fun d => d.cut)).sum) ++ (if pruned ≠ [] ∧ ¬s.geo.pruned then [.evt Reg.GEO_EVT 1] else []) ++
      (if past then [.evt Reg.GEO_EVT 6] else []) ++
      (if plans.any (fun p => p.2.report.oog && !(was p.1).oog) then [.evt Reg.GEO_EVT 3] else []) ++
      (if plans.any (fun p => p.2.report.clamped && !(was p.1).clamped) then [.evt Reg.GEO_EVT 4] else [])
    let geo : GeoSt := { s.geo with frozen := next, ready := some (f, plans), holds := holds, pruned := decide (pruned ≠ []), pruning := out,
                                    lateLast := decide (allLate ≠ []), past := past, budget := fr.budget, corners := uc,
                                    cornersHigh := max uc s.geo.cornersHigh, direct := ud + ur,
                                    left := (cap - uc, directCap r96 - ud - ur) }
    ({ s with lockers := lockers, geo := geo }).fxs evs

/-! ### Hand-over (R166, R173–R175) -/

/-- Largest delay step of R173. -/
def State.maxStep (s : State) : Nat := clampN 4096 65536 (fieldOf (s.reg Reg.PTH_DOPPLER) 0 17)

/-- A locker with the path sets of its plan; sets that the plan does not continue await their release. -/
def handLocker (maxStep : Nat) (p : GeoPlan) (ended : Bool) (l : Locker) : Locker :=
  let old := if ended then [] else l.sets
  let sets := p.sets.map (fun sp =>
    let prev := match sp.origin with
      | some (sl, ji, jo) => ((old.find? (fun t => !t.past && t.slot == sl && t.jumpIn == ji && t.jumpOut == jo)).map (fun t => t.paths)).getD []
      | none => []
    { sp.set with paths := handOver maxStep prev sp.aims })
  let out := old.filter (fun t => !t.past && !p.sets.any (fun sp => sp.origin == some (t.slot, t.jumpIn, t.jumpOut)))
  { l with sets := sets ++ out.map (fun t => { t with past := true }), jump := p.jump, report := p.report, releasing := l.releasing && !ended }

/-- The paths of a disabled locker are released at frame `f`: the ENABLE 0 ramp ended before it (R121). -/
def Locker.released (l : Locker) (f : Nat) : Bool := l.releasing && decide (l.wellEnd ≤ f)

/-- Paths of a locker that a test picks. -/
def Locker.paths (l : Locker) (q : PathRec → Bool) : List PathRec :=
  ((l.sets.filter (fun t => !t.past)).map (fun t => t.paths.filter q)).flatten

/-- The hand-over of the frame whose plans are ready, at MSC F + 32. -/
def State.handOver (s : State) : State :=
  match s.geo.ready with
  | none => s
  | some (f, plans) =>
    let ls := tmap (fun i (l : Locker) =>
      match tget plans i with
      | some p =>
        if l.released f ∧ l.pathsFrom < f then { l with sets := [], geoOn := false, releasing := false, jump := none, jumpPlan := none, report := {} }
        else if !l.geoOn || decide (f < l.pathsFrom) then { l with sets := [], jump := none, report := {} }
        else handLocker s.maxStep p (l.released f) l
      | none =>
        if l.released f then { l with sets := [], geoOn := decide (f < l.pathsFrom), releasing := false, jump := none, jumpPlan := none, report := {} }
        else if l.sets = [] then l else { l with sets := [], jump := none }) s.lockers
    let jumps := (plans.filter (fun p => p.2.jumped)).length
    let cl := (ls.filter (fun p => !(p.2.paths (fun r => r.clamped)).isEmpty)).map (fun p => p.1)
    let cost (q : PathRec → Bool) : Nat := (ls.map (fun p => ((p.2.paths q).map PathRec.cost).sum)).sum
    let geo : GeoSt := { s.geo with ready := none, frame := f, kept := cost (fun r => !r.leave), fading := cost (fun r => r.leave) }
    let path : PathSt := { s.path with clamping := !cl.isEmpty, lkClamped := cl, tiltEn := bitOf (s.reg Reg.PTH_CFG) 0, maxStep := s.maxStep }
    let more : List Fx := if cl.any (fun i => !s.path.lkClamped.contains i) then [.evt Reg.PTH_EVT 0] else []
    ({ s with lockers := ls, geo := geo, path := path }).fxs
      (fxCount Reg.OBJ_JUMPS jumps ++ fxCount Reg.PTH_DOPPLER_CLAMPS cl.length ++ more)

/-! ### Ends -/

/-- R131: the frame whose evaluation time is over is closed. -/
def execGeometryEvaluationDeadline (x : GeometryInput) (s : State) : Host.Outcome State Fault Refusal :=
  match s.geo.frozen with
  | [] => .next s
  | fr :: _ => .next (if s.piping && decide (fr.frame + 16 ≤ s.msc) then s.evaluateGeo x else s)

/-- R159: a hold of GEO_CFG.PRUNE_HOLD frames is over. -/
def execPruneHoldEnd (locker set speaker : Nat) (s : State) : Host.Outcome State Fault Refusal :=
  .next { s with geo := { s.geo with
    holds := s.geo.holds.map (fun h => if h.1 = (locker, set, speaker) ∧ h.2 ≤ s.msc then (h.1, 0) else h) } }

/-- R118: the render slot of the last block of a jump crossfade has ended. The set that remains lost its bit of SET at the hand-over
(R165). -/
def execJumpCrossfadeEnd (locker : Nat) (s : State) : Host.Outcome State Fault Refusal :=
  match tget s.lockers locker with
  | none => .next s
  | some l =>
    match l.jump with
    | none => .next s
    | some (f, j) =>
      .next (if f + j + 32 ≤ s.msc ∧ ¬s.boundary then
        s.setLocker locker { l with jump := none, sets := l.sets.filter (fun t => !t.jumpOut) }
      else s)

/-- R100: the render slot of the last block of a shelf crossfade has ended. The sets that remain lose their bit of SET at the next
hand-over (R165). -/
def execXfadeDone (s : State) : Host.Outcome State Fault Refusal :=
  match s.xfades with
  | [] => .next s
  | x :: rest =>
    .next (if x.m + x.len + 32 ≤ s.msc ∧ ¬s.boundary then
      let keep (t : PathSet) : Bool := t.slot == 15 || some t.slot != x.old
      let ls := tmap (fun _ (l : Locker) => { l with sets := l.sets.filter keep }) s.lockers
      let sh := match x.old with
        | some o => if (s.shelves.getD o {}).st = .fading then s.shelves.set o { s.shelves.getD o {} with st := .verified } else s.shelves
        | none => s.shelves
      ({ s with lockers := ls, xfades := rest, shelves := sh }).evt Reg.TT_EVT 5
    else s)

/-- The probe registers: DELAY, GAIN, TILT, STAT and the pipeline index of the sample. -/
def State.probeRegs (s : State) (d g t st p : Nat) : State :=
  let s1 := ((s.setReg Reg.PTH_PROBE_DELAY (word d)).setReg Reg.PTH_PROBE_GAIN (word g)).setReg Reg.PTH_PROBE_TILT (word t)
  ((s1.setReg Reg.PTH_PROBE_STAT (word st)).setReg Reg.PTH_PROBE_MSC_LO (word p)).setReg Reg.PTH_PROBE_MSC_HI (word (p / 2 ^ 32))

/-- A requested probe is taken at the first sample of the render slot that has begun since (PTH_PROBE_SEL). -/
def execProbeCapture (s : State) : Host.Outcome State Fault Refusal :=
  match s.path.probeFrom with
  | none => .next s
  | some m =>
    .next (if s.piping && decide (m ≤ s.msc) && !s.boundary then
      let sel := s.reg Reg.PTH_PROBE_SEL
      let p := s.msc / 16 * 16 - 32
      let j := p % 128
      let l := s.locker (fieldOf sel 0 10)
      let hit := (l.sets.filter (fun t => !t.past && t.num == fieldOf sel 26 2)).findSome? (fun t =>
        (t.paths.find? (fun r => r.bus == fieldOf sel 16 9)).map (fun r => (t, r)))
      let s1 : State := { s with path := { s.path with probeFrom := none } }
      match hit with
      | none => s1.probeRegs 0 0 0 1 0
      | some (t, r) =>
        let w := setWeight (s.xfadeAt p) l.jump t p
        let g := if r.kind = 2 then r.ramp.next.value else r.gainAt j
        s1.probeRegs (toField 24 (r.delayAt j)) (toField 24 (rdiv (g * w) (2 ^ 22))) (toField 16 (r.tiltAt j))
          (3 + 4 * r.kind + 16 * b2n r.enter + 32 * b2n r.leave + 64 * b2n r.clamped) p
    else s)

/-- R121: the ENABLE 0 ramp of a locker has ended. -/
def execLockerDisable (locker : Nat) (s : State) : Host.Outcome State Fault Refusal :=
  match tget s.lockers locker with
  | none => .next s
  | some l =>
    .next (if l.live && !l.cfg.enable && !l.gain.busy then s.setLocker locker { l.quieten with live := false, releasing := true } else s)

end Sys2Proof.Machine
end

