-- ==== Sys2Proof/Machine/Parse.lean ====
section
/-!
DEFINITION. The parameters of the commands and of the records of shelf sections, which share their layout:
lockers and positions (R114, R115, R120, R123), the speaker stage (R205–R207), corridor routes (R217).
A record is given as a function from the command's byte number to the byte; `none` is a value outside its
table.
-/
namespace Sys2Proof.Machine

/-- The bytes of a submission entry by their number in it (R349). -/
def entryByte (e : Submission) (o : Nat) : Byte := e.body.getD (o - 16) 0

/-- A list of bytes from its start. -/
def listByte (l : List Byte) (o : Nat) : Byte := l.getD o 0

/-- The bytes from `o` up to `o + n` are 0. -/
def zeroImg (b : Nat → Byte) (o n : Nat) : Bool := (List.range n).all (fun i => b (o + i) == 0)

/-- A list whose parts all parse. -/
def allSome {α : Type} : List (Option α) → Option (List α)
  | [] => some []
  | some a :: r => (allSome r).map (fun l => a :: l)
  | none :: _ => none

/-- No element stands twice. -/
def noDup {α : Type} [BEq α] : List α → Bool
  | [] => true
  | a :: r => !r.contains a && noDup r

/-- R104: a source that its table names. -/
def srcOk (s : Src) : Bool :=
  if s.kind = 0 then s.index == 0 && s.chan == 0
  else if s.kind = 1 then s.index < 64 && s.chan < 32
  else if s.kind = 2 then s.index < 256 && s.chan < 64
  else if s.kind = 3 then s.index < 2 && s.chan < 1024
  else if s.kind = 4 then s.index == 0 && s.chan < 128
  else s.kind == 5 && s.index == 0 && s.chan < 512

/-- R204, R217: a serial transmit slot or a transmit flow channel. -/
def destOk (d : Dest) : Bool :=
  if d.kind = 1 then d.index < 64 && d.chan < 32 else d.kind == 2 && d.index < 256 && d.chan < 64

/-- A ramp field of 0–2,000 ms or 0xFFFF, which asks for the default (R205, R206, R217). -/
def rampOk (ms : Nat) : Bool := ms ≤ 2000 || ms == 0xFFFF

/-! ### Lockers (R114, R115, R120, R123) -/

/-- OBJ_CONFIG, bytes 16–63 (R120): the locker, LATE_OK and its fields. -/
def parseLocker (fs : Nat) (b : Nat → Byte) : Option (Nat × Bool × LockerCfg) :=
  let n (o k : Nat) : Nat := imgNat b o k
  let flags := n 18 1
  let mode := n 19 1
  let src : Src := { kind := n 20 1, index := n 22 2, chan := n 24 2 }
  let gains := (List.range 8).map (fun k => n (48 + 2 * k) 2)
  let count := n 46 1
  let direct := if mode = 3
    then decide (1 ≤ count) && count ≤ 8 && n 44 2 + count ≤ 512 && gains.all codeOk && (gains.drop count).all (· == 0)
    else n 44 2 == 0 && count == 0 && gains.all (· == 0)
  let ok := n 16 2 < 1024 && flags < 8 && mode < 4 && srcOk src && n 21 1 < 8 && n 26 1 < 64 && zeroImg b 27 1 &&
    n 28 4 ≤ 2 * fs && codeOk (n 32 2) && n 34 2 ≤ 2000 && decide (1 ≤ n 36 2) && n 36 2 ≤ 512 && zeroImg b 38 2 &&
    n 40 4 ≤ 64 * 65536 && direct && zeroImg b 47 1
  if ok then
    some (n 16 2, (flags / 2) % 2 == 1,
      { enable := flags % 2 == 1, invert := (flags / 4) % 2 == 1, mode := mode, src := src, prio := n 21 1, decor := n 26 1,
        preDelay := n 28 4, gain := n 32 2, ramp := n 34 2, maxPaths := n 36 2, spread := n 40 4, firstBus := n 44 2,
        busCount := count, busGain := gains })
  else none

/-- A position update of 16 bytes (R114), polar ones converted (R115). -/
def parseUpdate (b : Nat → Byte) : Option PosUpdate :=
  let flags := imgNat b 3 1
  let fmt := imgNat b 2 1
  let x := imgInt b 4 4
  let y := imgInt b 8 4
  let z := imgInt b 12 4
  let ok := imgNat b 0 2 < 1024 && flags < 3 &&
    (fmt == 0 || (fmt == 1 && decide (-11796480 ≤ x ∧ x ≤ 11796480 ∧ -5898240 ≤ y ∧ y ≤ 5898240 ∧ 0 ≤ z ∧ z ≤ 32767 * 65536)))
  if ok then
    some { locker := imgNat b 0 2, force := flags == 1, never := flags == 2, pos := if fmt = 0 then ⟨x, y, z⟩ else polar x y z }
  else none

/-- `n` biquad records of 24 bytes at `o` (R123). -/
def parseBiquads (b : Nat → Byte) (o n : Nat) : Option (List Biquad) :=
  allSome ((List.range n).map (fun k =>
    let r := o + 24 * k
    if imgNat b (r + 20) 4 < 2 then
      some { b0 := imgInt b r 4, b1 := imgInt b (r + 4) 4, b2 := imgInt b (r + 8) 4, a1 := imgInt b (r + 12) 4,
             a2 := imgInt b (r + 16) 4, bypass := imgNat b (r + 20) 4 == 1 }
    else none))

/-! ### Speaker stage (R205–R207) -/

/-- A node record of 8 bytes: input, feed, code. -/
def parseNode (b : Nat → Byte) : Option (Nat × Nat × Nat) :=
  if imgNat b 0 2 < 640 ∧ imgNat b 2 2 < 512 ∧ codeOk (imgNat b 4 2) ∧ zeroImg b 6 2
  then some (imgNat b 0 2, imgNat b 2 2, imgNat b 4 2) else none

/-- MATRIX_SET OP 1, bytes 20–29. -/
def parseAux (b : Nat → Byte) : Option (Nat × AuxCfg) :=
  let src : Src := { kind := imgNat b 22 1, index := imgNat b 24 2, chan := imgNat b 26 2 }
  let fl := imgNat b 23 1
  if imgNat b 20 2 < 128 ∧ srcOk src ∧ (fl = 0 ∨ fl = 1 ∨ fl = 4 ∨ fl = 5) ∧ codeOk (imgNat b 28 2)
  then some (imgNat b 20 2, { enable := fl % 2 == 1, invert := (fl / 4) % 2 == 1, src := src, code := imgNat b 28 2 }) else none

/-- FEED_CONFIG OP 0, bytes 20–39. -/
def parseFeed (fs : Nat) (b : Nat → Byte) : Option (Nat × FeedBasic) :=
  let n (o k : Nat) : Nat := imgNat b o k
  let fl := n 22 1
  let d (t i c : Nat) : Dest := if t = 0 then {} else { kind := t, index := i, chan := c }
  let d0 := d (n 30 1) (n 32 2) (n 34 2)
  let d1 := d (n 31 1) (n 36 2) (n 38 2)
  let ok := n 20 2 < 512 && fl < 32 && (fl / 2) % 2 == 0 && zeroImg b 23 1 && n 24 4 ≤ 2 * fs && codeOk (n 28 2) &&
    (d0.kind == 0 || destOk d0) && (d1.kind == 0 || destOk d1) && (d0.kind == 0 || d0 != d1)
  if ok then
    some (n 20 2, { mute := fl % 2 == 1, invert := (fl / 4) % 2 == 1, sumIn := (fl / 8) % 2 == 1, sumOut := (fl / 16) % 2 == 1,
                    align := n 24 4, gain := n 28 2, dest0 := d0, dest1 := d1 })
  else none

/-- FEED_CONFIG OP 2, bytes 22–38 (R200, R201, R206). -/
def parsePilot (fs : Nat) (b : Nat → Byte) : Option PilotCfg :=
  let n (o k : Nat) : Nat := imgNat b o k
  let fl := n 22 1
  let sup := (fl / 4) % 2 == 1
  let ty := n 23 1
  let port := decide (n 30 2 < 64) && decide (n 32 2 < 32)
  let flow := decide (n 30 2 < 256) && decide (n 32 2 < 64)
  let sok := if ty = 0 then !sup && (port || flow) else (ty == 1 && port) || (ty == 2 && flow)
  let fq := n 24 4
  if fl < 8 ∧ sok ∧ 16 ≤ fq ∧ fq + 16 ≤ 8 * fs ∧ codeOk (n 28 2) ∧ codeOk (n 34 2) ∧ codeOk (n 36 2) ∧ n 34 2 ≤ n 36 2 ∧ 1 ≤ n 38 1 then
    some { enable := fl % 2 == 1, inMute := (fl / 2) % 2 == 1, supEn := sup, supType := ty, freq := fq, level := n 28 2,
           supIndex := n 30 2, supChan := n 32 2, lo := n 34 2, hi := n 36 2, windows := n 38 1 }
  else none

/-- LIMITER_SET, bytes 20–35 (R207). -/
def parseLimiter (b : Nat → Byte) : Option LimiterCfg :=
  let n (o : Nat) : Nat := imgNat b o 2
  let span (lo hi v : Nat) : Bool := decide (lo ≤ v) && decide (v ≤ hi)
  if codeOk (n 20) ∧ n 22 ≤ 480 ∧ span 1 2000 (n 24) ∧ codeOk (n 26) ∧ span 1 6000 (n 28) ∧ span 10 10000 (n 30) ∧
      span 10 60000 (n 32) ∧ span 1 1920 (n 34) then
    some { peakThr := n 20, look := n 22, peakRel := n 24, thermThr := n 26, tau := n 28, att := n 30, rel := n 32, floor := n 34 }
  else none

/-! ### Corridor routes (R217) -/

/-- CORRIDOR_SET, bytes 16–63: the route, LATE_OK and its fields. -/
def parseRoute (b : Nat → Byte) : Option (Nat × Bool × RouteCfg) :=
  let n (o k : Nat) : Nat := imgNat b o k
  let fl := n 17 1
  let src : Dest := { kind := n 20 1, index := n 22 2, chan := n 24 2 }
  let count := n 21 1
  let dests := (List.range count).map (fun k =>
    ({ kind := n (28 + 4 * k) 1, index := n (30 + 4 * k) 2, chan := n (29 + 4 * k) 1 } : Dest))
  let ok := n 16 1 < 32 && fl < 16 && rampOk (n 18 2) && (if src.kind = 0 then decide (src.index < 256) && decide (src.chan < 64) else destOk src) &&
    count ≤ 4 && codeOk (n 26 2) && dests.all destOk && zeroImg b (28 + 4 * count) (16 - 4 * min count 4) && zeroImg b 44 20
  if ok then
    some (n 16 1, (fl / 2) % 2 == 1,
      { enable := fl % 2 == 1, invert := (fl / 4) % 2 == 1, exempt := (fl / 8) % 2 == 1, ramp := n 18 2,
        src := if src.kind = 0 then {} else src, gain := n 26 2, dests := dests })
  else none

/-- The default ramp SPK_CFG.RAMP (R206). -/
def State.spkRamp (s : State) : Nat := min 2000 (fieldOf (s.reg Reg.SPK_CFG) 0 11)
def State.rampMs (s : State) (ms : Nat) : Nat := if ms = 0xFFFF then s.spkRamp else ms

/-! ### Who holds a destination (R204, R216) -/

/-- Changes that are to come: those that wait for their index, and those of epochs that have not committed. -/
def State.toCome (s : State) : List Change :=
  s.sched.map Sched.chg ++ (s.epochs.map (fun e => (e.members.map Member.chgs).flatten)).flatten

/-- Destinations that feeds other than those skipped hold. -/
def State.feedHeld (s : State) (skip : List Nat) : List Dest :=
  ((s.feeds.filter (fun p => !skip.contains p.1)).map (fun p => [p.2.cfg.dest0, p.2.cfg.dest1])).flatten

/-- Destinations that routes other than those skipped hold. -/
def State.routeHeld (s : State) (skip : List Nat) : List Dest :=
  ((s.routes.filter (fun p => !skip.contains p.1)).map (fun p => p.2.outs)).flatten

/-- Destinations that feeds other than those skipped hold or are to hold. -/
def State.feedDests (s : State) (skip : List Nat) : List Dest :=
  s.feedHeld skip ++
  (s.toCome.map (fun c => match c with
    | .feedOut f b _ => if skip.contains f then [] else [b.dest0, b.dest1]
    | _ => [])).flatten

/-- Destinations that routes other than those skipped hold or are to hold. -/
def State.routeDests (s : State) (skip : List Nat) : List Dest :=
  s.routeHeld skip ++
  (s.toCome.map (fun c => match c with
    | .route r b _ => if skip.contains r then [] else b.dests
    | _ => [])).flatten

/-- A feed may take these destinations. -/
def State.feedMayHold (s : State) (f : Nat) (c : FeedBasic) : Bool :=
  let held := (s.feedDests [f] ++ s.routeDests []).filter (fun d => d.kind != 0)
  !held.contains c.dest0 && !held.contains c.dest1

/-- A route may take these destinations. -/
def State.routeMayHold (s : State) (r : Nat) (c : RouteCfg) : Bool :=
  let held := (s.feedDests [] ++ s.routeDests [r]).filter (fun d => d.kind != 0)
  c.dests.all (fun d => !held.contains d)

end Sys2Proof.Machine
end

