-- ==== Sys2Proof/Machine/ShelfImg.lean ====
section
/-!
DEFINITION. Shelf images: verification (R93–R95 and the sections' own checks, R124, R141, R149, R155,
R209–R211, R219) and the changes a shelf's sections ask for when it becomes active (R98).
-/
namespace Sys2Proof.Machine

/-- The largest image of a slot (R90). -/
def slotMax (slot : Nat) : Nat := if slot < 4 then 2 ^ 30 else if slot < 8 then 96 * 2 ^ 20 else 16 * 2 ^ 20

def knownTypes : List Nat := [1, 2, 3, 0x10, 0x20, 0x21, 0x22, 0x30, 0xF0]

/-- A part of an image from an offset on. -/
def imgAt (p : Nat → Byte) (o : Nat) : Nat → Byte := fun k => p (o + k)
/-- A record laid out as the bytes of a command from byte `from_` on. -/
def recAt (p : Nat → Byte) (o from_ : Nat) : Nat → Byte := fun k => p (o + (k - from_))

/-! ### The sections' checks -/

def geoSize (p : Nat → Byte) : Bool :=
  (List.range 3).all (fun k => let v := imgNat p (20 + 4 * k) 4; decide (0x1000 ≤ v) && v ≤ 0x400000)

/-- R138 for one speaker record. -/
def speakerOk (p : Nat → Byte) (k : Nat) : Bool :=
  let r := spkRec p k
  r.bus < 512 && r.zone < 8 && imgNat p (64 + 32 * k + 3) 1 < 8 && r.offset ≤ 2000000000 && codeOk r.trim && r.ref != 0 &&
  decide (-23040 ≤ r.az ∧ r.az ≤ 23040 ∧ -11520 ≤ r.el ∧ r.el ≤ 11520) && decide (1 ≤ r.cover) && r.cover ≤ 180 && r.law < 3 &&
  zeroImg p (64 + 32 * k + 30) 2

/-- Strictly ascending. -/
def ascending : List Nat → Bool
  | a :: b :: r => decide (a < b) && ascending (b :: r)
  | _ => true

/-- R141. -/
def geometryOk (slot : Nat) (p : Nat → Byte) (len : Nat) : Bool :=
  let nx := imgNat p 0 2
  let ny := imgNat p 2 2
  let nz := imgNat p 4 2
  let spk := spkCount p
  let vox := nx * ny * nz
  let ents := imgNat p 32 4
  let idx := upTo 64 (64 + 32 * spk)
  let ent := upTo 64 (idx + 8 * vox)
  let dims := decide (1 ≤ nx ∧ nx ≤ 256 ∧ 1 ≤ ny ∧ ny ≤ 256 ∧ 1 ≤ nz ∧ nz ≤ 64 ∧ 1 ≤ spk ∧ spk ≤ 512)
  dims && geoSize p && ents ≤ 33554432 && imgNat p 36 4 == 64 && imgNat p 40 4 == idx && imgNat p 44 4 == ent &&
  zeroImg p 48 16 && len == ent + 16 * ents && zeroImg p (64 + 32 * spk) (idx - (64 + 32 * spk)) &&
  zeroImg p (idx + 8 * vox) (ent - (idx + 8 * vox)) &&
  (List.range spk).all (speakerOk p) && noDup ((List.range spk).map (fun k => (spkRec p k).bus)) &&
  (List.range vox).all (fun v =>
    let o := idx + 8 * v
    let n := imgNat p (o + 4) 1
    n ≤ 64 && zeroImg p (o + 5) 3 && (n == 0 || imgNat p o 4 + n ≤ ents) &&
    ascending ((voxel p v).map (fun e => e.1))) &&
  (List.range ents).all (fun i =>
    let sp := imgNat p (ent + 16 * i) 2
    sp < spk && !(spkRec p sp).direct && zeroImg p (ent + 16 * i + 10) 6) &&
  (slot != 8 || (ents ≤ 65536 && vox ≤ 65536))

/-- R149. -/
def airOk (p : Nat → Byte) (len : Nat) : Bool :=
  let fl := imgNat p 0 1
  fl < 2 && zeroImg p 1 15 && len == (if fl = 1 then 432 else 80) &&
  (List.range 8).all (fun z =>
    let t := imgInt p (16 + 8 * z) 2
    decide (-10240 ≤ t ∧ t ≤ 15360) && imgNat p (18 + 8 * z) 2 ≤ 25600 && zeroImg p (20 + 8 * z) 4)

/-- R155. -/
def normaliserOk (slot : Nat) (p : Nat → Byte) (len : Nat) : Bool :=
  let nx := imgNat p 0 2
  let ny := imgNat p 2 2
  let nz := imgNat p 4 2
  let n := nx * ny * nz
  decide (1 ≤ nx ∧ nx ≤ 64 ∧ 1 ≤ ny ∧ ny ≤ 64 ∧ 1 ≤ nz ∧ nz ≤ 64) && zeroImg p 6 2 && geoSize p && zeroImg p 32 32 &&
  len == 64 + 2 * n && (List.range n).all (fun i => let c := imgNat p (64 + 2 * i) 2; decide (1 ≤ c) && c ≤ 2304) &&
  (slot != 8 || n ≤ 4096)

/-- The records of the OBJECT section (R124). -/
def objectRecs (fs : Nat) (p : Nat → Byte) : Option (List (Nat × LockerCfg × Option PosUpdate)) :=
  allSome ((List.range (imgNat p 0 4)).map (fun k =>
    let o := 16 + 64 * k
    match parseLocker fs (recAt p o 16) with
    | some (l, false, c) =>
      if imgNat p (o + 50) 1 = 0xFF then some (l, c, none)
      else match parseUpdate (imgAt p (o + 48)) with
        | some u => if u.locker = l then some (l, c, some { u with force := false, never := true, shelf := true }) else none
        | none => none
    | _ => none))

def objectOk (fs : Nat) (p : Nat → Byte) (len : Nat) : Bool :=
  let n := imgNat p 0 4
  decide (1 ≤ n) && n ≤ 1024 && imgNat p 4 2 == 64 && zeroImg p 6 10 && len == 16 + 64 * n &&
  (match objectRecs fs p with
   | some rs => noDup (rs.map (fun r => r.1))
   | none => false)

def matrixNodes (p : Nat → Byte) : Option (List (Nat × Nat × Nat)) :=
  allSome ((List.range (imgNat p 0 4)).map (fun k => parseNode (imgAt p (16 + 8 * k))))

/-- An aux record of 16 bytes (R209): AUX at bytes 0–1, MATRIX_SET bytes 22–29 at bytes 2–9. -/
def auxRec (p : Nat → Byte) (o : Nat) : Option (Nat × AuxCfg) :=
  if zeroImg p (o + 10) 6 then parseAux (recAt p o 20) else none

def matrixAux (p : Nat → Byte) : Option (List (Nat × AuxCfg)) :=
  allSome ((List.range (imgNat p 4 2)).map (fun k => auxRec p (16 + 8 * imgNat p 0 4 + 16 * k)))

/-- The 512 SCALE_MODE bytes of a MATRIX section. -/
def matrixModes (p : Nat → Byte) : List Nat :=
  (List.range 512).map (fun k => imgNat p (16 + 8 * imgNat p 0 4 + 16 * imgNat p 4 2 + k) 1)

/-- R209. -/
def matrixOk (p : Nat → Byte) (len : Nat) : Bool :=
  let n := imgNat p 0 4
  let a := imgNat p 4 2
  n ≤ 327680 && a ≤ 128 && zeroImg p 6 10 && len == 16 + 8 * n + 16 * a + 512 && (matrixModes p).all (fun m => m < 3) &&
  (match matrixNodes p, matrixAux p with
   | some ns, some as => noDup (ns.map (fun r => nodeKey r.1 r.2.1)) && noDup (as.map (fun r => r.1))
   | _, _ => false)

/-- A record of the FEED section (R210). -/
structure FeedRec where
  feed : Nat
  cfg  : FeedBasic
  ramp : Nat
  lim  : LimiterCfg
  eq   : List Biquad
deriving DecidableEq, Repr, Inhabited

def feedRecs (fs : Nat) (p : Nat → Byte) : Option (List FeedRec) :=
  allSome ((List.range (imgNat p 0 4)).map (fun k =>
    let o := 16 + 448 * k
    match parseFeed fs (recAt p o 20), parseLimiter (recAt p (o + 32) 20), parseBiquads p (o + 64) 16 with
    | some (f, c), some l, some q =>
      if rampOk (imgNat p (o + 20) 2) ∧ zeroImg p (o + 22) 10 ∧ zeroImg p (o + 48) 16
      then some { feed := f, cfg := c, ramp := imgNat p (o + 20) 2, lim := l, eq := q } else none
    | _, _, _ => none))

/-- Destinations in use of a list of feeds. -/
def recDests (rs : List FeedRec) : List Dest :=
  ((rs.map (fun r => [r.cfg.dest0, r.cfg.dest1])).flatten).filter (fun d => d.kind != 0)

def State.feedSectionOk (s : State) (p : Nat → Byte) (len : Nat) : Bool :=
  let n := imgNat p 0 4
  decide (1 ≤ n) && n ≤ 512 && imgNat p 4 2 == 448 && zeroImg p 6 10 && len == 16 + 448 * n &&
  (match feedRecs s.fs p with
   | some rs =>
     let ds := recDests rs
     noDup (rs.map (fun r => r.feed)) && noDup ds && ds.all (fun d => !(s.feedHeld (rs.map (fun r => r.feed))).contains d)
   | none => false)

/-- A record of the FIR section: feed, taps, coefficients (R211). -/
def firRecs (p : Nat → Byte) (len : Nat) : Option (List (Nat × List Int)) :=
  allSome ((List.range (imgNat p 0 4)).map (fun k =>
    let o := 16 + 16 * k
    let f := imgNat p o 2
    let t := imgNat p (o + 2) 2
    let at_ := imgNat p (o + 8) 8
    if f < 512 ∧ t % 16 = 0 ∧ t ≤ 8192 ∧ zeroImg p (o + 4) 4 ∧ at_ % 4 = 0 ∧ at_ + 4 * t ≤ len
    then some (f, (List.range t).map (fun i => imgInt p (at_ + 4 * i) 4)) else none))

def firOk (p : Nat → Byte) (len : Nat) : Bool :=
  let n := imgNat p 0 4
  decide (1 ≤ n) && n ≤ 512 && zeroImg p 4 12 && 16 + 16 * n ≤ len &&
  (firRecs p len).isSome

/-- The records of the CORRIDOR section (R219). -/
def routeRecs (p : Nat → Byte) : Option (List (Nat × RouteCfg)) :=
  allSome ((List.range (imgNat p 0 4)).map (fun k =>
    match parseRoute (recAt p (16 + 48 * k) 16) with
    | some (r, false, c) => some (r, c)
    | _ => none))

/-- R219: routes valid under R216 against the shelf's FEED section and the feeds in force; `feeds` are the
records of that section. -/
def State.corridorOk (s : State) (feeds : List FeedRec) (p : Nat → Byte) (len : Nat) : Bool :=
  let n := imgNat p 0 4
  n ≤ 32 && imgNat p 4 2 == 48 && len == 16 + 48 * n && zeroImg p 12 4 &&
  imgNat p 7 1 < 32 && codeOk (imgNat p 8 2) && imgNat p 10 2 ≤ 500 &&
  (let fl := imgNat p 6 1; fl % 128 < 4) &&
  (match routeRecs p with
   | some rs =>
     let ds := (rs.map (fun r => r.2.dests.eraseDups)).flatten
     let held := recDests feeds ++ s.feedHeld (feeds.map (fun r => r.feed)) ++ s.routeHeld (rs.map (fun r => r.1))
     noDup (rs.map (fun r => r.1)) && noDup ds && ds.all (fun d => !held.contains d)
   | none => false)

/-! ### Verification (R95, R96) -/

/-- A directory entry: type, REQUIRED, version, offset, length, CRC. -/
structure DirEntry where
  type : Nat
  req  : Bool
  ver  : Nat
  off  : Nat
  len  : Nat
  crc  : Nat
deriving DecidableEq, Repr, Inhabited

def dirEntry (p : Nat → Byte) (k : Nat) : DirEntry :=
  let o := 64 + 32 * k
  { type := imgNat p o 2, req := imgNat p (o + 3) 1 ≥ 128, ver := imgNat p (o + 4) 4, off := imgNat p (o + 8) 8,
    len := imgNat p (o + 16) 8, crc := imgNat p (o + 24) 4 }

/-- The header is as R93 says, the image fits its slot and is built for it. DESIGN CHOICE (assumption 64): a SECTION_COUNT above 32,
the directory's room, fails with the header. -/
def headerOk (slot : Nat) (p : Nat → Byte) (have_ : Nat) : Bool :=
  imgNat p 0 4 == 0x48534447 && imgNat p 4 2 == 1 && imgNat p 6 2 == 64 &&
  imgNat p 60 4 == crc32c ((List.range 60).map p) && imgNat p 8 8 ≤ slotMax slot && imgNat p 8 8 ≤ have_ &&
  imgNat p 26 2 ≤ 32 && (imgNat p 25 1 % 2 == 1) == (slot == 8)

/-- The FEED records of an image. -/
def State.imageFeeds (s : State) (p : Nat → Byte) : List FeedRec :=
  match sectionImg p 0x21 with
  | some q => (feedRecs s.fs q).getD []
  | none => []

/-- One section's own check. -/
def State.sectionOk (s : State) (slot : Nat) (p : Nat → Byte) (e : DirEntry) : Bool :=
  let q := imgAt p e.off
  if e.type = 1 then geometryOk slot q e.len
  else if e.type = 2 then airOk q e.len
  else if e.type = 3 then normaliserOk slot q e.len
  else if e.type = 0x10 then objectOk s.fs q e.len
  else if e.type = 0x20 then matrixOk q e.len
  else if e.type = 0x21 then s.feedSectionOk q e.len
  else if e.type = 0x22 then firOk q e.len
  else if e.type = 0x30 then s.corridorOk (s.imageFeeds p) q e.len
  else true

/-- R94, R95 for the entry with index `k`. -/
def State.entryOk (s : State) (slot : Nat) (p : Nat → Byte) (k : Nat) : Bool :=
  let e := dirEntry p k
  let total := imgNat p 8 8
  let before := (List.range k).map (dirEntry p)
  let known := knownTypes.contains e.type && e.ver == 1
  let inside := e.off % 64 == 0 && decide (64 + 32 * imgNat p 26 2 ≤ e.off) && e.off + e.len ≤ total &&
    before.all (fun d => decide (d.off + d.len ≤ e.off) || decide (e.off + e.len ≤ d.off))
  inside && crc32c ((List.range e.len).map (imgAt p e.off)) == e.crc &&
  (if known then !before.any (fun d => d.type == e.type && d.ver == 1) && s.sectionOk slot p e
   else !e.req && e.type != 1)

/-- R95: 0xFF when the image passes, else the code of what fails first (R96). -/
def State.verifyImage (s : State) (slot : Nat) (p : Nat → Byte) (have_ : Nat) : Nat :=
  if !headerOk slot p have_ then 0xFE
  else
    match (List.range (imgNat p 26 2)).find? (fun k => !s.entryOk slot p k) with
    | some k => k
    | none => if (findSection p 1).isSome then 0xFF else 0xFE

/-- The result of a copy or verification: CRC-32C in bits 31:0, the code in bits 39:32. -/
def shelfResult (crc code : Nat) : Nat := crc + 2 ^ 32 * code

/-! ### What a shelf changes when it becomes active (R98) -/

/-- The changes of OBJ_CONFIG (R121). -/
def lockerChanges (l : Nat) (c : LockerCfg) (pathsFrom : Nat) : List Change :=
  [.objConfig l c, .objGeo l c pathsFrom] ++ (if c.mode = 3 then [.busGain l c.busGain c.ramp] else [])

/-- The changes of FEED_CONFIG OP 0 but for the alignment: they ramp over `ms`; `stored` becomes the feed's ramp time. -/
def feedChanges (f : Nat) (c : FeedBasic) (ms stored : Nat) : List Change := [.feedMix f c ms stored, .feedOut f c ms]

/-- What the CORRIDOR section of a slot's image brings (R219). -/
def State.corridorOf (s : State) (slot : Nat) : List Change :=
  match sectionImg (s.image slot) 0x30 with
  | some q => ((routeRecs q).getD []).map (fun r => Change.route r.1 { r.2 with ramp := s.rampMs r.2.ramp } (s.rampMs r.2.ramp)) ++
      (if imgNat q 6 1 / 128 % 2 = 1 then
        [Change.ovr (word (imgNat q 6 1 % 4 + 4 * imgNat q 7 1 + 256 * imgNat q 10 2)) (word (imgNat q 8 2))] else [])
  | none => []

/-- Sections that apply at the commit MSC: OBJECT, AIR, CORRIDOR. -/
def State.shelfOwn (s : State) (slot m : Nat) : List Change :=
  let p := s.image slot
  let objs := match sectionImg p 0x10 with
    | some q => (objectRecs s.fs q).getD []
    | none => []
  let ups : List PosUpdate := objs.filterMap (fun r => r.2.2)
  let airs : List Change := if s.geo.airSet then [] else
    match sectionImg p 2 with
    | some q => (List.range 8).map (fun z => .air (2 ^ z) 0 (imgInt q (16 + 8 * z) 2) (imgInt q (18 + 8 * z) 2))
    | none => []
  let moves : List Change := if ups.isEmpty then [] else [.objPos ups true]
  (objs.map (fun r => lockerChanges r.1 r.2.1 m)).flatten ++ moves ++ airs ++ s.corridorOf slot

/-- The speaker-stage sections: MATRIX, FEED, FIR. -/
def State.shelfSpeaker (s : State) (slot : Nat) : List Change :=
  let p := s.image slot
  let mx := match sectionImg p 0x20 with
    | some q => [Change.matrix ((matrixNodes q).getD []) s.spkRamp] ++
        ((matrixAux q).getD []).map (fun r => Change.aux r.1 r.2 s.spkRamp) ++ [Change.scales (matrixModes q) s.spkRamp]
    | none => []
  let fd := match sectionImg p 0x21 with
    | some q => (((feedRecs s.fs q).getD []).map (fun r =>
        feedChanges r.feed r.cfg s.spkRamp (s.rampMs r.ramp) ++
        [Change.align r.feed r.cfg.align, Change.limiter r.feed r.lim, Change.feedEq r.feed 0 r.eq s.spkRamp (s.rampMs r.ramp)])).flatten
    | none => []
  let fir := match findSection p 0x22 with
    | some (o, n) => ((firRecs (imgAt p o) n).getD []).map (fun r => Change.fir r.1 r.2 s.spkRamp)
    | none => []
  mx ++ fd ++ fir

end Sys2Proof.Machine
end

