-- ==== Sys2Proof/Machine/Apply.lean ====
section
/-!
DEFINITION. How a change acts once its stage reaches its pipeline index (R16), or at once and without ramp
while no pipeline runs (R17): lockers (R121), speaker stage (R208), alignment (R194–R196), corridor (R218),
flows (R302, R303), tasks (R262, R270).
-/
namespace Sys2Proof.Machine

def State.feed (s : State) (f : Nat) : Feed := (tget s.feeds f).getD {}
def State.setFeed (s : State) (f : Nat) (v : Feed) : State := { s with feeds := tset s.feeds f v }
def State.aux (s : State) (i : Nat) : Aux := (tget s.auxs i).getD {}
def State.route (s : State) (r : Nat) : Route := (tget s.routes r).getD {}

/-- The length of a ramp of `ms` milliseconds, 0 where none runs. -/
def State.rampN (s : State) (quiet : Bool) (ms : Nat) : Nat := if quiet then 0 else rampLen s.fs ms

/-! ### Lockers -/

/-- A new enable that the freeze of the frames did not see (R121). -/
def Locker.ensureGeo (now : Nat) (l : Locker) : Locker :=
  if l.geoOn && !l.releasing then l
  else { l with geoOn := true, releasing := false, sets := [], dir := none, jumpPlan := none, jump := none, held := none,
                pathsFrom := if l.geoOn then max l.pathsFrom (upTo 128 (now + 129)) else upTo 128 (now + 129) }

def State.setLockerCfg (s : State) (quiet : Bool) (i : Nat) (c : LockerCfg) : State :=
  let l := s.locker i
  let fresh := c.enable && !l.live
  let l1 := applyLocker (s.rampN quiet c.ramp) c l
  let l2 := if fresh then l1.ensureGeo s.msc else l1
  let l3 := if quiet then { l2.quieten with live := c.enable, geoOn := if c.enable then l2.geoOn else false } else l2
  s.setLocker i (if s.noDram && fresh then { l3 with pdLost := true } else l3)

/-- The frame-granular fields where no frame is frozen: at once (R17). -/
def State.setLockerGeo (s : State) (i : Nat) (c : LockerCfg) (pf : Nat) : State :=
  let l := (s.locker i).enableGeo { cfg := some (c, pf) }
  let l1 := l.retarget { pos := l.target, mode := c.mode, spread := c.spread, firstBus := c.firstBus, busCount := c.busCount }
  s.setLocker i { l1 with cfg := { l1.cfg with prio := c.prio, maxPaths := c.maxPaths } }

def State.setPos (s : State) (u : PosUpdate) : State :=
  let l := s.locker u.locker
  s.setLocker u.locker (l.retarget { l.geoTarget with pos := u.pos })

/-- BUS_GAIN of the paths of a DIRECT locker (R176). -/
def State.setBusGains (s : State) (n i : Nat) (gs : List Nat) : State :=
  let l := s.locker i
  let path (r : PathRec) : PathRec :=
    let g := gain122 (gs.getD r.speaker 0)
    if r.leave ∨ r.ramp.target = g then r else { r with gEnd := g, ramp := r.ramp.start g n }
  s.setLocker i { l with sets := l.sets.map (fun t => if t.slot = 15 ∧ ¬t.jumpOut then { t with paths := t.paths.map path } else t) }

/-! ### Blend matrix and feeds -/

/-- Column gains that an altered count of active inputs moves, over `n` samples (R186). -/
def State.recount (s : State) (quiet : Bool) (ms : Nat) : State :=
  let live (i : Nat) : Bool := s.pipe.auxOnM.contains i
  { s with feeds := tmap (fun f (fd : Feed) =>
      let g := columnGain fd.cfg.gain fd.scale (activeInputs live f s.matrix)
      if fd.col.target = g then fd else { fd with col := fd.col.start g (s.rampN quiet ms) }) s.feeds }

/-- Nodes set by a command; feeds they name exist from then on. -/
def State.setNodes (s : State) (quiet : Bool) (recs : List (Nat × Nat × Nat)) (ms : Nat) : State :=
  let n := s.rampN quiet ms
  ({ s with matrix := recs.foldl (fun m r => setNode m n r) s.matrix }).recount quiet ms

/-- The matrix of a shelf: nodes it does not list become code 0 (R209). -/
def State.setMatrix (s : State) (quiet : Bool) (recs : List (Nat × Nat × Nat)) (ms : Nat) : State :=
  let n := s.rampN quiet ms
  let listed := recs.map (fun r => nodeKey r.1 r.2.1)
  let gone := (s.matrix.filter (fun p => !listed.contains p.1)).map (fun p => (p.1 / 512, p.1 % 512, 0))
  ({ s with matrix := (gone ++ recs).foldl (fun m r => setNode m n r) s.matrix }).recount quiet ms

def State.setAux (s : State) (quiet : Bool) (i : Nat) (c : AuxCfg) (ms : Nat) : State :=
  let a := s.aux i
  let n := s.rampN quiet ms
  let so := if quiet ∨ ¬a.enable then none else if a.src = c.src then a.srcOld else some (a.src, Ramp.weight n)
  { s with auxs := tset s.auxs i { a with enable := c.enable, invert := c.invert, code := c.code, src := c.src, srcOld := so,
                                          gain := a.gain.start (auxGain c.enable c.invert c.code) n } }

def State.setScale (s : State) (quiet : Bool) (first : Nat) (modes : List Nat) (ms : Nat) : State :=
  let s1 := modes.zipIdx.foldl (fun s p =>
    let f := first + p.2
    if (s.feed f).scale = p.1 then s else s.setFeed f { s.feed f with scale := p.1 }) s
  s1.recount quiet ms

/-- FEED_CONFIG OP 0 at the mix slot; a feed configured for the first time starts (R193, R206). -/
def State.setFeedMix (s : State) (quiet : Bool) (f : Nat) (c : FeedBasic) (ms stored : Nat) : State :=
  let live (i : Nat) : Bool := s.pipe.auxOnM.contains i
  let fd := applyFeedMix (s.rampN quiet ms) (activeInputs live f s.matrix) c stored (s.feed f)
  s.setFeed f { fd with used := true }

/-- The ledger of a feed. -/
def feedLedger (f : Nat) : Nat := 0x400 + f

/-- A new line length at its block (R194, R196): what is dropped is DISCARDED, what is added SYNTHESIZED, both counted at the
boundary that ends the feed slot of the block (R35's example); a line that starts is filled at once. -/
def State.setAlign (s : State) (quiet : Bool) (n f len : Nat) : State :=
  let fd := { s.feed f with used := true, cfg := { (s.feed f).cfg with align := len } }
  let real := if s.noDram then min len 4096 else len
  let clamp := s.noDram && decide (4096 < len)
  let fades := fadeRise (fadeLen s.clock.media.rate96) n fd.fades
  let s1 :=
    if quiet then s.setFeed f { fd with len := real, line := [], fades := [], delayClamped := clamp }
    else if (s.feed f).cfg.align = len ∧ fd.len = real then s.setFeed f { fd with fades := fades }
    else
      let r := setLineLen fd real
      match fd.moved with
      | some a => s.setFeed f { r.1 with fades := fades, delayClamped := clamp, moved := some (a.1 + r.2.1, a.2 + r.2.2) }
      | none => (s.setFeed f { r.1 with fades := fades, delayClamped := clamp }).tally (feedLedger f) { dis := r.2.1, syn := r.2.2 }
  if clamp && !fd.delayClamped then s1.both Reg.SPK_DELAY_CLAMPS Reg.SPK_EVT 4 else s1

def State.setFeedEq (s : State) (quiet : Bool) (f first : Nat) (bs : List Biquad) (ms stored : Nat) : State :=
  let fd := { s.feed f with rampMs := stored, used := true }
  let r := applyBiquads (s.rampN quiet ms) first bs fd.biquads
  s.setFeed f { fd with biquads := r.1, bqOld := if quiet then none else r.2 }

/-- A filter change at its block (R189, R190): a filter still fading out is dropped and its taps return. -/
def State.setFir (s : State) (quiet : Bool) (f : Nat) (taps : List Int) (ms : Nat) : State :=
  let fd := s.feed f
  let gone := match fd.firOld with
    | some (o, _) => o.length
    | none => 0
  if quiet then { s.setFeed f { fd with fir := taps, firOld := none } with firUsed := s.firUsed - gone - fd.fir.length }
  else { s.setFeed f { fd with fir := taps, firOld := some (fd.fir, Ramp.weight (s.rampN quiet ms)) } with firUsed := s.firUsed - gone }

/-! ### Corridor and override -/

def State.setRoute (s : State) (quiet : Bool) (r : Nat) (c : RouteCfg) (ms : Nat) : State :=
  let v := applyRoute (s.rampN quiet ms) c (s.route r)
  { s with routes := tset s.routes r (if quiet then { v with srcOld := none, live := c.enable, drop := [] } else v) }

/-! ### Flows (R302, R303) -/

/-- A receive flow starts with the samples whose deadline came before it: they are filled (R299). -/
def State.addFlow (s : State) (i n : Nat) (c : FlowCfg) : State :=
  let fl : Flow := { cfg := c, from_ := n, runs := true }
  if c.tx then { s with net := { s.net with tx := tset s.net.tx i fl } }
  else
    let zeros : List Int := List.replicate c.channels 0
    ({ s with net := { s.net with rx := tset s.net.rx i { fl with buf := [(n, zeros), (n + 1, zeros), (n + 2, zeros)] } } } : State).tally
      (0x100 + i) { syn := 3 * c.channels, del := 3 * c.channels }

/-- Channel-samples that a flow holds: received and not yet taken, or taken from emit and not yet sent. -/
def Flow.heldSamples (f : Flow) (now : Nat) : Nat :=
  ((f.buf.filter (fun p => f.cfg.tx || decide (now + 2 < p.1))).map (fun p => p.2.length)).sum

def State.netPort (s : State) (n : Nat) : NetPort := s.net.ports.getD n {}
def State.netUp (s : State) (n : Nat) : Bool := (s.netPort n).link != .down

/-- The legs of a flow: port, group, UDP port, source. -/
def FlowCfg.legs (c : FlowCfg) : List (Fin 2 × Word × Nat × Word) :=
  if c.dual then [(0, c.addrA, c.udpA, c.srcA), (1, c.addrB, c.udpB, c.srcB)] else [(Fin.ofNat 2 c.port, c.addrA, c.udpA, c.srcA)]

/-- The IEEE 802.1Q tag of a leg (R295); 0: none. -/
def FlowCfg.vid (c : FlowCfg) (port : Fin 2) : Nat := if !c.vlan then 0 else if c.dual ∧ port = 1 then c.vlanB else c.vlanA

/-- The flow of a number goes, in whichever direction it is configured; what it holds is DISCARDED. -/
def State.removeFlow (s : State) (i : Nat) : State :=
  let s1 := match tget s.net.rx i with
    | some f =>
      let outs := (f.cfg.legs.filter (fun l => s.netUp l.1.val)).map (fun l => NetOut.igmpLeave l.1 l.2.1 (f.cfg.vid l.1))
      ({ s with net := { s.net with rx := tdel s.net.rx i, sent := outs.reverse ++ s.net.sent } }).tally (0x100 + i) { dis := f.heldSamples s.msc }
    | none => s
  match tget s1.net.tx i with
  | some f => ({ s1 with net := { s1.net with tx := tdel s1.net.tx i } }).tally (0x200 + i) { dis := f.heldSamples s.msc }
  | none => s1

/-! ### Tasks (R262, R270) -/

def State.attachTask (s : State) (quiet : Bool) (n t : Nat) : State :=
  match s.task t with
  | some k => s.setTask t { k with attached := true, from_ := n,
                                   weight := if quiet then { acc := 2 ^ 43, target := 2 ^ 27 } else Ramp.weight (rampLen s.fs k.cfg.xfade) }
  | none => s

def State.detachTask (s : State) (quiet : Bool) (n t : Nat) : State :=
  match s.task t with
  | some k =>
    if quiet || k.cfg.ip == 0 || !k.attached then
      s.finishTask t
    else s.setTask t { k with detachAt := some (match k.detachAt with
      | some b => min b n
      | none => n) }
  | none => s

/-! ### Credits (R43) -/

/-- R43: mismatched credits are repaired at an epoch's commit. -/
def State.repairCredits (s : State) : State :=
  let hostBad := s.led.mismatch.getD 2 0 != 0
  let s1 : State := if hostBad then
      { s with host := { s.host with
          freeSlots := 512 - (s.host.queues.map (fun q => q.out.length)).sum,
          queues := s.host.queues.map (fun q =>
            { q with credit := 2 ^ q.size - 1 - (q.cqTail + 2 ^ q.size - q.cqHead) % 2 ^ q.size }) } }
    else s
  let ports := s1.ntk.ports.zipIdx.map (fun p => if s.led.mismatch.getD p.2 0 = 0 then p.1 else
    match p.1.repair with
    | some c => { p.1 with credits := c, repair := none }
    | none => p.1)
  let n := (s.led.mismatch.filter (fun k => k != 0)).length
  ({ s1 with ntk := { s1.ntk with ports := ports }, led := { s1.led with mismatch := [0, 0, 0] } }).count Reg.SYS_CREDIT_REPAIRS n

/-! ### One change -/

def State.applyChange (s : State) (quiet : Bool) (n : Nat) : Change → State
  | .objConfig l c => s.setLockerCfg quiet l c
  | .objGeo l c pf => s.setLockerGeo l c pf
  | .objGain l code ms =>
    let lk := s.locker l
    let l1 := applyLockerGain (s.rampN quiet (if ms = 0xFFFF then lk.cfg.ramp else ms)) code lk
    s.setLocker l (if quiet then l1.quieten else l1)
  | .objEq l first bs =>
    let lk := s.locker l
    let r := applyBiquads (s.rampN quiet lk.cfg.ramp) first bs lk.biquads
    s.setLocker l { lk with biquads := r.1, bqOld := if quiet || !lk.live then none else r.2 }
  | .objPos ups _ => ups.foldl State.setPos s
  | .busGain l gs ms => s.setBusGains (s.rampN quiet ms) l gs
  | .air mask _ t h =>
    let air := s.geo.air.zipIdx.map (fun p =>
      if mask / 2 ^ p.2 % 2 = 1 then ({ fromT := t, fromH := h, toT := t, toH := h } : AirZone) else p.1)
    { s with geo := { s.geo with air := air, airNow := air.map (fun z => (z.toT, z.toH)) } }
  | .nodes recs ms => s.setNodes quiet recs ms
  | .matrix recs ms => s.setMatrix quiet recs ms
  | .aux i c ms => s.setAux quiet i c ms
  | .recount ms => s.recount quiet ms
  | .scale first count mode ms => s.setScale quiet first (List.replicate count mode) ms
  | .scales modes ms => s.setScale quiet 0 modes ms
  | .feedMix f c ms stored => s.setFeedMix quiet f c ms stored
  | .feedOut f c ms => s.setFeed f (applyFeedOut (s.rampN quiet ms) c (s.feed f))
  | .align f len => s.setAlign quiet n f len
  | .feedEq f first bs ms stored => s.setFeedEq quiet f first bs ms stored
  | .pilot f c ms stored =>
    s.setFeed f { applyPilot (s.rampN quiet ms) c (s.feed f) with rampMs := stored, used := true }
  | .fir f taps ms => s.setFir quiet f taps ms
  | .limiter f c => s.setFeed f { s.feed f with lim := c }
  | .route r c ms => s.setRoute quiet r c ms
  | .ovr cfg gain => (s.setReg Reg.SPK_OVR_CFG cfg).setReg Reg.SPK_OVR_GAIN gain
  | .flowAdd i c => s.addFlow i n c
  | .flowRemove i => s.removeFlow i
  | .taskCreate t _ => s.attachTask quiet n t
  | .taskCancel t => s.detachTask quiet n t
  | .membership r joins place hops => s.memberChange n r joins place hops
  | .chainPublish p => s.publish p.pubs
  | .creditRepair => s.repairCredits

/-- Where a change acts (R121, R208, R218, R302). -/
def Change.stage : Change → Stage
  | .objConfig _ _ => .obj
  | .objGeo _ _ _ => .geo
  | .objGain _ _ _ => .obj
  | .objEq _ _ _ => .obj
  | .objPos _ _ => .geo
  | .busGain _ _ _ => .render
  | .air _ _ _ _ => .geo
  | .nodes _ _ => .mix
  | .matrix _ _ => .mix
  | .aux _ _ _ => .obj
  | .recount _ => .mix
  | .scale _ _ _ _ => .mix
  | .scales _ _ => .mix
  | .feedMix _ _ _ _ => .mix
  | .feedOut _ _ _ => .feed
  | .align _ _ => .feed
  | .feedEq _ _ _ _ _ => .mix
  | .pilot _ _ _ _ => .feed
  | .fir _ _ _ => .mix
  | .limiter _ _ => .feed
  | .route _ _ _ => .input
  | .ovr _ _ => .commit
  | .flowAdd _ _ => .commit
  | .flowRemove _ => .commit
  | .taskCreate _ _ => .commit
  | .taskCancel _ => .commit
  | .chainPublish _ => .commit
  | .creditRepair => .commit
  | .membership _ _ _ _ => .commit

/-- The boundary by which a change of pipeline index `b` acts, counted from `b`: a transmit flow leaves the
pipeline at its emit slot. -/
def State.stageLag (s : State) : Change → Nat
  | .flowAdd _ c => if c.tx then 80 else 0
  | .flowRemove i => if (tget s.net.rx i).isSome then 0 else 80
  | _ => 0

/-- The inputs of a member's path sets that a change of the geometry alters. -/
def Member.hitBy (c : Change) (m : Member) : Bool :=
  m.geo && match c.geoTouches with
    | none => true
    | some ls => m.switch.isSome || m.chgs.any (fun d => match d.geoTouches with
        | some ks => ks.any ls.contains
        | none => false)

/-- Members whose path sets were computed from inputs that a change alters are computed again (R136). -/
def Epoch.unstage (e : Epoch) (c : Change) : Epoch :=
  { e with members := e.members.map (fun m => if m.hitBy c then { m with staged := false, paid := (0, 0) } else m) }

/-- A change for index `b` unstages what was computed from its inputs for `b` or later (R136). -/
def State.unstage (s : State) (b : Nat) (c : Change) : State :=
  if c.stage = .geo then { s with epochs := s.epochs.map (fun e => if b ≤ e.m then e.unstage c else e) } else s

/-- The geometry's changes between an epoch's old and its new commit MSC `m` alter the inputs of its members (R136). -/
def State.later (s : State) (e : Epoch) (m : Nat) : Epoch :=
  (s.sched.filter (fun c => c.stage == .geo && decide (e.m < c.at_) && decide (c.at_ ≤ m))).foldl (fun d c => d.unstage c.chg) { e with m := m }

/-- The place of a command's change among those of its boundary: its place in the order of fetching (R73), for positions in that
of processing (R307). -/
def Change.turn (fetched processed : Nat) : Change → Nat
  | .objPos _ _ => processed
  | _ => fetched

/-- A change is put to its stage for pipeline index `b` (R16); `key`, its place at a boundary (R73). -/
def State.put (s : State) (key : Option Nat) (b : Nat) (c : Change) : State := (s.unstage b c).schedule c.stage key (b + s.stageLag c) c

def State.putAll (s : State) (key : Option Nat) (b : Nat) (cs : List Change) : State := cs.foldl (fun s c => s.put key b c) s

/-- The changes of a stage whose pipeline index `n` has come, in their order (R16). In STANDBY nothing
plays, so they act without ramp. -/
def State.applyStage (s : State) (st : Stage) (n : Nat) : State :=
  let due (c : Sched) : Bool := c.stage == st && decide (c.at_ ≤ n)
  let cs := sortBy (fun a b => decide (a.at_ ≤ b.at_)) (s.sched.filter due)
  let s0 : State := { s with sched := s.sched.filter (fun c => !due c) }
  cs.foldl (fun s c => s.applyChange (s.pwr.mode == .standby && st != .input) c.at_ c.chg) s0

end Sys2Proof.Machine
end

