-- ==== Sys2Proof/Machine/Epoch.lean ====
section
/-!
DEFINITION. Epochs (spec chapter 03): members and their staging (R80, R81, R136), sealing (R83, R85),
the check (R84, R87, R99, R101), commit, expiry and cancellation (R86, R88, R195), and the timing that
commands outside an epoch share (R17, R121, R208).
-/
namespace Sys2Proof.Machine

/-! ### Epochs in the state -/

def State.epochNamed (s : State) (id : Word) : Option Epoch := s.epochs.find? (fun e => e.id == id && !e.own && !e.safe)
/-- Timetable entries in use (R71). -/
def State.entries (s : State) : Nat := (s.epochs.filter (fun e => !e.safe)).length
/-- DEADLINE (R82). -/
def State.deadline (s : State) (n : Nat) : Nat := if n = 0 then clampN 1 64 (fieldOf (s.reg Reg.TT_CFG) 0 7) else n

def firPoolNow (s : State) : Nat := firPool s.clock.media.rate96

/-- Taps that the changes load. -/
def tapsOf (cs : List Change) : Nat := (cs.map (fun c => match c with
  | .fir _ t _ => t.length
  | _ => 0)).sum

/-- All the changes of a switch. -/
def State.switchChanges (s : State) (w : Switch) (m : Nat) : List Change := s.shelfOwn w.target m ++ s.shelfSpeaker w.target

/-- Taps that a member needs. -/
def State.memberTaps (s : State) (m : Member) : Nat :=
  tapsOf m.chgs + (match m.switch with
    | some w => tapsOf (s.shelfSpeaker w.target)
    | none => 0)

/-- Reservation of a member's taps (R190). -/
def State.reserve (s : State) (m : Member) : Option (Member × State) :=
  let n := s.memberTaps m
  if m.taps = n then some (m, s)
  else if s.firUsed + n ≤ firPoolNow s then some ({ m with taps := n }, { s with firUsed := s.firUsed + n })
  else none

/-! ### What an epoch touches (R87) -/

/-- The render buses of a DIRECT locker. -/
def LockerCfg.busKeys (c : LockerCfg) : List (Nat × Nat) :=
  if c.mode = 3 then (List.range c.busCount).map (fun i => (7, c.firstBus + i)) else []

def Change.keys : Change → List (Nat × Nat)
  | .objConfig l c => (0, l) :: c.busKeys
  | .objGeo l c _ => (0, l) :: c.busKeys
  | .objGain l _ _ => [(0, l)]
  | .objEq l _ _ => [(0, l)]
  | .objPos ups _ => ups.map (fun u => (0, u.locker))
  | .busGain l _ _ => [(0, l)]
  | .air _ _ _ _ => [(5, 0)]
  | .nodes recs _ => recs.map (fun r => (2, nodeKey r.1 r.2.1))
  | .matrix recs _ => (8, 0) :: recs.map (fun r => (2, nodeKey r.1 r.2.1))
  | .aux _ _ _ => []
  | .recount _ => []
  | .scale first count _ _ => (List.range count).map (fun i => (1, first + i))
  | .scales modes _ => (List.range modes.length).map (fun f => (1, f))
  | .feedMix f _ _ _ => [(1, f)]
  | .feedOut f _ _ => [(1, f)]
  | .align f _ => [(1, f)]
  | .feedEq f _ _ _ _ => [(1, f)]
  | .pilot f _ _ _ => [(1, f)]
  | .fir f _ _ => [(1, f)]
  | .limiter f _ => [(1, f)]
  | .route r _ _ => [(3, r)]
  | .ovr _ _ => []
  | .flowAdd i _ => [(4, i)]
  | .flowRemove i => [(4, i)]
  | .taskCreate _ _ => []
  | .taskCancel _ => []
  | .chainPublish _ => []
  | .creditRepair => []
  | .membership _ _ _ _ => []

/-- The render buses that a locker has as it stands, where a change is to its configuration or its bus gains. -/
def State.busesNow (s : State) (c : Change) : List (Nat × Nat) :=
  match c with
  | .objConfig l _ => (s.locker l).cfg.busKeys
  | .objGeo l _ _ => (s.locker l).cfg.busKeys
  | .busGain l _ _ => (s.locker l).cfg.busKeys
  | _ => []

def State.keysOf (s : State) (cs : List Change) : List (Nat × Nat) := (cs.map (fun c => c.keys ++ s.busesNow c)).flatten

def State.epochKeys (s : State) (e : Epoch) : List (Nat × Nat) :=
  (e.members.map (fun m => s.keysOf m.chgs ++ (match m.switch with
    | some w => (6, 0) :: s.keysOf (s.switchChanges w e.m)
    | none => []))).flatten

/-- Two key sets overlap; a whole matrix (8, 0) overlaps every node. -/
def keysMeet (a b : List (Nat × Nat)) : Bool :=
  a.any b.contains || (a.contains (8, 0) && b.any (fun k => k.1 == 2)) || (b.contains (8, 0) && a.any (fun k => k.1 == 2))

/-! ### Alignment fades (R194, R195) -/

/-- The first block whose slot that begins `off` after it has not begun (R121, R208, R463). -/
def State.firstBlock (s : State) (off : Nat) : Nat := s.nextMul 16 - off

/-- The alignment changes in a list. -/
def alignsIn (cs : List Change) : List (Nat × Nat) := cs.filterMap (fun c => match c with
  | .align f len => some (f, len)
  | _ => none)

/-- The alignment changes of an epoch at its commit MSC, those that change nothing among them. -/
def State.alignsOf (s : State) (e : Epoch) : List (Nat × Nat) :=
  alignsIn (e.members.map (fun m => m.chgs ++ (match m.switch with
    | some w => if w.atEnd then [] else s.shelfSpeaker w.target
    | none => []))).flatten

/-- The ALIGN that a feed has when an epoch commits: in force now, or brought before it by a change that waits or by an epoch
that was sealed earlier. -/
def State.alignBefore (s : State) (order f : Nat) : Nat :=
  let ahead := s.epochs.filter (fun d => (d.st == .sealed || d.st == .waiting) && decide (d.order < order))
  let all := alignsIn (s.sched.map (fun c => c.chg)) ++ (ahead.map s.alignsOf).flatten
  match (all.filter (fun p => p.1 == f)).getLast? with
  | some p => p.2
  | none => (s.feed f).cfg.align

/-- The alignment changes of an epoch that change a line (R194). -/
def State.aligns (s : State) (e : Epoch) : List (Nat × Nat) := (s.alignsOf e).filter (fun p => p.2 != s.alignBefore e.order p.1)

/-- A fade-out for the epoch with order number `o` is scheduled to end at `m` (R194); one of the same epoch stays. -/
def State.fadeOut (s : State) (o m f : Nat) : State :=
  let fd := s.feed f
  let h := fadeLen s.clock.media.rate96
  if fd.fades.any (fun x => x.epoch == o) then s
  else s.setFeed f { fd with fades := fd.fades ++ [{ epoch := o, fall := max (m - h) (s.firstBlock 64), rise := none }] }

/-- The feed fades in again from the gain that the epoch's fade has reached (R195). -/
def State.fadeBack (s : State) (o f : Nat) : State :=
  let fd := s.feed f
  let h := fadeLen s.clock.media.rate96
  let r := s.firstBlock 64
  let kept := fd.fades.filter (fun x => x.epoch != o || x.rise.isSome || decide (x.fall < r))
  s.setFeed f { fd with fades := kept.map (fun x =>
    if x.epoch = o ∧ x.rise.isNone then { x with rise := some (r, fadeGain h x r) } else x) }

/-- The feeds of the changes of an epoch fade out (R194). -/
def State.fadeAll (s : State) (e : Epoch) : State := (s.aligns e).foldl (fun s p => s.fadeOut e.order e.m p.1) s

/-- Every fade-out ends at or before the commit MSC (R194). -/
def State.fadesDone (s : State) (e : Epoch) : Bool :=
  (s.aligns e).all (fun p => (s.feed p.1).fades.any (fun x =>
    x.epoch == e.order && (x.held || decide (x.fall + fadeLen s.clock.media.rate96 ≤ e.m))))

/-! ### Final states -/

/-- An epoch is final: its identifier and its entry are free (R79). -/
def State.finalise (s : State) (e : Epoch) (code : Nat) : State :=
  let s1 : State := { s with epochs := s.epochs.filter (fun d => d.order != e.order) }
  if e.own || e.safe then s1 else { s1 with finals := tset s1.finals e.id.toNat code }

/-- What an epoch that does not commit gives back: reservations, fades, tasks that were to attach. -/
def State.discard (s : State) (e : Epoch) : State :=
  let s1 : State := { s with firUsed := s.firUsed - (e.members.map (fun m => m.taps)).sum }
  let s2 := (s1.alignsOf e).foldl (fun s p => s.fadeBack e.order p.1) s1
  let ts := ((e.members.map (fun m => m.chgs)).flatten).filterMap (fun c => match c with
    | .taskCreate t _ => some t
    | _ => none)
  ts.foldl (fun s t => s.finishTask t) s2

/-- An epoch ends without committing: CANCELLED or EXPIRED, its command with a status. -/
def State.endEpoch (s : State) (e : Epoch) (code : Nat) (st : Byte) : State :=
  let s1 := (s.discard e).finalise e code
  match e.commit with
  | some c => s1.complete c st 0
  | none => s1

/-- R88, R101, R464: every epoch that a test picks is cancelled. -/
def State.cancelEpochs (s : State) (p : Epoch → Bool) : State :=
  (s.epochs.filter p).foldl (fun s e => s.endEpoch e 5 stAborted) s

def Epoch.hasSwitch (e : Epoch) : Bool := e.members.any (fun m => m.switch.isSome)

/-! ### Shelf switches (R98–R100) -/

/-- L of R100 in samples. -/
def State.xfadeLen (s : State) (ms : Nat) : Nat :=
  if s.pwr.mode = .setup then 16
  else
    let t := if ms = 0 then clampN 10 500 (fieldOf (s.reg Reg.TT_CFG) 8 9) else ms
    upTo 16 ((s.fs * t + 999) / 1000)

def State.slot (s : State) (k : Nat) : ShelfSlot := s.shelves.getD k {}
def State.setSlot (s : State) (k : Nat) (v : ShelfSlot) : State := { s with shelves := s.shelves.set k v }
def State.slotState (s : State) (k : Nat) (st : SlotState) : State := s.setSlot k { s.slot k with st := st }

/-- A committed switch of the epoch with order number `o` (R100). -/
def State.commitSwitch (s : State) (o m : Nat) (w : Switch) : State :=
  let l := s.xfadeLen w.xfade
  let old := if s.active = 15 then none else some s.active
  let s1 := match old with
    | some o => s.slotState o .fading
    | none => s
  let s2 := s1.slotState w.target .active
  let s3 : State := { s2 with active := w.target, xfades := s2.xfades ++ [{ m := m, len := l, old := old, new := w.target }] }
  let s4 := (s3.setReg Reg.TT_XFADE_END_LO (word (m + l))).setReg Reg.TT_XFADE_END_HI (word ((m + l) / 2 ^ 32))
  let m1 := if w.atEnd then upTo 128 (m + l) else m
  let late := s4.shelfSpeaker w.target
  let s5 := (s4.putAll none m (s4.shelfOwn w.target m)).putAll none m1 late
  if w.atEnd then
    (late.filterMap (fun c => match c with
      | .align f len => if len = (s5.feed f).cfg.align then none else some f
      | _ => none)).foldl (fun s f => s.fadeOut o m1 f) s5
  else s5

/-- Filters are reserved as far as the pool has room; those that find none are left out. -/
def State.fitFirs (s : State) : List Change → List Change × State
  | [] => ([], s)
  | c :: r =>
    match c with
    | .fir _ t _ =>
      if s.firUsed + t.length ≤ firPoolNow s then
        let (cs, s1) := State.fitFirs { s with firUsed := s.firUsed + t.length } r
        (c :: cs, s1)
      else State.fitFirs s r
    | _ =>
      let (cs, s1) := State.fitFirs s r
      (c :: cs, s1)

/-- Changes act at once and without ramp (R17). -/
def State.applyNow (s : State) (cs : List Change) : State := cs.foldl (fun s c => s.applyChange true 0 c) s

/-- Taps that a feed's filters hold. -/
def Feed.taps (fd : Feed) : Nat := fd.fir.length + (match fd.firOld with
  | some (o, _) => o.length
  | none => 0)

/-- The filters that changes bring, the last one of each feed. -/
def firsIn (cs : List Change) : Tbl Nat := cs.foldl (fun t c => match c with
  | .fir f taps _ => tset t f taps.length
  | _ => t) []

/-- Every filter of the changes fits the pool once those they replace are gone (R190). -/
def State.firsFit (s : State) (cs : List Change) : Bool :=
  let fs := firsIn cs
  decide (s.firUsed + (fs.map (fun p => p.2)).sum ≤ firPoolNow s + (fs.map (fun p => (s.feed p.1).taps)).sum)

/-- Changes act at once and without ramp, each filter in the place of the one it replaces (R88, R98); `fits`, all of them have
room together, where not, one that has none is left out. -/
def State.applyQuiet (s : State) (fits : Bool) (cs : List Change) : State :=
  cs.foldl (fun s c => match c with
    | .fir f taps ms =>
      if fits || decide (s.firUsed + taps.length ≤ firPoolNow s + (s.feed f).taps) then
        ({ s with firUsed := s.firUsed + taps.length } : State).applyChange true 0 (.fir f taps ms)
      else s
    | c => s.applyChange true 0 c) s

/-- A shelf becomes active at once, without crossfade (R98 in STANDBY, R88, R101): its path sets follow at the
next frame. -/
def State.activate (s : State) (target : Nat) : State :=
  let s0 := if s.active = 15 ∨ s.active = target then s else s.slotState s.active .verified
  let s1 := (List.range 9).foldl (fun s k => if (s.slot k).st = .fading then s.slotState k .verified else s) s0
  let s2 := s1.slotState target .active
  let ls := tmap (fun _ (l : Locker) =>
    let stay := l.sets.filter (fun t => t.slot == 15 || !t.shelfIn || !l.sets.any (fun u => u.slot != 15 && !u.shelfIn))
    let now := stay.map (fun t => if t.slot = 15 then t else { t with slot := target, shelfIn := false })
    { l with sets := now }) s2.lockers
  { s2 with active := target, lockers := ls, xfades := [], geo := { s2.geo with reEval := true } }

/-- The sections of a shelf that became active at once. -/
def State.switchNow (s : State) (target : Nat) : State :=
  let s1 := s.activate target
  let cs := s1.shelfOwn target 0 ++ s1.shelfSpeaker target
  s1.applyQuiet (s1.firsFit cs) cs

/-! ### Commit -/

/-- A member's change with the commit MSC in force (R121). -/
def Change.from_ (m : Nat) : Change → Change
  | .objGeo l c pf => .objGeo l c (max pf m)
  | c => c

def updatesOf (cs : List Change) : Nat := (cs.map (fun c => match c with
  | .objPos ups _ => ups.length
  | _ => 0)).sum

/-- An epoch commits with commit MSC `e.m` (R84): its members go to their stages. -/
def State.commitEpoch (s : State) (e : Epoch) (adj : Bool) : State :=
  let cs := (e.members.map (fun m => m.chgs)).flatten
  let s1 := (s.finalise e 3).put none e.m .creditRepair
  let s2 := e.members.foldl (fun s m =>
    let s1 := s.putAll none e.m (m.chgs.map (Change.from_ e.m))
    match m.switch with
    | some w => s1.commitSwitch e.order e.m w
    | none => s1) s1
  let s3 := s2.count Reg.OBJ_POS_UPDATES (updatesOf cs)
  match e.commit with
  | some c => s3.complete c (adjusted adj) e.m
  | none => s3

/-- R88: a local epoch while the MSC is not valid applies at once. -/
def State.commitQuiet (s : State) (e : Epoch) (c : CmdRef) : State :=
  if e.defective then s.endEpoch { e with commit := some c } 5 stBadParam
  else
    let held := (e.members.map (fun m => m.taps)).sum
    let s1 : State := { (s.finalise e 3).repairCredits with firUsed := s.firUsed - held }
    let all := (e.members.map (fun m => m.chgs ++ (match m.switch with
      | some w => s1.switchChanges w 0
      | none => []))).flatten
    let s2 := e.members.foldl (fun s m =>
      let s1 := s.applyQuiet (s1.firsFit all) m.chgs
      match m.switch with
      | some w => s1.switchNow w.target
      | none => s1) s1
    (s2.count Reg.OBJ_POS_UPDATES (updatesOf ((e.members.map (fun m => m.chgs)).flatten))).complete c stOk 0

/-! ### The check (R84, R87, R99) -/

/-- The cost of the path sets that staging a switch computed (R99): every enabled locker on the new shelf. -/
def State.stagedCost (s : State) (slot : Nat) : Nat :=
  let g := s.geoImg slot
  let env := s.geoEnv (s.image slot) s.geo.airNow
  (s.lockers.map (fun p =>
    if p.2.geoOn ∧ p.2.cfg.mode ≠ 3 then
      (((sortBy candBefore (floorCull env.floor (candidates env g (fun _ => false) p.2.geoTarget p.2.dir))).take p.2.cfg.maxPaths).map
        (fun c => if (spkRec g c.speaker).interp8 then 2 else 1)).sum
    else 0)).sum

/-- The cost of the active shelf's path sets as they render (R99): a set that fades out with an earlier switch is
released before this one may start. -/
def State.activeCost (s : State) : Nat :=
  (s.lockers.map (fun p => ((p.2.sets.filter (fun t => !t.past && (t.slot == s.active || t.slot == 15))).map (fun t =>
    ((t.paths.filter (fun r => !r.leave)).map PathRec.cost).sum)).sum)).sum

/-- The conditions of R99 for a switch whose path sets are staged. -/
def State.switchMayStart (s : State) (e : Epoch) : Bool :=
  e.members.all (fun m => match m.switch with
    | some w => (!m.staged || s.activeCost + s.stagedCost w.target ≤ s.budgetNow) &&
        s.xfades.all (fun x => decide (x.m + x.len ≤ e.m))
    | none => true)

/-- Every part is staged (R81, R194). -/
def State.allStaged (s : State) (e : Epoch) : Bool := e.members.all (fun m => m.staged) && s.fadesDone e

/-- R87: an earlier-sealed epoch that overlaps has not committed. -/
def State.heldBack (s : State) (e : Epoch) : Bool :=
  s.epochs.any (fun d => (d.st == .sealed || d.st == .waiting) && decide (d.order < e.order) && !d.expiring &&
    keysMeet (s.epochKeys d) (s.epochKeys e))

/-- How far before its commit MSC an epoch is checked (R83). -/
def State.lead (s : State) (e : Epoch) : Nat :=
  if e.chain then 128 * (1 + (s.ntk.chain.budget + 127) / 128) else 128

/-- The head decides for a chain (R89): every participant reported its part staged. -/
def State.chainReady (s : State) (e : Epoch) : Bool :=
  (List.range 256).all (fun p => e.parts / 2 ^ p % 2 == 0 || p == s.ntk.chain.position ||
    e.reports.any (fun r => r.1 == p && r.2 == .staged))

/-- The head's decision is sent until the commit MSC (R331). -/
def State.announce (s : State) (e : Epoch) (m : Nat) (d : Decision) : State :=
  if e.chain && s.ntk.chain.head then
    let l := s.ntk.chain.decisions.filter (fun x => x.1 != e.id)
    { s with ntk := { s.ntk with chain := { s.ntk.chain with decisions := l ++ [(e.id, m, d)] } } }
  else s

/-- A deferral (R84): one control frame later. -/
def State.defer (s : State) (e : Epoch) : State :=
  let e1 := { s.later e (e.m + 128) with st := .sealed, deferrals := e.deferrals + 1, adjusted := true }
  (((s.setEpoch e1).fadeAll e1).both Reg.TT_DEFERRALS Reg.TT_EVT 2).announce e (e.m + 128) .defer

/-- The check of one epoch at its check boundary. A selection of the safe shelf is only ever deferred (R101). DESIGN CHOICE: an
epoch that ends with MODE_REFUSED is kept as CANCELLED (assumption 60); DEDUCED: one whose target an earlier epoch has made ACTIVE
is DEFECTIVE (R91, assumption 61). -/
def State.checkEpoch (s : State) (e : Epoch) : State :=
  if e.defective || (!e.safe && e.members.any (fun m => m.switch.any (fun w => w.target == s.active))) then s.endEpoch e 5 stBadParam
  else if s.noDram && e.members.any (fun m => match m.switch with
      | some w => decide (w.target < 4)
      | none => false) then s.endEpoch e 5 stModeRefused
  else if !e.safe && !s.switchMayStart e then
    let e1 := { s.later e (e.m + 128) with st := .waiting, adjusted := true }
    let s1 := ((s.setEpoch e1).fadeAll e1).announce e (e.m + 128) .wait
    if e.st = .waiting then s1 else s1.evt Reg.TT_EVT 4
  else if s.allStaged e && (if e.safe then s.switchMayStart e else !s.heldBack e) && (!e.chain || s.chainReady e) then (s.announce e e.m .commit).commitEpoch e e.adjusted
  else if !e.safe && decide (e.deadline ≤ e.deferrals) then (s.setEpoch { e with st := .sealed, expiring := true }).announce e e.m .expire
  else s.defer e

/-- The checks of a control-frame boundary in the order of the EPOCH_COMMIT commands (R73, R87). -/
def State.checkEpochs (s : State) : State :=
  let due (e : Epoch) : Bool := (e.st == .sealed || e.st == .waiting) && !e.expiring && (!e.chain || s.ntk.chain.head) &&
    e.m == s.msc + s.lead e
  ((s.epochs.filter due).map (fun e => e.order)).foldl (fun s o =>
    match s.epochs.find? (fun e => e.order == o) with
    | some e => s.checkEpoch e
    | none => s) s

/-! ### Sealing (R83, R85) -/

/-- The earliest commit MSC whose check boundary has not passed. -/
def State.earliestCommit (s : State) (lead : Nat) : Nat := s.nextMul 128 + lead

/-- The commit MSC for a presentation MSC, whether it was moved, and whether it is late. -/
def State.commitFor (s : State) (lead p : Nat) : Nat × Bool × Bool :=
  if p = 0 then (s.earliestCommit lead, false, false)
  else
    let m := upTo 128 p
    if m ≤ s.msc + lead then (s.earliestCommit lead, true, true) else (m, m != p, false)

/-- An epoch is sealed with commit MSC `m`. -/
def State.seal (s : State) (e : Epoch) (c : Option CmdRef) (m : Nat) (adj : Bool) : State :=
  let old := e.order
  let e1 := { e with st := .sealed, m := m, adjusted := adj, commit := c, order := s.epochSeq }
  let s1 : State := { s with epochSeq := s.epochSeq + 1,
                             epochs := s.epochs.filter (fun d => d.order != old) ++ [e1] }
  s1.fadeAll e1

/-- A command that forms an epoch of its own (R98, R194). -/
def State.ownEpoch (s : State) (c : CmdRef) (present : Nat) (lateOk : Bool) (m : Member) : State :=
  let e : Epoch := { id := 0, st := .open_, deadline := s.deadline 0, members := [m], own := true, order := s.epochSeq }
  if 64 ≤ s.entries then s.complete c stNoResource 0
  else if !s.valid then
    if present = 0 then
      ({ s with epochs := s.epochs ++ [e], epochSeq := s.epochSeq + 1 } : State).commitQuiet e c
    else s.complete c stModeRefused 0
  else
    let r := s.commitFor 128 present
    if r.2.2 && !lateOk then s.complete c stLate 0
    else
      match s.reserve m with
      | some (m1, s1) =>
        let m2 := if m.geo then m else { m1 with staged := true }
        ({ (if m.geo then s else s1) with epochs := s.epochs ++ [{ e with members := [m2] }], epochSeq := s.epochSeq + 1 } : State).seal
          { e with members := [m2] } (some c) r.1 r.2.1
      | none => ({ s with epochs := s.epochs ++ [e], epochSeq := s.epochSeq + 1 } : State).seal e (some c) r.1 r.2.1

/-! ### Members (R80) -/

/-- The epoch that a command names may take members. -/
def State.openEpoch (s : State) (e : Submission) : Option Epoch :=
  match s.epochNamed e.epoch with
  | some p => if p.st = .open_ then some p else none
  | none => none

/-- A member that fails its validation: its own status, and the epoch is DEFECTIVE. -/
def State.badMember (s : State) (c : CmdRef) (e : Submission) (st : Byte) (res : Nat) : State :=
  match s.openEpoch e with
  | some p => (s.setEpoch { p with defective := true }).complete c st res
  | none => s.complete c stBadParam 0

/-- The result of a member's own completion: FIR_LOAD gives the taps that stay free (R191). -/
def State.memberRes (s : State) (m : Member) : Nat :=
  if m.chgs.any (fun c => match c with
    | .fir _ _ _ => true
    | _ => false) then firPoolNow s - s.firUsed else 0

/-- A valid member is staged, as far as it can be now, and completes. -/
def State.addMember (s : State) (c : CmdRef) (e : Submission) (m : Member) : State :=
  match s.openEpoch e with
  | none => s.complete c stBadParam 0
  | some p =>
    if e.present ≠ 0 then (s.setEpoch { p with defective := true }).complete c stBadParam 0
    else if m.geo then (s.setEpoch { p with members := p.members ++ [m] }).complete c stOk 0
    else
      match s.reserve m with
      | some (m1, s1) => (s1.setEpoch { p with members := p.members ++ [{ m1 with staged := true }] }).complete c stOk (s1.memberRes m)
      | none => (s.setEpoch { p with members := p.members ++ [{ m with staged := false }] }).complete c stOk (s.memberRes m)

/-- A command fails: outside an epoch it completes, in one it is a bad member too. -/
def State.reject (s : State) (c : CmdRef) (e : Submission) (st : Byte) (res : Nat) : State :=
  if e.epoch = 0 then s.complete c st res else s.badMember c e st res

/-! ### Commands that act on a block (R17, R121, R208) -/

/-- The block for a presentation MSC, given how long after its index the affected slot begins: the block,
and whether it is late. -/
def State.blockFor (s : State) (off p : Nat) : Nat × Bool :=
  if p = 0 then (s.firstBlock off, false)
  else if upTo 16 p + off ≤ s.msc then (s.firstBlock off, true) else (upTo 16 p, false)

/-- A command whose changes act on a block: as a member, at once where no pipeline runs, or on block b. `res`
gives its result from b and the state. -/
def State.blockCommand (s : State) (c : CmdRef) (e : Submission) (off : Nat) (lateOk geo : Bool) (chgs : Nat → List Change)
    (res : Nat → State → Nat) : State :=
  if e.epoch ≠ 0 then s.addMember c e { chgs := chgs 0, switch := none, staged := !geo, geo := geo }
  else if !s.valid then
    if e.present ≠ 0 then s.complete c stModeRefused 0
    else
      let s1 := s.applyNow (chgs 0)
      s1.complete c stOk (res 0 s1)
  else
    let r := s.blockFor off (s.mscOf e.present)
    if r.2 && !lateOk then s.complete c stLate 0
    else
      let s1 := s.putAll (some c.order) r.1 (chgs r.1)
      s1.complete c (adjusted r.2) (res r.1 s1)

/-- The block acted on. -/
def blockRes (b : Nat) (_ : State) : Nat := b

end Sys2Proof.Machine
end

