-- ==== Sys2Proof/Machine/Timetable.lean ====
section
/-!
DEFINITION. The timetable's commands: EPOCH_OPEN, EPOCH_COMMIT and EPOCH_CANCEL with the ends of staging,
deadlines and split chain epochs (R79–R89, R136, R331), and BELL_SET and BELL_CANCEL (R71–R78).
-/
namespace Sys2Proof.Machine

/-! ### EPOCH_OPEN, EPOCH_COMMIT, EPOCH_CANCEL -/

/-- EPOCH_OPEN (R82). -/
def epochOpen (e : Submission) (c : CmdRef) (s : State) : State :=
  let chain := sub e 17 1 == 1
  let parts := sub e 24 32
  let mine := s.ntk.chain.position
  let bad := e.epoch == 0 || (s.epochNamed e.epoch).isSome || decide (64 < sub e 16 1) || decide (1 < sub e 17 1) ||
    !subZero e 18 6 || !subZero e 56 8 || (if chain then decide (254 < mine) || parts / 2 ^ mine % 2 == 0 else parts != 0)
  if bad then s.complete c stBadParam 0
  else if 64 ≤ s.entries then s.complete c stNoResource 0
  else if s.pwr.mode = .standby ∨ (chain ∧ ¬s.valid) then s.complete c stModeRefused 0
  else
    let early := if chain && s.ntk.chain.head then (s.ntk.chain.early.filter (fun r => r.1 == e.epoch)).map (fun r => r.2) else []
    let ep : Epoch := { id := e.epoch, st := .open_, chain := chain, parts := parts, deadline := s.deadline (sub e 16 1),
                        order := s.epochSeq, reports := early, defective := early.any (fun r => r.2 == .defective) }
    let s1 : State := { s with epochs := s.epochs ++ [ep], epochSeq := s.epochSeq + 1, finals := tdel s.finals e.epoch.toNat }
    s1.complete c stOk 0

def execEpochOpen (e : Submission) (s : State) : Host.Outcome State Fault Refusal := .next (hostCommand 0x10 e (epochOpen e) s)

/-- EPOCH_COMMIT (R83, R85, R88, R89). A participant that is not the head seals its part without a commit MSC
of its own: the head's decision brings it. -/
def epochCommit (e : Submission) (c : CmdRef) (s : State) : State :=
  guardCmd (decide (1 < sub e 16 1) || !subZero e 17 47) stBadParam c (fun s =>
    match s.openEpoch e with
    | none => s.complete c stBadParam 0
    | some p =>
      if !s.valid then
        if e.present = 0 ∧ p.chain = false then s.commitQuiet p c else s.complete c stModeRefused 0
      else if p.chain && !s.ntk.chain.head then
        if e.present = 0 then s.seal p (some c) p.m p.adjusted else s.complete c stBadParam 0
      else
        let r := s.commitFor (s.lead p) (s.mscOf e.present)
        if r.2.2 && sub e 16 1 == 0 then s.complete c stLate 0 else s.seal p (some c) r.1 r.2.1) s

def execEpochCommit (e : Submission) (s : State) : Host.Outcome State Fault Refusal :=
  .next (hostCommand 0x11 e (epochCommit e) s)

/-- The deadline of an epoch has passed unmet (R84). -/
def State.expire (s : State) (e : Epoch) : State := (s.both Reg.TT_EXPIRED Reg.TT_EVT 3).endEpoch e 4 stExpired

/-- EPOCH_CANCEL (R86): a check due at the same boundary is taken first. -/
def epochCancel (e : Submission) (c : CmdRef) (s : State) : State :=
  guardCmd (!subZero e 16 48) stBadParam c (fun s =>
    let s1 := if s.boundary then s.checkEpochs else s
    match s1.epochNamed e.epoch with
    | some p => if p.expiring then (s1.expire p).complete c stLate 4 else (s1.endEpoch p 5 stAborted).complete c stOk 0
    | none =>
      match tget s1.finals e.epoch.toNat with
      | some k => s1.complete c stLate k
      | none => s1.complete c stBadParam 0) s

def execEpochCancel (e : Submission) (s : State) : Host.Outcome State Fault Refusal :=
  .next (hostCommand 0x12 e (epochCancel e) s)

/-! ### What an epoch meets -/

/-- An epoch that is sealed and not decided. -/
def Epoch.undecided (e : Epoch) : Bool := (e.st == .sealed || e.st == .waiting) && !e.expiring

/-- The epoch that an identifier picks; 0 stands for those without one, the oldest first. -/
def State.pickEpoch (s : State) (id : Word) (p : Epoch → Bool) : Option Epoch :=
  s.epochs.find? (fun e => (if (e.own && !e.chain) || e.safe then id == 0 else e.id == id) && p e)

/-- The deferrals of the epoch have reached its deadline (R84). -/
def epochExpire (id : Word) (s : State) : State :=
  match s.pickEpoch id (fun e => e.expiring) with
  | some e => s.expire e
  | none => s

def execEpochExpire (id : Word) (s : State) : Host.Outcome State Fault Refusal := .next (epochExpire id s)

/-- A member's part is staged (R81): its path sets in the order of sealing (R136), its filter taps (R190). -/
def epochMemberStaged (id : Word) (k : Nat) (s : State) : State :=
  let open_ (e : Epoch) : Bool := e.undecided && (match e.members[k]? with
    | some m => !m.staged
    | none => false)
  let s := s.stageWork
  match s.pickEpoch id open_ with
  | none => s
  | some e =>
    match e.members[k]? with
    | none => s
    | some m =>
      let ahead := s.epochs.any (fun d => d.undecided && decide (d.order < e.order) && d.members.any (fun n => n.geo && !n.staged))
      if m.geo && (ahead || !s.stagePaid e m) then s
      else
        match s.reserve m with
        | some (m1, s1) => s1.setEpoch { e with members := e.members.set k { m1 with staged := true } }
        | none => s

def execEpochMemberStaged (id : Word) (member : Nat) (s : State) : Host.Outcome State Fault Refusal :=
  .next (epochMemberStaged id member s)

/-- No decision came by m − 128 (R331): the participant does not apply the epoch. -/
def epochSplit (id : Word) (s : State) : State :=
  match s.pickEpoch id (fun e => e.chain && e.undecided && !s.ntk.chain.head && (e.m == 0 || decide (e.m ≤ s.msc + 128))) with
  | some e => (s.endEpoch e 5 stAborted).both Reg.NTK_EPOCH_SPLITS Reg.NTK_EVT 4
  | none => s

def execEpochSplit (id : Word) (s : State) : Host.Outcome State Fault Refusal := .next (epochSplit id s)

/-! ### Bells -/

/-- BELL_SET's fields (R74); `p`, its presentation MSC. -/
def parseBell (p : Nat) (e : Submission) : Option (Nat × Bool × Bell) :=
  let kind := sub e 18 1
  let period := sub e 20 4
  let perOk := period == 0 || decide ((if kind = 0 then 128 else 16) ≤ period)
  let b : Bell := { kind := kind, msc := p, period := period, count := sub e 24 4, user := 0, task := 0, mask := 0,
                    chan := 0, ring := 0, next := 0, acted := 0, armed := true }
  if 4096 ≤ sub e 16 2 ∨ 1 < sub e 19 1 ∨ ¬perOk ∨ e.present = 0 then none
  else
    let r : Option Bell :=
      if kind = 0 then (if subZero e 36 28 then some { b with user := BitVec.ofNat 64 (sub e 28 8) } else none)
      else if kind = 1 then
        (if sub e 28 2 < 256 ∧ sub e 30 4 ≠ 0 ∧ subZero e 34 30 then some { b with task := sub e 28 2, mask := word (sub e 30 4) } else none)
      else if kind = 2 then (if sub e 28 1 < 28 ∧ subZero e 29 35 then some { b with chan := sub e 28 1 } else none)
      else if kind = 3 then (if subZero e 29 35 then some { b with chan := sub e 28 1 } else none)
      else none
    r.map (fun b => (sub e 16 2, sub e 19 1 == 1, { b with next := b.point 0 }))

/-- The next acting point of a kind of bell (R72, R463). -/
def State.nextPoint (s : State) (kind : Nat) : Nat := if kind = 0 ∨ kind = 3 then s.msc + 1 else s.nextMul 16

/-- R75: a late bell with its rings that have passed left out, and the MSC of the first that acts. -/
def State.lateBell (s : State) (b : Bell) : Bell × Nat :=
  let p := s.nextPoint b.kind
  if b.period = 0 then ({ b with next := p }, p)
  else
    let l := if b.kind = 0 ∨ b.kind = 3 then s.msc else s.msc / 16 * 16
    let j := (l - b.msc) / b.period + 1
    if b.count ≠ 0 ∧ b.count ≤ j then ({ b with ring := b.count - 1, next := p }, p)
    else ({ b with ring := j, next := b.point j }, b.msc + j * b.period)

/-- BELL_SET (R74, R75, R78). -/
def bellSet (e : Submission) (c : CmdRef) (s : State) : State :=
  match parseBell (s.mscOf e.present) e with
  | none => s.complete c stBadParam 0
  | some (id, lateOk, b) =>
    if !s.valid then s.complete c stModeRefused 0
    else if ((tget s.bells id).map (fun x => x.armed && x.stop.isNone)).getD false then s.complete c stNoResource 0
    else if s.msc < b.next then ({ s with bells := tset s.bells id b } : State).complete c stOk b.msc
    else if !lateOk then s.complete c stLate 0
    else
      let r := s.lateBell b
      ({ s with bells := tset s.bells id r.1 } : State).complete c stAdjusted r.2

def execBellSet (e : Submission) (s : State) : Host.Outcome State Fault Refusal := .next (hostCommand 0x18 e (bellSet e) s)

/-- BELL_CANCEL (R77): a ring whose acting point has come counts as acted, and is worked still. -/
def bellCancel (e : Submission) (c : CmdRef) (s : State) : State :=
  guardCmd (decide (4096 ≤ sub e 16 2) || !subZero e 18 46) stBadParam c (fun s =>
    match tget s.bells (sub e 16 2) with
    | none => s.complete c stBadParam 0
    | some b =>
      let n := b.due s.msc
      let b1 := if n = 0 then { b with armed := false } else { b with stop := some (b.stop.getD s.msc) }
      ({ s with bells := tset s.bells (sub e 16 2) b1 } : State).complete c stOk
        ((b.acted + n) % 2 ^ 32 + 2 ^ 32 * b2n (!b.armed || b.stop.isSome))) s

def execBellCancel (e : Submission) (s : State) : Host.Outcome State Fault Refusal :=
  .next (hostCommand 0x19 e (bellCancel e) s)

end Sys2Proof.Machine
end

