-- ==== Sys2Proof/Machine/ObjCmds.lean ====
section
/-!
DEFINITION. The commands of the object stage: OBJ_CONFIG, OBJ_POSITION, OBJ_GAIN, OBJ_EQ (R117–R123), AIR_SET
(R150), the capture recorder (R125–R127) and the replay stream (R128, R129).
-/
namespace Sys2Proof.Machine

/-- A FLAGS byte with LATE_OK in bit 1 and nothing else. -/
def lateFlag (v : Nat) : Bool := v == 0 || v == 2

/-! ### Lockers -/

/-- OBJ_CONFIG (R120, R121). -/
def objConfig (e : Submission) (c : CmdRef) (s : State) : State :=
  match parseLocker s.fs (entryByte e) with
  | none => s.reject c e stBadParam 0
  | some (l, late, cfg) =>
    s.blockCommand c e 16 late false (fun b => lockerChanges l cfg (upTo 128 (max b (s.msc + 129)))) blockRes

def execObjConfig (e : Submission) (s : State) : Host.Outcome State Fault Refusal := .next (hostCommand 0x20 e (objConfig e) s)

/-- OBJ_GAIN (R122). -/
def objGain (e : Submission) (c : CmdRef) (s : State) : State :=
  if 1024 ≤ sub e 16 2 ∨ ¬lateFlag (sub e 18 1) ∨ ¬subZero e 19 1 ∨ ¬codeOk (sub e 20 2) ∨ ¬rampOk (sub e 22 2) ∨ ¬subZero e 24 40 then
    s.reject c e stBadParam 0
  else s.blockCommand c e 16 (sub e 18 1 == 2) false (fun _ => [.objGain (sub e 16 2) (sub e 20 2) (sub e 22 2)]) blockRes

def execObjGain (e : Submission) (s : State) : Host.Outcome State Fault Refusal := .next (hostCommand 0x22 e (objGain e) s)

/-- OBJ_EQ (R123). -/
def objEq (e : Submission) (c : CmdRef) (s : State) : State :=
  let first := sub e 19 1
  let n := sub e 20 1
  if 1024 ≤ sub e 16 2 ∨ ¬lateFlag (sub e 18 1) ∨ n = 0 ∨ 8 < first + n ∨ ¬subZero e 21 3 ∨ sub e 24 8 % 8 ≠ 0 ∨ ¬subZero e 32 32 then
    s.reject c e stBadParam 0
  else
    match e.records with
    | none => s.reject c e stMemError 0
    | some r =>
      match parseBiquads (listByte r) 0 n with
      | none => s.reject c e stBadParam 0
      | some bs => s.blockCommand c e 16 (sub e 18 1 == 2) false (fun _ => [.objEq (sub e 16 2) first bs]) blockRes

def execObjEq (e : Submission) (s : State) : Host.Outcome State Fault Refusal := .next (hostCommand 0x23 e (objEq e) s)

/-! ### Positions and air -/

/-- The control-frame boundary F of R117, and whether the batch is late for its own. -/
def State.frameFor (s : State) (p : Nat) : Nat × Bool :=
  let first := s.nextMul 128 + 128
  if p = 0 then (first, false) else if upTo 128 p ≤ s.msc + 128 then (first, true) else (upTo 128 p, false)

/-- A command whose change is taken from a control frame on (R117, R150). -/
def State.frameCommand (s : State) (c : CmdRef) (e : Submission) (chg : Change) (geo : Bool) (ok late : State → State) : State :=
  if e.epoch ≠ 0 then s.addMember c e { chgs := [chg], switch := none, staged := !geo, geo := geo }
  else if !s.valid then
    if e.present ≠ 0 then s.complete c stModeRefused 0 else (ok (s.applyNow [chg])).complete c stOk 0
  else
    let r := s.frameFor (s.mscOf e.present)
    let s1 := ok (s.put (some (chg.turn c.order s.host.fetchOrder)) r.1 chg)
    (if r.2 then late s1 else s1).complete c (adjusted r.2) r.1

/-- The updates of a batch, or the index of the first that is invalid. -/
def parseBatch (b : Nat → Byte) (n : Nat) : List PosUpdate ⊕ Nat :=
  match (List.range n).find? (fun k => (parseUpdate (imgAt b (16 * k))).isNone) with
  | some k => .inr k
  | none => .inl ((List.range n).filterMap (fun k => parseUpdate (imgAt b (16 * k))))

/-- OBJ_POSITION (R117, R421). -/
def objPosition (e : Submission) (c : CmdRef) (s : State) : State :=
  let n := sub e 24 4
  if sub e 16 8 % 16 ≠ 0 ∨ n = 0 ∨ 4096 < n ∨ ¬subZero e 28 36 then s.reject c e stBadParam 0
  else
    match e.records with
    | none => s.reject c e stMemError 0
    | some r =>
      match parseBatch (listByte r) n with
      | .inr k => s.reject c e stBadParam k
      | .inl ups =>
        if s.pwr.freeze then s.reject c e stModeRefused 0
        else
          s.frameCommand c e (.objPos ups (decide (e.epoch ≠ 0))) true (fun s => s.count Reg.OBJ_POS_UPDATES n)
            (fun s => s.both Reg.OBJ_POS_LATE Reg.OBJ_EVT 0)

def execObjPosition (e : Submission) (s : State) : Host.Outcome State Fault Refusal :=
  .next (hostCommand 0x21 e (objPosition e) s)

/-- AIR_SET (R150). -/
def airSet (e : Submission) (c : CmdRef) (s : State) : State :=
  let t := signed 16 (sub e 24 2)
  let bad := sub e 16 1 == 0 || !subZero e 17 3 || decide (3600000 < sub e 20 4) || decide (t < -10240 ∨ 15360 < t) ||
    decide (25600 < sub e 26 2) || !subZero e 28 36
  if bad then s.reject c e stBadParam 0
  else
    let taken := if e.epoch ≠ 0 then (s.openEpoch e).isSome && e.present == 0 else s.valid || e.present == 0
    let s1 : State := if taken then { s with geo := { s.geo with airSet := true } } else s
    s1.frameCommand c e (.air (sub e 16 1) (sub e 20 4) t (sub e 26 2)) false id id

def execAirSet (e : Submission) (s : State) : Host.Outcome State Fault Refusal := .next (hostCommand 0x28 e (airSet e) s)

/-! ### Capture (R125–R127) -/

/-- A tap entry. -/
def parseTap (b : Nat → Byte) : Option (Nat × Nat) :=
  let p := imgNat b 0 1
  let i := imgNat b 2 2
  let lim := if p < 2 then 1024 else if p = 3 then 128 else 512
  if p < 5 ∧ zeroImg b 1 1 ∧ i < lim then some (p, i) else none

/-- Capture and replay are refused (R17, R125, R128). -/
def State.noCapture (s : State) : Bool := s.pwr.mode == .standby || s.noDram || !s.valid

/-- A buffer of frames of `n` channels lies in the capture and replay area. -/
def State.frameBuffer (s : State) (base len n : Nat) : Bool :=
  decide (1 ≤ n) && n ≤ 512 && base % 64 == 0 && decide (0 < len) && len % (n * 64) == 0 && s.inGeneral base len

def Capture.busy (k : Capture) : Bool := k.st == 1 || k.st == 2

/-- CAPTURE_START (R125). -/
def captureStart (e : Submission) (c : CmdRef) (s : State) : State :=
  let n := sub e 16 2
  let mode := sub e 18 1
  let ok := s.frameBuffer (sub e 24 8) (sub e 32 8) n && decide (mode < 2) && lateFlag (sub e 19 1) && subZero e 20 4 && subZero e 48 16
  if !ok then s.complete c stBadParam 0
  else
    match e.records with
    | none => s.complete c stMemError 0
    | some r =>
      match allSome ((List.range n).map (fun k => parseTap (imgAt (listByte r) (4 * k)))) with
      | none => s.complete c stBadParam 0
      | some taps =>
        if s.noCapture then s.complete c stModeRefused 0
        else if s.capture.busy then s.complete c stNoResource 0
        else
          let b := s.blockFor 16 (s.mscOf e.present)
          if b.2 && sub e 19 1 == 0 then s.complete c stLate 0
          else { s with capture := { st := 1, oneShot := mode == 1, buffer := sub e 24 8, length := sub e 32 8, taps := taps,
                                     start := b.1, cmd := some c, cmdAdj := b.2 } }

def execCaptureStart (e : Submission) (s : State) : Host.Outcome State Fault Refusal :=
  .next (hostCommand 0x60 e (captureStart e) s)

/-- Frames that the buffer holds. -/
def Capture.size (k : Capture) : Nat := k.length / (4 * k.taps.length)

/-- The capture ends: the commands that wait complete. -/
def State.captureEnd (s : State) (st : Nat) : State :=
  let k := s.capture
  let s1 : State := { s with capture := { k with st := st, cmd := none, stops := [], stopAt := none, data := [] } }
  let s2 := match k.cmd with
    | some c => s1.complete c stAborted 0
    | none => s1
  k.stops.foldl (fun s p => s.complete p.1 (if st = 4 then stAborted else adjusted p.2) (if st = 4 then 0 else k.frames)) s2

/-- The recorder stops at once (R127). -/
def State.captureAbort (s : State) : State := if s.capture.busy then (s.captureEnd 4).evt Reg.OBJ_EVT 5 else s

/-- CAPTURE_STOP (R127). -/
def captureStop (e : Submission) (c : CmdRef) (s : State) : State :=
  if ¬subZero e 16 3 ∨ ¬lateFlag (sub e 19 1) ∨ ¬subZero e 20 44 then s.complete c stBadParam 0
  else if !s.valid then s.complete c stModeRefused 0
  else if !s.capture.busy then s.complete c stBadParam 0
  else
    let b := s.blockFor 16 (s.mscOf e.present)
    if b.2 && sub e 19 1 == 0 then s.complete c stLate 0
    else
      let k := s.capture
      let at_ := match k.stopAt with
        | some x => min x b.1
        | none => b.1
      let s1 : State := { s with capture := { k with stopAt := some at_, stops := k.stops ++ [(c, b.2)] } }
      if at_ ≤ k.start then s1.captureEnd 0 else s1

def execCaptureStop (e : Submission) (s : State) : Host.Outcome State Fault Refusal :=
  .next (hostCommand 0x61 e (captureStop e) s)

/-- The samples of pipeline index `n` in tap order, once all of them are there. -/
def Capture.frameAt (k : Capture) (n : Nat) : Option (List Int) :=
  allSome ((List.range k.taps.length).map (fun t => (k.data.find? (fun d => d.1 == (n, t))).map (fun d => d.2)))

/-- A capture frame is written (R126). -/
def captureFrameWritten (err : Bool) (s : State) : State :=
  let k := s.capture
  let n := k.start + k.frames
  if k.st = 2 then
    match k.frameAt n with
    | none => s
    | some xs =>
      let addr := k.buffer + k.frames % k.size * (4 * k.taps.length)
      let bytes := (xs.map (fun x => leBytes 4 (toField 32 (if err then 0 else x)))).flatten
      let k1 := { k with frames := k.frames + 1, data := k.data.filter (fun d => d.1.1 != n), cmd := none }
      let s1 : State := { s.dramWrite addr bytes with capture := k1 }
      let s2 := if err then s1.dramUe addr else s1
      let s3 := if k.size ≤ k.frames then s2.count Reg.OBJ_CAP_OVERWRITTEN 1 else s2
      let s4 := match k.cmd with
        | some c => s3.complete c (adjusted k.cmdAdj) k.start
        | none => s3
      if k1.stopAt = some (n + 1) then s4.captureEnd 0
      else if k.oneShot ∧ k.size ≤ k1.frames then (s4.captureEnd 3).evt Reg.OBJ_EVT 4
      else s4
  else s

def execCaptureFrameWritten (dramError : Bool) (s : State) : Host.Outcome State Fault Refusal :=
  .next (captureFrameWritten dramError s)

/-! ### Replay (R128, R129) -/

/-- A source channel as a key of the pipeline's tables. -/
def srcKey (kind index chan : Nat) : Nat := kind * 1048576 + index * 1024 + chan
def Src.key (a : Src) : Nat := srcKey a.kind a.index a.chan

/-- Ledger of the replay stream. -/
def replayLedger : Nat := 0x310

/-- Samples of the replay stream in ingest. -/
def State.replayHeld (s : State) : Nat := ((s.pipe.cur.filter (fun p => p.1 / 1048576 == 5)).map (fun p => p.2.length)).sum

/-- Replay ends at the block in ingest: what ingest holds of it is DISCARDED (R33). -/
def State.replayEnd (s : State) : State :=
  let s1 := s.addLed replayLedger { dis := s.replayHeld }
  { s1 with replay := { s1.replay with st := 0, stopAt := none },
            pipe := { s1.pipe with cur := s1.pipe.cur.filter (fun p => p.1 / 1048576 != 5) } }

/-- The frames of the block with index `n` enter ingest (R129): an available frame is ACCEPTED, another is played
as zeros and SYNTHESIZED. -/
def State.replayBlock (s : State) (n : Nat) : State :=
  let r := s.replay
  if r.st ≠ 0 ∧ r.start ≤ n then
    let size := r.length / (4 * r.channels)
    let there (i : Nat) : Bool := r.loop || decide (n + i - r.start < r.fill)
    let at_ (i ch : Nat) : Int :=
      if there i then signed 32 (leNat (memRead s.dram (r.buffer + (n + i - r.start) % size * (4 * r.channels) + 4 * ch) 4)) else 0
    let blocks : Tbl (List Int) := (List.range r.channels).map (fun ch => (srcKey 5 0 ch, (List.range 16).map (fun i => at_ i ch)))
    let got := ((List.range 16).filter there).length
    let clips := ((blocks.map (fun b => clipCount b.2)).sum)
    let s1 := s.addLed replayLedger { acc := got * r.channels, syn := (16 - got) * r.channels, clip := clips }
    let s2 : State := { s1 with
      replay := { r with st := 2, read := n + 16 - r.start, underrun := !there 15 },
      pipe := { s1.pipe with cur := blocks.foldl (fun t b => tset t b.1 b.2) s1.pipe.cur } }
    if got < 16 then s2.evt Reg.OBJ_EVT 6 else s2
  else s

/-- REPLAY_SET's parameters; a field that the operation does not use is 0. -/
def replayFields (e : Submission) (s : State) : Bool :=
  let op := sub e 16 1
  let fl := sub e 17 1
  subZero e 20 4 && subZero e 48 16 && decide (op < 3) && decide (fl < 4) && (op == 0 || fl % 2 == 0) &&
  (if op = 0 then s.frameBuffer (sub e 24 8) (sub e 32 8) (sub e 18 2) else subZero e 18 2 && subZero e 24 16) &&
  (op != 1 || subZero e 40 8)

/-- REPLAY_SET (R128). -/
def replaySet (e : Submission) (c : CmdRef) (s : State) : State :=
  let op := sub e 16 1
  let fl := sub e 17 1
  if !replayFields e s || (op == 2 && decide (sub e 40 8 < s.replay.fill)) then s.complete c stBadParam 0
  else if s.noCapture then s.complete c stModeRefused 0
  else if op = 2 then ({ s with replay := { s.replay with fill := sub e 40 8 } } : State).complete c stOk 0
  else if op = 0 ∧ s.replay.st ≠ 0 then s.complete c stNoResource 0
  else
    let b := s.blockFor 16 (s.mscOf e.present)
    if b.2 && fl / 2 == 0 then s.complete c stLate 0
    else if op = 0 then
      let s1 : State := { s with replay := { st := 1, loop := fl % 2 == 1, channels := sub e 18 2, buffer := sub e 24 8,
                                             length := sub e 32 8, fill := sub e 40 8, start := b.1 } }
      -- the block in ingest has begun: its frames are read now
      (if b.1 ≤ s.msc ∧ s.boundary = false then s1.replayBlock b.1 else s1).complete c (adjusted b.2) b.1
    else
      (if s.replay.st = 0 then s
       else if b.1 ≤ s.msc ∧ s.boundary = false then s.replayEnd
       else ({ s with replay := { s.replay with stopAt := some (match s.replay.stopAt with
         | some e => min e b.1
         | none => b.1) } } : State)).complete c (adjusted b.2) b.1

def execReplaySet (e : Submission) (s : State) : Host.Outcome State Fault Refusal := .next (hostCommand 0x62 e (replaySet e) s)

end Sys2Proof.Machine
end

