-- ==== Sys2Proof/Machine/SpkCmds.lean ====
section
/-!
DEFINITION. The commands of the speaker stage and the corridor: MATRIX_SET, FEED_CONFIG, FIR_LOAD, LIMITER_SET
(R190, R191, R194, R205–R208), CORRIDOR_SET (R216–R218), the ends of FIR crossfades, alignment fades and
supervision windows (R189, R194, R201), and OVERRIDE_N and MUTE_N (R220–R223).
-/
namespace Sys2Proof.Machine

/-! ### MATRIX_SET (R205) -/

/-- The node records of a command, or the index of the first that is invalid. -/
def parseNodes (b : Nat → Byte) (n : Nat) : List (Nat × Nat × Nat) ⊕ Nat :=
  match (List.range n).find? (fun k => (parseNode (imgAt b (8 * k))).isNone) with
  | some k => .inr k
  | none => .inl ((List.range n).filterMap (fun k => parseNode (imgAt b (8 * k))))

def matrixSet (e : Submission) (c : CmdRef) (s : State) : State :=
  let op := sub e 16 1
  let ramp := sub e 18 2
  let late := sub e 17 1 == 2
  let ms := s.rampMs ramp
  if ¬lateFlag (sub e 17 1) ∨ ¬rampOk ramp then s.reject c e stBadParam 0
  else if op = 0 then
    if sub e 20 4 = 0 ∨ 327680 < sub e 20 4 ∨ sub e 24 8 % 8 ≠ 0 ∨ ¬subZero e 32 32 then s.reject c e stBadParam 0
    else
      match e.records with
      | none => s.reject c e stMemError 0
      | some r =>
        match parseNodes (listByte r) (sub e 20 4) with
        | .inr k => s.reject c e stBadParam (k % 2 ^ 20)
        | .inl recs => s.blockCommand c e 48 late false (fun _ => [.nodes recs ms]) blockRes
  else if op = 1 then
    match parseAux (entryByte e) with
    | none => s.reject c e stBadParam 0
    | some (i, a) =>
      if !subZero e 30 34 then s.reject c e stBadParam 0
      else s.blockCommand c e 16 late false (fun _ => [.aux i a ms, .recount ms]) blockRes
  else if op = 2 then
    let first := sub e 20 2
    let n := sub e 22 2
    if 512 ≤ first ∨ n = 0 ∨ 512 < first + n ∨ 2 < sub e 24 1 ∨ ¬subZero e 25 39 then s.reject c e stBadParam 0
    else s.blockCommand c e 48 late false (fun _ => [.scale first n (sub e 24 1) ms]) blockRes
  else s.reject c e stBadParam 0

def execMatrixSet (e : Submission) (s : State) : Host.Outcome State Fault Refusal := .next (hostCommand 0x30 e (matrixSet e) s)

/-! ### FEED_CONFIG (R194, R206, R208) -/

/-- FEED_CONFIG OP 0. A new alignment acts with a commit MSC: in the epoch named or in one of its own. -/
def feedBasic (e : Submission) (c : CmdRef) (f : Nat) (b : FeedBasic) (ms : Nat) (late : Bool) (s : State) : State :=
  let moves := b.align != (s.feed f).cfg.align
  if e.epoch ≠ 0 then s.addMember c e { chgs := (Change.align f b.align :: feedChanges f b ms ms), switch := none, staged := true, geo := false }
  else if !moves then s.blockCommand c e 48 late false (fun _ => feedChanges f b ms ms) blockRes
  else if s.pwr.mode = .standby then (s.applyNow ((Change.align f b.align :: feedChanges f b ms ms))).complete c stOk s.msc
  else s.ownEpoch c (s.mscOf e.present) late { chgs := (Change.align f b.align :: feedChanges f b ms ms), switch := none, staged := true, geo := false }

def feedConfig (e : Submission) (c : CmdRef) (s : State) : State :=
  let op := sub e 16 1
  let ramp := sub e 18 2
  let late := sub e 17 1 == 2
  let ms := s.rampMs ramp
  let f := sub e 20 2
  if ¬lateFlag (sub e 17 1) ∨ ¬rampOk ramp ∨ 512 ≤ f then s.reject c e stBadParam 0
  else if op = 0 then
    match parseFeed s.fs (entryByte e) with
    | none => s.reject c e stBadParam 0
    | some (f, b) =>
      if !subZero e 40 24 || !s.feedMayHold f b then s.reject c e stBadParam 0 else feedBasic e c f b ms late s
  else if op = 1 then
    let first := sub e 22 1
    let n := sub e 23 1
    if n = 0 ∨ 16 < first + n ∨ sub e 24 8 % 8 ≠ 0 ∨ ¬subZero e 32 32 then s.reject c e stBadParam 0
    else
      match e.records with
      | none => s.reject c e stMemError 0
      | some r =>
        match parseBiquads (listByte r) 0 n with
        | none => s.reject c e stBadParam 0
        | some bs => s.blockCommand c e 48 late false (fun _ => [.feedEq f first bs ms ms]) blockRes
  else if op = 2 then
    match parsePilot s.fs (entryByte e) with
    | none => s.reject c e stBadParam 0
    | some p =>
      if !subZero e 39 25 then s.reject c e stBadParam 0
      else s.blockCommand c e 64 late false (fun _ => [.pilot f p ms ms]) blockRes
  else s.reject c e stBadParam 0

def execFeedConfig (e : Submission) (s : State) : Host.Outcome State Fault Refusal := .next (hostCommand 0x31 e (feedConfig e) s)

/-! ### FIR_LOAD (R190, R191) and LIMITER_SET (R207) -/

/-- Filter coefficients as they stand in host memory. -/
def parseTaps (b : Nat → Byte) (n : Nat) : List Int := (List.range n).map (fun k => imgInt b (4 * k) 4)

/-- FIR_LOAD with its coefficients: outside an epoch the taps are reserved now. -/
def firReserve (e : Submission) (c : CmdRef) (f : Nat) (taps : List Int) (ms : Nat) (late : Bool) (s : State) : State :=
  if e.epoch ≠ 0 then s.addMember c e { chgs := [.fir f taps ms], switch := none, staged := true, geo := false }
  else if s.valid = false ∧ e.present ≠ 0 then s.complete c stModeRefused 0
  else
    let late? := s.valid && (s.blockFor 48 (s.mscOf e.present)).2
    if late? && !late then s.complete c stLate 0
    else if firPoolNow s < s.firUsed + taps.length then s.complete c stNoResource 0
    else
      let s1 : State := { s with firUsed := s.firUsed + taps.length }
      s1.blockCommand c e 48 late false (fun _ => [.fir f taps ms]) (fun _ t => if t.valid then firPoolNow t - t.firUsed else 0)

def firLoad (e : Submission) (c : CmdRef) (s : State) : State :=
  let n := sub e 20 2
  let ramp := sub e 22 2
  let late := sub e 18 1 == 2
  if 512 ≤ sub e 16 2 ∨ ¬lateFlag (sub e 18 1) ∨ ¬subZero e 19 1 ∨ 8192 < n ∨ n % 16 ≠ 0 ∨ ¬rampOk ramp ∨
      (n ≠ 0 ∧ sub e 24 8 % 4 ≠ 0) ∨ ¬subZero e 32 32 then s.reject c e stBadParam 0
  else if n = 0 then firReserve e c (sub e 16 2) [] (s.rampMs ramp) late s
  else
    match e.records with
    | none => s.reject c e stMemError 0
    | some r => firReserve e c (sub e 16 2) (parseTaps (listByte r) n) (s.rampMs ramp) late s

def execFirLoad (e : Submission) (s : State) : Host.Outcome State Fault Refusal := .next (hostCommand 0x32 e (firLoad e) s)

/-- The crossfade of a feed's filters has ended: the replaced one's taps return (R190). -/
def firCrossfadeEnd (f : Nat) (s : State) : State :=
  match (s.feed f).firOld with
  | some (old, w) =>
    if w.busy then s else { s.setFeed f { s.feed f with firOld := none } with firUsed := s.firUsed - old.length }
  | none => s

def execFirCrossfadeEnd (feed : Nat) (s : State) : Host.Outcome State Fault Refusal := .next (firCrossfadeEnd feed s)

def limiterSet (e : Submission) (c : CmdRef) (s : State) : State :=
  match parseLimiter (entryByte e) with
  | none => s.reject c e stBadParam 0
  | some l =>
    if 512 ≤ sub e 16 2 ∨ ¬lateFlag (sub e 18 1) ∨ ¬subZero e 19 1 ∨ ¬subZero e 36 28 then s.reject c e stBadParam 0
    else s.blockCommand c e 64 (sub e 18 1 == 2) false (fun _ => [.limiter (sub e 16 2) l]) blockRes

def execLimiterSet (e : Submission) (s : State) : Host.Outcome State Fault Refusal := .next (hostCommand 0x33 e (limiterSet e) s)

/-! ### Alignment fades and supervision -/

/-- An alignment fade that has fallen to 0 by MSC `p` holds there. -/
def Fade.fallen (h p : Nat) (x : Fade) : Fade :=
  if x.rise.isNone && decide (x.fall + h + 64 ≤ p) then { x with held := true } else x

/-- Alignment fade-outs of a feed have ended: from here on their epochs' parts are staged (R194). -/
def alignFadeOutEnd (f : Nat) (s : State) : State :=
  let fd := s.feed f
  s.setFeed f { fd with fades := fd.fades.map (Fade.fallen (fadeLen s.clock.media.rate96) s.msc) }

def execAlignFadeOutEnd (feed : Nat) (s : State) : Host.Outcome State Fault Refusal := .next (alignFadeOutEnd feed s)

/-- A supervision window of 4,096 samples has ended (R201). -/
def pilotWindowEnd (f : Nat) (s : State) : State :=
  let fd := s.feed f
  if fd.pilot.supEn && decide (4096 ≤ fd.win.length) then
    let r := superviseWindow f fd s.fs
    (s.setFeed f r.1).fxs r.2
  else s

def execPilotWindowEnd (feed : Nat) (s : State) : Host.Outcome State Fault Refusal := .next (pilotWindowEnd feed s)

/-! ### CORRIDOR_SET (R217, R218) -/

/-- The input index b of a CORRIDOR_SET outside an epoch, and whether it is late. -/
def State.routeAt (s : State) (p : Nat) : Nat × Bool :=
  if p = 0 then (upTo 16 (s.msc + 32), false)
  else if s.msc + 16 < upTo 16 p then (upTo 16 p, false)
  else (((s.msc + 16) / 16 + 1) * 16, true)

def corridorSet (e : Submission) (c : CmdRef) (s : State) : State :=
  match parseRoute (entryByte e) with
  | none => s.reject c e stBadParam 0
  | some (r, lateOk, k) =>
    let ms := s.rampMs k.ramp
    let chg : Change := .route r { k with ramp := ms } ms
    if !s.routeMayHold r k then s.reject c e stBadParam 0
    else if e.epoch ≠ 0 then s.addMember c e { chgs := [chg], switch := none, staged := true, geo := false }
    else if !s.valid then
      if e.present ≠ 0 then s.complete c stModeRefused 0 else (s.applyNow [chg]).complete c stOk 0
    else
      let b := s.routeAt (s.mscOf e.present)
      if b.2 && !lateOk then s.complete c stLate 0 else (s.put (some c.order) b.1 chg).complete c (adjusted b.2) b.1

def execCorridorSet (e : Submission) (s : State) : Host.Outcome State Fault Refusal := .next (hostCommand 0x38 e (corridorSet e) s)

/-! ### OVERRIDE_N and MUTE_N (R220–R223) -/

/-- L of R221. -/
def State.ovrLen (s : State) : Nat := rampLen s.fs (min 500 (fieldOf (s.reg Reg.SPK_OVR_CFG) 8 9))

/-- The effective states: pin or force bit. -/
def OvrSt.ovrEff (o : OvrSt) : Bool := o.ovrPin || o.forceOvr
def OvrSt.muteEff (o : OvrSt) : Bool := o.mutePin || o.forceMute

/-- Vector 25 with each recognised change whose event is enabled (R223). -/
def State.ovrEvt (s : State) (bit : Nat) : State := s.evt Reg.SPK_OVR_EVT bit

/-- The effective override state changes at sample r (R221): k0 and the crossfade. -/
def overrideNChange (s : State) : State :=
  let o := s.ovr
  if o.ovrEff = o.ovrOn then s
  else
    let on := o.ovrEff
    let r := s.msc
    let k0 := if ovrFading (ovrAt o r) r then s.nextMul 16 else rampStartAt r
    let o1 := { o with ovrOn := on, k0 := k0, wNext := planRamp o.wNext (k0, if on then 2 ^ 22 else 0, s.ovrLen) }
    let s1 : State := { s with ovr := o1 }
    if on then (s1.count Reg.SPK_OVR_COUNT 1).ovrEvt 0 else s1.ovrEvt 1

def execOverrideNChange (s : State) : Host.Outcome State Fault Refusal := .next (overrideNChange s)

/-- The effective MUTE_N state changes at sample r (R222). -/
def muteNChange (s : State) : State :=
  let o := s.ovr
  if o.muteEff = o.muteOn then s
  else
    let on := o.muteEff
    let len := rampLen s.fs (min 2000 (fieldOf (s.reg Reg.SPK_MUTE_CFG) 1 11))
    let o1 := { o with muteOn := on, mnNext := planRamp o.mnNext (rampStartAt s.msc, if on then 0 else 2 ^ 27, len) }
    let s1 : State := { s with ovr := o1 }
    if on then (s1.count Reg.SPK_MUTE_COUNT 1).ovrEvt 2 else s1.ovrEvt 3

def execMuteNChange (s : State) : Host.Outcome State Fault Refusal := .next (muteNChange s)

/-- One bit of SPK_OVR_CMD; the next sample start takes it into account (R220). -/
def forceWrite (bit : Nat) (on : Bool) (s : State) : State :=
  let v := (s.reg Reg.SPK_OVR_CMD).toNat
  let other := v - (if v / 2 ^ bit % 2 = 1 then 2 ^ bit else 0)
  s.setReg Reg.SPK_OVR_CMD (word (other + (if on then 2 ^ bit else 0)))

def execForceOvrWrite (on : Bool) (s : State) : Host.Outcome State Fault Refusal := .next (barWrite (fun s => forceWrite 0 on s) s)

def execForceMuteWrite (on : Bool) (s : State) : Host.Outcome State Fault Refusal := .next (barWrite (fun s => forceWrite 1 on s) s)

end Sys2Proof.Machine
end

