-- ==== Sys2Proof/Machine/Serial.lean ====
section
/-!
DEFINITION. Serial ports and rate bridges (spec chapter 11), and what a destination sends (R214–R222): frame
formats, masks, streams of the ports sample by sample, bridge states and clock faults, ENABLE changes.
-/
namespace Sys2Proof.Machine

/-! ### Groups, ports and their registers -/

def State.group (s : State) (g : Nat) : Group := s.groups.getD g {}
def State.setGroup (s : State) (g : Nat) (v : Group) : State := { s with groups := s.groups.set g v }
def State.port (s : State) (p : Nat) : Port := s.ports.getD p {}
def State.setPort (s : State) (p : Nat) (v : Port) : State := { s with ports := s.ports.set p v }
/-- A register of group `g`, and of port `p`. -/
def gReg (off g : Nat) : Nat := off + 0x20 * g
def pReg (off p : Nat) : Nat := off + 0x40 * p
def State.gCfg (s : State) (g : Nat) : Word := s.reg (gReg Reg.SAP_Gg_CFG g)
def State.pCfg (s : State) (p : Nat) : Word := s.reg (pReg Reg.SAP_Pp_CFG p)

def cfgFollow (c : Word) : Bool := bitOf c 1
def cfgSlots (c : Word) : Nat := fieldOf c 2 6
/-- W of R278. -/
def cfgWidth (c : Word) : Nat := if fieldOf c 8 2 = 0 then 16 else if fieldOf c 8 2 = 1 then 24 else 32
def cfgNominal (c : Word) : Nat := fieldOf c 16 3
def cfgOut (c : Word) : Bool := bitOf c 1
def cfgRaw (c : Word) : Bool := bitOf c 2
def cfgDriven (c : Word) : Bool := bitOf c 3

/-- The wire slot of logical slot k (R283). -/
def wireSlot (mask : Word) (compact : Bool) (k : Nat) : Nat :=
  if compact then ((List.range k).filter (fun j => bitOf mask j)).length else k

/-- Active logical slots: those of the mask that have a wire slot. -/
def slotsOf (slots : Nat) (mask : Word) (compact : Bool) : List Nat :=
  (List.range 32).filter (fun k => bitOf mask k && decide (wireSlot mask compact k < slots))

/-- The rules of R283 for a mask. -/
def maskOk (slots : Nat) (mask : Word) (compact : Bool) : Bool :=
  if compact then decide (popcount mask ≤ slots) else decide (mask.toNat < 2 ^ slots)

def State.slots (s : State) (p : Nat) : List Nat := slotsOf (cfgSlots (s.gCfg (p / 4))) (s.port p).mask (s.port p).compact

/-- The stream of a port runs (R285, R292). -/
def State.streaming (s : State) (p : Nat) : Bool := (s.port p).acts && (s.group (p / 4)).st != .off

/-- The group has frames (R284). -/
def GroupState.frames : GroupState → Bool
  | .off => false
  | .acquiring => true
  | .locked => true
  | .relock => true
  | .lost => false
  | .leading => true

def portsOf (g : Nat) : List Nat := [4 * g, 4 * g + 1, 4 * g + 2, 4 * g + 3]

/-! ### Words on the wire (R26, R27, R40, R278) -/

def wordIn (raw : Bool) (w : Nat) (v : SlotWord) : Int := if raw then signed 32 v.toNat else pcmIn w (signed w v.toNat)

/-- A received word that its clip counter counts. -/
def clipIn (raw : Bool) (w : Nat) (v : SlotWord) : Bool :=
  let x := signed (if raw then 32 else w) v.toNat
  if raw then decide (2 ^ 27 ≤ x.natAbs) else x == -(2 ^ (w - 1)) || x == 2 ^ (w - 1) - 1

def wordOut (raw : Bool) (w : Nat) (x : Int) : Int := if raw then x else pcmOut w x
/-- The pins clip the word. DESIGN CHOICE (assumption 64): a RAW word, Q4.27 as the stream, never does (R40). -/
def clipOut (raw : Bool) (w : Nat) (x : Int) : Bool := !raw && pcmClips w x

/-- The words of the active slots of a received frame. -/
def State.takeFrame (s : State) (p : Nat) (words : List SlotWord) : List (Nat × SlotWord) :=
  let k := s.port p
  (s.slots p).map (fun j => (j, words.getD (wireSlot k.mask k.compact j) 0))

/-- One frame as an output port drives it: a value or high impedance for each wire slot. -/
def State.frameOut (s : State) (p : Nat) (xs : Tbl Int) : List (Option Int) :=
  let k := s.port p
  let n := cfgSlots (s.gCfg (p / 4))
  let idle : Option Int := if cfgDriven (s.pCfg p) then some 0 else none
  let active := (s.slots p).map (fun j => (wireSlot k.mask k.compact j, (tget xs j).getD 0))
  (List.range n).map (fun i => match active.find? (fun a => a.1 == i) with
    | some a => some a.2
    | none => idle)

/-! ### What a destination sends -/

/-- The announcement route of R221, and whether the override acts. -/
def State.ovrRoute (s : State) : Nat := fieldOf (s.reg Reg.SPK_OVR_CFG) 2 5
def State.ovrEmpty (s : State) : Bool := !(s.route s.ovrRoute).cfg.enable || (s.route s.ovrRoute).cfg.src.kind == 0
def State.ovrActs (s : State) : Bool := bitOf (s.reg Reg.SPK_OVR_CFG) 0 && !s.ovrEmpty

/-- The destination under which the corridor samples of route `r` itself are kept. -/
def ownDest (r : Nat) : Dest := { kind := 0, index := r, chan := 0 }

/-- Weight and MUTE_N gain at output index `k` (R221, R222). -/
def State.stepMix (s : State) (k : Nat) : State :=
  let o := ovrAt s.ovr k
  let mn := ((o.mnNext.filter (fun n => n.1 ≤ k)).foldl (fun (r : Ramp) n => r.start n.2.1 n.2.2) o.mn).next
  let w := if s.ovrActs then ovrWeight o k else 0
  let g := if bitOf (s.reg Reg.SPK_MUTE_CFG) 0 then mn.value else 2 ^ 27
  { s with ovr := { o with mn := mn, mnNext := o.mnNext.filter (fun n => decide (k < n.1)), log := ((k, w, g) :: o.log).take 4 } }

def State.mixAt (s : State) (k : Nat) : Int × Int :=
  match s.ovr.log.find? (fun p => p.1 == k) with
  | some p => p.2
  | none => (0, 2 ^ 27)

/-- The announcement at output index `k`, scaled by OVR_GAIN. -/
def State.announcement (s : State) (k : Nat) : Int :=
  match s.corr.find? (fun p => p.1 == (k, ownDest s.ovrRoute)) with
  | some p => sat427 (rdiv (p.2.1 * gain427 (min 2304 (fieldOf (s.reg Reg.SPK_OVR_GAIN) 0 16))) (2 ^ 27))
  | none => 0

/-- The sample of a destination at output index `k`, and whether a route brings it. `fed`: a feed holds the
destination, and its sample is `x`. -/
def State.destSample (s : State) (k : Nat) (d : Dest) (fed : Bool) (x : Int) : Int × Bool :=
  let m := s.mixAt k
  match s.corr.find? (fun p => p.1 == (k, d)) with
  | some p => (if p.2.2 then p.2.1 else sat427 (rdiv (p.2.1 * m.2) (2 ^ 27)), true)
  | none => (if fed then ovrMix (bitOf (s.reg Reg.SPK_OVR_CFG) 1) m.1 m.2 x (s.announcement k) else 0, false)

/-- Every live route takes its source sample of input index `m` (R215); every route shows whether its source is there (R216). -/
def State.stepRoutes (s : State) (m : Nat) (fetch : Dest → Int × Bool) : State :=
  s.routes.foldl (fun s p =>
    let r := p.2
    if r.live then
      let (r1, y, n) := routeSample fetch r
      let out := (ownDest p.1 :: r.outs).map (fun d => ((m, d), (y, r.cfg.exempt)))
      ({ s with routes := tset s.routes p.1 r1, corr := s.corr ++ out } : State).count Reg.SPK_CORR_SAT n
    else { s with routes := tset s.routes p.1 { r with absent := (fetch r.cfg.src).2 } })
    { s with corr := s.corr.filter (fun p => decide (m < p.1.1 + 4)) }

/-- A live route holds the destination (R216). -/
def State.routeHolds (s : State) (d : Dest) : Bool := s.routes.any (fun p => p.2.live && p.2.outs.contains d)

/-- The feed whose block in emit goes to a destination. -/
def State.emitFeed (s : State) (d : Dest) : Option Nat :=
  (s.pipe.emitTo.find? (fun p => p.2.1 == d || p.2.2 == d)).map Prod.fst

/-- A feed is configured to send to a destination. -/
def State.feedHolds (s : State) (d : Dest) : Bool := s.feeds.any (fun p => p.2.cfg.dest0 == d || p.2.cfg.dest1 == d)

/-- A 64-bit counter in a pair of registers. -/
def State.count64 (s : State) (off n : Nat) : State :=
  let v := (s.reg off).toNat + 2 ^ 32 * (s.reg (off + 4)).toNat + n
  (s.setReg off (word v)).setReg (off + 4) (word (v / 2 ^ 32))

/-! ### Streams of the ports -/

/-- Channel-samples that a port's buffers hold. -/
def Port.heldSamples (k : Port) : Nat :=
  ((k.rx.filter (fun r => decide (k.from_ ≤ r.1))).map (fun r => r.2.length)).sum + (k.queue.map (fun r => r.2.length)).sum

/-- The stream of a port is added at boundary `b`, or counts again from it (`fresh` false), R289, R292: an input port holds
the two frames before it. -/
def State.startPort (s : State) (fresh : Bool) (b p : Nat) : State :=
  let k := s.port p
  if cfgOut (s.pCfg p) then s.setPort p { k with from_ := b, first := if fresh then b else k.first, rx := [], queue := [] }
  else
    let zeros : Tbl Int := (s.slots p).map (fun j => (j, 0))
    let got (i : Nat) : Option (Tbl Int) := tget k.rx i
    let row (i : Nat) : Nat × Tbl Int := (i, (got i).getD zeros)
    let d (i : Nat) : LedDelta := match got i with
      | some x => if k.rxSyn.contains i then { syn := x.length } else { acc := x.length, clip := (tget k.rxClip i).getD 0 }
      | none => { syn := zeros.length }
    ((s.setPort p { k with from_ := b, rx := [row b, row (b + 1)], queue := [] }).tally p (d b)).tally p (d (b + 1))

/-- The stream of a port is removed; what it holds is DISCARDED. -/
def State.stopPort (s : State) (p : Nat) : State :=
  let k := s.port p
  (s.setPort p { k with rx := [], queue := [], tail := [], pin := [] }).tally p { dis := k.heldSamples }

/-- 2 ms in samples. -/
def State.len2 (s : State) : Nat := s.fs / 500

/-- One received frame of an input port of a leader group: input index m (R280). -/
def State.leaderIn (s : State) (m p : Nat) (words : List SlotWord) : State :=
  let raw := cfgRaw (s.pCfg p)
  let w := cfgWidth (s.gCfg (p / 4))
  let fr := s.takeFrame p words
  let k := s.port p
  let clip := (fr.filter (fun x => clipIn raw w x.2)).length
  let s1 := s.setPort p { k with rx := tset k.rx m (fr.map (fun x => (x.1, wordIn raw w x.2))), frames := if k.acts then k.frames + 1 else k.frames,
                                 rxClip := tset (k.rxClip.filter (fun r => decide (m < r.1 + 2))) m clip }
  if k.acts ∧ k.from_ ≤ m then s1.tally p { acc := fr.length, clip := clip } else s1

/-- How far the bridge of group `g` is from a delay of 24 samples at index `m`, in 1/4096 sample: within ±0.25 sample, and
within ±0.05 of a constant (R282). -/
def bridgeSkew (g m : Nat) : Int :=
  clampI (-1024) 1024 (clampI (-1024) 1024 (Config.bridgeDelay g) + clampI (-204) 204 (Config.bridgeWander g m))

/-- A bridge sample from samples at their distances (assumption 58): weights that are even about the point the group delay
names. -/
def bridgeSum (g : Nat) (xs : List (Nat × Int)) : Int :=
  sat427 (rdiv ((xs.map (fun x => x.2 * Config.bridgeTap g x.1)).sum) (2 ^ 27))

/-- Distance of a received frame from input index m: one that ends at time t gets index t + 1 in a leader group (R280), and
24 samples more at the bridge output. -/
def inDistance (g m t : Nat) : Nat := ((t + 25 * 4096 : Nat) + bridgeSkew g m - (m * 4096 : Nat)).natAbs

/-- Distance of output index `k` from a frame that starts at time `t`: in a leader group it starts 2 samples after the index. -/
def outDistance (g m k t : Nat) : Nat := ((k + 26) * 4096 + bridgeSkew g m - (t : Nat)).natAbs

/-- The frame a bridge sample of index m is nearest to repeats the one before it (R287). -/
def nearestRepeats (g m : Nat) (raw : List ((Nat × Bool) × List Int)) : Bool :=
  let dist (f : (Nat × Bool) × List Int) : Nat := inDistance g m f.1.1
  match raw with
  | [] => false
  | f :: r => (r.foldl (fun b g => if dist g < dist b then g else b) f).1.2

/-- The gain of a follower's input at index m, and whether m is built from received data (R285, R286). -/
def Group.input (len m : Nat) (g : Group) : Group × Bool :=
  let g1 := if g.fadeIn = some m then { g with fade := g.fade.start (2 ^ 27) len, lostAt := none, again := false } else g
  let g2 := if g1.lostAt = some m then { g1 with fade := g1.fade.start 0 len, fadeIn := none } else g1
  let on := g2.fadeIn.any (fun f => decide (f ≤ m))
  ({ g2 with fade := if on || g2.lostAt.any (fun l => decide (l ≤ m)) then g2.fade.next else g2.fade }, on)

/-- One bridge output sample of an input port of a follower group. -/
def State.followerIn (s : State) (m p : Nat) (g : Group) (data : Bool) : State :=
  let k := s.port p
  let sl := s.slots p
  let again := !data && g.again && g.lostAt.any (fun l => decide (l ≤ m))
  let old := k.tail.getD (k.tail.length - 1 - (m - g.lostAt.getD m) % max 1 k.tail.length) []
  let x (j : Nat) : Int :=
    if again then sampleAt old j
    else bridgeSum (p / 4) (k.raw.map (fun f => (inDistance (p / 4) m f.1.1, sampleAt f.2 j)))
  let y (j : Nat) : Int := sat427 (rdiv (x j * g.fade.value) (2 ^ 27))
  let tail := if data then ((List.range 32).map (fun j => if sl.contains j then x j else 0) :: k.tail).take s.len2 else k.tail
  let built := data && !nearestRepeats (p / 4) m k.raw
  let s1 := s.setPort p { k with rx := tset (if k.acts then k.rx else k.rx.filter (fun r => decide (m < r.1 + 2))) m (sl.map (fun j => (j, y j))),
                                 tail := tail, rxSyn := if built then k.rxSyn.filter (fun i => decide (m < i + 2)) else
                                   m :: k.rxSyn.filter (fun i => decide (m < i + 2)) }
  if k.acts ∧ k.from_ ≤ m then s1.tally p (if built then { acc := sl.length } else { syn := sl.length })
  else s1

/-- Every input port brings input index m: leader frames as received, follower samples at the bridge output. -/
def State.serialIn (s : State) (m : Nat) (words : List (Nat × List SlotWord)) : State :=
  (List.range 16).foldl (fun s g =>
    let gr := s.group g
    let r := gr.input s.len2 m
    let s0 := if cfgFollow (s.gCfg g) then s.setGroup g r.1 else s
    (portsOf g).foldl (fun s p =>
      let k := s.port p
      if cfgOut (s.pCfg p) then s
      else if gr.st = .leading then
        if k.acts ∨ k.wait.any (fun w => w.1) then
          s.leaderIn m p (((words.find? (fun x => x.1 == p)).map Prod.snd).getD [])
        else s
      else if gr.st ≠ .off ∧ (k.acts ∨ k.wait.any (fun w => w.1)) then s.followerIn m p r.1 r.2
      else s) s0) s

/-- A sample of a channel joins the block that enters ingest; indexes it did not bring are zeros. -/
def State.ingest (s : State) (i key : Nat) (x : Int) : State :=
  let l := (tget s.pipe.cur key).getD []
  { s with pipe := { s.pipe with cur := tset s.pipe.cur key (l ++ List.replicate (i % 16 - l.length) 0 ++ [x]) } }

/-- Input index i crosses the ingest boundary (R29): it is delivered, or in STANDBY dropped. -/
def State.serialIngest (s : State) (i : Nat) : State :=
  (List.range 64).foldl (fun s p =>
    let k := s.port p
    let row := if s.streaming p && decide (k.from_ ≤ i) then (tget k.rx i).getD [] else []
    let s1 := s.setPort p { k with rx := k.rx.filter (fun r => decide (i < r.1)) }
    if s.counting then
      (row.foldl (fun s x => s.ingest i (srcKey 1 p x.1) x.2) s1).addLed p { del := row.length }
    else s1) s

/-- A destination of a serial slot. -/
def slotDest (p j : Nat) : Dest := { kind := 1, index := p, chan := j }

/-- The block that enters emit at boundary t is taken by an output port whose stream runs (R289). -/
def State.takePort (s : State) (t p : Nat) : State :=
  if cfgOut (s.pCfg p) && s.streaming p then
    let sl := s.slots p
    let fed (j : Nat) : Option (List Int) := (s.emitFeed (slotDest p j)).map (fun f => (tget s.pipe.emit f).getD [])
    let held := (sl.filter (fun j => (fed j).isSome || s.routeHolds (slotDest p j))).length
    let row (i : Nat) : Tbl (Bool × Int) := sl.map (fun j => (j, ((fed j).isSome, sampleAt ((fed j).getD []) i)))
    let k := s.port p
    (s.setPort p { k with queue := k.queue ++ (List.range 16).map (fun i => (t + i, row i)) }).tally p
      { acc := 16 * held, syn := 16 * (sl.length - held) }
  else s

def State.serialTake (s : State) (t : Nat) : State := (List.range 64).foldl (fun s p => s.takePort t p) s

/-- A port added at a boundary takes the block that enters emit there. -/
def State.takeNew (s : State) (p : Nat) : State := if s.counting then s.takePort s.msc p else s

/-- The samples that an output port sends for output index k, and how many of them routes bring. -/
def State.slotSamples (s : State) (k p : Nat) (taken : Tbl (Bool × Int)) : Tbl Int × Nat :=
  let one (j : Nat) : Int × Bool :=
    if s.counting then
      match tget taken j with
      | some x => s.destSample k (slotDest p j) x.1 x.2
      | none => (0, false)
    else s.destSample k (slotDest p j) (s.feedHolds (slotDest p j)) 0
  let sl := (s.slots p).map (fun j => (j, one j))
  (sl.map (fun x => (x.1, x.2.1)), (sl.filter (fun x => x.2.2)).length)

/-- Output index k leaves each output port: in a leader group in the frame that ends (R280, R289), in a follower
group into the bridge. -/
def State.serialOut (s : State) (k : Nat) : State :=
  (List.range 64).foldl (fun s p =>
    let pt := s.port p
    let gr := s.group (p / 4)
    if cfgOut (s.pCfg p) && s.streaming p then
      let raw := cfgRaw (s.pCfg p)
      let w := cfgWidth (s.gCfg (p / 4))
      let taken := (tget pt.queue k).getD []
      let r := if pt.from_ ≤ k then s.slotSamples k p taken else ([], 0)
      let sl := s.slots p
      let sent := (taken.filter (fun x => sl.contains x.1)).length
      let q := pt.queue.filter (fun x => decide (k < x.1))
      let lead := gr.st == .leading
      let words := tmap (fun _ x => wordOut raw w x) r.1
      let row := (List.range 32).map (fun j => (tget r.1 j).getD 0)
      let pt1 := if lead then (if pt.first ≤ k then { pt with queue := q, pin := s.frameOut p words, frames := pt.frames + 1 } else { pt with queue := q })
        else { pt with queue := q, tail := (row :: pt.tail).take 128 }
      let s1 := s.setPort p pt1
      if pt.from_ ≤ k then
        if s.counting then
          if lead ∨ gr.st = .locked then
            s1.addLed p { del := sl.length, syn := sl.length - sent, dis := taken.length - sent,
                          clip := if lead then (r.1.filter (fun x => clipOut raw w x.2)).length else 0 }
          else s1.addLed p { dis := taken.length }
        else if lead ∨ gr.st = .locked then s1.count64 Reg.SPK_CORR_STBY_LO r.2 else s1
      else s1
    else s) s

/-- The source sample of a route from a serial slot: absent outside the mask and where no stream runs (R105). -/
def State.slotSource (s : State) (m p j : Nat) : Int × Bool :=
  match (tget (s.port p).rx m).bind (fun r => tget r j) with
  | some x => if s.streaming p then (x, false) else (0, true)
  | none => (0, true)

/-! ### Configuration (R279, R281, R292) -/

def nominalRate (n : Nat) : Nat := [44100, 48000, 88200, 96000, 176400, 192000, 0, 0].getD n 0

/-- A ratio of R281's table for the media rate. -/
def nominalOk (r96 : Bool) (n : Nat) : Bool := decide (n < 4) || (decide (n < 6) && r96)

/-- ACTIVE_CH: active slots over the ports whose ENABLE acts. -/
def State.activeCh (s : State) (g : Nat) : Nat := ((portsOf g).map (fun p => if (s.port p).acts then (s.slots p).length else 0)).sum

/-- Active slots over the ports of a group that ENABLE names, one port's ENABLE taken as given. -/
def State.activeSlots (s : State) (g : Nat) (with_ : Option Nat) : Nat :=
  ((portsOf g).map (fun p => if bitOf (s.pCfg p) 0 ∨ with_ = some p then (s.slots p).length else 0)).sum

/-- The limits of R278, R279 and R281 for a group that is to be enabled. -/
def State.groupOk (s : State) (g : Nat) : Bool :=
  let c := s.gCfg g
  let n := cfgSlots c
  let rate := if cfgFollow c then nominalRate (cfgNominal c) else s.fs
  decide (1 ≤ n) && decide (n ≤ 32) && fieldOf c 8 2 != 3 && decide (n * cfgWidth c * rate ≤ 49152000) &&
    (!cfgFollow c || (nominalOk s.clock.media.rate96 (cfgNominal c) && decide (s.activeSlots g none ≤ 64))) &&
    (portsOf g).all (fun p => !(bitOf (s.pCfg p) 0 && cfgRaw (s.pCfg p)) || cfgWidth c == 32)

/-- The same for a port. -/
def State.portOk (s : State) (p : Nat) : Bool :=
  let c := s.gCfg (p / 4)
  (!cfgRaw (s.pCfg p) || (fieldOf c 8 2 != 3 && cfgWidth c == 32)) &&
    (!(cfgFollow c && bitOf c 0) || decide (s.activeSlots (p / 4) (some p) ≤ 64))

/-- A refused ENABLE or mask pair (R279, R283). -/
def State.sapRefuse (s : State) (g : Nat) : State := (s.setGroup g { s.group g with cfgErr := true }).evt Reg.SAP_EVT 4

/-- The register after a write: every field while ENABLE stands at 0, else ENABLE alone (R292). -/
def sapTaken (old v mask : Word) : Word := if bitOf old 0 then (old &&& ~~~1#32) ||| (v &&& 1#32) else v &&& mask

/-- The ENABLE change that waits after ENABLE is stored as `v`: none where that is in force. -/
def sapWait (acts v : Bool) (at_ : Nat) : Option (Bool × Nat) := if acts = v then none else some (v, at_)

def sapGroupCfgWrite (g : Nat) (v : Word) (s : State) : State :=
  let off := gReg Reg.SAP_Gg_CFG g
  let new := sapTaken (s.reg off) v 0x7FFFF
  let s1 := s.setReg off new
  let asks := bitOf new 0 && !bitOf (s.reg off) 0
  let s2 := if asks then (if s1.groupOk g then s1.setGroup g { s1.group g with cfgErr := false } else (s1.setReg off (new &&& ~~~1#32)).sapRefuse g)
    else s1
  let en := bitOf (s2.reg off) 0
  let at_ := if s.valid then upTo (if en && !cfgFollow new then 128 else 16) (s.msc + 16) else 0
  s2.setGroup g { s2.group g with wait := sapWait (s2.group g).acts en at_ }

def execSapGroupCfgWrite (g : Fin 16) (v : Word) (s : State) : Host.Outcome State Fault Refusal := .next (barWrite (fun s => sapGroupCfgWrite g.val v s) s)

/-- ENABLE of a port acts. -/
def State.portActs (s : State) (p : Nat) (v : Bool) : State :=
  let k := { s.port p with acts := v, wait := none }
  if v then
    let s1 := s.setPort p k
    if (s.group (p / 4)).st = .off then s1 else (s1.startPort true s.msc p).takeNew p
  else (if (s.group (p / 4)).st = .off then s else s.stopPort p).setPort p
    { k with rx := [], queue := [], tail := [], pin := [] }

def sapPortCfgWrite (p : Nat) (v : Word) (s : State) : State :=
  let off := pReg Reg.SAP_Pp_CFG p
  let new := sapTaken (s.reg off) v 0xF
  let s1 := s.setReg off new
  let asks := bitOf new 0 && !bitOf (s.reg off) 0
  let s2 := if asks then
      (if s1.portOk p then s1.setGroup (p / 4) { s1.group (p / 4) with cfgErr := false } else (s1.setReg off (new &&& ~~~1#32)).sapRefuse (p / 4))
    else s1
  let en := bitOf (s2.reg off) 0
  if (s.group (p / 4)).st = .off then s2.portActs p en
  else s2.setPort p { s2.port p with wait := sapWait (s2.port p).acts en (if s.valid then upTo 16 (s.msc + 16) else 0) }

def execSapPortCfgWrite (p : Fin 64) (v : Word) (s : State) : Host.Outcome State Fault Refusal := .next (barWrite (fun s => sapPortCfgWrite p.val v s) s)

/-- The clocks or the bridge of a group start at boundary `b`, with the streams of its enabled ports. -/
def State.startGroup (s : State) (b g : Nat) : State :=
  let st : GroupState := if cfgFollow (s.gCfg g) then .acquiring else .leading
  let s1 := s.setGroup g { s.group g with st := st, acts := true, wait := none, faults := 0, lostAt := none, fadeIn := none, fade := {},
                                          again := false }
  (portsOf g).foldl (fun s p => if (s.port p).acts then (s.startPort true b p).takeNew p else s) s1

def State.stopGroup (s : State) (g : Nat) : State :=
  let s1 := (portsOf g).foldl (fun s p => if (s.port p).acts then s.stopPort p else s) s
  s1.setGroup g { s1.group g with st := .off, acts := false, wait := none, faults := 0, lostAt := none, fadeIn := none, fade := {} }

/-- A waiting ENABLE change of a group, or of a port in a group that runs, whose boundary `t` has come (R292). -/
def State.groupDue (s : State) (t g : Nat) : Bool :=
  (s.group g).wait.any (fun w => decide (w.2 ≤ t) && (!w.1 || cfgFollow (s.gCfg g) || t % 128 == 0))
def State.portDue (s : State) (t p : Nat) : Bool :=
  (s.group (p / 4)).st != .off && (s.port p).wait.any (fun w => decide (w.2 ≤ t))
def State.enablesDue (s : State) (t : Nat) : Bool := (List.range 16).any (s.groupDue t) || (List.range 64).any (s.portDue t)

/-- The streams of the serial ports start with a valid MSC (`anew`), or again after STANDBY, at boundary `b`: leader clocks
run from there; with a new MSC a bridge that is LOCKED fades in there, and after STANDBY it goes on as it is (R285). -/
def State.serialStart (s : State) (anew : Bool) (b : Nat) : State :=
  (List.range 16).foldl (fun s g =>
    let gr := s.group g
    if gr.acts then
      let st : GroupState := if cfgFollow (s.gCfg g) then gr.st else .leading
      let gr1 := { gr with st := st }
      let s1 := s.setGroup g (if anew then { gr1 with fade := {}, lostAt := none, again := false, fadeIn := if st = .locked then some b else none }
        else gr1)
      (portsOf g).foldl (fun s p => if (s.port p).acts then s.startPort (gr.st == .off) b p else s) s1
    else s) s

/-- The MSC is no longer valid: the leader clocks stop and every stream is removed. -/
def State.serialStop (s : State) : State :=
  (List.range 16).foldl (fun s g =>
    let s1 := (portsOf g).foldl (fun s p => if s.streaming p then s.stopPort p else s) s
    let gr := s1.group g
    s1.setGroup g { gr with st := if gr.st = .leading then .off else gr.st, lostAt := none, fadeIn := none, fade := {} }) s

/-- Every buffer of the serial ports is emptied (R33, entry to STANDBY). -/
def State.serialEmpty (s : State) : State :=
  (List.range 64).foldl (fun s p => if s.streaming p then s.setPort p { s.port p with rx := [], queue := [] } else s) s

/-! ### Slot masks (R283, R284) -/

def sapMaskctlWrite (p : Nat) (v : Word) (s : State) : State :=
  let s1 := s.setReg (pReg Reg.SAP_Pp_MASKCTL p) (v &&& 1#32)
  s1.setPort p { s1.port p with pend := some (s.reg (pReg Reg.SAP_Pp_MASK p), bitOf v 0) }

def execSapMaskctlWrite (p : Fin 64) (v : Word) (s : State) : Host.Outcome State Fault Refusal := .next (barWrite (fun s => sapMaskctlWrite p.val v s) s)

/-- A pending pair applies at a frame start; one that breaks R283 or the total of R281 is dropped. -/
def maskPairApply (p : Nat) (s : State) : State :=
  let k := s.port p
  let g := p / 4
  match k.pend with
  | none => s
  | some (mask, compact) =>
    if (s.group g).st.frames then
      let s1 := s.setPort p { k with mask := mask, compact := compact, pend := none, toggle := !k.toggle, maskMsc := s.resMsc }
      let fits := !(cfgFollow (s.gCfg g) && bitOf (s.pCfg p) 0) || decide (s1.activeSlots g none ≤ 64)
      if maskOk (cfgSlots (s.gCfg g)) mask compact && fits then s1.setGroup g { s1.group g with cfgErr := false }
      else (s.setPort p { k with pend := none }).sapRefuse g
    else s

def execMaskPairApply (p : Fin 64) (s : State) : Host.Outcome State Fault Refusal := .next (maskPairApply p.val s)

/-! ### Bridge states and clock faults (R285–R290) -/

/-- A follower's frame on the pins is taken or driven by the ports of its group. `rep`: the last frame again. DESIGN CHOICE
(assumption 64): the clips of a follower's input count on the frames that its ports receive, not behind the bridge (R40). -/
def State.bridgeFrame (s : State) (g : Nat) (words : List SlotWord) (rep : Bool) : State :=
  let w := cfgWidth (s.gCfg g)
  let t := s.msc * 4096 + clampN 0 4095 s.draw.1.toNat
  (portsOf g).foldl (fun s p =>
    let k := s.port p
    let raw := cfgRaw (s.pCfg p)
    if ¬k.acts ∧ (cfgOut (s.pCfg p) ∨ ¬k.wait.any (fun w => w.1)) then s
    else if cfgOut (s.pCfg p) then
      if rep ∨ s.msc < k.first + 26 then s
      else
        let on := (s.group g).st == .locked
        let y (j : Nat) : Int :=
          if on then bridgeSum g (k.tail.zipIdx.map (fun f => (outDistance g s.msc (s.msc - 3 - f.2) t, sampleAt f.1 j))) else 0
        let clips := ((s.slots p).filter (fun j => clipOut raw w (y j))).length
        (s.setPort p { k with pin := s.frameOut p ((s.slots p).map (fun j => (j, wordOut raw w (y j)))), frames := k.frames + 1 }).tally p
          { clip := clips }
    else
      let wire := if rep then k.wire else (List.range 32).map (fun i => wordIn raw w (words.getD (32 * (p % 4) + i) 0))
      let row := (List.range 32).map (fun j => if (s.slots p).contains j then sampleAt wire (wireSlot k.mask k.compact j) else 0)
      let clips := if rep then 0 else ((s.takeFrame p (words.drop (32 * (p % 4)))).filter (fun x => clipIn raw w x.2)).length
      let s1 := s.setPort p { k with wire := wire, raw := (((t, rep), row) :: k.raw).take 128,
                                     frames := if rep ∨ ¬k.acts then k.frames else k.frames + 1 }
      if k.acts then s1.tally p { clip := clips } else s1) s.draw.2

/-- The group leaves LOCKED for RELOCK, which enters ACQUIRING at once (R285, R288). -/
def State.relock (s : State) (g : Nat) : State :=
  let gr := s.group g
  (s.setGroup g { gr with st := .acquiring, faults := 0, again := false,
                          lostAt := if gr.fadeIn.isSome then some (s.msc + 2) else none }).both (gReg Reg.SAP_Gg_RELOCKS g) Reg.SAP_EVT 1

def rateStep (g : Nat) (s : State) : State := if (s.group g).st = .locked then s.relock g else s

def execRateStep (g : Fin 16) (s : State) : Host.Outcome State Fault Refusal := .next (rateStep g.val s)

def groupLock (g : Nat) (s : State) : State :=
  let gr := s.group g
  if gr.st = .acquiring then
    (s.setGroup g { gr with st := .locked, faults := 0,
                            fadeIn := some (if s.valid then s.nextMul 128 else 0) }).evt Reg.SAP_EVT 5
  else s

def execGroupLock (g : Fin 16) (s : State) : Host.Outcome State Fault Refusal := .next (groupLock g.val s)

def bclkLoss (g : Nat) (s : State) : State :=
  let gr := s.group g
  let lost := if gr.st = .locked ∧ gr.fadeIn.isSome then { gr with lostAt := some (s.msc + 25), again := true } else gr
  if gr.st = .locked ∨ gr.st = .acquiring then (s.setGroup g { lost with st := .lost, faults := 0 }).both (gReg Reg.SAP_Gg_LOSSES g) Reg.SAP_EVT 0
  else s

def execBclkLoss (g : Fin 16) (s : State) : Host.Outcome State Fault Refusal := .next (bclkLoss g.val s)

def bclkReturn (g : Nat) (s : State) : State :=
  if (s.group g).st = .lost then s.setGroup g { s.group g with st := .acquiring, faults := 0 } else s

def execBclkReturn (g : Fin 16) (s : State) : Host.Outcome State Fault Refusal := .next (bclkReturn g.val s)

/-- A follower's frame-start edge at its place: the frame before it is taken. A leader's edges fall with the
sample periods (R280). -/
def frameStartEdge (g : Nat) (words : List SlotWord) (s : State) : State :=
  let gr := s.group g
  if gr.st = .locked ∨ gr.st = .acquiring then (s.setGroup g { gr with faults := 0 }).bridgeFrame g words false else s

def execFrameStartEdge (g : Fin 16) (words : List SlotWord) (s : State) : Host.Outcome State Fault Refusal := .next (frameStartEdge g.val words s)

/-- A second framing fault in a row while LOCKED (R287). -/
def Group.relocks (g : Group) : Bool := g.st == .locked && decide (1 ≤ g.faults)

def fsyncMissing (g : Nat) (words : List SlotWord) (s : State) : State :=
  let gr := s.group g
  if gr.st = .locked ∨ gr.st = .acquiring then
    if gr.relocks then s.relock g
    else ((s.setGroup g { gr with faults := gr.faults + 1 }).bridgeFrame g words false).both (gReg Reg.SAP_Gg_FSYNC_FIXED g) Reg.SAP_EVT 2
  else s

def execFsyncMissing (g : Fin 16) (words : List SlotWord) (s : State) : Host.Outcome State Fault Refusal := .next (fsyncMissing g.val words s)

def fsyncGlitch (g : Nat) (s : State) : State :=
  let gr := s.group g
  if gr.st = .locked ∨ gr.st = .acquiring then
    let s1 := ((s.setGroup g { gr with faults := gr.faults + 1 }).bridgeFrame g [] true).both (gReg Reg.SAP_Gg_GLITCHES g) Reg.SAP_EVT 3
    if gr.relocks then s1.relock g else s1
  else s

def execFsyncGlitch (g : Fin 16) (s : State) : Host.Outcome State Fault Refusal := .next (fsyncGlitch g.val s)

end Sys2Proof.Machine
end

