-- ==== Sys2Proof/Machine/Network.lean ====
section
/-!
DEFINITION. Network ports and flows (spec chapter 12): links, the supported packet kinds (R293–R295), receive and
transmit flows sample by sample (R296–R304, R308), FLOW_ADD and FLOW_REMOVE, the Trosyn position stream (R305–R307),
the module buses, and the origin step (R59).
-/
namespace Sys2Proof.Machine

/-! ### Ports (R293–R295) -/

def State.setNetPort (s : State) (n : Nat) (v : NetPort) : State := { s with net := { s.net with ports := s.net.ports.set n v } }
def netReg (off n : Nat) : Nat := off + 0x40 * n
def State.netSend (s : State) (o : List NetOut) : State := { s with net := { s.net with sent := o.reverse ++ s.net.sent } }

/-- The layer that SPEED lets a port run (R293): 3 is treated as 0; 2 takes the layer that is being tried. -/
def State.netLayer (s : State) (n : Nat) : NetLink :=
  let v := fieldOf (s.reg (netReg Reg.NET_Pn_CFG n)) 1 2
  if v = 1 ∨ (v = 2 ∧ (s.netPort n).tryLow) then .up1 else .up10

/-- R294: a port's state changes; only an enabled port comes up, on the layer of R293. SPEED 2 begins anew with 10GBASE-R. -/
def netLinkChange (n : Nat) (link : NetLink) (s : State) : State :=
  let c := s.reg (netReg Reg.NET_Pn_CFG n)
  if (s.netPort n).link = link ∨ (link ≠ .down ∧ (¬bitOf c 0 ∨ link ≠ s.netLayer n)) then s
  else
    let k := s.netPort n
    let down := link = .down
    (s.setNetPort n { k with link := link, v2 := if down then false else k.v2, tryLow := !down && k.tryLow,
                             triedAt := if down then s.samples else k.triedAt }).evt Reg.NET_EVT 0

def execNetLinkChange (port : Fin 2) (link : NetLink) (s : State) : Host.Outcome State Fault Refusal := .next (netLinkChange port.val link s)

/-- SPEED 2 goes on to the other layer, after 500 ms of 10GBASE-R or 2 s of 1000BASE-X (R293). -/
def autoSpeedTimeout (n : Nat) (s : State) : State :=
  let c := s.reg (netReg Reg.NET_Pn_CFG n)
  let k := s.netPort n
  if bitOf c 0 ∧ fieldOf c 1 2 = 2 ∧ k.link = .down ∧ s.passed k.triedAt (if k.tryLow then 2000000 else 500000) then
    s.setNetPort n { k with tryLow := !k.tryLow, triedAt := s.samples }
  else s

def execAutoSpeedTimeout (port : Fin 2) (s : State) : Host.Outcome State Fault Refusal := .next (autoSpeedTimeout port.val s)

/-- A packet reached the port for its own address (R295). -/
def State.forMe (s : State) (n : Nat) (ip : Word) : Bool := s.netUp n && s.reg (netReg Reg.NET_Pn_IP n) == ip

def execArpRequest (port : Fin 2) (target sender : Word) (s : State) : Host.Outcome State Fault Refusal :=
  .next (if s.forMe port.val target then s.netSend [.arpReply port target sender] else s)

def execIcmpEcho (port : Fin 2) (dest sender : Word) (payload : List Byte) (s : State) : Host.Outcome State Fault Refusal :=
  .next (if s.forMe port.val dest then s.netSend [.echoReply port sender payload] else s)

/-- The membership report of a leg of a flow (R295). -/
def igmpReport (v2 : Bool) (c : FlowCfg) (leg : Fin 2 × Word × Nat × Word) : NetOut :=
  .igmpReport leg.1 v2 leg.2.1 (if c.ssm && !v2 then [leg.2.2.2] else []) (c.vid leg.1)

def State.reports (s : State) (c : FlowCfg) : List NetOut :=
  (c.legs.filter (fun l => s.netUp l.1.val)).map (fun l => igmpReport (s.netPort l.1.val).v2 c l)

/-- The reports of the Trosyn stream's group (R295, R305). -/
def State.trsReports (s : State) : List NetOut :=
  let c := s.reg Reg.NET_TRS_CFG
  let ps : List (Fin 2) := [0, 1]
  if bitOf c 0 then
    (ps.filter (fun p => bitOf c (1 + p.val) && s.netUp p.val)).map (fun p =>
      NetOut.igmpReport p (s.netPort p.val).v2 (s.reg Reg.NET_TRS_GROUP) [] 0)
  else []

/-- A query: every membership of the port is reported (R295). -/
def igmpQuery (n : Fin 2) (v2 : Bool) (s : State) : State :=
  if s.netUp n.val then
    let k := s.netPort n.val
    let s1 := s.setNetPort n.val { k with v2 := k.v2 || v2 }
    s1.netSend (((s1.net.rx.map (fun f => s1.reports f.2.cfg)).flatten ++ s1.trsReports).filter (fun o => match o with
      | .igmpReport p _ _ _ _ => p == n
      | _ => false))
  else s

def execIgmpQuery (port : Fin 2) (v2 : Bool) (s : State) : Host.Outcome State Fault Refusal := .next (igmpQuery port v2 s)

def execUnsupportedPacket (port : Fin 2) (s : State) : Host.Outcome State Fault Refusal :=
  .next (if s.netUp port.val then s.count (netReg Reg.NET_Pn_DROPPED port.val) 1 else s)

/-! ### Flows: common -/

def State.rxFlow (s : State) (i : Nat) : Option Flow := tget s.net.rx i
def State.setRx (s : State) (i : Nat) (f : Flow) : State := { s with net := { s.net with rx := tset s.net.rx i f } }
def State.setTx (s : State) (i : Nat) (f : Flow) : State := { s with net := { s.net with tx := tset s.net.tx i f } }
def flowWidth (c : FlowCfg) : Nat := if c.l24 then 24 else 16
/-- Ledgers of R28. -/
def rxLedger (i : Nat) : Nat := 0x100 + i
def txLedger (i : Nat) : Nat := 0x200 + i

/-- Counter `j` of R300's order gains 1. -/
def Flow.gain (f : Flow) (j : Nat) : Flow :=
  { f with n := f.n.set j (word (min ((f.n.getD j 0).toNat + 1) 0xFFFFFFFF)) }

/-- What the saturation of the counters `js`, which have counted, reports (R443). -/
def Flow.sats (f : Flow) (js : List Nat) : List Fx :=
  (js.filter (fun j => (f.n.getD j 0).toNat = 0xFFFFFFFF)).map (fun j => Fx.sat Reg.NET_STAT_SAT (2 + j) Reg.NET_EVT 5)

/-! ### Receive flows (R297, R299, R300) -/

/-- The value congruent to `x` modulo 2³² that is nearest to `ref`. -/
def extend32 (ref x : Int) : Int :=
  let d := (x - ref) % 2 ^ 32
  if d < 2 ^ 31 then ref + d else ref + d - 2 ^ 32

/-- Input index of the sample with a time-stamp (R297). -/
def State.rtpIndex (s : State) (c : FlowCfg) (t : Word) : Int :=
  let o : Int := s.clock.media.origin
  extend32 (s.msc + o) ((t.toNat : Int) - c.rtpOff + c.linkOff) - o + 2

/-- Big-endian integer of `n` bytes at `o`. -/
def beAt (l : List Byte) (o n : Nat) : Nat := (List.range n).foldl (fun v i => v * 256 + (l.getD (o + i) 0).toNat) 0

/-- The samples of a packet as integer PCM, by sample and channel. -/
def rtpSamples (c : FlowCfg) (payload : List Byte) : List (List Int) :=
  let b := flowWidth c / 8
  (List.range c.pkt).map (fun i => (List.range c.channels).map (fun ch => signed (8 * b) (beAt payload ((i * c.channels + ch) * b) b)))

/-- A packet's destination, UDP port, source filter and VLAN tag match a leg of the flow on this port (R295, R299). -/
def FlowCfg.matches (c : FlowCfg) (port : Fin 2) (p : RtpPacket) : Bool :=
  c.legs.any (fun l => l.1 == port && l.2.1 == p.dest && l.2.2.1 == p.udpPort && (!c.ssm || l.2.2.2 == p.source) && c.vid port == p.vlan)

def FlowCfg.malformed (c : FlowCfg) (p : RtpPacket) : Bool :=
  p.payloadType != c.ptype || (c.ssrc != 0 && p.ssrc != c.ssrc) || p.payload.length != c.pkt * c.channels * (flowWidth c / 8)

/-- In STANDBY a receive flow works only as the source of a corridor route (R308). -/
def State.rxTakes (s : State) (i : Nat) : Bool :=
  s.valid && (s.runs || (s.pwr.mode == .standby && s.routes.any (fun r => r.2.live && r.2.cfg.src.kind == 2 && r.2.cfg.src.index == i)))

/-- A FLOW_REMOVE of the flow waits for a boundary at or before index `m` (R304). -/
def State.removedBy (s : State) (i : Nat) (m : Int) : Bool :=
  s.sched.any (fun c => decide ((c.at_ : Int) ≤ m) && (match c.chg with
    | .flowRemove j => j == i
    | _ => false))

/-- The samples of a packet that count, with their input indexes: from the flow's first one on (R302), and, once a removal is set,
those before it (R304). -/
def State.rtpRows (s : State) (i : Nat) (f : Flow) (p : RtpPacket) (m0 : Int) : List (Int × List Int) :=
  ((rtpSamples f.cfg p.payload).zipIdx.map (fun r => (m0 + r.2, r.1))).filter (fun r =>
    decide ((f.from_ : Int) ≤ r.1) && !s.removedBy i r.1)

/-- The samples of a new packet, each early, late or taken in (R299). -/
def State.rtpTake (s : State) (i : Nat) (f : Flow) (rows : List (Int × List Int)) : State :=
  let c := f.cfg
  let w := flowWidth c
  let late (m : Int) : Bool := decide (m ≤ (s.msc : Int) + 2)
  let early (m : Int) : Bool := decide ((c.linkOff : Int) + 2 * c.pkt < m - 2 - s.msc)
  let good := rows.filter (fun r => !late r.1 && !early r.1)
  let anyLate := rows.any (fun r => late r.1)
  let f1 := if good.isEmpty then f else f.gain 5
  let f2 := if anyLate then f1.gain 0 else f1
  let anyEarly := rows.any (fun r => early r.1)
  let f3 := if anyEarly then f2.gain 1 else f2
  let moved (j : Nat) (b : Bool) : List Nat := if b then [j] else []
  let f4 := { f3 with buf := good.foldl (fun b r => tset b r.1.toNat (r.2.map (pcmIn w))) f3.buf }
  let clips := ((rows.map (fun r => r.2)).flatten.filter (fun v => v == -(2 ^ (w - 1)) || v == 2 ^ (w - 1) - 1)).length
  let s1 := (((s.setRx i f4).fxs (f4.sats (moved 5 (!good.isEmpty) ++ moved 0 anyLate ++ moved 1 anyEarly))).tally (rxLedger i)
    { acc := rows.length * c.channels, dis := (rows.length - good.length) * c.channels, clip := clips })
  if anyLate then s1.evt Reg.NET_EVT 1 else s1

/-- Time-stamps remembered: those of the last 2³¹ samples. -/
def Flow.recent (f : Flow) (now : Nat) : List Seen := f.seen.filter (fun x => decide (now < x.first + 2 ^ 31))

/-- A packet of a flow (R299, R300). -/
def State.rtpFlow (s : State) (i : Nat) (f : Flow) (port : Fin 2) (p : RtpPacket) : State :=
  if f.cfg.malformed p then
    let f1 := f.gain 4
    ((s.setRx i f1).fxs (f1.sats [4])).evt Reg.NET_EVT 3
  else
    let mark (x : Seen) : Seen := if port = 0 then { x with legA := true } else { x with legB := true }
    if f.seen.any (fun x => x.stamp == p.stamp) then
      let marked := f.seen.map (fun (x : Seen) => if x.stamp = p.stamp then mark x else x)
      let f1 := { f with seen := marked }.gain 2
      (s.setRx i f1).fxs (f1.sats [2])
    else
      let m0 := s.rtpIndex f.cfg p.stamp
      let x := mark { stamp := p.stamp, legA := false, legB := false, first := m0.toNat }
      let rows := s.rtpRows i f p m0
      if rows.isEmpty then s else s.rtpTake i { f with seen := x :: f.recent s.msc } rows

def rtpPacket (port : Fin 2) (p : RtpPacket) (s : State) : State :=
  if s.netUp port.val then
    match s.net.rx.find? (fun f => f.2.cfg.matches port p) with
    | some (i, f) => if s.rxTakes i then s.rtpFlow i f port p else s
    | none => s
  else s

def execRtpPacket (port : Fin 2) (p : RtpPacket) (s : State) : Host.Outcome State Fault Refusal := .next (rtpPacket port p s)

/-- The deadline of input index m, the start of MSC m − 2, on every receive flow: a sample that is not there is
filled (R299); a packet that came over one leg alone is counted (R300). -/
def State.rxDeadline (s : State) (m : Nat) : State :=
  s.net.rx.foldl (fun s p =>
    let f := p.2
    if f.from_ ≤ m then
      let c := f.cfg
      let here := (tget f.buf m).isSome
      let one := s.counting && c.dual && f.seen.any (fun x => x.first == m && (x.legA != x.legB))
      let f1 := if one then f.gain 3 else f
      let f2 := if here then f1 else { f1 with buf := tset f1.buf m (List.replicate c.channels 0) }
      let s1 := (s.setRx p.1 f2).tally (rxLedger p.1) { syn := if here then 0 else c.channels, del := c.channels }
      if one then (s1.fxs (f2.sats [3])).evt Reg.NET_EVT 2 else s1
    else s) s

/-- Input index i of every receive flow crosses the ingest boundary. -/
def State.rxIngest (s : State) (i : Nat) : State :=
  s.net.rx.foldl (fun s p =>
    let row := (tget p.2.buf i).getD []
    let s1 := s.setRx p.1 { p.2 with buf := p.2.buf.filter (fun r => decide (i < r.1)) }
    if s.counting then row.zipIdx.foldl (fun s x => s.ingest i (srcKey 2 p.1 x.2) x.1) s1 else s1) s

/-- The source sample of a route: a serial slot or a flow channel (R214, R216). -/
def State.routeSource (s : State) (m : Nat) (d : Dest) : Int × Bool :=
  if d.kind = 1 then s.slotSource m d.index d.chan
  else if d.kind = 2 then
    match s.rxFlow d.index with
    | some f => if d.chan < f.cfg.channels ∧ f.from_ ≤ m then (sampleAt ((tget f.buf m).getD []) d.chan, false) else (0, true)
    | none => (0, true)
  else (0, true)

/-! ### Transmit flows (R297, R298, R308) -/

def flowDest (i ch : Nat) : Dest := { kind := 2, index := i, chan := ch }

/-- The block that enters emit at boundary t is taken by every transmit flow. -/
def State.txTake (s : State) (t : Nat) : State :=
  s.net.tx.foldl (fun s p =>
    let f := p.2
    let chans := List.range f.cfg.channels
    let fed (ch : Nat) : Option (List Int) := (s.emitFeed (flowDest p.1 ch)).map (fun k => (tget s.pipe.emit k).getD [])
    let held := (chans.filter (fun ch => (fed ch).isSome || s.routeHolds (flowDest p.1 ch))).length
    let rows := (List.range 16).map (fun i => (t + i, chans.map (fun ch => sampleAt ((fed ch).getD []) i)))
    if f.from_ ≤ t then
      (s.setTx p.1 { f with buf := f.buf ++ rows }).tally (txLedger p.1) { acc := 16 * held, syn := 16 * (f.cfg.channels - held) }
    else s) s

/-- A leg of the flow is on a port that is up. -/
def State.txUp (s : State) (c : FlowCfg) : Bool := c.legs.any (fun l => s.netUp l.1.val)

/-- In STANDBY a transmit flow sends while a route holds a channel of it, or a feed does and the override acts. -/
def State.txAwake (s : State) (k i : Nat) (c : FlowCfg) : Bool :=
  (List.range c.channels).any (fun ch => s.routeHolds (flowDest i ch) || (s.feedHolds (flowDest i ch) && (s.mixAt k).1 != 0))

/-- Output index k takes its final value on every transmit flow: route or feed, override, mute, holdover (R221, R63). -/
def State.txMix (s : State) (k : Nat) : State :=
  let g := s.clock.media.outMute.value
  s.net.tx.foldl (fun s p =>
    let f := p.2
    let c := f.cfg
    let chans := List.range c.channels
    let fed (ch : Nat) : Bool := if s.counting then (s.emitFeed (flowDest p.1 ch)).isSome else s.feedHolds (flowDest p.1 ch)
    let one (ch : Nat) (x : Int) : Int × Bool :=
      let r := s.destSample k (flowDest p.1 ch) (fed ch) x
      (sat427 (rdiv (r.1 * g) (2 ^ 27)), r.2)
    match tget f.buf k with
    | some row =>
      if s.counting then s.setTx p.1 { f with buf := tset f.buf k (chans.map (fun ch => (one ch (sampleAt row ch)).1)) } else s
    | none =>
      let first := (k - f.from_) % c.pkt == 0
      let goes := if first then s.txAwake k p.1 c else (tget f.buf (k - 1)).isSome
      if s.pwr.mode = .standby ∧ s.valid ∧ f.from_ ≤ k ∧ goes then
        let row := chans.map (fun ch => one ch 0)
        let s1 := s.setTx p.1 { f with buf := tset f.buf k (row.map Prod.fst) }
        if s.txUp c then s1.count64 Reg.SPK_CORR_STBY_LO (row.filter (fun x => x.2)).length else s1
      else s) s

/-- Big-endian bytes of a payload (R296). -/
def rtpPayload (w : Nat) (rows : List (List Int)) : List Byte :=
  (rows.flatten.map (fun x => (leBytes (w / 8) (toField w (pcmOut w x))).reverse)).flatten

/-- The packet whose samples are all past their emit period (R298). DESIGN CHOICE (assumption 64): its time-stamp uses the ORIGIN
in force at the send, also where its first sample precedes a step's boundary. -/
def rtpPacketSend (i : Nat) (s : State) : State :=
  match tget s.net.tx i with
  | none => s
  | some f =>
    let c := f.cfg
    match f.buf with
    | [] => s
    | (k0, _) :: _ =>
      if s.valid ∧ (k0 - f.from_) % c.pkt = 0 ∧ k0 + c.pkt ≤ s.msc then
        let rows := (f.buf.take c.pkt).map Prod.snd
        let n := rows.length * c.channels
        let w := flowWidth c
        let up := c.legs.filter (fun l => s.netUp l.1.val)
        let stamp := word (k0 + 2 + s.clock.media.origin + c.rtpOff)
        let pkt (l : Fin 2 × Word × Nat × Word) : NetOut :=
          .rtp l.1 l.2.1 l.2.2.1 c.ssrc c.ptype f.seq stamp c.dscp (c.vid l.1) (rtpPayload w rows)
        let f1 := { f with buf := f.buf.drop c.pkt, seq := (f.seq + 1) % 65536 }
        let f2 := if up.isEmpty then f1 else f1.gain 5
        let clips := (rows.flatten.filter (fun x => pcmClips w x)).length
        (((s.setTx i f2).fxs (f2.sats (if up.isEmpty then [] else [5]))).tally (txLedger i)
          (if up.isEmpty then { dis := n } else { del := n, clip := clips })).netSend (up.map pkt)
      else s

def execRtpPacketSend (flow : Nat) (s : State) : Host.Outcome State Fault Refusal := .next (rtpPacketSend flow s)

/-- Every flow's buffers are emptied (R33) and its stream starts anew at boundary `b` (R308). -/
def State.flowsEmpty (s : State) : State :=
  let s1 := s.net.rx.foldl (fun s p =>
    (s.setRx p.1 { p.2 with buf := p.2.buf.filter (fun r => decide (r.1 ≤ s.msc + 2)) }).addLed (rxLedger p.1) { dis := p.2.heldSamples s.msc }) s
  s1.net.tx.foldl (fun s p => (s.setTx p.1 { p.2 with buf := [], from_ := s.msc }).addLed (txLedger p.1) { dis := p.2.heldSamples s.msc }) s1

def State.flowsStart (s : State) (b : Nat) : State :=
  let s1 := s.net.rx.foldl (fun s p =>
    let zeros : List Int := List.replicate p.2.cfg.channels 0
    (s.setRx p.1 { p.2 with from_ := b, seen := [], buf := [(b, zeros), (b + 1, zeros), (b + 2, zeros)] }).tally (rxLedger p.1)
      { syn := 3 * p.2.cfg.channels, del := 3 * p.2.cfg.channels }) s
  s1.net.tx.foldl (fun s p => s.setTx p.1 { p.2 with from_ := b, buf := [] }) s1

/-! ### FLOW_ADD and FLOW_REMOVE (R301–R303) -/

/-- FLOW_ADD's fields: flow, LATE_OK, configuration. DESIGN CHOICE (assumption 64): without DUAL, UDP_B and VLAN_B may be 0 or a value
of the table. -/
def parseFlow (fs : Nat) (e : Submission) : Option (Nat × Bool × FlowCfg) :=
  let fl := sub e 18 1
  let dual := fl % 2 == 1
  let be (o : Nat) : Word := word (beAt e.body (o - 16) 4)
  let tx := sub e 17 1 == 1
  let ssm := fl / 8 % 2 == 1
  let vlan := fl / 4 % 2 == 1
  let c : FlowCfg :=
    { tx := tx, dual := dual, vlan := vlan, ssm := ssm, l24 := sub e 19 1 == 1, channels := sub e 20 1, ptype := sub e 21 1,
      pkt := sub e 22 2, addrA := be 24, addrB := be 28, udpA := sub e 32 2, udpB := sub e 34 2, srcA := be 36, srcB := be 40,
      ssrc := word (sub e 44 4), rtpOff := sub e 48 4, linkOff := sub e 52 2, dscp := sub e 54 1, port := sub e 55 1,
      vlanA := sub e 56 2, vlanB := sub e 58 2 }
  let group (a : Word) : Bool := decide (0xE0000100 ≤ a.toNat) && decide (a.toNat ≤ 0xEFFFFFFF)
  let vid (v : Nat) : Bool := if vlan then decide (1 ≤ v) && decide (v ≤ 4094) else v == 0
  let pkts := if fs = 96000 then [12, 24, 32, 96, 384] else [6, 12, 16, 48, 192]
  let ok := sub e 16 1 < 256 && sub e 17 1 < 2 && fl < 16 && sub e 19 1 < 2 && decide (1 ≤ c.channels) && c.channels ≤ 64 &&
    decide (96 ≤ c.ptype) && c.ptype ≤ 127 && pkts.contains c.pkt && c.pkt * c.channels * (flowWidth c / 8) ≤ 1440 &&
    group c.addrA && (if dual then group c.addrB else c.addrB == 0) && decide (1024 ≤ c.udpA) &&
    (decide (1024 ≤ c.udpB) || (!dual && c.udpB == 0)) && (if tx then !ssm else true) && (ssm || (c.srcA == 0 && c.srcB == 0)) &&
    (if tx then c.linkOff == 0 && c.dscp ≤ 63 else decide (c.pkt + 4 ≤ c.linkOff) && c.linkOff ≤ 2048 && c.dscp == 0) &&
    (if dual then c.port == 0 else c.port ≤ 1) && vid c.vlanA && (vid c.vlanB || (!dual && c.vlanB == 0)) && subZero e 60 4
  if ok then some (sub e 16 1, fl / 2 % 2 == 1, c) else none

/-- Flows of a direction as they will be once every FLOW_ADD and FLOW_REMOVE that waits has acted. -/
def State.flowsDue (s : State) (tx : Bool) : Tbl FlowCfg :=
  s.sched.foldl (fun t c => match c.chg with
    | .flowAdd i k => if k.tx = tx then tset t i k else t
    | .flowRemove i => tdel t i
    | _ => t) (tmap (fun _ f => f.cfg) (if tx then s.net.tx else s.net.rx))

/-- The changes staged in the epoch that a submission names. -/
def State.stagedIn (s : State) (e : Submission) : List Change :=
  match s.openEpoch e with
  | some p => (p.members.map (fun m => m.chgs)).flatten
  | none => []

def Change.removesFlow (i : Nat) : Change → Bool
  | .flowRemove j => i == j
  | _ => false

def Change.addsFlow (i : Nat) (tx : Bool) : Change → Bool
  | .flowAdd j c => i == j && c.tx == tx
  | _ => false

/-- Load of a flow on one port in bits per second (R302). -/
def FlowCfg.load (fs : Nat) (c : FlowCfg) : Nat := fs * (c.pkt * c.channels * (flowWidth c / 8) + 82) * 8 / c.pkt

/-- Line rate of a port: of its link, or of the layer that SPEED asks for while it is DOWN. -/
def State.lineRate (s : State) (n : Nat) : Nat :=
  match (s.netPort n).link with
  | .up10 => 10000000000
  | .up1 => 1000000000
  | .down => if fieldOf (s.reg (netReg Reg.NET_Pn_CFG n)) 1 2 = 1 then 1000000000 else 10000000000

/-- Flows of a direction that a FLOW_ADD of number `i` counts with (R3): those that will be there, with the changes of its
own epoch made, and those that other epochs have staged and not committed. -/
def State.flowsHeld (s : State) (e : Submission) (i : Nat) (c : FlowCfg) : Tbl FlowCfg :=
  let own := s.stagedIn e
  let adds (cs : List Change) : Tbl FlowCfg := cs.filterMap (fun d => match d with
    | .flowAdd j k => if k.tx = c.tx then some (j, k) else none
    | _ => none)
  let kept := (s.flowsDue c.tx).filter (fun p => !own.any (Change.removesFlow p.1))
  let others := ((s.epochs.filter (fun d => e.epoch = 0 || d.own || d.safe || d.id != e.epoch)).map (fun d =>
    adds (d.members.map (fun m => m.chgs)).flatten)).flatten
  tset ((adds own).foldl (fun t p => tset t p.1 p.2) kept) i c ++ others

/-- R296's counts and R302's line load hold with the flow added. -/
def State.flowFits (s : State) (e : Submission) (i : Nat) (c : FlowCfg) : Bool :=
  let fl := s.flowsHeld e i c
  decide ((fl.map (fun p => p.2.channels)).sum ≤ 1024) &&
    c.legs.all (fun l =>
      decide (((fl.filter (fun p => p.2.legs.any (fun m => m.1 == l.1))).map (fun p => p.2.load s.fs)).sum * 10 ≤ s.lineRate l.1.val * 9))

def flowAdd (e : Submission) (c : CmdRef) (s : State) : State :=
  match parseFlow s.fs e with
  | none => s.reject c e stBadParam 0
  | some (i, late, k) =>
    let staged := s.stagedIn e
    let freed := staged.any (Change.removesFlow i)
    if ((tget (s.flowsDue k.tx) i).isSome && !freed) || staged.any (Change.addsFlow i k.tx) then s.reject c e stBadParam 0
    else if !s.flowFits e i k then s.reject c e stNoResource 0
    else if s.pwr.mode = .standby ∨ ¬s.valid then s.reject c e stModeRefused 0
    else
      let joins (t : State) : State := if k.tx then t else t.netSend (t.reports k)
      if e.epoch ≠ 0 then
        let t := s.addMember c e { chgs := [.flowAdd i k], switch := none, staged := true, geo := false }
        if (s.openEpoch e).isSome ∧ e.present = 0 then joins t else t
      else
        let b := s.blockFor (if k.tx then 80 else 0) (s.mscOf e.present)
        if b.2 && !late then s.complete c stLate 0
        else joins ((s.put (some c.order) b.1 (.flowAdd i k)).complete c (adjusted b.2) b.1)

def execFlowAdd (e : Submission) (s : State) : Host.Outcome State Fault Refusal := .next (hostCommand 0x40 e (flowAdd e) s)

def flowRemove (e : Submission) (c : CmdRef) (s : State) : State :=
  let i := sub e 16 1
  let known := (tget (s.flowsDue false) i).isSome || (tget (s.flowsDue true) i).isSome
  if ¬lateFlag (sub e 17 1) ∨ ¬subZero e 18 46 ∨ ¬known then s.reject c e stBadParam 0
  else s.blockCommand c e (if (s.rxFlow i).isSome then 0 else 80) (sub e 17 1 == 2) false (fun _ => [.flowRemove i]) blockRes

def execFlowRemove (e : Submission) (s : State) : Host.Outcome State Fault Refusal := .next (hostCommand 0x41 e (flowRemove e) s)

/-! ### The origin step (R59, R60, R304) -/

/-- Every receive flow shifts its play-out by k samples: those that fall before the deadlines already met are
DISCARDED; a gap is filled at its deadlines. -/
def State.shiftFlows (s : State) (k : Int) : State :=
  let edge := s.msc + 2
  s.net.rx.foldl (fun s p =>
    let f := p.2
    let old := f.buf.filter (fun r => decide (r.1 ≤ edge))
    let moved := (f.buf.filter (fun r => decide (edge < r.1))).map (fun r => ((r.1 : Int) - k, r.2))
    let kept := moved.filter (fun r => decide ((edge : Int) < r.1))
    let f1 := { f with buf := old ++ kept.map (fun r => (r.1.toNat, r.2)),
                       seen := f.seen.map (fun x => { x with first := ((x.first : Int) - k).toNat }) }
    (s.setRx p.1 f1).tally (rxLedger p.1) { dis := (moved.length - kept.length) * f.cfg.channels }) s

/-- A step reaches its boundary: the origin moves, then the flows (step 2 of R34). -/
def originStepApply (s : State) : State :=
  match s.clock.media.step with
  | some (k, b, r) => if s.valid ∧ s.boundary ∧ b ≤ s.msc then (s.stepOrigin k r).shiftFlows k else s
  | none => s

def execOriginStepApply (s : State) : Host.Outcome State Fault Refusal := .next (originStepApply s)

/-! ### The Trosyn position stream (R305–R307) -/

/-- VER_MIN and VER_MAX as they count. -/
def State.trsVersions (s : State) : Nat × Nat :=
  let c := s.reg Reg.NET_TRS_CFG
  let hi := clampN 1 2 (fieldOf c 8 4)
  (min (clampN 1 2 (fieldOf c 4 4)) hi, hi)

def State.setTrs (s : State) (t : TrosynSt) : State := { s with net := { s.net with trs := t } }

/-- The last SEQ is forgotten (R307). -/
def State.trsForget (s : State) : State := s.setTrs { s.net.trs with last := none, old := 0, heard := [] }

/-- A write that begins a new membership reports it. DESIGN CHOICE (assumption 64): R295 names reports and no moment for this one. -/
def netTrsCfgWrite (off : Nat) (v : Word) (s : State) : State :=
  if off = Reg.NET_TRS_CFG ∨ off = Reg.NET_TRS_GROUP ∨ off = Reg.NET_TRS_ID then
    let s1 := (s.setReg off (if off = Reg.NET_TRS_CFG then v &&& 0xFFFF0FF7#32 else v)).trsForget
    s1.netSend (s1.trsReports.filter (fun o => !s.trsReports.contains o))
  else s

def execNetTrsCfgWrite (off : Nat) (v : Word) (s : State) : Host.Outcome State Fault Refusal := .next (barWrite (fun s => netTrsCfgWrite off v s) s)

/-- A cue record: its bell without its MSC, and the offset. -/
def parseCue (b : Nat → Byte) : Option (Nat × Nat × Bell) :=
  let kind := imgNat b 3 1
  let base : Bell := { kind := kind, msc := 0, period := 0, count := 0, user := 0, task := 0, mask := 0, chan := 0, ring := 0, next := 0,
                       acted := 0, armed := true }
  if 256 ≤ imgNat b 0 2 ∨ 0x7FFFFFFF < imgNat b 4 4 then none
  else
    let r : Option Bell :=
      if kind = 0 then some { base with user := BitVec.ofNat 64 (imgNat b 8 8) }
      else if kind = 1 then
        (if imgNat b 8 2 < 256 ∧ imgNat b 10 4 ≠ 0 then some { base with task := imgNat b 8 2, mask := word (imgNat b 10 4) } else none)
      else if kind = 3 then some { base with chan := imgNat b 8 1 }
      else none
    r.map (fun x => (imgNat b 0 2, imgNat b 4 4, x))

/-- The records of a packet: updates and cues, where every one is valid. -/
def trsRecords (ver n : Nat) (b : Nat → Byte) : Option (List PosUpdate × List (Nat × Nat × Bell)) :=
  let at_ (k : Nat) : Nat → Byte := imgAt b (32 + 16 * k)
  let isCue (k : Nat) : Bool := b (32 + 16 * k + 2) == 0x80
  let ks := List.range n
  if ks.all (fun k => if isCue k then decide (2 ≤ ver) && (parseCue (at_ k)).isSome else (parseUpdate (at_ k)).isSome) then
    some ((ks.filter (fun k => !isCue k)).filterMap (fun k => parseUpdate (at_ k)), (ks.filter isCue).filterMap (fun k => parseCue (at_ k)))
  else none

/-- The header of a DATA packet is acceptable: version, stream, counts, length, CRC (R305–R307). -/
def State.trsHeader (s : State) (bytes : List Byte) : Bool :=
  let b := listByte bytes
  let n := imgNat b 24 2
  let vs := s.trsVersions
  let ver := imgNat b 4 1
  let id := s.reg Reg.NET_TRS_ID
  imgNat b 0 4 == 0x4E535254 && decide (vs.1 ≤ ver ∧ ver ≤ vs.2) && imgNat b 5 1 == 0 && (id == 0 || imgNat b 8 4 == id.toNat) &&
    n ≤ 88 && imgNat b 26 2 == 16 && bytes.length == 32 + 16 * n && crc32c (bytes.take 28 ++ bytes.drop 32) == imgNat b 28 4

/-- Cues of an accepted packet arm their bells (R75, R76, R307). -/
def State.armCue (s : State) (f : Nat) (c : Nat × Nat × Bell) : State :=
  if s.pwr.mode = .service then s.count Reg.TT_CUES_IGNORED 1
  else if bitOf (s.reg Reg.TT_CFG) 17 ∧ s.valid then
    let b := { c.2.2 with msc := f + c.2.1 }
    let b1 := { b with next := b.point 0 }
    if s.msc < b1.next then { s with cues := tset s.cues c.1 b1 } else s
  else s

/-- An accepted DATA packet: its frame, its updates as one batch, its cues (R307). -/
def State.trsApply (s : State) (ver : Nat) (whenN : Nat) (ups : List PosUpdate) (cues : List (Nat × Nat × Bell)) : State :=
  if !s.valid then
    cues.foldl (fun s c => s.armCue 0 c)
      (if whenN = 0 then (s.applyNow [.objPos ups false]).count Reg.OBJ_POS_UPDATES ups.length else s)
  else
    let p : Nat := if whenN = 0 then 0 else if ver = 1 then s.mscOf (BitVec.ofNat 64 whenN)
      else max 1 (s.mscOf (BitVec.ofInt 64 ((whenN : Int) - s.clock.media.origin)))
    let r := s.frameFor p
    let s1 := if ups.isEmpty then s
      else
        let t := (s.put (some s.host.fetchOrder) r.1 (.objPos ups false)).count Reg.OBJ_POS_UPDATES ups.length
        if r.2 then t.both Reg.OBJ_POS_LATE Reg.OBJ_EVT 0 else t
    cues.foldl (fun s c => s.armCue r.1 c) s1

/-- SEQ is later than the last one accepted (R307). -/
def seqLater (seq last : Nat) : Bool := let d := (seq + 2 ^ 32 - last) % 2 ^ 32; decide (1 ≤ d ∧ d < 2 ^ 31)

def State.trsBad (s : State) : State := s.both Reg.NET_TRS_BAD Reg.NET_EVT 4

/-- A Trosyn packet (R305–R307, R308, R421). -/
def trosynData (port : Fin 2) (bytes : List Byte) (s : State) : State :=
  let cfg := s.reg Reg.NET_TRS_CFG
  let b := listByte bytes
  let t := s.net.trs
  if ¬(bitOf cfg 0 && bitOf cfg (1 + port.val) && s.netUp port.val && s.runs) then s
  else if imgNat b 5 1 = 1 ∧ imgNat b 0 4 = 0x4E535254 then s
  else if s.pwr.freeze then s.count Reg.PWR_FROZEN_UPDATES 1
  else if !s.trsHeader bytes then s.trsBad
  else
    match trsRecords (imgNat b 4 1) (imgNat b 24 2) b with
    | none => s.trsBad
    | some (ups, cues) =>
      let seq := imgNat b 12 4
      if fieldOf cfg 1 2 = 3 ∧ t.heard.any (fun h => h.1 == seq && h.2 != port) then s.count Reg.NET_TRS_DUP 1
      else
        let heard := ((seq, port) :: t.heard).take 64
        let stale := match t.last with
          | some l => !seqLater seq l
          | none => false
        if stale && decide (t.old < 7) then (s.setTrs { t with heard := heard, old := t.old + 1 }).count Reg.NET_TRS_OLD 1
        else
          (s.setTrs { t with heard := heard, last := some seq, old := 0, ver := imgNat b 4 1, lastAt := s.samples }).trsApply (imgNat b 4 1) (imgNat b 16 8) ups cues

def execTrosynData (port : Fin 2) (bytes : List Byte) (s : State) : Host.Outcome State Fault Refusal := .next (trosynData port bytes s)

/-- HELLO, once per second, on every port of the stream that is up (R305). -/
def trosynHelloDue (s : State) : State :=
  let cfg := s.reg Reg.NET_TRS_CFG
  let ps : List (Fin 2) := [0, 1]
  if bitOf cfg 0 ∧ s.net.trs.helloAt.all (fun t => s.passed t 1000000) then
    (s.setTrs { s.net.trs with helloAt := some s.samples }).netSend ((ps.filter (fun p => bitOf cfg (1 + p.val) && s.netUp p.val)).map (fun p =>
      NetOut.trosynHello p (s.reg Reg.NET_TRS_REPLY) (fieldOf (s.reg Reg.NET_TRS_REPLY_PORT) 0 16) s.trsVersions.1 s.trsVersions.2))
  else s

def execTrosynHelloDue (s : State) : Host.Outcome State Fault Refusal := .next (trosynHelloDue s)

/-- No DATA packet was accepted for 1 s (R307). -/
def trosynSeqTimeout (s : State) : State := if s.passed s.net.trs.lastAt 1000000 then s.trsForget else s

def execTrosynSeqTimeout (s : State) : Host.Outcome State Fault Refusal := .next (trosynSeqTimeout s)

/-! ### Modules (R293) -/

/-- The register of a module's bus: modules 0 and 1 sit on NET0 and NET1, 2 and 3 on NTKA and NTKB. -/
def moduleReg (k : Nat) : Nat := if k < 2 then netReg Reg.NET_Pn_I2C k else netReg Reg.NTK_Pn_I2C (k - 2)

/-- A write of the module register; GO starts a transfer and clears itself. -/
def moduleI2cGo (k : Nat) (v : Word) (s : State) : State :=
  let off := moduleReg k
  let busy := bitOf (s.reg off) 25
  if busy then s
  else if bitOf v 24 then s.setReg off ((v &&& 0x00FFFFFF#32) ||| 0x02000000#32)
  else s.setReg off ((v &&& 0x00FFFFFF#32) ||| (s.reg off &&& 0x04000000#32))

def execModuleI2cGo (mod_ : Fin 4) (v : Word) (s : State) : Host.Outcome State Fault Refusal := .next (barWrite (fun s => moduleI2cGo mod_.val v s) s)

/-- The transfer ends: the byte read, or NACK. -/
def moduleI2cDone (k : Nat) (data : Byte) (nack : Bool) (s : State) : State :=
  let off := moduleReg k
  let v := s.reg off
  if bitOf v 25 then
    let d := if bitOf v 23 && !nack then (v &&& 0x00FFFF00#32) ||| word data.toNat else v &&& 0x00FFFFFF#32
    s.setReg off (if nack then d ||| 0x04000000#32 else d)
  else s

def execModuleI2cDone (mod_ : Fin 4) (data : Byte) (nack : Bool) (s : State) : Host.Outcome State Fault Refusal :=
  .next (moduleI2cDone mod_.val data nack s)

end Sys2Proof.Machine
end

