-- ==== Sys2Proof/Machine/Nitik.lean ====
section
/-!
DEFINITION. Nitik Link (spec chapter 13): links and credits (R310, R319, R327–R330), block frames (R312), roll call,
join and leave (R313–R317, R334–R336), chain channels and sums (R318, R320, R324–R326, R332), chain epochs (R331).
-/
namespace Sys2Proof.Machine

/-! ### Sending records -/

/-- Ports on which records travel away from the head, and toward it. In a ring both directions carry them (R332). -/
def State.downPorts (s : State) : List Nat := if s.chain.ring then [0, 1] else [1]
def State.upPorts (s : State) : List Nat := if s.chain.ring then [0, 1] else [0]

/-- A control record joins the next block frame of the ports that are READY. -/
def State.sendOn (s : State) (ports : List Nat) (r : CtlRecord) : State :=
  ports.foldl (fun s n =>
    let p := s.ntkPort n
    if p.link = .ready then s.setNtkPort n { p with records := p.records ++ [r] } else s) s

/-- A record that came in on port n goes on: in a ring past this renderer, in a chain on the ports given. -/
def State.passOn (s : State) (n : Nat) (chainPort : Nat) (r : CtlRecord) : State :=
  if s.chain.head then s
  else if s.chain.ring then s.sendOn [1 - n] r
  else if n = chainPort then s
  else s.sendOn [chainPort] r

/-! ### Own record, roll call (R315) -/

def State.rollRecord (s : State) : RollRecord :=
  let c := s.chain
  let reads := (s.lockers.filterMap (fun l => if l.2.cfg.src.kind = 3 then some l.2.cfg.src.chan else none) ++
    s.auxs.filterMap (fun a => if a.2.src.kind = 3 then some a.2.src.chan else none)).eraseDups
  let flag (g : FeedBasic → Bool) : List Nat := (s.feeds.filter (fun f => g f.2.cfg)).map Prod.fst
  { position := if c.head then 0 else if c.st = .member ∨ c.st = .cut then c.position else c.cfgPos,
    verMin := c.verMin, verMax := c.verMax, rate96 := s.clock.media.rate96, budget := c.budget, ring := c.ring, split := c.split,
    pubs := c.pubs.map (fun p => p.chan), reads := reads, sumIn := flag (fun f => f.sumIn), sumOut := flag (fun f => f.sumOut) }

/-- The head sends ROLL_CALL once every link from it is READY (R315). -/
def State.tryCall (s : State) : State :=
  let c := s.chain
  if c.head && c.st == .forming && !c.calling && c.cmd.isSome && s.downPorts.all s.ntkReady then
    (s.setChain { c with calling := true }).sendOn [1] (.rollCall [s.rollRecord])
  else s

/-- The joiner sends JOIN once its link is READY (R334). -/
def State.tryJoin (s : State) : State :=
  let c := s.chain
  let ps := if c.ring then [0, 1] else [0]
  if c.st = .joining ∧ c.asked = false ∧ ps.any s.ntkReady then (s.setChain { c with asked := true }).sendOn ps (.join s.rollRecord)
  else s

/-- The outcome of a roll call on this renderer, which stands at hop index `i` of the list. -/
def State.rollOutcome (s : State) (r : Roll) (i : Nat) : State :=
  let a := r.assigned
  let f := a.fail
  let c := s.chain
  if f = 0 then
    let me := a.recs.getD i default
    let c1 := { c with st := .member, position := me.position, fail := 0, calling := false, hops := a.hops,
                       members := a.recs.map (fun m => { entry := m }), since := if s.valid then s.nextMul 16 else 0 }
    let s1 := (s.setChain c1).settleChain
    s1.chainDone stOk s1.chain.version
  else
    let s1 := s.setChain { c with fail := f, calling := false }
    (s1.evt Reg.NTK_EVT 1).chainDone stBadParam f

/-- ROLL_CALL at a member: it appends its record and forwards the call; the last one returns the list. -/
def rollCall (n : Nat) (recs : List RollRecord) (s : State) : State :=
  let c := s.chain
  if c.head ∨ c.st = .alone ∨ c.st = .joining ∨ n ≠ 0 ∨ ¬s.ntkReady n then s
  else
    let s1 := s.setChain { c with place := recs.length }
    let l := recs ++ [s.rollRecord]
    if s.ntkReady 1 then s1.sendOn [1] (.rollCall l) else s1.sendOn [0] (.rollReply l)

def execRollCall (n : Fin 2) (recs : List RollRecord) (s : State) : Host.Outcome State Fault Refusal := .next (rollCall n.val recs s)

/-- ROLL_REPLY: at the head the list comes back and is judged; a member passes it on upstream, and takes the list
that comes from upstream as the outcome. -/
def rollReply (n : Nat) (recs : List RollRecord) (hops : List Nat) (s : State) : State :=
  let c := s.chain
  let r : Roll := { ring := c.ring, fs := s.fs, recs := recs, hops := hops }
  if ¬s.ntkReady n then s
  else if c.head then
    if c.calling then (s.rollOutcome r 0).sendOn [1] (.rollReply r.assigned.recs) else s
  else if c.st = .alone ∨ c.st = .joining then s
  else if n = 1 then s.sendOn [0] (.rollReply recs)
  else (s.rollOutcome r c.place).sendOn [1] (.rollReply recs)

def execRollReply (n : Fin 2) (recs : List RollRecord) (hops : List Nat) (s : State) : Host.Outcome State Fault Refusal :=
  .next (rollReply n.val recs hops s)

/-! ### Links (R310, R314, R319) -/

/-- LINK changes. -/
def State.setLink (s : State) (n : Nat) (l : LinkState) : State :=
  if (s.ntkPort n).link = l then s else (s.setNtkPort n { s.ntkPort n with link := l }).evt Reg.NTK_EVT 0

/-- A port goes DOWN: what it was to send and its credits are gone; in a ring its neighbours and the head learn of it (R333). -/
def State.linkDown (s : State) (n : Nat) : State :=
  if (s.ntkPort n).link = .down then s
  else
    let was := s.ntkReady n
    let p := s.ntkPort n
    let s1 := (s.setNtkPort n { p with version := 0, credits := 0, sent := 0, received := 0, freed := 0, returned := 0, partner := 0,
                                       records := [], queue := [], waiting := 0, frame := [], echo := none, auditAt := [], backs := [], repair := none, used := 0 }).setLink n .down
    let led := { s1.led with mismatch := s1.led.mismatch.set n 0, audits := s1.led.audits.map (fun a => { a with found := a.found.set n ((a.found.getD n none).orElse (fun _ => some 0)) }) }
    let s2 := ({ s1 with led := led } : State).setChain { s1.chain with cells := s1.chain.cells.filter (fun c => c.2.1.val != n) }
    if was ∧ s.chain.ring ∧ (s.chain.st = .member ∨ s.chain.st = .cut) then
      let s3 := s2.evt Reg.NTK_EVT 3
      if s3.chain.head then s3 else s3.sendOn [1 - n] (.broken s3.chain.position)
    else s2

/-- The port is enabled and its module is there. -/
def State.ntkEnabled (s : State) (n : Nat) : Bool := bitOf (s.reg (ntkReg Reg.NTK_Pn_CFG n)) 0 && (s.ntkPort n).module

def ntkTrainingDone (n : Nat) (s : State) : State :=
  if s.ntkEnabled n ∧ ((s.ntkPort n).link = .down ∨ (s.ntkPort n).link = .training) then s.setLink n .up else s

def execNtkTrainingDone (n : Fin 2) (s : State) : Host.Outcome State Fault Refusal := .next (ntkTrainingDone n.val s)

/-- The partner's version range and buffer are known (R314, R319): READY with its credits, or INCOMPATIBLE. -/
def ntkVersionAgreed (n verMin verMax total : Nat) (s : State) : State :=
  if (s.ntkPort n).link = .up then
    let v := agreeVersion (s.chain.verMin, s.chain.verMax) (verMin, verMax)
    if v = 0 then s.setLink n .incompatible
    else
      let p := s.ntkPort n
      let s1 := (s.setNtkPort n { p with version := v, credits := total, total := total, sent := 0, received := 0, used := 0, freed := 0,
                                         returned := 0, partner := 0, silent := 0 }).setLink n .ready
      let s2 := s1.setChain { s1.chain with broken := s1.chain.broken.filter (fun k => k != s1.chain.position) }
      s2.tryCall.tryJoin
  else s

def execNtkVersionAgreed (n : Fin 2) (verMin verMax total : Nat) (s : State) : Host.Outcome State Fault Refusal :=
  .next (ntkVersionAgreed n.val verMin verMax total s)

/-! ### Time and presence (R312, R316, R317) -/

/-- The port that chain time is taken from: NTKA, in a ring NTKB while NTKA carries nothing. -/
def State.timePort (s : State) : Nat :=
  if s.chain.ring ∧ 4 ≤ (s.ntkPort 0).silent ∧ (s.ntkPort 1).silent < 4 then 1 else 0

/-- The renderer follows a chain head. -/
def State.follows (s : State) : Bool := !s.chain.head && s.chain.st != .alone

/-- The member next to this one over port n. -/
def State.neighbour (s : State) (n : Nat) : Option Nat :=
  let l := s.chain.members
  let i := s.hopIndex
  let k := if s.chain.ring then (if n = 1 then (i + 1) % max 1 l.length else (i + l.length - 1) % max 1 l.length)
    else if n = 1 then i + 1 else if i = 0 then l.length else i - 1
  (l[k]?).map (fun m => m.entry.position)

/-- A member was heard (R317). -/
def State.heard (s : State) (position : Nat) : State :=
  s.setChain { s.chain with members := s.chain.members.map (fun m => if m.entry.position = position then { m with silent := 0 } else m) }

/-- A cell came in over port n and is free again at once. -/
def State.cellIn (s : State) (n : Nat) : State :=
  let p := s.ntkPort n
  s.setNtkPort n { p with received := p.received + 1, freed := p.freed + 1 }

/-- BLOCK: the sender of the frame, or a member beyond it whose record is passed toward the head. Bit 3 of the chain
state reports a ring link that is DOWN (R333). -/
def ntkBlock (n : Nat) (msc : Nat) (st position : Nat) (s : State) : State :=
  if ¬s.ntkReady n then s
  else
    let own := match s.neighbour n with
      | some k => k == position
      | none => true
    let s1 := if own then (s.setNtkPort n { s.ntkPort n with silent := 0 }).cellIn n else s
    let s2 := s1.heard position
    let c := s2.chain
    let s3 := if ¬c.ring ∨ ¬c.head then s2
      else if 8 ≤ st then
        if c.broken.contains position then s2 else (s2.setChain { c with broken := position :: c.broken }).evt Reg.NTK_EVT 3
      else s2.setChain { c with broken := c.broken.filter (fun k => k != position) }
    s3.passOn n 0 (.block msc st position)

def execNtkBlock (n : Fin 2) (msc : DWord) (chainState position : Nat) (s : State) : Host.Outcome State Fault Refusal :=
  .next (ntkBlock n.val msc.toNat chainState position s)

/-- TIME: the offset of the chain's time base is measured, and the head's ORIGIN is known (R316). -/
def ntkTime (n : Nat) (t : TimeStamp) (origin : Nat) (r96 : Bool) (s : State) : State :=
  if ¬s.ntkReady n ∨ ¬s.follows ∨ n ≠ s.timePort then s
  else
    let s1 := s.setChain { s.chain with origin := some origin }
    let s2 := if s1.valid then s1 else s1.setMedia { s1.clock.media with originWritten := some origin, rate96 := r96 }
    match s2.tbWith 4 with
    | some k => s2.measureTb k (((s2.tb k).tod : Int) - unitsOf t)
    | none => s2

def execNtkTime (n : Fin 2) (t : TimeStamp) (origin : DWord) (rate : Bool) (s : State) : Host.Outcome State Fault Refusal :=
  .next (ntkTime n.val t origin.toNat rate s)

/-- No valid BLOCK record came on the port in use for four block periods (R316). DESIGN CHOICE (assumption 67): while the MSC is not
valid, and no block periods are counted, a port that is not READY is silent. -/
def State.chainQuiet (s : State) : Bool :=
  decide (4 ≤ (s.ntkPort s.timePort).silent) || (!s.valid && !s.ntkReady s.timePort)

/-- The time source is silent for four block periods: a member goes CUT (R316, R317). -/
def chainSourceLost (s : State) : State :=
  if s.follows ∧ s.chainQuiet then
    let s1 := match s.tbWith 4 with
      | some k => s.dropSource k
      | none => s
    if s.chain.st = .member then s1.setChain { s1.chain with st := .cut, good := 0 } else s1
  else s

def execChainSourceLost (s : State) : Host.Outcome State Fault Refusal := .next (chainSourceLost s)

/-- Valid frames came for eight control frames in a row. -/
def chainReturn (s : State) : State :=
  if s.chain.st = .cut ∧ 8 ≤ s.chain.good then s.setChain { s.chain with st := .member } else s

def execChainReturn (s : State) : Host.Outcome State Fault Refusal := .next (chainReturn s)

/-- CREDIT returns credits (R327). -/
def ntkCredit (n count total : Nat) (s : State) : State :=
  if s.ntkReady n then
    let p := s.ntkPort n
    s.setNtkPort n { p with credits := p.credits + count % 65536, partner := total,
                            backs := if p.auditAt.isEmpty then [] else p.backs ++ [(count % 65536, total)] }
  else s

def execNtkCredit (n : Fin 2) (count : Nat) (total : DWord) (s : State) : Host.Outcome State Fault Refusal :=
  .next (ntkCredit n.val count total.toNat s)

/-- LINK_DELAY: half the round trip is the propagation (R312); the partner's probe is echoed with the next frame. -/
def linkDelay (n : Nat) (probe : TimeStamp) (echo : Option TimeStamp) (received : TimeStamp) (s : State) : State :=
  if s.ntkReady n then
    let p := s.ntkPort n
    let prop := match echo with
      | some e => (rdiv ((unitsOf received : Int) - unitsOf e) (2 * 65536)).toNat
      | none => p.prop
    s.setNtkPort n { p with prop := prop, echo := some (unitsOf probe) }
  else s

def execLinkDelay (n : Fin 2) (probe : TimeStamp) (echo : Option TimeStamp) (received : TimeStamp) (s : State) :
    Host.Outcome State Fault Refusal := .next (linkDelay n.val probe echo received s)

/-- STEP: a member applies the head's step at its boundary (R60). -/
def ntkStep (n : Nat) (k : Int) (b : Nat) (s : State) : State :=
  if s.ntkReady n ∧ s.follows then
    let m := s.clock.media
    let s1 := if m.valid ∧ s.tbSource m.active.val = 4 then s.setMedia { m with step := some (k, b, 0) } else s
    s1.passOn n 1 (.step k b)
  else s

def execNtkStep (n : Fin 2) (k : Int) (boundary : DWord) (s : State) : Host.Outcome State Fault Refusal :=
  .next (ntkStep n.val k (s.mscOf boundary) s)

/-! ### The audit (R43, R330) -/

/-- The differences of an audit of which every part is known. -/
def Audit.known (a : Audit) : Option (List Nat) := allSome a.found

/-- An audit is over: its mismatches set the event, its commands complete (R43). -/
def State.auditOver (s : State) (a : Audit) (f : List Nat) : State :=
  let s1 := if f.any (fun k => k != 0) then s.evt Reg.SYS_LEDGER_EVT 3 else s
  let res := min (f.getD 0 0) 65535 + 65536 * min (f.getD 1 0) 65535 + 2 ^ 32 * min (f.getD 2 0) 65535
  a.cmds.foldl (fun s c => s.complete c.1 (adjusted c.2) res) s1

/-- The audits of which every part is known are over, the oldest first. -/
def State.auditDone (s : State) : State :=
  let known := s.led.audits.filter (fun a => a.known.isSome)
  let s1 : State := { s with led := { s.led with audits := s.led.audits.filter (fun a => a.known.isNone) } }
  known.foldl (fun s a => s.auditOver a (a.known.getD [])) s1

def execNtkBlockLockLoss (n : Fin 2) (s : State) : Host.Outcome State Fault Refusal := .next (s.linkDown n.val).auditDone

/-- A module is plugged or pulled (R293, R310). -/
def modulePresenceChange (k : Nat) (present : Bool) (s : State) : State :=
  if k < 2 then s.setNetPort k { s.netPort k with module := present }
  else
    let n := k - 2
    let s1 := s.setNtkPort n { s.ntkPort n with module := present }
    if !present then (s1.linkDown n).auditDone
    else if s1.ntkEnabled n ∧ (s1.ntkPort n).link = .down then s1.setLink n .training
    else s1

def execModulePresenceChange (mod_ : Fin 4) (present : Bool) (s : State) : Host.Outcome State Fault Refusal :=
  .next (modulePresenceChange mod_.val present s)

/-- The credits that a sender held at an audit with those the receiver had returned by then and that came later: CREDIT records
whose running total is at most `total` (assumption 59). -/
def NtkPort.creditsAt (p : NtkPort) (credits total : Nat) : Nat :=
  credits + ((p.backs.filter (fun b => decide (b.2 ≤ total))).map (fun b => b.1)).sum

/-- AUDIT: the sending side of port n compares (R330). -/
def ntkAudit (n boundary received free : Nat) (s : State) : State :=
  let p := s.ntkPort n
  match p.auditAt.find? (fun a => a.1 == boundary) with
  | some (_, sent, credits) =>
    if s.ntkReady n then
      let flight := sent - received
      let d := ((p.creditsAt credits (received - free) + flight + free : Nat) : Int) - p.total
      let rest := p.auditAt.filter (fun a => a.1 != boundary)
      let s1 := s.setNtkPort n { p with auditAt := rest, backs := if rest.isEmpty then [] else p.backs,
                                        repair := if d = 0 then p.repair else some (p.total - flight - free) }
      let led := { s1.led with
        mismatch := if d = 0 then s1.led.mismatch else s1.led.mismatch.set n d.natAbs,
        audits := s1.led.audits.map (fun a => if a.at_ = boundary then { a with found := a.found.set n (some d.natAbs) } else a) }
      ({ s1 with led := led } : State).auditDone
    else s
  | none => s

def execNtkAudit (n : Fin 2) (boundary received : DWord) (free : Nat) (s : State) : Host.Outcome State Fault Refusal :=
  .next (ntkAudit n.val (s.mscOf boundary) received.toNat free s)

/-- Commands fetched and not completed, and completion credits, against what the queues show (R42). -/
def State.hostMismatch (s : State) : Nat :=
  let out := (s.host.queues.map (fun q => q.out.length)).sum
  let d := (((s.host.freeSlots + out : Nat) : Int) - 512).natAbs
  d + (s.host.queues.map (fun q =>
    (((q.credit + (q.cqTail + 2 ^ q.size - q.cqHead) % 2 ^ q.size + 1 : Nat) : Int) - (2 ^ q.size : Nat)).natAbs)).sum

/-- An audit is taken at boundary t: both ends of each READY link record theirs, the host credits are checked (R43). What a
receiver records as its free cells is the cells it has taken in and not given back (assumption 59). -/
def State.auditRun (s : State) (t : Nat) (cs : List (CmdRef × Bool)) : State :=
  let one (p : NtkPort) : NtkPort :=
    if p.link = .ready then
      { p with auditAt := p.auditAt ++ [(t, p.sent, p.credits)], records := p.records ++ [.audit t p.received (p.used + p.freed)] }
    else p
  let h := s.hostMismatch
  let link (n : Nat) : Option Nat := if s.ntkReady n then none else some 0
  let led := { s.led with mismatch := if h = 0 then s.led.mismatch else s.led.mismatch.set 2 h,
                          audits := s.led.audits ++ [{ at_ := t, cmds := cs, found := [link 0, link 1, some h] }] }
  ({ s with ntk := { s.ntk with ports := s.ntk.ports.map one }, led := led } : State).auditDone

/-! ### Chain epochs (R89, R331) -/

/-- The epoch of a record, chain epochs alone. -/
def State.chainEpoch (s : State) (id : Word) : Option Epoch := s.epochs.find? (fun e => e.chain && e.id == id)

/-- EPOCH_REPORT at the head; a joiner's readiness seals its epoch (R334). -/
def epochReport (n : Nat) (id : Word) (position : Nat) (st : ReportState) (s : State) : State :=
  if ¬s.ntkReady n then s
  else if s.chain.head then
    let s1 := s.heard position
    match s1.chainEpoch id with
    | some e =>
      let e1 := { e with reports := e.reports.filter (fun r => r.1 != position) ++ [(position, st)], defective := e.defective || st == .defective }
      let s2 := s1.setEpoch e1
      if e.st = .open_ ∧ e.own ∧ st = .staged ∧ s2.valid then
        let r := s2.commitFor (s2.lead e1) 0
        s2.seal e1 none r.1 false
      else s2
    | none =>
      let kept := s1.chain.early.filter (fun r => !(r.1 == id && r.2.1 == position))
      s1.setChain { s1.chain with early := kept ++ [(id, position, st)] }
  else s.passOn n 0 (.epochReport id position st)

def execEpochReport (n : Fin 2) (id : Word) (position : Nat) (st : ReportState) (s : State) : Host.Outcome State Fault Refusal :=
  .next (epochReport n.val id position st s)

/-- EPOCH_DECISION at a participant (R89, R331). -/
def epochDecision (n : Nat) (id : Word) (m : Nat) (d : Decision) (s : State) : State :=
  if ¬s.ntkReady n ∨ s.chain.head then s
  else
    let s1 := s.passOn n 1 (.epochDecision id m d)
    match s1.chainEpoch id with
    | none => s1
    | some e =>
      if (e.st = .sealed ∨ e.st = .waiting) ∧ ¬e.expiring then
        match d with
        | .commit => if s1.msc + 128 < m then s1.commitEpoch { e with m := m } e.adjusted else s1
        | .defer =>
          if e.m = m then s1
          else (s1.setEpoch { s1.later e m with st := .sealed, deferrals := e.deferrals + 1, adjusted := true }).both Reg.TT_DEFERRALS Reg.TT_EVT 2
        | .wait =>
          let s2 := s1.setEpoch { s1.later e m with st := .waiting, adjusted := true }
          if e.st = .waiting then s2 else s2.evt Reg.TT_EVT 4
        | .expire => s1.expire e
      else if e.st = .open_ then
        match d with
        | .commit => s1
        | .defer => if e.m = m then s1 else
            (s1.setEpoch { e with m := m, deferrals := e.deferrals + 1, adjusted := true }).both Reg.TT_DEFERRALS Reg.TT_EVT 2
        | .wait => s1.setEpoch { e with m := m, adjusted := true }
        | .expire => s1.expire e
      else s1

def execEpochDecision (n : Fin 2) (id : Word) (m : DWord) (outcome : Decision) (s : State) : Host.Outcome State Fault Refusal :=
  .next (epochDecision n.val id (s.mscOf m) outcome s)

/-- What this participant has to report of an epoch. DESIGN CHOICE: R99's conditions for a switch are the head's own alone
(assumption 62). A joiner is staged once it keeps the head's time (R334). -/
def State.reportOf (s : State) (e : Epoch) : ReportState :=
  let timed := s.chain.st != .joining || (s.valid && s.tbLocked && s.chain.origin == some s.clock.media.origin)
  if e.defective then .defective else if s.allStaged e && timed then .staged else .sealed

/-- Reports that are new join the next frame (R331). -/
def State.sendReports (s : State) : State :=
  if s.chain.head ∨ s.chain.st = .alone then s
  else
    s.epochs.foldl (fun s e =>
      if e.chain && (e.st == .sealed || e.st == .waiting) && e.told != some (s.reportOf e) then
        (s.sendOn s.upPorts (.epochReport e.id s.chain.position (s.reportOf e))).setEpoch { e with told := some (s.reportOf e) }
      else s) s

/-- The head's decisions are repeated until their commit MSC. -/
def State.sendDecisions (s : State) : State :=
  let keep := s.chain.decisions.filter (fun d => decide (s.msc ≤ d.2.1))
  keep.foldl (fun s d => s.sendOn s.downPorts (.epochDecision d.1 d.2.1 d.2.2)) (s.setChain { s.chain with decisions := keep })

/-! ### Join and leave (R317, R334, R335) -/

/-- The identifier of the epoch in which a member joins or leaves: the manual names none. -/
def changeId (position : Nat) (joins : Bool) : Word := word (0xFFFFFE00 + 2 * position + b2n joins)

/-- The bits of PARTICIPANTS for a list of positions. -/
def partsOf (ps : List Nat) : Nat := (ps.map (fun p => 2 ^ p)).sum

/-- An epoch of the chain's own with one membership change. -/
def State.openChange (s : State) (rec : RollRecord) (joins : Bool) (place : Nat) (hops : List Nat) (parts : Nat) (st : EpState) : State :=
  let id := changeId rec.position joins
  if (s.chainEpoch id).isSome then
    { s with epochs := s.epochs.map (fun e => if e.chain ∧ e.id = id then { e with told := none } else e) }
  else
    let e : Epoch := { id := id, st := st, chain := true, parts := parts, deadline := s.deadline 0, own := true, order := s.epochSeq,
                       members := [{ chgs := [.membership rec joins place hops], switch := none, staged := true, geo := false }] }
    { s with epochs := s.epochs ++ [e], epochSeq := s.epochSeq + 1 }

def ntkPositions (s : State) : List Nat := s.chain.members.map (fun m => m.entry.position)

/-- The head begins a leave: of a member that asked, that it names, or that it lost. -/
def State.startLeave (s : State) (position : Nat) (graceful : Bool) : State :=
  match s.chain.members.find? (fun m => m.entry.position == position) with
  | some m =>
    if s.valid ∧ position ≠ 0 then
      let others := (ntkPositions s).filter (fun p => p != position)
      let place := (s.chain.members.findIdx? (fun x => x.entry.position == position)).getD 0
      let ps := s.chain.hops
      let near := if place = 0 then 0 else place - 1
      let hops := if place < ps.length then ps.take near ++ [ps.getD near 0 + ps.getD place 0] ++ ps.drop (place + 1) else ps.take near
      let s1 := s.openChange m.entry false place hops (partsOf (if graceful then ntkPositions s else others)) .open_
      match s1.chainEpoch (changeId position false) with
      | some e =>
        if e.st = .open_ then
          let r := s1.commitFor (s1.lead e) 0
          (s1.seal e none r.1 false).sendOn s1.downPorts (.leave position 0)
        else s1
      | none => s1
    else s
  | none => s

def memberRemoval (position : Nat) (s : State) : State :=
  if s.chain.head ∧ s.chain.members.any (fun m => m.entry.position == position && decide (64 ≤ m.silent)) then s.startLeave position false else s

def execMemberRemoval (position : Nat) (s : State) : Host.Outcome State Fault Refusal := .next (memberRemoval position s)

/-- JOIN: the head checks the chain with the joiner and opens the epoch; a member takes its part in it; the joiner learns
its position (R334). -/
def ntkJoin (n : Nat) (rec : RollRecord) (place : Nat) (hops : List Nat) (s : State) : State :=
  let c := s.chain
  if ¬s.ntkReady n ∨ c.st = .alone then s
  else if c.head then
    let recs := (c.members.map (fun m => m.entry))
    let r : Roll := { ring := c.ring, fs := s.fs, recs := recs.take place ++ [rec] ++ recs.drop place, hops := hops }
    let a := r.assigned
    let old := a.recs.any (fun m => decide (m.verMax < 0x11))
    let f := if a.fail ≠ 0 then a.fail else if old then 4 else 0
    let j := a.recs.getD place rec
    if f = 0 then
      (s.openChange j true place hops (partsOf (j.position :: ntkPositions s)) .open_).sendOn [0, 1] (.join j)
    else ((s.setChain { c with fail := f }).sendOn [n] (.leave 255 f)).evt Reg.NTK_EVT 5
  else if c.st = .joining then
    if rec.position = 255 then s
    else
      let s1 := s.setChain { c with position := rec.position }
      s1.openChange rec true place hops 0 .sealed
  else if n = 1 ∧ ¬c.ring then s.sendOn [0] (.join rec)
  else
    let s1 := s.passOn n 1 (.join rec)
    if rec.position = 255 ∨ (ntkPositions s).contains rec.position then s1 else s1.openChange rec true place hops 0 .sealed

def execNtkJoin (n : Fin 2) (rec : RollRecord) (place : Nat) (hops : List Nat) (s : State) : Host.Outcome State Fault Refusal :=
  .next (ntkJoin n.val rec place hops s)

/-- LEAVE: a refused join, a member that asks to leave, the head's word of a leave, or the end of the chain, which
names position 0. -/
def ntkLeave (n position reason : Nat) (s : State) : State :=
  let c := s.chain
  if ¬s.ntkReady n ∨ c.st = .alone then s
  else if position = 0 then ((s.chainDone stAborted 0).sendOn [1 - n] (.leave 0 reason)).chainAlone.chainUnled
  else if c.st = .joining ∧ position = 255 then
    let st := if reason = 6 then stBudget else if reason = 7 then stNoResource else stBadParam
    let s1 := s.chainDone st (if st = stBadParam then reason else 0)
    let s2 := s1.chainAlone
    s2.setChain { s2.chain with fail := reason }
  else if c.head then s.startLeave position true
  else if n = 1 ∧ ¬c.ring then s.sendOn [0] (.leave position reason)
  else
    match c.members.find? (fun m => m.entry.position == position) with
    | some m =>
      let place := (c.members.findIdx? (fun x => x.entry.position == position)).getD 0
      (s.passOn n 1 (.leave position reason)).openChange m.entry false place c.hops 0 .sealed
    | none => s.passOn n 1 (.leave position reason)

def execNtkLeave (n : Fin 2) (position reason : Nat) (s : State) : Host.Outcome State Fault Refusal :=
  .next (ntkLeave n.val position reason s)

/-! ### CHAIN_CONFIG (R336) -/

/-- Publication records, or none where one is invalid. -/
def parsePubs (b : Nat → Byte) (n : Nat) : Option (List Pub) :=
  allSome ((List.range n).map (fun k =>
    let o := 8 * k
    let src : Src := { kind := imgNat b (o + 2) 1, index := imgNat b (o + 4) 2, chan := imgNat b (o + 6) 2 }
    if imgNat b o 2 < 1024 ∧ (src.kind = 1 ∨ src.kind = 2 ∨ src.kind = 4 ∨ src.kind = 5) ∧ srcOk src ∧ imgNat b (o + 3) 1 = 0 then
      some { chan := imgNat b o 2, src := src }
    else none))

/-- The new chain configuration (CONFIGURE, JOIN). -/
def State.takeChain (s : State) (e : Submission) (c : CmdRef) (head : Bool) (pubs : List Pub) (st : ChainState) : State :=
  let s1 := (s.chainDone stAborted 0).chainAlone
  s1.setChain { s1.chain with st := st, head := head, cfgPos := sub e 18 1, position := if head then 0 else if sub e 18 1 = 255 then 255 else sub e 18 1,
                              ring := sub e 19 1 == 1, split := sub e 20 1 == 1, verMin := sub e 21 1, verMax := sub e 22 1,
                              budget := sub e 24 2, pubs := pubs, fail := 0, cmd := some (c, sub e 16 1), origin := none, place := 0 }

def chainConfig (e : Submission) (c : CmdRef) (s : State) : State :=
  let op := sub e 16 1
  let role := sub e 17 1
  let pos := sub e 18 1
  let head := if role = 0 then s.pwr.straps.chainHead else role == 1
  let n := sub e 26 2
  let vers := 0x10 ≤ sub e 21 1 ∧ sub e 21 1 ≤ sub e 22 1 ∧ sub e 22 1 ≤ 0x20
  let fresh := op = 0 ∨ op = 1
  let bad := decide (4 < op) || decide (2 < role) || decide (1 < sub e 19 1) || decide (1 < sub e 20 1) || !subZero e 23 1 || decide (1024 < n) ||
    decide (4096 < sub e 24 2) || sub e 24 2 % 16 != 0 || sub e 28 8 % 8 != 0 || !subZero e 36 28 || (decide fresh && !decide vers) ||
    (op == 0 && (if head then pos != 0 else pos == 0)) || (op == 1 && (role != 2 || pos == 0)) || (op != 3 && e.epoch != 0) ||
    (op == 3 && e.epoch == 0)
  if bad then s.reject c e stBadParam 0
  else if (op = 0 ∨ op = 4) ∧ s.pwr.mode ≠ .setup then s.complete c stModeRefused 0
  else if op = 4 then
    ((s.chainDone stAborted 0).sendOn [0, 1] (.leave 0 0)).chainAlone.chainUnled.complete c stOk 0
  else if op = 2 then
    let target := if s.chain.head then pos else s.chain.position
    if (s.chain.st ≠ .member ∧ s.chain.st ≠ .cut) ∨ s.chain.version < 0x11 ∨ target = 0 ∨ ¬(ntkPositions s).contains target ∨ s.chain.cmd.isSome then
      s.complete c stBadParam 0
    else if ¬s.valid then s.complete c stModeRefused 0
    else
      let s1 := s.setChain { s.chain with cmd := some (c, 2) }
      if s.chain.head then s1.startLeave target true else s1.sendOn s1.upPorts (.leave target 0)
  else if op = 1 ∧ s.chain.st ≠ .alone then s.complete c stBadParam 0
  else
    let pubs : Option (Option (List Pub)) := if n = 0 then some (some []) else e.records.map (fun r => parsePubs (listByte r) n)
    match pubs with
    | none => s.reject c e stMemError 0
    | some none => s.reject c e stBadParam 0
    | some (some ps) =>
      if op = 3 then
        let chainEp := match s.openEpoch e with
          | some p => p.chain
          | none => false
        if !chainEp || repeats (ps.map (fun p => p.chan)) then s.reject c e stBadParam 0
        else s.addMember c e { chgs := [.chainPublish { pubs := ps }], switch := none, staged := true, geo := false }
      else if op = 0 then (s.takeChain e c head ps .forming).tryCall
      else (s.takeChain e c false ps .joining).tryJoin

def execChainConfig (e : Submission) (s : State) : Host.Outcome State Fault Refusal := .next (hostCommand 0x48 e (chainConfig e) s)

/-! ### Chain channels (R318, R320, R325, R332) -/

/-- The chain inputs count. -/
def State.chainRuns (s : State) : Bool := (s.chain.st == .member || s.chain.st == .cut) && s.counting

/-- Hop index of a position. -/
def State.indexOf (s : State) (position : Nat) : Nat := (s.chain.members.findIdx? (fun m => m.entry.position == position)).getD 0

/-- A cell that came in on port n goes on while its copy has hops to make (R332); in a chain it goes downstream. -/
def State.forwardCell (s : State) (n : Nat) (c : Cell) (wrap : Cell → OutCell) : State :=
  let l := s.chain.members.length
  let i := s.hopIndex
  let q := s.indexOf c.sender
  let made := if c.secondary then (q + l - i) % max 1 l else (i + l - q) % max 1 l
  let goes := if s.chain.ring then decide (made + 1 < l) else n == 0
  if goes && s.ntkReady (1 - n) then
    let p := s.ntkPort (1 - n)
    s.setNtkPort (1 - n) { p with queue := p.queue ++ [wrap c] }
  else s

/-- The channels of a cell that it carries, with their place in it. -/
def channelsOf (c : Cell) : List (Nat × Nat) := ((List.range 4).filter (fun i => bitOf c.present i)).map (fun i => (i, c.first + i))

/-- A cell whose channel-blocks are kept until their deadlines takes a place in the receive buffer; one of which none
is kept is free again at once (R327). -/
def State.keepCell (s : State) (n kept : Nat) : State :=
  let p := s.ntkPort n
  if kept = 0 then s.cellIn n
  else
    let c := s.chain
    (s.setChain { c with nextCell := c.nextCell + 1, cells := c.cells ++ [(c.nextCell + 1, Fin.ofNat 2 n, kept)] }).setNtkPort n
      { p with received := p.received + 1, used := p.used + 1 }

/-- A publisher's channels are known from its cells too, for it may publish others later (R336). -/
def State.learnPubs (s : State) (position : Nat) (chans : List Nat) : State :=
  s.setChain { s.chain with members := s.chain.members.map (fun m =>
    if m.entry.position = position then { m with entry := { m.entry with pubs := (m.entry.pubs ++ chans).eraseDups } } else m) }

/-- Samples of the channel-blocks of a cell that its stream's clip counter counts (R40). -/
def cellClips (x : Cell) (chs : List (Nat × Nat)) : Nat := (chs.map (fun k => clipCount (x.words.getD k.1 []))).sum

/-- An OBJECT cell (R325, R332). -/
def objectCell (n : Nat) (x : Cell) (s : State) : State :=
  if ¬s.ntkReady n then s
  else if ¬x.crcOk then (s.count (ntkReg Reg.NTK_Pn_CRC_ERRS n) 1).cellIn n
  else if ¬s.chainRuns then s.cellIn n
  else
    let c := s.chain
    let late := decide (x.block + c.hold + 16 ≤ s.msc)
    let chs := channelsOf x
    let have_ (ch : Nat) : Bool := c.objs.any (fun o => o.1 == (x.block, ch)) || c.used.contains (x.block, ch)
    let twice := if c.ring then (chs.filter (fun k => have_ k.2)).length else 0
    let fresh := if c.ring then chs.filter (fun k => !have_ k.2) else chs
    let s1 := (s.forwardCell n x .object).count Reg.NTK_DUP_BLOCKS twice
    if late then
      let s2 := s1.cellIn n
      if fresh.isEmpty then s2
      else
        let used := if c.ring then fresh.map (fun k => (x.block, k.2)) ++ s2.chain.used else s2.chain.used
        ((s2.setChain { s2.chain with used := used }).addLed (chainLedger n)
          { acc := 16 * fresh.length, dis := 16 * fresh.length, clip := cellClips x fresh }).count Reg.NTK_LATE_CELLS 1
    else
      let s2 := (s1.keepCell n chs.length).learnPubs x.sender (chs.map Prod.snd)
      let blk (i : Nat) : ChainBlk := { words := x.words.getD i zeros16, port := Fin.ofNat 2 n, cell := s2.chain.nextCell }
      let s3 := s2.setChain { s2.chain with objs := s2.chain.objs ++ chs.map (fun k => ((x.block, k.2), blk k.1)) }
      if c.ring then s3 else s3.addLed (chainLedger n) { acc := 16 * chs.length, clip := cellClips x chs }

def execObjectCell (n : Fin 2) (cell : Cell) (s : State) : Host.Outcome State Fault Refusal := .next (objectCell n.val cell s)

def State.sumFlags (s : State) (f : Nat) : Bool × Bool :=
  match tget s.feeds f with
  | some fd => (fd.cfg.sumIn, fd.cfg.sumOut)
  | none => (false, false)

/-- A SUM cell (R324–R326): forwarded, dropped, late or kept for the mix slot. -/
def sumCell (n : Nat) (x : Cell) (s : State) : State :=
  if ¬s.ntkReady n then s
  else if ¬x.crcOk then (s.count (ntkReg Reg.NTK_Pn_CRC_ERRS n) 1).cellIn n
  else if ¬s.chainRuns then s.cellIn n
  else
    let c := s.chain
    let chs := channelsOf x
    let late := decide (x.block + c.hold + 64 ≤ s.msc)
    let drop := chs.filter (fun k => s.sumFlags k.2 == (false, true))
    let pass := chs.filter (fun k => s.sumFlags k.2 == (false, false))
    let kept := if late then [] else chs.filter (fun k => s.sumFlags k.2 != (false, true))
    let mask : BitVec 4 := BitVec.ofNat 4 ((pass.map (fun k => 2 ^ k.1)).sum)
    let s1 := if pass.isEmpty then s else s.forwardCell n { x with present := mask } .sum
    let s2 := s1.keepCell n kept.length
    let blk (i : Nat) : ChainBlk :=
      { words := x.words.getD i zeros16, port := Fin.ofNat 2 n, incomplete := bitOf x.incomplete i, contrib := x.contrib.getD i 0, cell := s2.chain.nextCell }
    let gone := if late then chs.length else drop.length
    let s3 := (s2.setChain { s2.chain with sums := s2.chain.sums ++ kept.map (fun k => ((x.block, k.2), blk k.1)) }).addLed (chainLedger n)
      { acc := 16 * chs.length, dis := 16 * gone, clip := cellClips x chs }
    if late then s3.count Reg.NTK_LATE_CELLS 1 else s3

def execSumCell (n : Fin 2) (cell : Cell) (s : State) : Host.Outcome State Fault Refusal := .next (sumCell n.val cell s)

/-- Object channels this renderer can expect: its own and those of every member upstream (R318). -/
def State.chainChannels (s : State) : List Nat :=
  let i := s.hopIndex
  let ups := if s.chain.ring then s.chain.members.zipIdx.filter (fun m => m.2 != i) else s.chain.members.zipIdx.filter (fun m => decide (m.2 < i))
  ((s.chain.pubs.map (fun p => p.chan)) ++ (ups.map (fun m => m.1.entry.pubs)).flatten).eraseDups

/-- Cells of up to four channels each, for channel-blocks by channel. -/
def cellsOf (secondary : Bool) (sender block : Nat) (chs : List (Nat × List Int × Bool × Nat)) : List Cell :=
  let groups := (chs.map (fun c => c.1 / 4)).eraseDups
  groups.map (fun g =>
    let at_ (i : Nat) : Option (Nat × List Int × Bool × Nat) := chs.find? (fun c => c.1 == 4 * g + i)
    let bits (p : Nat × List Int × Bool × Nat → Bool) : BitVec 4 :=
      BitVec.ofNat 4 (((List.range 4).map (fun i => if (at_ i).any p then 2 ^ i else 0)).sum)
    { secondary := secondary, sender := sender, block := block, first := 4 * g, present := bits (fun _ => true), incomplete := bits (fun c => c.2.2.1),
      words := (List.range 4).map (fun i => ((at_ i).map (fun c => c.2.1)).getD zeros16),
      contrib := (List.range 4).map (fun i => ((at_ i).map (fun c => c.2.2.2)).getD 0), crcOk := true })

/-- Cells join the queue of a port that is READY. -/
def State.queueCells (s : State) (n : Nat) (cs : List OutCell) : State :=
  if s.ntkReady n then
    let p := s.ntkPort n
    s.setNtkPort n { p with queue := p.queue ++ cs }
  else s

/-- Block n of this renderer's publications leaves at MSC n + 16, and counts as if it had arrived (R318, R320). -/
def State.publishBlock (s : State) (n : Nat) : State :=
  if s.chainRuns ∧ ¬s.chain.pubs.isEmpty then
    let out (xs : List Int) : List Int := (rampBlock s.clock.media.outMute xs).2.1
    let read (p : Pub) : List Int := (tget s.pipe.last p.src.key).getD zeros16
    let chs := s.chain.pubs.map (fun p => (p.chan, out (read p), false, 0))
    let s1 := s.queueCells 1 ((cellsOf false s.chain.position n chs).map .object)
    let s2 := if s.chain.ring then s1.queueCells 0 ((cellsOf true s.chain.position n chs).map .object) else s1
    let objs := s.chain.pubs.map (fun p => ((n, p.chan), ({ words := read p, port := 0 } : ChainBlk)))
    let s3 := s2.setChain { s2.chain with objs := s2.chain.objs ++ objs }
    if s.chain.ring then s3 else s3.addLed (chainLedger 0) { acc := 16 * objs.length, clip := (objs.map (fun o => clipCount o.2.words)).sum }
  else s

/-- At its deadline a chain block enters the pipeline with index n; what is missing is zeros (R320, R325, R332). -/
def State.chainDeliver (s : State) (n : Nat) : State :=
  let c := s.chain
  if s.chainRuns ∧ c.since ≤ n ∧ c.hold ≤ n then
    let b := n - c.hold
    let chans := (s.chainChannels ++ ((c.objs.filter (fun o => o.1.1 == b)).map (fun o => o.1.2))).eraseDups
    let pick (ch : Nat) : Option ChainBlk :=
      let copies := (c.objs.filter (fun o => o.1 == (b, ch))).map Prod.snd
      match copies.find? (fun k => k.port == 0) with
      | some k => some k
      | none => copies.head?
    let one (s : State) (ch : Nat) : State :=
      let put (xs : List Int) : State := { s with pipe := { s.pipe with last := tset s.pipe.last (srcKey 3 0 ch) xs } }
      match pick ch with
      | some k => (put k.words).addLed (chainLedger k.port.val)
          { acc := if c.ring then 16 else 0, del := 16,
            clip := if c.ring then clipCount k.words else 0 }
      | none => ((put zeros16).addLed (chainLedger 0) { syn := 16, del := 16 }).count Reg.NTK_MISSING 1
    -- R104: SRC_INDEX 1 reads what came on NTKB
    let far := c.objs.filter (fun o => o.1.1 == b && o.2.port == 1)
    let s0 : State := { s with pipe := { s.pipe with last := far.foldl (fun t o => tset t (srcKey 3 1 o.1.2) o.2.words) s.pipe.last } }
    let s1 := chans.foldl one s0
    let prot := chans.any (fun ch => (pick ch).any (fun k => k.port != 0))
    let s2 := s1.count Reg.NTK_RING_PROT (b2n (c.ring && prot))
    let past := s2.chain.objs.filter (fun o => decide (o.1.1 ≤ b))
    let s3 := s2.setChain { s2.chain with
      objs := s2.chain.objs.filter (fun o => decide (b < o.1.1)),
      used := (chans.filter (fun ch => (pick ch).isSome)).map (fun ch => (b, ch)) ++ c.used.filter (fun u => decide (b < u.1 + 16384)) }
    (past.map Prod.snd).foldl State.releaseCopy s3
  else s

/-- The sum that the chain delivers for feed f at the end of the mix slot of chain block b: samples, its INCOMPLETE
flag, its CONTRIB (R324–R326). -/
def State.takeSum (s : State) (b f : Nat) : (List Int × Bool × Nat) × State :=
  match s.chain.sums.find? (fun o => o.1 == (b, f)) with
  | some (_, k) =>
    let s1 := s.addLed (chainLedger k.port.val) { del := 16 }
    ((k.words, k.incomplete, k.contrib), (s1.setChain { s1.chain with sums := s1.chain.sums.filter (fun o => o.1 != (b, f)) }).releaseCopy k)
  | none => ((zeros16, true, 0), (s.addLed (chainLedger 0) { syn := 16, del := 16 }).count Reg.NTK_MISSING 1)

/-- Sums that were only forwarded, or whose feed no longer takes them, are delivered at their deadline. -/
def State.sumDeadline (s : State) (b : Nat) : State :=
  let past := s.chain.sums.filter (fun o => decide (o.1.1 ≤ b))
  past.foldl (fun s o => (s.addLed (chainLedger o.2.port.val) { del := 16 }).releaseCopy o.2)
    (s.setChain { s.chain with sums := s.chain.sums.filter (fun o => decide (b < o.1.1)) })

/-- The tail emits an incomplete sum (R326). -/
def State.tailSum (s : State) (f : Nat) (incomplete : Bool) (contrib : Nat) : State :=
  if incomplete ∨ contrib ≠ (tget s.chain.contrib f).getD 0 then
    ((s.count Reg.NTK_INCOMPLETE 1).orReg (Reg.NTK_INCOMPLETEj + 4 * (f / 32)) (2 ^ (f % 32))).evt Reg.NTK_EVT 2
  else s

/-- Partial sums of chain block b leave toward the next member (R192, R323). -/
def State.queueSums (s : State) (b : Nat) (outs : List (Nat × List Int × Bool × Nat)) : State :=
  let out (xs : List Int) : List Int := (rampBlock s.clock.media.outMute xs).2.1
  s.queueCells 1 ((cellsOf false s.chain.position b (outs.map (fun o => (o.1, out o.2.1, o.2.2)))).map .sum)

/-! ### The block frame (R312, R327, R328) -/

def ChainState.code : ChainState → Nat
  | .alone => 0
  | .forming => 1
  | .joining => 2
  | .member => 3
  | .cut => 4

/-- The chain's time that goes out on a port: the head's, as this renderer keeps it, plus the propagation of the link. -/
def State.chainTime (s : State) (n : Nat) : Nat :=
  let k := if s.chain.head then s.clock.media.active.val else (s.tbWith 4).getD 0
  (s.tb k).tod + (s.ntkPort n).prop * ns16

/-- The CONTROL cell of port n at boundary t. -/
def State.controlCell (s : State) (t n : Nat) : List CtlRecord :=
  let c := s.chain
  let p := s.ntkPort n
  let down := c.ring && s.ntk.ports.any (fun q => q.link == .down)
  let timed := t % 128 == 0 && c.st != .alone && s.downPorts.contains n
  [.block t (c.st.code + (if down then 8 else 0)) c.position] ++
    (if timed then [.time (s.chainTime n) s.clock.media.origin s.clock.media.rate96] else []) ++
    [.credit p.freed (p.returned + p.freed)] ++ p.records ++
    (if t % 128 = 0 then [.linkDelay (s.chainTime n - p.prop * ns16) p.echo] else [])

/-- TYPE of a cell (R311). -/
def OutCell.kind : OutCell → Nat
  | .control _ => 0
  | .object _ => 1
  | .sum _ => 2

/-- Once per block period each READY port sends as much as its credits allow: the cells held for want of credit in their order,
then the new OBJECT cells, then the new SUM cells (R312, R328). -/
def State.frameSend (s : State) (t n : Nat) : State :=
  let p := s.ntkPort n
  if p.link = .ready then
    let kind (k : Nat) (l : List OutCell) : List OutCell := l.filter (fun c => c.kind == k)
    let fresh := p.queue.drop p.waiting
    let cells := p.queue.take p.waiting ++ kind 1 fresh ++ kind 2 fresh
    let all := OutCell.control (s.controlCell t n) :: (if s.counting then cells else kind 0 cells)
    let n1 := min p.credits all.length
    let p1 := { p with frame := all.take n1, queue := all.drop n1, waiting := all.length - n1, credits := p.credits - n1, sent := p.sent + n1,
                       silent := min 4 (p.silent + 1), returned := p.returned + p.freed, freed := 0, records := [], echo := if t % 128 = 0 then none else p.echo }
    let s1 := s.setNtkPort n p1
    if n1 < all.length then s1.count (ntkReg Reg.NTK_Pn_CREDIT_STALLS n) 1 else s1
  else s.setNtkPort n { p with silent := min 4 (p.silent + 1) }

/-- BLOCK_FRAME_SEND of both ports, with the counts of silence at control frames: a control frame is good while each of its block
periods brought a valid frame (R317). -/
def State.framesSend (s : State) (t : Nat) : State :=
  let c := s.chain
  let ok := decide ((s.ntkPort s.timePort).silent = 0)
  let good := if c.st = .cut ∧ ok then c.good + (if t % 128 = 0 then 1 else 0) else 0
  let s1 := s.setChain { c with
    good := good, members := if t % 128 = 0 then c.members.map (fun m => { m with silent := m.silent + 1 }) else c.members }
  ((s1.sendReports.sendDecisions).frameSend t 0).frameSend t 1

end Sys2Proof.Machine
end

