-- ==== Sys2Proof/Machine/Ledgers.lean ====
section
/-!
DEFINITION. The sample ledgers at a block boundary (R28–R43): counts are closed, the balance is checked,
snapshots and audits are taken.
-/
namespace Sys2Proof.Machine

/-! ### The ledgers (R28) -/

def ledgerIndices : List Nat :=
  List.range 64 ++ (List.range 512).map (0x100 + ·) ++ [0x300, 0x301, 0x310] ++ (List.range 512).map (0x400 + ·)

/-- An index holds a ledger. -/
def isLedger (i : Nat) : Bool :=
  i < 64 || (0x100 ≤ i && i < 0x302) || i == 0x310 || (0x400 ≤ i && i < 0x600)

def State.ledger (s : State) (i : Nat) : Ledger := (tget s.led.tab i).getD {}

/-- The stream of a ledger is configured (R37). -/
def State.ledgerActive (s : State) (i : Nat) : Bool :=
  if i < 64 then s.streaming i
  else if i < 0x200 then (tget s.net.rx (i - 0x100)).isSome
  else if i < 0x300 then (tget s.net.tx (i - 0x200)).isSome
  else if i < 0x302 then (s.chain.st == .member || s.chain.st == .cut) && s.ntkEnabled (i - 0x300)
  else if i = 0x310 then s.replay.st != 0
  else (s.feed (i - 0x400)).used

/-! ### Closing the counts (R31, R33, R40) -/

/-- A ledger after what moved. -/
def Ledger.move (l : Ledger) (d : LedDelta) : Ledger :=
  { l with acc := l.acc + BitVec.ofNat 64 d.acc, syn := l.syn + BitVec.ofNat 64 d.syn, dis := l.dis + BitVec.ofNat 64 d.dis,
           del := l.del + BitVec.ofNat 64 d.del,
           inf := l.inf + BitVec.ofNat 64 d.acc + BitVec.ofNat 64 d.syn - BitVec.ofNat 64 d.dis - BitVec.ofNat 64 d.del,
           clip := word (min (l.clip.toNat + d.clip) 0xFFFFFFFF) }

/-- One ledger's counts are closed; its clip counter may saturate. -/
def State.closeLedger (s : State) (p : Nat × LedDelta) : State :=
  let l := (s.ledger p.1).move p.2
  let s1 : State := { s with led := { s.led with tab := tset s.led.tab p.1 l } }
  if p.2.clip ≠ 0 ∧ l.clip = 0xFFFFFFFF then s1.fx (.sat (Reg.SYS_STAT_SAT_CLIPj + 4 * (p.1 / 32)) (p.1 % 32) Reg.SYS_LEDGER_EVT 4)
  else s1

/-- SYNTH or DISCARD is set, with the lowest ledger that advanced (R39). -/
def State.ledgerEvent (s : State) (bit lo : Nat) (first : Option Nat) : State :=
  match first with
  | none => s
  | some i =>
    let old := s.reg Reg.SYS_LEDGER_FIRST
    let keep := old.toNat - fieldOf old lo 11 * 2 ^ lo
    let s1 := if bitOf (s.reg Reg.SYS_LEDGER_EVT) bit then s else s.setReg Reg.SYS_LEDGER_FIRST (word (keep + i * 2 ^ lo))
    s1.evt Reg.SYS_LEDGER_EVT bit

/-- The counts since the last boundary move the ledgers of boundary `t`. DESIGN CHOICE (assumption 64): SYNTH is set for every
advance of SYNTHESIZED, those that R33's table does not name among them (R39). -/
def State.closeCounts (s : State) (t : Nat) : State :=
  let ds := s.led.pend
  let s1 := ds.foldl State.closeLedger { s with led := { s.led with pend := [], lastMsc := t } }
  let s2 := s1.ledgerEvent 0 0 ((ds.find? (fun p => p.2.syn != 0)).map Prod.fst)
  s2.ledgerEvent 1 16 ((ds.find? (fun p => p.2.dis != 0)).map Prod.fst)

/-- Whatever a stream holds is DISCARDED (R33): IN_FLIGHT becomes 0 at the boundary. -/
def State.discardAll (s : State) : State :=
  let held (i : Nat) : Nat :=
    let l := s.ledger i
    let d := (tget s.led.pend i).getD {}
    l.inf.toNat + d.acc + d.syn - d.dis - d.del
  ledgerIndices.foldl (fun s i => if held i = 0 then s else s.addLed i { dis := held i }) s

/-! ### Checks (R30, R273, R431) -/

/-- R30 of one ledger. -/
def Ledger.even (l : Ledger) : Bool := l.acc + l.syn == l.del + l.dis + l.inf

/-- A hardware fault (R431). -/
def State.hwFault (s : State) : State := s.both Reg.PWR_HW_FAULTS Reg.PWR_EVT 4

/-- R30 over every ledger. -/
def State.checkBalance (s : State) : State :=
  if s.led.tab.all (fun p => p.2.even) then s else (s.evt Reg.SYS_LEDGER_EVT 2).hwFault

/-- DSK_EVT_PENDING: the flags of every PENDING word (R273). -/
def State.pendingFlags (s : State) : Nat := (s.tasks.tasks.map (fun p => popcount p.2.pending)).sum

def State.checkEvents (s : State) : State :=
  if s.tasks.posted = s.tasks.consumed + s.pendingFlags + s.tasks.returned then s else (s.evt Reg.DSK_SCH_EVT 2).hwFault

/-! ### Snapshots (R36, R37, R358) -/

def State.snapWrite (s : State) (addr : Nat) (bs : List Byte) : State :=
  if s.host.linkUp ∧ s.host.bme then s.hostWrite addr bs else s

/-- The header of a snapshot: MSC, records, record size, sequence number. -/
def snapHeader (t n size seq : Nat) : List Byte :=
  leBytes 8 t ++ leBytes 4 n ++ leBytes 2 size ++ leBytes 2 1 ++ leBytes 8 seq ++ List.replicate 40 0

/-- One ledger's record (R37). -/
def State.ledgerRecord (s : State) (i : Nat) : List Byte :=
  let l := s.ledger i
  let sat := l.clip == 0xFFFFFFFF
  leBytes 8 l.acc.toNat ++ leBytes 8 l.syn.toNat ++ leBytes 8 l.dis.toNat ++ leBytes 8 l.del.toNat ++ leBytes 8 l.inf.toNat ++
    leBytes 2 i ++ leBytes 2 (b2n (s.ledgerActive i) + 2 * b2n sat) ++ leBytes 4 l.clip.toNat

def State.ledgerSnap (s : State) (t addr : Nat) : State :=
  let bs := snapHeader t 1091 48 (s.led.snapSeq + 1) ++ (ledgerIndices.map s.ledgerRecord).flatten
  ({ s with led := { s.led with snapSeq := s.led.snapSeq + 1 } } : State).snapWrite addr bs

def State.statsSnap (s : State) (t addr : Nat) : State :=
  let recs := (statRegs.map (fun o => leBytes 4 o ++ leBytes 4 (s.reg o).toNat)).flatten
  let bs := snapHeader t statRegs.length 8 (s.led.statSeq + 1) ++ recs
  ({ s with led := { s.led with statSeq := s.led.statSeq + 1 } } : State).snapWrite addr bs

/-! ### Steps 3 to 5 of R34 -/

/-- What a timed command does once ledgers are closed. -/
def Timed.late (t : Timed) : Bool := match t.act with
  | .ledgerSnapshot _ => true
  | .statsSnapshot _ => true
  | .creditAudit => true
  | .nop => false
  | .taskSignal _ _ => false
  | .dmaStart _ _ _ => false

def State.takeSnap (s : State) (t : Nat) (c : Timed) : State :=
  match c.act with
  | .ledgerSnapshot a => (s.ledgerSnap t a.toNat).complete c.cmd (adjusted c.adj) t
  | .statsSnapshot a => (s.statsSnap t a.toNat).complete c.cmd (adjusted c.adj) t
  | .creditAudit => s
  | .nop => s
  | .taskSignal _ _ => s
  | .dmaStart _ _ _ => s

/-- The balance is checked, then snapshots and the audit of boundary `t` are taken, in the order of their commands. -/
def State.boundaryEnd (s : State) (t : Nat) : State :=
  let s1 := ((s.closeCounts t).checkBalance).checkEvents
  let due := s1.timed.filter (fun c => c.late && decide (c.at_ ≤ t))
  let s2 : State := { s1 with timed := s1.timed.filter (fun c => !(c.late && decide (c.at_ ≤ t))), tail := false }
  let s3 := due.foldl (fun s c => s.takeSnap t c) s2
  let audits := (due.filter (fun c => c.act == .creditAudit)).map (fun c => (c.cmd, c.adj))
  if t % 16384 = 0 ∨ audits ≠ [] then s3.auditRun t audits else s3

end Sys2Proof.Machine
end

