-- ==== Sys2Proof/Machine/Ptp.lean ====
section
/-!
DEFINITION. The PTP engine (R49–R52), one instance per time base with SOURCE 1, and the cloakrooms (R55).
-/
namespace Sys2Proof.Machine

/-! ### The instance and its ports -/

/-- The time base runs a PTP instance. -/
def State.ptpRuns (s : State) (n : Nat) : Bool := (s.tb n).st != .disabled && s.tbSource n == 1

/-- Ports of the instance: PORT of TMB_TBn_CFG, 0b00 being NET0. -/
def State.ptpPorts (s : State) (n : Nat) : List (Fin 2) :=
  let p := fieldOf (s.tbCfg n) 4 2
  if p = 2 then [1] else if p = 3 then [0, 1] else [0]

/-- A message belongs to the instance. -/
def State.ptpMine (s : State) (n : Nat) (h : PtpHeader) : Bool :=
  s.ptpRuns n && (s.ptpPorts n).contains h.port && h.domain == fieldOf (s.tbCfg n) 8 7

/-- ROLE, 3 being follower-only. -/
def State.ptpRole (s : State) (n : Nat) : Nat := let r := fieldOf (s.tbCfg n) 16 2; if r = 3 then 0 else r

/-- The message comes from the chosen leader. -/
def TimeBase.follows (t : TimeBase) (h : PtpHeader) : Bool :=
  match t.leader with
  | some l => l.port == h.port && l.source == h.source
  | none => false

def State.sendPtp (s : State) (o : PtpOut) : State := { s with clock := { s.clock with sent := o :: s.clock.sent } }

/-- The delay asymmetry of a port in units of 2⁻¹⁶ ns (R52). -/
def State.asym (s : State) (n : Nat) (p : Fin 2) : Int :=
  (s.reg (tbReg (if p = 0 then Reg.TMB_TBn_ASYM0 else Reg.TMB_TBn_ASYM1) n)).toInt * 65536

/-! ### Sync (R47, R49) -/

/-- A Sync with its origin known: it is accepted, a measurement. -/
def State.syncMeasured (s : State) (n : Nat) (m : PtpSyncMsg) (origin : TimeStamp) (corr : Int) : State :=
  let ms := (unitsOf m.rx : Int) - unitsOf origin - corr
  let t := s.tb n
  (s.setTb n { t with sync := none, msDelay := ms, syncLog := some m.h.logInterval }).measureTb n (ms - t.pathDelay - s.asym n m.h.port)

def ptpSync (n : Nat) (m : PtpSyncMsg) (s : State) : State :=
  let t := s.tb n
  if s.ptpMine n m.h && !t.isLeader && t.follows m.h then
    if m.twoStep then s.setTb n { t with sync := some m } else s.syncMeasured n m m.origin m.h.correction
  else s

def execPtpSync (tb : Fin 4) (m : PtpSyncMsg) (s : State) : Host.Outcome State Fault Refusal := .next (ptpSync tb.val m s)

def ptpFollowUp (n : Nat) (m : PtpFollowUpMsg) (s : State) : State :=
  match (s.tb n).sync with
  | some y =>
    if s.ptpMine n m.h && (s.tb n).follows m.h && y.h.seq == m.h.seq then
      s.syncMeasured n y m.precise (y.h.correction + m.h.correction)
    else s
  | none => s

def execPtpFollowUp (tb : Fin 4) (m : PtpFollowUpMsg) (s : State) : Host.Outcome State Fault Refusal :=
  .next (ptpFollowUp tb.val m s)

/-! ### The best leader (R49, R51) -/

/-- A data set as the default BMCA compares it, most significant part first. -/
def announceKey (p : Fin 2) (m : PtpAnnounceMsg) : List Nat :=
  [m.priority1, m.clockClass, m.clockAccuracy, m.variance, m.priority2, m.gmIdentity.toNat, m.stepsRemoved, m.h.source.toNat, p.val]

/-- The renderer's own data set. -/
def State.ownKey (s : State) (n : Nat) : List Nat :=
  let b := s.reg (tbReg Reg.TMB_TBn_BMCA n)
  [fieldOf b 0 8, fieldOf b 8 8, fieldOf b 16 8, Config.ownVariance, fieldOf b 24 8, Config.ownIdentity.toNat, 0, Config.ownIdentity.toNat, 0]

def lexLt : List Nat → List Nat → Bool
  | a :: as, b :: bs => decide (a < b) || (a == b && lexLt as bs)
  | _, _ => false

/-- The best of the leaders heard. -/
def bestLeader : List PtpLeader → Option PtpLeader
  | [] => none
  | l :: ls =>
    match bestLeader ls with
    | none => some l
    | some b => if lexLt (announceKey b.port b.msg) (announceKey l.port l.msg) then some b else some l

/-- TMB_TBn_UTC from an Announce message. -/
def utcOf (m : PtpAnnounceMsg) : Word :=
  word (m.utcOffset % 65536 + 65536 * b2n m.leap61 + 131072 * b2n m.leap59 + 262144 * b2n m.utcValid)

/-- The interval at which a leader announces, as its messages say, within R50's range. -/
def PtpLeader.span (l : PtpLeader) : Nat := logSpan (clampI (-3) 3 l.msg.h.logInterval)

/-- Two Announce messages within four of their intervals qualify a leader. PRESUMED from IEEE 1588-2019, clause 9.3.2.5
(assumption 69). -/
def PtpLeader.qualified (run : Nat) (l : PtpLeader) : Bool := l.before.any (fun b => decide (run ≤ b + 4 * l.span))

/-- A leader is remembered for four of its intervals. -/
def PtpLeader.fresh (run : Nat) (l : PtpLeader) : Bool := decide (run ≤ l.last + 4 * l.span)

/-- The leaders that the BMCA compares: the one it chose, and those that qualify. -/
def TimeBase.candidates (t : TimeBase) : List PtpLeader :=
  t.foreign.filter (fun l => decide (l.msg.stepsRemoved < 255) && l.source != Config.ownIdentity &&
    (t.leader.any (fun x => x.port == l.port && x.source == l.source) || l.qualified t.run))

/-- Whom the instance follows, and whether it leads (clause 9.3); `alone`, its wait for announces has run out. -/
def State.bmcaChoice (s : State) (n : Nat) (alone : Bool) : Option PtpLeader × Bool :=
  let t := s.tb n
  let best := bestLeader t.candidates
  let cls := fieldOf (s.reg (tbReg Reg.TMB_TBn_BMCA n)) 8 8
  if s.ptpRole n = 2 then (none, true)
  else if s.ptpRole n = 0 then (best, false)
  else
    match best with
    | none => (none, alone || t.isLeader || t.leader.isSome)
    | some b =>
      if lexLt (s.ownKey n) (announceKey b.port b.msg) then (none, true)
      else if 1 ≤ cls ∧ cls < 128 then (none, false)
      else (best, false)

/-- The choice is carried out: a change of leader restarts the acquisition (R47). -/
def State.bmca (s : State) (n : Nat) (alone : Bool) : State :=
  let t := s.tb n
  let c := s.bmcaChoice n alone
  let who (l : Option PtpLeader) : Option (Fin 2 × DWord) := l.map (fun x => (x.port, x.source))
  let t1 : TimeBase := { t with leader := c.1, isLeader := c.2, utc := match c.1 with
    | some l => utcOf l.msg
    | none => t.utc }
  if who t.leader = who c.1 then s.setTb n t1
  else
    let t2 : TimeBase := { t1 with sync := none, pathDelay := 0, msDelay := 0, reqOut := none, seen := t.run, syncLog := none }
    let t3 := if c.1.isSome || t.st != .holdover then t2.acquire else t2
    let s1 := (s.setTb n t3).evt Reg.TMB_EVT 5
    if n = s.clock.media.active.val then s1.checkHold else s1

def ptpAnnounce (n : Nat) (m : PtpAnnounceMsg) (s : State) : State :=
  if s.ptpMine n m.h then
    let t := s.tb n
    let same (x : PtpLeader) : Bool := x.port == m.h.port && x.source == m.h.source
    let l : PtpLeader := { port := m.h.port, source := m.h.source, msg := m, last := t.run,
                           before := (t.foreign.find? same).map (fun x => x.last) }
    let rest := t.foreign.filter (fun x => !same x && x.fresh t.run)
    (s.setTb n { t with foreign := rest ++ [l] }).bmca n false
  else s

def execPtpAnnounce (tb : Fin 4) (m : PtpAnnounceMsg) (s : State) : Host.Outcome State Fault Refusal :=
  .next (ptpAnnounce tb.val m s)

/-- The time at which the wait for announces began: the chosen leader's last one; with none chosen, the last of all, or the
enabling of the time base. -/
def TimeBase.waitFrom (t : TimeBase) : Nat :=
  match t.foreign.find? (fun x => t.leader.any (fun l => l.port == x.port && l.source == x.source)) with
  | some x => x.last
  | none => (t.foreign.map (fun x => x.last)).foldl max 0

/-- The announce receipt timeout: so many intervals, the chosen leader's or, with none chosen, the instance's own (R50). -/
def State.receiptSpan (s : State) (n : Nat) : Nat :=
  let i := s.ptpIntervals n
  i.2.2.1.toNat * (match (s.tb n).leader with
    | some l => l.span
    | none => logSpan i.2.1)

/-- The chosen leader's announces have stopped, or none came to an instance that waits for them (R47, R51). -/
def announceReceiptTimeout (n : Nat) (s : State) : State :=
  let t := s.tb n
  if s.ptpRuns n ∧ ¬t.isLeader ∧ t.waitFrom + s.receiptSpan n ≤ t.run then
    match t.leader with
    | none => s.bmca n true
    | some l =>
      let s1 := (s.setTb n { t with foreign := t.foreign.filter (fun x => !(x.port == l.port && x.source == l.source)) }).bmca n true
      if (s1.tb n).leader.isNone then s1.dropSource n else s1
  else s

def execAnnounceReceiptTimeout (tb : Fin 4) (s : State) : Host.Outcome State Fault Refusal :=
  .next (announceReceiptTimeout tb.val s)

/-! ### The cloakroom (R55) -/

def State.cloak (s : State) (p : Nat) : Cloak := s.clock.cloak.getD p {}
def State.setCloak (s : State) (p : Nat) (k : Cloak) : State := { s with clock := { s.clock with cloak := s.clock.cloak.set p k } }

/-- Entries that hold a time-stamp. -/
def Cloak.occupied (k : Cloak) : Nat := (k.entries.filter (fun e => e.stamp.isSome)).length

/-- An event message goes to its port, or is held while the cloakroom is full. -/
def State.launch (s : State) (p : Fin 2) (e : CloakEntry) : State :=
  let k := s.cloak p.val
  if k.entries.length < 64 then s.setCloak p.val { k with entries := k.entries ++ [e] }
  else (s.setCloak p.val { k with held := k.held ++ [e] }).both (Reg.TMB_CLOAK_HELDp + 4 * p.val) Reg.TMB_EVT 6

/-- Entries are retired, and a held message takes each free place. -/
def State.retireCloak (s : State) (p : Fin 2) (gone : CloakEntry → Bool) : State :=
  let k := s.cloak p.val
  let es := k.entries.filter (fun e => !gone e)
  let n := 64 - es.length
  s.setCloak p.val { k with entries := es ++ k.held.take n, held := k.held.drop n }

/-- A message of the same kind of the same instance is still held. -/
def State.stillHeld (s : State) (p : Fin 2) (n : Nat) (kind : PtpKind) : Bool :=
  (s.cloak p.val).held.any (fun e => e.tb.val == n && e.kind == kind)

/-- The message is not generated. -/
def State.skipPtp (s : State) (p : Fin 2) : State := s.both (Reg.TMB_CLOAK_SKIPp + 4 * p.val) Reg.TMB_EVT 7

/-- A leader's Sync is due on each of its ports. -/
def ptpSyncDue (n : Fin 4) (s : State) : State :=
  if s.ptpRuns n.val && (s.tb n.val).isLeader then
    let q := (s.tb n.val).seqSync
    let s1 := (s.ptpPorts n.val).foldl (fun s p =>
      if s.stillHeld p n.val .sync then s.skipPtp p
      else s.launch p { tb := n, kind := .sync, seq := q, stamp := none }) s
    s1.setTb n.val { s1.tb n.val with seqSync := (q + 1) % 65536 }
  else s

def execPtpSyncDue (tb : Fin 4) (s : State) : Host.Outcome State Fault Refusal := .next (ptpSyncDue tb s)

/-- A follower's Delay_Req is due on the chosen leader's port; one that was never answered gives its entry back. -/
def ptpDelayReqDue (n : Fin 4) (s : State) : State :=
  match (s.tb n.val).leader with
  | none => s
  | some l =>
    if s.ptpRuns n.val then
      if s.stillHeld l.port n.val .delayReq then s.skipPtp l.port
      else
        let q := (s.tb n.val).seqReq
        let s1 := s.retireCloak l.port (fun e => e.tb == n && e.kind == .delayReq && e.stamp.isSome)
        let s2 := s1.launch l.port { tb := n, kind := .delayReq, seq := q, stamp := none }
        s2.setTb n.val { s2.tb n.val with seqReq := (q + 1) % 65536, reqOut := some (q, none) }
    else s

def execPtpDelayReqDue (tb : Fin 4) (s : State) : Host.Outcome State Fault Refusal := .next (ptpDelayReqDue tb s)

/-- A leader's Announce is due (R50). -/
def ptpAnnounceDue (n : Fin 4) (s : State) : State :=
  if s.ptpRuns n.val && (s.tb n.val).isLeader then
    let q := (s.tb n.val).seqAnn
    let b := s.reg (tbReg Reg.TMB_TBn_BMCA n.val)
    let i := (s.ptpIntervals n.val).2.1
    let s1 := (s.ptpPorts n.val).foldl (fun s p =>
      s.sendPtp (.announce p n q i (fieldOf b 0 8) (fieldOf b 8 8) (fieldOf b 16 8) (fieldOf b 24 8))) s
    s1.setTb n.val { s1.tb n.val with seqAnn := (q + 1) % 65536 }
  else s

def execPtpAnnounceDue (tb : Fin 4) (s : State) : Host.Outcome State Fault Refusal := .next (ptpAnnounceDue tb s)

/-- The first entry without a time-stamp gets one. -/
def stampFirst (at_ : TimeStamp) : List CloakEntry → List CloakEntry
  | [] => []
  | e :: es => if e.stamp.isNone then { e with stamp := some at_ } :: es else e :: stampFirst at_ es

/-- An event message has left the port (R52, R55): a Sync is followed up and its entry retired, a Delay_Req waits
for its answer. -/
def ptpEventTransmitted (p : Fin 2) (at_ : TimeStamp) (s : State) : State :=
  let k := s.cloak p.val
  match k.entries.find? (fun e => e.stamp.isNone) with
  | none => s
  | some e =>
    let k1 := { k with entries := stampFirst at_ k.entries }
    let s1 := s.setCloak p.val { k1 with high := max k.high k1.occupied }
    match e.kind with
    | .sync =>
      ((s1.sendPtp (.sync p e.tb e.seq (s.ptpIntervals e.tb.val).1)).sendPtp (.followUp p e.tb e.seq at_)).retireCloak p
        (fun x => x.tb == e.tb && x.kind == .sync && x.seq == e.seq && x.stamp.isSome)
    | .delayReq =>
      let t := s1.tb e.tb.val
      let s2 := s1.sendPtp (.delayReq p e.tb e.seq (bitOf (s.tbCfg e.tb.val) 18))
      match t.reqOut with
      | some (q, none) => if q = e.seq then s2.setTb e.tb.val { t with reqOut := some (q, some at_) } else s2
      | some (_, some _) => s2
      | none => s2

def execPtpEventTransmitted (port : Fin 2) (at_ : TimeStamp) (s : State) : Host.Outcome State Fault Refusal :=
  .next (ptpEventTransmitted port at_ s)

/-! ### Delay requests (R49, R51) -/

/-- A leader answers, with the request's correction. -/
def ptpDelayReq (n : Fin 4) (m : PtpDelayReqMsg) (s : State) : State :=
  if s.ptpMine n.val m.h && (s.tb n.val).isLeader then
    s.sendPtp (.delayResp m.h.port n m.h.source m.h.seq m.rx m.h.correction (s.ptpIntervals n.val).2.2.2)
  else s

def execPtpDelayReq (tb : Fin 4) (m : PtpDelayReqMsg) (s : State) : Host.Outcome State Fault Refusal := .next (ptpDelayReq tb m s)

/-- The answer gives the mean path delay, and the cloakroom entry is used. -/
def ptpDelayResp (n : Fin 4) (m : PtpDelayRespMsg) (s : State) : State :=
  let t := s.tb n.val
  match t.reqOut with
  | some (q, some sent) =>
    if s.ptpMine n.val m.h && t.follows m.h && m.requester == Config.ownIdentity && m.h.seq == q then
      let d := (unitsOf m.receive : Int) - unitsOf sent - m.h.correction
      (s.setTb n.val { t with pathDelay := rdiv (t.msDelay + d) 2, reqOut := none }).retireCloak m.h.port
        (fun e => e.tb == n && e.kind == .delayReq && e.seq == q)
    else s
  | some (_, none) => s
  | none => s

def execPtpDelayResp (tb : Fin 4) (m : PtpDelayRespMsg) (s : State) : Host.Outcome State Fault Refusal :=
  .next (ptpDelayResp tb m s)

/-- A message the engine does not support is ignored and counted among the port's dropped packets. -/
def execPtpUnsupportedMessage (port : Fin 2) (s : State) : Host.Outcome State Fault Refusal :=
  .next (s.count (Reg.NET_Pn_DROPPED + 0x40 * port.val) 1)

end Sys2Proof.Machine
end

