-- ==== Sys2Proof/Machine/TaskCmds.lean ====
section
/-!
DEFINITION. TASK_CREATE, TASK_SIGNAL and TASK_CANCEL (R241, R261, R262, R269, R270, R272).
-/
namespace Sys2Proof.Machine

/-- Channels of an insertion point (R238). -/
def ipRange (ip : Nat) : Nat := if ip = 1 then 1024 else if ip = 2 then 128 else 512

/-- TASK_CREATE's fields (R261). -/
def parseTask (e : Submission) : Option (Nat × Bool × TaskCfg) :=
  let n (o k : Nat) : Nat := sub e o k
  let fl := n 18 1
  let bound := fl / 4 % 2 == 1
  let ip := n 28 1
  let count := n 32 1
  let flow := if ip = 0 then n 24 4 != 0 && count == 0
    else decide (1 ≤ count) && count ≤ 64 && n 30 2 + count ≤ ipRange ip
  let ok := n 16 2 < 256 && fl < 8 && fl % 2 ≤ 1 && n 19 1 < 8 && n 20 1 < 4 && (!bound || n 20 1 == 0) &&
    (if bound then n 21 1 < 16 else n 21 1 == 0) && ip < 5 && n 29 1 < 2 && flow && n 33 1 ≤ 64 && n 34 1 < 128 &&
    n 34 1 + n 33 1 ≤ 128 && subZero e 35 1 && n 36 4 < 131072 && n 40 4 < 131072 && n 44 4 < 131072 && n 48 2 ≤ 2000 &&
    subZero e 50 14
  if ok then
    some (n 16 2, fl / 2 % 2 == 1,
      { matchAll := fl % 2 == 1, bound := bound, prio := n 19 1, group := n 20 1, desk := n 21 1, entry := n 22 2,
        wait := word (n 24 4), ip := ip, layout := n 29 1, first := n 30 2, count := count, retCount := n 33 1,
        retFirst := n 34 1, inbox := n 36 4, outbox := n 40 4, retbox := n 44 4, xfade := n 48 2 })
  else none

/-- Two spans of channels overlap. -/
def spansMeet (a n b m : Nat) : Bool := decide (0 < n ∧ 0 < m ∧ a < b + m ∧ b < a + n)

/-- A channel of the task's insertion point or a return channel is taken (R241). -/
def State.taskClash (s : State) (c : TaskCfg) : Bool :=
  s.tasks.tasks.any (fun p =>
    (c.ip != 0 && p.2.cfg.ip == c.ip && spansMeet c.first c.count p.2.cfg.first p.2.cfg.count) ||
    spansMeet c.retFirst c.retCount p.2.cfg.retFirst p.2.cfg.retCount)

/-- Tasks are refused (R261, R272). -/
def State.noTasks (s : State) : Bool := s.pwr.mode == .standby || s.noDram

/-- TASK_CREATE (R261, R262, R269). -/
def taskCreate (e : Submission) (c : CmdRef) (s : State) : State :=
  match parseTask e with
  | none => s.reject c e stBadParam 0
  | some (t, late, k) =>
    if (s.task t).isSome || s.taskClash k then s.reject c e stBadParam 0
    else if s.noTasks then s.reject c e stModeRefused 0
    else if k.ip ≠ 0 ∧ (48 ≤ s.reserved (s.listKey k) ∨ !s.room (s.listKey k)) then s.reject c e stNoResource 0
    else if e.epoch ≠ 0 then
      match s.openEpoch e with
      | some _ =>
        if e.present ≠ 0 then s.reject c e stBadParam 0
        else (s.setTask t { cfg := k }).addMember c e { chgs := [.taskCreate t k], switch := none, staged := true, geo := false }
      | none => s.complete c stBadParam 0
    else if k.ip = 0 then (s.setTask t { cfg := k }).complete c stOk 0
    else if s.valid = false ∧ e.present ≠ 0 then s.complete c stModeRefused 0
    else if s.valid && (s.blockFor (ipSlot k.ip) (s.mscOf e.present)).2 && !late then s.complete c stLate 0
    else (s.setTask t { cfg := k }).blockCommand c e (ipSlot k.ip) late false (fun _ => [.taskCreate t k]) blockRes

def execTaskCreate (e : Submission) (s : State) : Host.Outcome State Fault Refusal := .next (hostCommand 0x50 e (taskCreate e) s)

/-- The flags of a TASK_SIGNAL are posted, or held together with the queue that carried it (R264, R272). -/
def State.signalTask (s : State) (c : CmdRef) (adj : Bool) (t : Nat) (mask : Word) : State :=
  if (s.task t).isNone then s.complete c stBadParam 0
  else if s.canPost t mask then (s.applyPost t mask).complete c (adjusted adj) s.resMsc
  else
    let s1 := s.hold (.host c adj) t mask
    s1.setQueue c.queue.val { s1.queue c.queue.val with held := true }

/-- TASK_SIGNAL (R272). -/
def taskSignal (e : Submission) (c : CmdRef) (s : State) : State :=
  let t := sub e 16 2
  let mask := word (sub e 20 4)
  if 256 ≤ t ∨ ¬lateFlag (sub e 18 1) ∨ ¬subZero e 19 1 ∨ mask = 0 ∨ ¬subZero e 24 40 ∨ (s.task t).isNone then
    s.complete c stBadParam 0
  else if s.noTasks then s.complete c stModeRefused 0
  else if e.present = 0 then s.signalTask c false t mask
  else if !s.valid then s.complete c stModeRefused 0
  else
    let b := upTo 16 (s.mscOf e.present)
    if s.msc < s.mscOf e.present then s.addTimed c b false (.taskSignal t mask)
    else if sub e 18 1 = 2 then s.signalTask c true t mask
    else s.complete c stLate 0

def execTaskSignal (e : Submission) (s : State) : Host.Outcome State Fault Refusal := .next (hostCommand 0x51 e (taskSignal e) s)

/-- TASK_CANCEL (R270): the command completes once its task is FREE; as a member it completes when it is staged. -/
def taskCancel (e : Submission) (c : CmdRef) (s : State) : State :=
  let t := sub e 16 2
  if 256 ≤ t ∨ ¬lateFlag (sub e 18 1) ∨ ¬subZero e 19 45 then s.reject c e stBadParam 0
  else
    match s.task t with
    | none => s.reject c e stBadParam 0
    | some k =>
      if e.epoch ≠ 0 then s.addMember c e { chgs := [.taskCancel t], switch := none, staged := true, geo := false }
      else
        let mine (adj : Bool) : State := s.setTask t { k with cancel := k.cancel ++ [(c, adj)] }
        if k.cfg.ip = 0 then (mine false).finishTask t
        else if !s.valid then
          if e.present ≠ 0 then s.complete c stModeRefused 0 else (mine false).finishTask t
        else
          let r := s.blockFor (ipSlot k.cfg.ip) (s.mscOf e.present)
          if r.2 ∧ sub e 18 1 = 0 then s.complete c stLate 0 else (mine r.2).put (some c.order) r.1 (.taskCancel t)

def execTaskCancel (e : Submission) (s : State) : Host.Outcome State Fault Refusal := .next (hostCommand 0x52 e (taskCancel e) s)

end Sys2Proof.Machine
end

