-- ==== Sys2Proof/Machine/Sdac.lean ====
section
/-!
DEFINITION. The service DAC (R224–R231): SDAC_WRITE, SDAC_STROBE, the strobe pin, range clamps and current limits.
-/
namespace Sys2Proof.Machine

def State.sdacCh (s : State) (k : Nat) : SdacCh := s.sdac.getD k {}
def State.setSdac (s : State) (k : Nat) (c : SdacCh) : State := { s with sdac := s.sdac.set k c }

/-- SDAC_WRITE's fields (R229). -/
def parseSdac (fs : Nat) (e : Submission) : Option SdacWrite :=
  let n (o k : Nat) : Nat := sub e o k
  let stream := n 18 1 == 1
  let src := n 22 1
  let rate := if n 23 1 = 1 then 2 * fs else fs
  let tap := parseTap (imgAt (entryByte e) 32)
  let tone := decide (16 ≤ n 24 4) && decide (n 24 4 + 16 ≤ 8 * rate)
  let fits := !stream ||
    (if src = 0 then n 23 1 == 0 && tap.isSome
     else decide (src < 4) && decide (n 23 1 < 2) && decide (n 28 2 ≤ n 30 2) &&
       (if src = 3 then decide (1 ≤ n 36 4) && n 36 4 ≤ 0x7FFFFF else tone))
  if n 16 1 < 8 ∧ n 17 1 < 4 ∧ n 18 1 < 2 ∧ n 19 1 < 2 ∧ fits ∧ subZero e 40 24 then
    some { ch := n 16 1, strobe := n 17 1 % 2 == 1, stream := stream, range := n 19 1 == 1, code := n 20 2, src := src,
           rate2 := n 23 1 == 1, freq := n 24 4, lo := n 28 2, hi := n 30 2, tap := tap.getD (0, 0), seed := n 36 4 }
  else none

/-- A write applies to its channel. Where a strobe fell in the same sample period, the write counts as the first of the two
(R227). -/
def State.sdacWriteNow (s : State) (w : SdacWrite) : State :=
  let c := s.sdacCh w.ch
  let hit := w.strobe || (s.valid && c.struck)
  s.setSdac w.ch { sdacApply { w with strobe := hit } c with struck := hit }

/-- The channels of a mask are strobed (R227). -/
def State.strobeMask (s : State) (mask : Nat) : State :=
  { s with sdac := s.sdac.zipIdx.map (fun p => if mask / 2 ^ p.2 % 2 = 1 then { sdacStrobe p.1 with struck := true } else p.1) }

/-- Timing of both commands (R229): at once, at sample period p, or late. -/
def State.sdacTimed (s : State) (c : CmdRef) (p : Nat) (late : Bool) (now : State → State) (wait : SdacTimed) : State :=
  if p = 0 then (now s).complete c stOk s.resMsc
  else if !s.valid then s.complete c stModeRefused 0
  else if s.msc < p then { s with sdacWait := s.sdacWait ++ [wait] }
  else if late then (now s).complete c stAdjusted s.msc
  else s.complete c stLate 0

def sdacWriteCmd (e : Submission) (c : CmdRef) (s : State) : State :=
  match parseSdac s.fs e with
  | none => s.complete c stBadParam 0
  | some w =>
    s.sdacTimed c (s.mscOf e.present) (sub e 17 1 / 2 == 1) (fun s => s.sdacWriteNow w) (.write c (s.mscOf e.present) w)

def execSdacWrite (e : Submission) (s : State) : Host.Outcome State Fault Refusal := .next (hostCommand 0x70 e (sdacWriteCmd e) s)

def sdacStrobeCmd (e : Submission) (c : CmdRef) (s : State) : State :=
  if sub e 16 1 = 0 ∨ ¬lateFlag (sub e 17 1) ∨ ¬subZero e 18 46 then s.complete c stBadParam 0
  else
    s.sdacTimed c (s.mscOf e.present) (sub e 17 1 == 2) (fun s => s.strobeMask (sub e 16 1)) (.strobe c (s.mscOf e.present) (sub e 16 1))

def execSdacStrobe (e : Submission) (s : State) : Host.Outcome State Fault Refusal :=
  .next (hostCommand 0x71 e (sdacStrobeCmd e) s)

/-- Timed commands of sample period n: writes first, then strobes (R227). -/
def State.sdacDue (s : State) (n : Nat) : State :=
  let due (t : SdacTimed) : Bool := match t with
    | .write _ p _ => decide (p ≤ n)
    | .strobe _ p _ => decide (p ≤ n)
  let ds := s.sdacWait.filter due
  let s0 : State := { s with sdacWait := s.sdacWait.filter (fun t => !due t), sdac := s.sdac.map (fun c => { c with struck := false }) }
  let s1 := ds.foldl (fun s t => match t with
    | .write _ _ w => s.sdacWriteNow w
    | .strobe _ _ _ => s) s0
  let s2 := ds.foldl (fun s t => match t with
    | .write _ _ _ => s
    | .strobe _ _ m => s.strobeMask m) s1
  ds.foldl (fun s t => match t with
    | .write c p _ => s.complete c stOk p
    | .strobe c p _ => s.complete c stOk p) s2

/-- A sample at a tap point, 0 where nothing was rendered (R125). -/
def State.tapSample (s : State) (tap : Nat × Nat) (i : Nat) : Int :=
  match ((tget s.pipe.taps (tap.1 * 1024 + tap.2)).getD []).find? (fun b => b.1 == i / 16 * 16) with
  | some b => sampleAt b.2 (i % 16)
  | none => 0

/-- The stream samples of sample period n (R230): a TAP channel holds its code while no pipeline runs, a generator
at twice the media rate forms two. -/
def State.sdacStreams (s : State) (n : Nat) : State :=
  (List.range 8).foldl (fun s k =>
    let c := s.sdacCh k
    if !c.stream || (c.src == 0 && !s.piping) then s
    else
      let r := sdacAdvance s.fs (if c.src = 0 ∧ 96 ≤ n then s.tapSample c.tap (n - 96) else 0) c
      let s1 := s.setSdac k r.1
      let s2 := if r.2 then s1.both Reg.SDAC_CLIPS Reg.SDAC_EVT 1 else s1
      if c.rate2 && c.src != 0 then s2.setSdac k (sdacAdvance s.fs 0 r.1).1 else s2) s

/-- Pin SDAC_OUT[k] in units of 2.5 V / 65,536 (R224, R225): 0 V in RESET and BOOT, `none` where it is high impedance. -/
def State.sdacPin (s : State) (k : Nat) : Option Nat :=
  if s.pwr.mode = .dormant then none else some (if s.pwr.mode.awake then (s.sdacCh k).volts else 0)

/-- A falling edge on SDAC_LOAD_N (R227). -/
def sdacLoadNFall (s : State) : State :=
  if s.pwr.mode.awake then s.strobeMask (fieldOf (s.reg Reg.SDAC_CFG) 0 8) else s

def execSdacLoadNFall (s : State) : Host.Outcome State Fault Refusal := .next (sdacLoadNFall s)

/-- The range clamp of 20 µs ends (R226). -/
def execSdacRangeClampEnd (ch : Fin 8) (s : State) : Host.Outcome State Fault Refusal :=
  .next (s.setSdac ch.val (sdacUnclamp (s.sdacCh ch.val)))

/-- An output begins to limit its current (R228). -/
def sdacCurrentLimit (k : Nat) (s : State) : State :=
  let c := s.sdacCh k
  if c.ilim then s
  else (((s.setSdac k { c with ilim := true }).orReg Reg.SDAC_ILIM (2 ^ k)).count Reg.SDAC_ILIM_EVENTS 1).evt Reg.SDAC_EVT 0

def execSdacCurrentLimit (ch : Fin 8) (s : State) : Host.Outcome State Fault Refusal := .next (sdacCurrentLimit ch.val s)

def execSdacCurrentLimitEnd (ch : Fin 8) (s : State) : Host.Outcome State Fault Refusal :=
  .next (s.setSdac ch.val { s.sdacCh ch.val with ilim := false })

end Sys2Proof.Machine
end

