-- ==== Sys2Proof/Machine/Modes.lean ====
section
/-!
DEFINITION. Modes (R407–R422, R357): MODE_SET, entry to and exit from STANDBY, DORMANT and FALLBACK, the
thermal steps, and the start and the end of a valid MSC (R57, R464).
-/
namespace Sys2Proof.Machine

/-! ### Parts that a change of mode stops or starts -/

def State.setPwr (s : State) (p : PwrSt) : State := { s with pwr := p }

/-- Running tasks are stopped; blocks and ready entries of attached tasks are removed uncounted (R259, R274). `free`: tasks with
IP 0 run on, as they do while the MSC is not valid. -/
def State.stopTasks (s : State) (free : Bool) : State :=
  (s.tasks.tasks.map Prod.fst).foldl (fun s t =>
    let flow := (s.task t).any (fun k => k.cfg.ip != 0)
    let s1 := if free && !flow then s else s.stopRun t
    match s1.task t with
    | none => s1
    | some k =>
      if k.cfg.ip = 0 then s1
      else
        let s2 := if k.st = .ready then s1.leaveList (s1.listKey k.cfg) t else s1
        s2.setTask t { k with st := .waiting, released := none, output := none, inboxDue := none }) s

/-- Crossfades of attached tasks are over (R130, R464): a task that was to detach is ready to go, one that is attached takes part
from the first block on that the pipeline then renders. -/
def Task.settled (k : Task) : Task :=
  if k.detachAt.isSome then { k with detaching := true, weight := Ramp.at_ 0 }
  else { k with weight := k.weight.done, from_ := if k.attached then 0 else k.from_ }

def State.settleTasks (s : State) : State :=
  { s with tasks := { s.tasks with tasks := tmap (fun _ k => k.settled) s.tasks.tasks, rets := [] } }

/-- What a jump crossfade held is in force (R119, R464). -/
def Locker.unheld (l : Locker) : Locker :=
  match l.held with
  | none => l
  | some h =>
    let c := h.cfg.getD l.geoTarget
    { l.retarget { c with pos := h.pos.getD l.target } with held := none }

/-- Shelf crossfades end (R100): the outgoing slot is VERIFIED. -/
def State.endXfades (s : State) : State :=
  { s with xfades := [], shelves := s.shelves.map (fun v => if v.st = .fading then { v with st := .verified } else v) }

def Route.settled (r : Route) : Route := { r with gain := r.gain.done, srcOld := none, live := r.cfg.enable, drop := [] }

/-- The override's and MUTE_N's ramps are over. -/
def OvrSt.settled (o : OvrSt) : OvrSt :=
  let w := (o.wNext.getLast?.map (fun n => n.2.1)).getD o.wTo
  let g := (o.mnNext.getLast?.map (fun n => n.2.1)).getD o.mn.target
  { o with wFrom := w, wTo := w, wStart := 0, wNext := [], mn := Ramp.at_ g, mnNext := [], log := [] }

/-- The pipeline holds nothing any more: lockers (R130, R181), speaker stage (R212), geometry and the blocks in
the slots. -/
def State.pipeEmpty (s : State) : State :=
  let gone := (s.feeds.map (fun p => match p.2.firOld with
    | some (o, _) => o.length
    | none => 0)).sum
  let s1 := s.endXfades
  { s1 with
    lockers := tmap (fun _ l => { lockerStandby l.unheld with geoOn := l.cfg.enable }) s1.lockers,
    feeds := tmap (fun _ f => feedStandby f) s1.feeds, firUsed := s1.firUsed - gone,
    matrix := tmap (fun _ (n : Node) => { n with gain := n.gain.done }) s1.matrix,
    auxs := tmap (fun _ (a : Aux) => { a with gain := a.gain.done, srcOld := none }) s1.auxs,
    geo := { s1.geo with frozen := [], ready := none, holds := [], kept := 0, fading := 0, pruned := false, pruning := false,
                         lateLast := false, past := false, corners := 0, direct := 0, reEval := false },
    path := { s1.path with rendered := 0, clamping := false, probeFrom := none, lkClamped := [] },
    pipe := {}, stage := Ramp.at_ 0 }

/-- The pipeline starts with boundary `b` (R57, R412): delay lines are filled with zeros (R193), paths enter (R175). -/
def State.pipeStart (s : State) (b : Nat) : State :=
  let s1 := s.feeds.foldl (fun s p => if p.2.used then s.addLed (feedLedger p.1) { syn := p.2.len } else s) s
  { s1 with pipe := { s1.pipe with start := b, running := true }, geo := { s1.geo with firstFrame := b + 128 } }

/-! ### The stage mute (R202) -/

def State.stageTo (s : State) (t : Int) : State :=
  if s.stage.target = t then s else { s with stage := s.stage.start t s.len50 }

/-- At a control-frame boundary the stage mute follows the mode. -/
def State.stageStep (s : State) : State :=
  if !s.valid || s.pwr.entering.isSome then s
  else match s.pwr.mode with
    | .show_ => s.stageTo (2 ^ 27)
    | .service => s.stageTo (2 ^ 27)
    | .fallback => s.stageTo (2 ^ 27)
    | .setup => s.stageTo 0
    | .standby => s
    | .reset => s
    | .boot => s
    | .dormant => s

/-! ### FALLBACK (R418–R421, R101) -/

/-- Commands that wait for a change of mode are not carried out (R411). -/
def State.abortWait (s : State) : State :=
  match s.pwr.wait with
  | none => s
  | some w => (s.setPwr { s.pwr with wait := none }).complete w.cmd stAborted 0

/-- SEALED and WAITING epochs with a shelf switch are CANCELLED. -/
def State.cancelSwitches (s : State) : State :=
  s.cancelEpochs (fun e => (e.st == .sealed || e.st == .waiting) && e.hasSwitch)

/-- The selection of the safe shelf with DRAM healthy (R101): an epoch of its own, first checked at the next
control-frame boundary. SEALED and WAITING epochs with a switch are CANCELLED in any case. -/
def State.safeSelect (s : State) : State :=
  let s1 := s.cancelEpochs (fun e => !e.safe && (e.st == .sealed || e.st == .waiting) && e.hasSwitch)
  if s.active = 8 ∨ (s.slot 8).st = .failed ∨ s.epochs.any (fun e => e.safe) then s1
  else
    if !s1.valid then s1.switchNow 8
    else
      let w : Switch := { target := 8, xfade := 0, atEnd := true }
      let m : Member := { chgs := [], switch := some w, staged := false, geo := true }
      let e : Epoch := { id := 0, st := .sealed, deadline := 0, m := s1.msc + 256, members := [m], order := s1.epochSeq, safe := true }
      { s1 with epochs := s1.epochs ++ [e], epochSeq := s1.epochSeq + 1 }

/-- Each feed's line in desk memory (R196). Where no pipeline runs, the line is empty and is filled as one starts. -/
def lentFeed (s : State) (p : Nat × Feed) : State :=
  let f := p.2
  if f.used then
    let n := min f.cfg.align 4096
    let long := decide (4096 < f.cfg.align)
    let s0 := s.setFeed p.1 { f with len := n, line := [], fades := [], delayClamped := long }
    let s1 := if s.piping then s0.addLed (feedLedger p.1) { dis := f.len, syn := n } else s0
    if long && !f.delayClamped then s1.both Reg.SPK_DELAY_CLAMPS Reg.SPK_EVT 4 else s1
  else s

/-- The delay lines that DRAM held are lost: PRE_DELAY (R130) and ALIGN (R196). -/
def State.linesLost (s : State) : State :=
  let s1 : State := { s with lockers := tmap (fun _ l => if l.live && !l.pdLost then { l with pdLost := true, line := [], delayOld := none } else l) s.lockers }
  s1.feeds.foldl lentFeed s1

/-- The sections that wait for the end of a crossfade to slot 8 act with the selection, at `t` (R101). -/
def State.hurrySafe (s : State) (t : Nat) : State :=
  let ends := s.xfades.map (fun x => upTo 128 (x.m + x.len))
  let late := s.shelfSpeaker 8
  { s with sched := s.sched.map (fun c => if c.key = none ∧ ends.contains c.at_ ∧ late.contains c.chg then { c with at_ := t } else c) }

/-- What DRAM's failure does at the entry boundary `t` (R101, R130, R196, R259). -/
def State.dramLost (s : State) (t : Nat) : State :=
  let s1 := (s.replayEnd.captureAbort.cancelSwitches.cancelEpochs (fun e => e.safe)).stopTasks false
  let desks := s1.desks.map (fun k => { k with st := .lent, mem := [], bad := [], xfer := none, xferWait := false, sigWait := false, stepWait := false,
                                               offAtEnd := false })
  let s3 := ({ s1 with desks := desks } : State).linesLost
  if (s3.slot 8).st = .failed then s3
  else if s3.active = 8 then (if s3.xfades = [] then s3 else (s3.hurrySafe t).activate 8)
  else if !s3.valid then s3.switchNow 8
  else
    let s4 := s3.activate 8
    let r := s4.fitFirs (s4.shelfOwn 8 t ++ s4.shelfSpeaker 8)
    r.2.putAll none t r.1

/-- A reason for FALLBACK whose boundary `t` has come (R419). -/
def State.fallbackDue (s : State) (t : Nat) : Bool :=
  s.runs && (s.pwr.pendDram || ((s.pwr.pendWdog || s.pwr.pendTherm) && (!s.valid || t % 128 == 0)))

/-- The automatic start of R423 takes place at boundary `t`. -/
def State.autoDue (s : State) (t : Nat) : Bool :=
  s.pwr.autoArmed && s.pwr.mode == .setup && s.valid && t % 128 == 0 && s.pwr.wait.isNone && s.pwr.entering.isNone && s.pwr.auto.isNone

/-- A change of mode is due in step 2 of boundary `t`. -/
def State.modeDue (s : State) (t : Nat) : Bool :=
  s.fallbackDue t || s.clock.media.rateChange ||
  (match s.pwr.wait with
   | some w => decide (w.at_ ≤ t)
   | none => false) ||
  (match s.pwr.auto with
   | some b => decide (b ≤ t)
   | none => false) ||
  (match s.pwr.entering with
   | some e => decide (e.at_ ≤ t)
   | none => false) ||
  s.autoDue t

/-- The post of a bell's ring is held (R264). -/
def State.bellHeld (s : State) (stream : Bool) (id : Nat) : Bool := s.tasks.held.any (fun h => h.src == .bell stream id)

/-- The bells whose rings act at a block boundary and are due, in the order of R73: pool, then number. -/
def State.blockBells (s : State) (t : Nat) : List (Bool × Nat) :=
  let due (stream : Bool) (p : Nat × Bell) : Bool :=
    p.2.armed && (p.2.kind == 1 || p.2.kind == 2) && decide (p.2.next ≤ t) && !s.bellHeld stream p.1
  (s.bells.filter (due false)).map (fun p => (false, p.1)) ++ (s.cues.filter (due true)).map (fun p => (true, p.1))

/-- Step 2 of boundary `t` goes on: bells are to ring, or a serial stream comes or goes, or a change of mode is due. -/
def State.tailDue (s : State) (t : Nat) : Bool := !(s.blockBells t).isEmpty || s.enablesDue t || s.modeDue t

/-- Serial streams of step 2 may come and go: that follows the bells (R73). -/
def State.streamTurn (s : State) : Bool := s.tail && (s.blockBells s.msc).isEmpty

/-- A change of mode of step 2 may act: it comes last (R411). -/
def State.modeTurn (s : State) : Bool := s.streamTurn && !s.enablesDue s.msc

/-- The boundary goes on with its steps 3 to 5 once nothing of step 2 is due any more. -/
def State.modeDone (s : State) : State := if s.tail && !s.tailDue s.msc then s.boundaryEnd s.msc else s

/-- The reasons that have come act (R420). -/
def State.fallbackReasons (s : State) : State :=
  let p := s.pwr
  let cf := !s.valid || s.msc % 128 == 0
  let wd := p.pendWdog && cf
  let th := p.pendTherm && cf
  let s1 := s.setPwr { p with fbDram := p.fbDram || p.pendDram, fbWdog := p.fbWdog || wd, fbTherm := p.fbTherm || th,
                              pendDram := false, pendWdog := p.pendWdog && !wd, pendTherm := p.pendTherm && !th }
  if p.pendDram then (s1.setPwr { s1.pwr with freeze := false }).dramLost s.msc
  else if p.fbDram then s1
  else
    let safe := bitOf (s.reg Reg.PWR_CFG) 0
    let s2 := if wd && !safe then s1.setPwr { s1.pwr with freeze := true } else s1
    if th || (wd && safe) then s2.safeSelect else s2

/-- FALLBACK is entered, or a further reason joins (R419). -/
def State.enterFallback (s : State) : State :=
  let s1 := if s.pwr.mode = .fallback then s
    else ((s.abortWait).setPwr { s.abortWait.pwr with mode := .fallback }).both Reg.PWR_FALLBACKS Reg.PWR_EVT 3
  let s2 := s1.fallbackReasons
  wdogRestart (if s.msc % 128 = 0 then s2.stageStep else s2)

def fallbackEntry (s : State) : State :=
  if s.fallbackDue s.msc && (!s.valid || s.modeTurn) then s.enterFallback.modeDone else s

def execFallbackEntry (s : State) : Host.Outcome State Fault Refusal := .next (watched fallbackEntry s)

/-! ### STANDBY (R412, R33, R35) -/

/-- The entry boundary. -/
def State.enterStandby (s : State) (cmd : Option (CmdRef × Bool)) (thermal : Bool) : State :=
  let s1 := ((if s.replay.st = 0 then s else s.replayEnd).captureAbort.cancelEpochs (fun _ => true)).stopTasks false |>.settleTasks
  let s2 := s1.serialEmpty.flowsEmpty.chainDiscard.pipeEmpty.discardAll.dmaAbortAll
  let p := s2.pwr
  let s3 : State := { s2.setPwr { p with mode := .standby, entering := none, auto := none, autoArmed := false, fbWdog := false, fbTherm := false, freeze := false,
                                         thermStandby := p.thermStandby || thermal, pendWdog := false, pendTherm := false }
                      with memory := { s2.memory with selfRef := s2.memory.trained && !s2.memory.failed } }
  let s4 := wdogRestart s3
  match cmd with
  | some (c, adj) => s4.complete c (adjusted adj) s4.resMsc
  | none => s4

def standbyEntry (s : State) : State :=
  match s.pwr.entering with
  | some e => if s.modeTurn && decide (e.at_ ≤ s.msc) && !s.fallbackDue s.msc && !s.clock.media.rateChange then (s.enterStandby e.cmd e.thermal).modeDone else s
  | none => s

def execStandbyEntry (s : State) : Host.Outcome State Fault Refusal := .next (watched standbyEntry s)

/-- The boundary B of an entry to STANDBY: the stage mute ramps to 0, or stands there. -/
def State.beginStandby (s : State) (cmd : Option (CmdRef × Bool)) (thermal : Bool) : State :=
  if !s.valid || (s.stage.target == 0 && !s.stage.busy) then s.enterStandby cmd thermal
  else
    let n := if s.stage.target = 0 then s.stage.left else s.len50
    let e : Entering := { at_ := upTo 128 (s.msc + n), cmd := cmd, thermal := thermal }
    (s.stageTo 0).setPwr { s.pwr with entering := some e }

/-- The block that enters emit at boundary `t` is taken by the output ports and the transmit flows (R289, R298). -/
def State.takeEmit (s : State) (t : Nat) : State := (s.serialTake t).txTake t

/-- STANDBY is left for a running mode; with DRAM failed, for FALLBACK. The inputs of the first frame freeze at the exit
boundary (R131). -/
def State.exitStandby (s : State) (target : Mode) (cmd : CmdRef) (adj : Bool) : State :=
  let lost := s.memory.failed
  let s1 := s.setPwr { s.pwr with mode := if lost then .fallback else target, thermStandby := false, pendDram := false,
                                  fbDram := s.pwr.fbDram || lost, stepOn := s.pwr.stepOn.set 2 false }
  let s2 : State := { s1 with memory := { s1.memory with selfRef := false } }
  let s3 := if lost then s2.both Reg.PWR_FALLBACKS Reg.PWR_EVT 3 else s2
  let s4 := if !lost then s3 else if s.desks.any (fun k => k.st == .lent) then s3.linesLost else s3.dramLost s.msc
  let s5 := if s4.valid then ((((s4.serialStart false s4.msc).flowsStart s4.msc).pipeStart s4.msc).freezeGeo (s4.msc + 128)).takeEmit s4.msc
    else s4
  (wdogRestart s5.trsForget.stageStep).complete cmd (adjusted (adj || lost)) s5.resMsc

def State.waitDue (s : State) : Option ModeWait :=
  match s.pwr.wait with
  | some w => if s.modeTurn ∧ w.at_ ≤ s.msc ∧ ¬s.fallbackDue s.msc then some w else none
  | none => none

def standbyExit (s : State) : State :=
  match s.waitDue with
  | some w =>
    if s.pwr.mode = .standby ∧ w.target ≠ .dormant then
      ((s.setPwr { s.pwr with wait := none }).exitStandby w.target w.cmd w.adj).modeDone
    else s
  | none => s

def execStandbyExit (s : State) : Host.Outcome State Fault Refusal := .next (watched standbyExit s)

/-! ### DORMANT (R413, R68) -/

/-- The attic stores time, MSC, ORIGIN and RATE; the pins go to high impedance, the network and Nitik Link ports DOWN (R337). -/
def State.enterDormant (s : State) (cmd : CmdRef) (adj : Bool) : State :=
  let m := s.clock.media
  let attic := { s.pwr.attic with tod := atticTime (s.tb m.active.val).tod, stored := m.valid, timeValid := s.pwr.attic.timeValid || s.valid, msc := m.msc,
                                  origin := m.origin, rate96 := m.rate96, cause := 0 }
  let s1 : State := { s.setPwr { s.pwr with mode := .dormant, dormantReady := true, wakeN := true, woken := false, attic := attic }
                      with ports := s.ports.map (fun p => { p with pin := p.pin.map (fun _ => none) }),
                           clock := { s.clock with ppsHigh := false, media := { m with valid := false } },
                           net := { s.net with ports := s.net.ports.map (fun q => { q with link := .down }) },
                           ntk := { s.ntk with ports := s.ntk.ports.map (fun q => { module := q.module }) },
                           boundary := false, tail := false }
  s1.complete cmd (adjusted adj) (if m.valid then m.msc else 0)

def dormantEntry (s : State) : State :=
  match s.waitDue with
  | some w =>
    if w.target = .dormant then (({ s with tail := false } : State).setPwr { s.pwr with wait := none }).boundaryEnd s.msc |>.enterDormant w.cmd w.adj
    else s
  | none => s

def execDormantEntry (s : State) : Host.Outcome State Fault Refusal := .next (watched dormantEntry s)

/-! ### MODE_SET (R357, R409, R410) -/

/-- A change between running modes (R422). -/
def State.enterRunning (s : State) (target : Mode) (cmd : Option CmdRef) (adj : Bool) : State :=
  let s1 := s.cancelEpochs (fun e => e.safe)
  let s2 := s1.setPwr { s1.pwr with mode := target, autoArmed := false, fbWdog := false, fbTherm := false, freeze := false }
  let s3 := wdogRestart s2.stageStep
  match cmd with
  | some c => s3.complete c (adjusted adj) s3.resMsc
  | none => s3

/-- The mode changes as a MODE_SET asks, at its boundary or, while the MSC is not valid, at once. -/
def State.carryMode (s : State) (target : Mode) (cmd : CmdRef) (adj : Bool) : State :=
  if target = .standby then s.beginStandby (some (cmd, adj)) false
  else if target = .dormant then s.enterDormant cmd adj
  else if s.pwr.mode = .standby then s.exitStandby target cmd adj
  else s.enterRunning target (some cmd) adj

/-- The transitions of R409 that a MODE_SET may ask for. -/
def modeAllowed (a b : Mode) : Bool :=
  match a, b with
  | .setup, .show_ => true
  | .setup, .standby => true
  | .show_, .setup => true
  | .show_, .service => true
  | .show_, .standby => true
  | .service, .show_ => true
  | .service, .standby => true
  | .fallback, .setup => true
  | .fallback, .show_ => true
  | .fallback, .standby => true
  | .standby, .setup => true
  | .standby, .show_ => true
  | .standby, .dormant => true
  | _, _ => false

def State.hot100 (s : State) : Bool := decide (100 * 256 ≤ s.pwr.temp)

/-- R412, R422: the leave that is refused. -/
def State.leaveRefused (s : State) (target : Mode) : Bool :=
  if target = .standby ∨ target = .dormant then false
  else match s.pwr.mode with
    | .fallback => s.pwr.fbDram || (s.pwr.fbTherm && s.hot100)
    | .standby => s.pwr.thermStandby && s.hot100
    | _ => false

/-- B of R410 and R412, and whether it was adjusted. -/
def State.modeAt (s : State) (target : Mode) (p : Nat) : Nat × Bool :=
  let b := if p = 0 then (s.nextMul 128, false) else s.mulFor 128 p
  if s.pwr.mode = .standby ∧ target ≠ .dormant then (max b.1 (upTo 128 (s.msc + 128)), b.2) else b

def modeSet (e : Submission) (c : CmdRef) (s : State) : State :=
  match modeOf (sub e 16 1) with
  | none => s.complete c stBadParam 0
  | some m =>
    if (sub e 17 1 ≠ 0 ∧ sub e 17 1 ≠ 2) ∨ ¬subZero e 18 46 then s.complete c stBadParam 0
    else if m = s.pwr.mode then s.complete c stOk 0
    else if !modeAllowed s.pwr.mode m || s.leaveRefused m then s.complete c stModeRefused 0
    else if s.pwr.wait.isSome ∨ s.pwr.entering.isSome then s.complete c stNoResource 0
    else if !s.valid then s.carryMode m c false
    else
      let b := s.modeAt m (s.mscOf e.present)
      if b.2 ∧ sub e 17 1 = 0 then s.complete c stLate 0
      else s.setPwr { s.pwr with wait := some { target := m, at_ := b.1, adj := b.2, cmd := c } }

def execModeSet (e : Submission) (s : State) : Host.Outcome State Fault Refusal := .next (hostCommand 0x08 e (modeSet e) s)

/-- The thermal STANDBY whose boundary has come goes first (R411); then the waiting MODE_SET between running modes or
to STANDBY. -/
def modeChange (s : State) : State :=
  match s.pwr.auto with
  | some b =>
    if (!s.valid || s.modeTurn) && decide (!s.valid ∨ b ≤ s.msc) then
      let s1 := s.abortWait
      let s2 := s1.setPwr { s1.pwr with auto := none }
      match s2.pwr.entering with
      | some e => (s2.setPwr { s2.pwr with entering := some { e with thermal := true } }).modeDone
      | none => (s2.beginStandby none true).modeDone
    else s
  | none =>
    match s.waitDue with
    | some w =>
      if s.pwr.mode ≠ .standby ∧ ¬s.clock.media.rateChange then
        ((s.setPwr { s.pwr with wait := none }).carryMode w.target w.cmd w.adj).modeDone
      else s
    | none => s

def execModeChange (s : State) : Host.Outcome State Fault Refusal := .next (watched modeChange s)

/-! ### Temperature (R416, R417) -/

/-- The main domain runs. -/
def State.mainUp (s : State) : Bool := s.pwr.mode != .reset && s.pwr.mode != .dormant

/-- Thresholds and clearing points in units of 2⁻⁸ °C. -/
def thermAt (k : Nat) : Int := [25600, 26880, 29440].getD k 0
def thermClear (k : Nat) : Int := [24320, 25600].getD k (-1000000)

def temperatureMeasure (t : Int) (s : State) : State :=
  if s.mainUp then
    let step (l : List Nat) (ok : Nat → Bool) : List Nat := l.zipIdx.map (fun p => if ok p.2 then p.1 + 1 else 0)
    s.setPwr { s.pwr with temp := t, tempMax := max s.pwr.tempMax t, hot := step s.pwr.hot (fun k => decide (thermAt k ≤ t)),
                          cold := step s.pwr.cold (fun k => decide (t < thermClear k)),
                          hotFor := if s.pwr.stepOn.getD 1 false && s.wdogMode then s.pwr.hotFor + 1 else 0 }
  else s

def execTemperatureMeasure (t : Int) (s : State) : Host.Outcome State Fault Refusal := .next (watched (temperatureMeasure t) s)

def thermStep (k : Nat) (s : State) : State :=
  let p := s.pwr
  if p.stepOn.getD k false then
    if k < 2 ∧ 3 ≤ p.cold.getD k 0 then s.setPwr { p with stepOn := p.stepOn.set k false } else s
  else if 3 ≤ p.hot.getD k 0 then
    let s1 := (s.setPwr { p with stepOn := p.stepOn.set k true }).evt Reg.PWR_EVT k
    if k = 1 then (if s.runs then s1.count Reg.PWR_THERM_REDUCTIONS 1 else s1)
    else if k = 2 ∧ s.runs then s1.setPwr { s1.pwr with auto := some (if s.valid then s.nextMul 128 else 0) }
    else s1
  else s

def execThermalStep (step : Fin 3) (s : State) : Host.Outcome State Fault Refusal := .next (watched (thermStep step.val) s)

/-- The 105 °C step was held for THERM_FB_DELAY seconds, at a measurement each ms. -/
def thermalEmergency (s : State) : State :=
  let d := fieldOf (s.reg Reg.PWR_CFG) 8 8
  if s.pwr.stepOn.getD 1 false && s.wdogMode && d != 0 && decide (1000 * d ≤ s.pwr.hotFor) then
    s.setPwr { s.pwr with pendTherm := true }
  else s

def execThermalEmergency (s : State) : Host.Outcome State Fault Refusal := .next (thermalEmergency s)

/-! ### The media clock starts and stops (R57, R464) -/

/-- ORIGIN as the validation at media count `n` takes it, and whether a written one is rejected (R57). With FREE_OK the one that the
attic stored at the same RATE is used, where none is written (R69). -/
def State.originAt (s : State) (n : Nat) : Nat × Bool :=
  let m := s.clock.media
  match m.originWritten with
  | some o => if o ≤ n then (o, false) else (n / 128 * 128, true)
  | none =>
    match m.seedOrigin with
    | some (o, r) => if s.mediaBit 9 && r == m.rate96 && decide (o ≤ n) then (o, false) else (n / 128 * 128, false)
    | none => (n / 128 * 128, false)

/-- The MSC becomes valid (R57). DESIGN CHOICE (assumption 63): ORIGIN_REJECTED, once set, stays until a reset. -/
def mscValidate (s : State) : State :=
  let m := s.clock.media
  let n := s.mediaCount
  let o := s.originAt n
  if !m.valid && s.pwr.mode.awake && m.cfgWritten && s.tbGood && (n - o.1) % 128 == 0 then
    let b := n - o.1
    let s1 := s.setMedia { m with valid := true, msc := b, origin := o.1, originWritten := none, seedOrigin := none, rejected := m.rejected || o.2,
                                  starting := true, step := none, slewLeft := 0, holding := false, timerOn := false,
                                  returned := m.outMute.target == 0 }
    let s2 : State := { s1 with led := { s1.led with pend := [] }, boundary := true, tail := false }
    let s3 := (s2.serialStart true b).flowsStart b
    if s3.runs then s3.pipeStart b else s3
  else s

def execMscValidate (s : State) : Host.Outcome State Fault Refusal := .next (mscValidate s)

def SdacTimed.ref : SdacTimed → CmdRef
  | .write c _ _ => c
  | .strobe c _ _ => c

/-- Every timed command completes with ABORTED. -/
def State.abortTimed (s : State) : State :=
  let cs := s.timed.map (fun t => t.cmd) ++ s.sdacWait.map SdacTimed.ref
  ({ s with timed := [], sdacWait := [] } : State).completeMany cs stAborted 0

/-- A MODE_SET that waits, or whose entry to STANDBY is under way, completes with ABORTED; a thermal STANDBY stays. -/
def State.abortModes (s : State) : State :=
  let s1 := s.abortWait
  match s1.pwr.entering with
  | none => s1
  | some e =>
    let s2 := s1.setPwr { s1.pwr with entering := none, auto := if e.thermal then some 0 else s1.pwr.auto }
    match e.cmd with
    | some (c, _) => s2.complete c stAborted 0
    | none => s2

/-- Changes accepted and not yet acted on take their values at once, without moving a ledger. -/
def State.applyAll (s : State) : State :=
  let s1 := ({ s with sched := [] } : State).applyNow (s.sched.map (fun c => c.chg))
  { s1 with led := { s1.led with pend := s.led.pend } }

/-- The ring of a bell posts. -/
def Poster.isBell : Poster → Bool
  | .bell _ _ => true
  | .host _ _ => false
  | .dma _ => false
  | .desk _ => false

/-- What plays on after the last sample period: corridor, override and air as they end (R464). -/
def State.clockless (s : State) : State :=
  let air (z : AirZone) : AirZone := { fromT := z.toT, fromH := z.toH, toT := z.toT, toH := z.toH }
  { s with routes := tmap (fun _ r => r.settled) s.routes, ovr := s.ovr.settled, corr := [], bells := tmap (fun _ (b : Bell) => { b with armed := false }) s.bells, cues := [],
           tasks := { s.tasks with held := s.tasks.held.filter (fun h => !h.src.isBell) },
           geo := { s.geo with air := s.geo.air.map air, airNow := s.geo.air.map (fun z => (z.toT, z.toH)) } }

/-- The valid MSC ends at boundary Q, by a write of RATE in SETUP. -/
def mscInvalidate (s : State) : State :=
  let m := s.clock.media
  if m.valid && m.rateChange && s.modeTurn then
    let q := m.msc
    let s1 := (((if s.replay.st = 0 then s else s.replayEnd).captureAbort.cancelEpochs (fun _ => true)).abortTimed.abortModes).stopTasks true
    let s2 := s1.serialStop.flowsEmpty.chainDiscard.applyAll.settleTasks.pipeEmpty.discardAll.clockless
    let r := s2.reg Reg.TMB_MEDIA_CFG
    let p := fieldOf r 1 2
    let s3 := s2.boundaryEnd q
    let s4 := s3.setMedia { m with valid := false, msc := 0, origin := 0, originWritten := none, seedOrigin := none, cfgWritten := false,
                                   rateChange := false, rate96 := bitOf r 0,
                                   primary := p, secondary := fieldOf r 3 2, active := Fin.ofNat 4 p, step := none, slewLeft := 0,
                                   holding := false, timerOn := false, outMute := m.outMute.done, returned := false, starting := false,
                                   unmuteAtStep := false, force := none, primGood := 0, revertDue := false }
    { s4 with boundary := false, tail := false, clock := { s4.clock with ppsHigh := false } }
  else s

def execMscInvalidate (s : State) : Host.Outcome State Fault Refusal := .next (watched mscInvalidate s)

/-- A write of TMB_MEDIA_CFG; `taken`, one that may set RATE (in SETUP, or by a boot image record). -/
def mediaCfg (taken : Bool) (v : Word) (s : State) : State :=
  let old := s.reg Reg.TMB_MEDIA_CFG
  let v1 : Word := if taken then v &&& 0x3FF else (v &&& 0x3FE) ||| (old &&& 1)
  let s1 := s.setReg Reg.TMB_MEDIA_CFG v1
  let m := s1.clock.media
  if m.valid then
    (s1.setMedia { m with cfgWritten := m.cfgWritten || taken, rateChange := m.rateChange || bitOf v1 0 != bitOf old 0 }).checkHold
  else
    let p := fieldOf v1 1 2
    s1.setMedia { m with cfgWritten := m.cfgWritten || taken, rate96 := bitOf v1 0, primary := p, secondary := fieldOf v1 3 2,
                         active := Fin.ofNat 4 p }

def execTmbMediaCfgWrite (v : Word) (s : State) : Host.Outcome State Fault Refusal :=
  .next (barWrite (fun s => mediaCfg (s.pwr.mode == .setup) v s) s)

end Sys2Proof.Machine
end

