-- ==== Sys2Proof/Machine/Bells.lean ====
section
/-!
DEFINITION. What follows the commits in step 2 of a boundary (R34, R73): the rings of the timetable's bells (R72, R76), and the
ENABLE changes of the serial ports (R292).
-/
namespace Sys2Proof.Machine

def State.bellOf (s : State) (stream : Bool) (id : Nat) : Option Bell := tget (if stream then s.cues else s.bells) id

/-- The acting point has come: a sample period, or a block boundary at which this bell is the next to ring. -/
def State.bellTurn (s : State) (stream : Bool) (id : Nat) (b : Bell) : Bool :=
  s.valid && b.armed && decide (b.next ≤ s.msc) &&
    (b.kind == 0 || b.kind == 3 || (s.msc % 16 == 0 && !s.boundary && (s.blockBells s.msc).head? == some (stream, id)))

/-- A ring that is not acted on (R76). -/
def State.bellSkips (s : State) (stream : Bool) (b : Bell) : Bool :=
  (s.pwr.mode == .standby && b.kind != 0) || (stream && s.pwr.mode == .service) || (b.kind == 1 && (s.task b.task).isNone)

/-- The ring of a NOTIFY bell: TT_EVT.BELL and a record of its own. -/
def State.bellNotify (s : State) (stream : Bool) (id : Nat) (b : Bell) : State :=
  let s1 := (s.evt Reg.TT_EVT 0).fx (.note 1 (if stream then 0x8000 + id else id) b.user)
  if bitOf (s.reg Reg.TT_EVT_EN) 0 then s1.raiseVec 16 else s1

/-- BELL_RING. -/
def bellRing (stream : Bool) (id : Nat) (s : State) : State :=
  match s.bellOf stream id with
  | none => s
  | some b =>
    if !s.bellTurn stream id b then s
    else
      let s1 :=
        if s.bellSkips stream b then (s.both Reg.TT_BELLS_SKIPPED Reg.TT_EVT 1).bellOver stream id false
        else if b.kind = 0 then (s.bellNotify stream id b).bellOver stream id true
        else if b.kind = 1 then
          (if s.canPost b.task b.mask then (s.applyPost b.task b.mask).bellOver stream id true
           else s.hold (.bell stream id) b.task b.mask)
        else if b.kind = 2 then (dmaDoorbell b.chan s).bellOver stream id true
        else (s.strobeMask b.chan).bellOver stream id true
      s1.modeDone

def execBellRing (stream : Bool) (id : Nat) (s : State) : Host.Outcome State Fault Refusal := .next (watched (bellRing stream id) s)

/-- A waiting ENABLE change acts at its boundary, or at once where its group does not run. -/
def sapEnableAct (isPort : Bool) (i : Nat) (s : State) : State :=
  if isPort then
    match (s.port i).wait with
    | some (v, _) =>
      if (s.group (i / 4)).st = .off then s.portActs i v
      else if s.streamTurn && s.portDue s.msc i then (s.portActs i v).modeDone
      else s
    | none => s
  else
    match (s.group i).wait with
    | some (v, _) =>
      if s.streamTurn && s.groupDue s.msc i then (if v then s.startGroup s.msc i else s.stopGroup i).modeDone else s
    | none => s

def execSapEnableAct (isPort : Bool) (idx : Nat) (s : State) : Host.Outcome State Fault Refusal :=
  .next (watched (sapEnableAct isPort idx) s)

end Sys2Proof.Machine
end

