-- ==== Sys2Proof/Machine/Desk.lean ====
section
/-!
DEFINITION. Desk instructions as they run in the machine (R242, R243, R249, R253–R255), breakpoints and
the debug controls (R257, R258), ENABLE (R233) and the end of an XFER (R254).
-/
namespace Sys2Proof.Machine

/-! ### The spill window (R254) -/

/-- A 64-bit register pair. -/
def State.pair (s : State) (lo : Nat) : Nat := (s.reg lo).toNat + 2 ^ 32 * (s.reg (lo + 4)).toNat

/-- Words of a running XFER are moved. -/
def State.xferMove (s : State) (d : Nat) (words : List Nat) : State :=
  match (s.desk d).xfer with
  | none => s
  | some x =>
    let base := s.pair (dskReg Reg.DSK_Dn_SPILL_BASE_LO d)
    let s1 := words.foldl (fun s i =>
      let a := base + 4 * (x.off + i)
      if x.spill then s.dramWrite a (leBytes 4 ((s.desk d).mget (x.loc + i)).toNat)
      else s.setDesk d ((s.desk d).mset (x.loc + i) (word (leNat (memRead s.dram a 4))))) s
    s1.setDesk d { s1.desk d with xfer := some { x with todo := x.todo.filter (fun i => !words.contains i) } }

/-- The window's size; none where it does not lie wholly in a general area (R389). -/
def State.spillSize (s : State) (d : Nat) : Nat :=
  let n := (s.reg (dskReg Reg.DSK_Dn_SPILL_SIZE d)).toNat
  if s.inGeneral (s.pair (dskReg Reg.DSK_Dn_SPILL_BASE_LO d)) n then n else 0

/-- A program access to a word under transfer may see it before or after it moved: which words have moved
is free (R254). -/
def State.xferSome (s : State) (d : Nat) : State :=
  match (s.desk d).xfer with
  | none => s
  | some x =>
    let r := s.draw
    r.2.xferMove d (x.todo.filter (fun i => r.1 / 2 ^ i % 2 == 1))

/-! ### One instruction -/

/-- The breakpoint registers match an instruction index (R257). -/
def State.brkHit (s : State) (d pc : Nat) : Bool :=
  [0, 1, 2, 3].any (fun j =>
    let v := s.reg (dskReg Reg.DSK_Dn_BRK0 d + 4 * j)
    bitOf v 31 && fieldOf v 0 16 == pc)

/-- A breakpoint or a TRAP halts the desk (R257). -/
def State.haltAt (s : State) (d : Nat) (k : Desk) : State :=
  (s.setDesk d { k with st := .halted, passBrk := false }).evt Reg.DSK_DESK_EVT 1

/-- The instruction in local memory at an index: OP and bits 55:0 (R234, R242). -/
def Desk.fetchAt (k : Desk) (i : Nat) : Nat × DeskBits :=
  let hi := (k.mget (2 * i + 1)).toNat
  (hi / 2 ^ 24, BitVec.ofNat 56 ((k.mget (2 * i)).toNat + 2 ^ 32 * (hi % 2 ^ 24)))

/-- Goes on at the next instruction; PC past 0xFFFF is an ADDRESS fault (R255). -/
def State.deskNext (s : State) (d : Nat) (k : Desk) : State :=
  match k.advance with
  | some k1 => s.setDesk d k1
  | none => (s.setDesk d k).deskFault d fAddress

/-- A wait for an XFER is over; its cycles are not stated. -/
def State.xferWaited (s : State) (d : Nat) : State :=
  let k := s.desk d
  if k.xferWait ∧ k.xfer.isNone then
    let r := s.draw
    r.2.setDesk d { k.spend r.1.toNat with xferWait := false }
  else s

/-- SIGNAL (R253). -/
def State.deskSignal (s : State) (d : Nat) (k : Desk) (t : Nat) (mask : Word) : State :=
  if mask = 0 ∨ (s.task t).isNone then s.deskNext d k
  else if s.canPost t mask then (s.applyPost t mask).deskNext d k
  else ((s.setDesk d { k with sigWait := true }).hold (.desk d) t mask).count (dskReg Reg.DSK_Dn_SIG_STALLS d) 1

/-- An instruction repeated `n` times (R249). -/
def State.deskRepeat (s : State) (d op : Nat) (r : DeskRow) (w : DeskBits) (n : Nat) : State :=
  let k := s.desk d
  if r.rep then
    let res := repeatOp (s.spillSize d) op w n k 0
    let k1 := { res.1.issued op (n * r.cycles + interlock op r w k) w with rep := none, passBrk := false }
    let s1 := s.count (dskReg Reg.DSK_Dn_SAT d) res.2.1
    match res.2.2 with
    | none => s1.deskNext d k1
    | some c => (s1.setDesk d k1).deskFault d c
  else s.deskFault d fRepeat

/-- One instruction runs on desk `d`; `fuel` covers the instruction a REPEAT takes with it. -/
def deskExec : Nat → Nat → Nat → DeskBits → State → State
  | 0, _, _, _, s => s
  | fuel + 1, d, op, w, s0 =>
    if [2 * (s0.desk d).pc, 2 * (s0.desk d).pc + 1].any (s0.desk d).bad.contains then s0.deskFault d fMemory
    else match deskRow op with
    | none => s0.deskFault d fIllegal
    | some r =>
      if strayBits (if fI w then r.used1 else r.used0) w then s0.deskFault d fIllegal
      else
        let s := (s0.xferSome d).xferWaited d
        let k := s.desk d
        let wait := interlock op r w k
        let done (k1 : Desk) (extra : Nat) : Desk :=
          { k1.issued op (r.cycles + wait + extra) w with passBrk := false, rep := none }
        match k.rep with
        | some n => s.deskRepeat d op r w n
        | none =>
          match deskOp (s.spillSize d) op w k with
          | .ok k1 m => (s.count (dskReg Reg.DSK_Dn_SAT d) m).deskNext d (done k1 0)
          | .jump k1 e => s.setDesk d (done k1 e)
          | .fault c => s.deskFault d c
          | .halt =>
            (match (done k 0).advance with
             | some k1 => s.haltAt d k1
             | none => s.deskFault d fAddress)
          | .retire => (s.setDesk d (done k 0)).retireTask d
          | .signal t m => s.deskSignal d (done k 0) t m
          | .xfer x => s.deskNext d { done k 0 with xfer := some x }
          | .stall => s.setDesk d { k with xferWait := true }
          | .repeat_ n =>
            (match (done k 0).advance with
             | none => s.deskFault d fAddress
             | some k1 =>
               if n = 0 then s.deskNext d k1
               else if s.brkHit d k1.pc then s.haltAt d { k1 with rep := some n }
               else deskExec fuel d (k1.fetchAt k1.pc).1 (k1.fetchAt k1.pc).2 (s.setDesk d { k1 with rep := some n }))

/-- An instruction is fetched and runs. An unknown OP in local memory at PC has no command of its own: whichever desk
instruction comes then, the desk takes the ILLEGAL fault of what it fetched (assumption 66). -/
def State.deskIssue (s : State) (d op : Nat) (w : DeskBits) : State :=
  let f := (s.desk d).fetchAt (s.desk d).pc
  ((if (deskRow f.1).isNone then deskExec 2 d f.1 f.2 s else deskExec 2 d op w s)).runLimit d

/-- A desk instruction: a RUNNING desk that does not wait takes it, unless a breakpoint halts it first. -/
def State.deskInstr (s : State) (d op : Nat) (w : DeskBits) : State :=
  let k := s.desk d
  if k.st = .running ∧ ¬ k.sigWait then
    if s.brkHit d k.pc ∧ ¬ k.passBrk then s.haltAt d k else s.deskIssue d op w
  else s

/-- DESK_NOP (R243). -/
def execDNop (desk : Fin 16) (w : DeskBits) (s : State) : Host.Outcome State Fault Refusal :=
  .next (s.deskInstr desk.val 0x00 w)

/-- RETIRE (R239, R243). -/
def execDRetire (desk : Fin 16) (w : DeskBits) (s : State) : Host.Outcome State Fault Refusal :=
  .next (s.deskInstr desk.val 0x01 w)

/-- BR (R243, R248). -/
def execDBr (desk : Fin 16) (w : DeskBits) (s : State) : Host.Outcome State Fault Refusal :=
  .next (s.deskInstr desk.val 0x02 w)

/-- CALL (R243, R248). -/
def execDCall (desk : Fin 16) (w : DeskBits) (s : State) : Host.Outcome State Fault Refusal :=
  .next (s.deskInstr desk.val 0x03 w)

/-- RET (R243, R248). -/
def execDRet (desk : Fin 16) (w : DeskBits) (s : State) : Host.Outcome State Fault Refusal :=
  .next (s.deskInstr desk.val 0x04 w)

/-- LOOP (R248). -/
def execDLoop (desk : Fin 16) (w : DeskBits) (s : State) : Host.Outcome State Fault Refusal :=
  .next (s.deskInstr desk.val 0x05 w)

/-- REPEAT (R249). -/
def execDRepeat (desk : Fin 16) (w : DeskBits) (s : State) : Host.Outcome State Fault Refusal :=
  .next (s.deskInstr desk.val 0x06 w)

/-- TRAP (R257). -/
def execDTrap (desk : Fin 16) (w : DeskBits) (s : State) : Host.Outcome State Fault Refusal :=
  .next (s.deskInstr desk.val 0x07 w)

/-- SIGNAL (R253). -/
def execDSignal (desk : Fin 16) (w : DeskBits) (s : State) : Host.Outcome State Fault Refusal :=
  .next (s.deskInstr desk.val 0x08 w)

/-- LI (R243). -/
def execDLi (desk : Fin 16) (w : DeskBits) (s : State) : Host.Outcome State Fault Refusal :=
  .next (s.deskInstr desk.val 0x10 w)

/-- ADD (R243). -/
def execDAdd (desk : Fin 16) (w : DeskBits) (s : State) : Host.Outcome State Fault Refusal :=
  .next (s.deskInstr desk.val 0x11 w)

/-- SUB (R243). -/
def execDSub (desk : Fin 16) (w : DeskBits) (s : State) : Host.Outcome State Fault Refusal :=
  .next (s.deskInstr desk.val 0x12 w)

/-- AND (R243). -/
def execDAnd (desk : Fin 16) (w : DeskBits) (s : State) : Host.Outcome State Fault Refusal :=
  .next (s.deskInstr desk.val 0x13 w)

/-- OR (R243). -/
def execDOr (desk : Fin 16) (w : DeskBits) (s : State) : Host.Outcome State Fault Refusal :=
  .next (s.deskInstr desk.val 0x14 w)

/-- XOR (R243). -/
def execDXor (desk : Fin 16) (w : DeskBits) (s : State) : Host.Outcome State Fault Refusal :=
  .next (s.deskInstr desk.val 0x15 w)

/-- SHL (R243). -/
def execDShl (desk : Fin 16) (w : DeskBits) (s : State) : Host.Outcome State Fault Refusal :=
  .next (s.deskInstr desk.val 0x16 w)

/-- SHR (R243). -/
def execDShr (desk : Fin 16) (w : DeskBits) (s : State) : Host.Outcome State Fault Refusal :=
  .next (s.deskInstr desk.val 0x17 w)

/-- SAR (R243). -/
def execDSar (desk : Fin 16) (w : DeskBits) (s : State) : Host.Outcome State Fault Refusal :=
  .next (s.deskInstr desk.val 0x18 w)

/-- MUL (R243). -/
def execDMul (desk : Fin 16) (w : DeskBits) (s : State) : Host.Outcome State Fault Refusal :=
  .next (s.deskInstr desk.val 0x19 w)

/-- LDS (R243). -/
def execDLds (desk : Fin 16) (w : DeskBits) (s : State) : Host.Outcome State Fault Refusal :=
  .next (s.deskInstr desk.val 0x1A w)

/-- STS (R243). -/
def execDSts (desk : Fin 16) (w : DeskBits) (s : State) : Host.Outcome State Fault Refusal :=
  .next (s.deskInstr desk.val 0x1B w)

/-- SETP (R243). -/
def execDSetp (desk : Fin 16) (w : DeskBits) (s : State) : Host.Outcome State Fault Refusal :=
  .next (s.deskInstr desk.val 0x1C w)

/-- SETM (R247). -/
def execDSetm (desk : Fin 16) (w : DeskBits) (s : State) : Host.Outcome State Fault Refusal :=
  .next (s.deskInstr desk.val 0x1D w)

/-- GETP (R243). -/
def execDGetp (desk : Fin 16) (w : DeskBits) (s : State) : Host.Outcome State Fault Refusal :=
  .next (s.deskInstr desk.val 0x1E w)

/-- VLD (R243). -/
def execDVld (desk : Fin 16) (w : DeskBits) (s : State) : Host.Outcome State Fault Refusal :=
  .next (s.deskInstr desk.val 0x20 w)

/-- VST (R243). -/
def execDVst (desk : Fin 16) (w : DeskBits) (s : State) : Host.Outcome State Fault Refusal :=
  .next (s.deskInstr desk.val 0x21 w)

/-- VLDB (R243). -/
def execDVldb (desk : Fin 16) (w : DeskBits) (s : State) : Host.Outcome State Fault Refusal :=
  .next (s.deskInstr desk.val 0x22 w)

/-- VINS (R243). -/
def execDVins (desk : Fin 16) (w : DeskBits) (s : State) : Host.Outcome State Fault Refusal :=
  .next (s.deskInstr desk.val 0x23 w)

/-- VEXT (R243). -/
def execDVext (desk : Fin 16) (w : DeskBits) (s : State) : Host.Outcome State Fault Refusal :=
  .next (s.deskInstr desk.val 0x24 w)

/-- VADD (R243). -/
def execDVadd (desk : Fin 16) (w : DeskBits) (s : State) : Host.Outcome State Fault Refusal :=
  .next (s.deskInstr desk.val 0x30 w)

/-- VSUB (R243). -/
def execDVsub (desk : Fin 16) (w : DeskBits) (s : State) : Host.Outcome State Fault Refusal :=
  .next (s.deskInstr desk.val 0x31 w)

/-- VMIN (R243). -/
def execDVmin (desk : Fin 16) (w : DeskBits) (s : State) : Host.Outcome State Fault Refusal :=
  .next (s.deskInstr desk.val 0x32 w)

/-- VMAX (R243). -/
def execDVmax (desk : Fin 16) (w : DeskBits) (s : State) : Host.Outcome State Fault Refusal :=
  .next (s.deskInstr desk.val 0x33 w)

/-- VABS (R243). -/
def execDVabs (desk : Fin 16) (w : DeskBits) (s : State) : Host.Outcome State Fault Refusal :=
  .next (s.deskInstr desk.val 0x34 w)

/-- VNEG (R243). -/
def execDVneg (desk : Fin 16) (w : DeskBits) (s : State) : Host.Outcome State Fault Refusal :=
  .next (s.deskInstr desk.val 0x35 w)

/-- VMUL (R243). -/
def execDVmul (desk : Fin 16) (w : DeskBits) (s : State) : Host.Outcome State Fault Refusal :=
  .next (s.deskInstr desk.val 0x36 w)

/-- VSHL (R243). -/
def execDVshl (desk : Fin 16) (w : DeskBits) (s : State) : Host.Outcome State Fault Refusal :=
  .next (s.deskInstr desk.val 0x37 w)

/-- VSAR (R243). -/
def execDVsar (desk : Fin 16) (w : DeskBits) (s : State) : Host.Outcome State Fault Refusal :=
  .next (s.deskInstr desk.val 0x38 w)

/-- VCLR (R243). -/
def execDVclr (desk : Fin 16) (w : DeskBits) (s : State) : Host.Outcome State Fault Refusal :=
  .next (s.deskInstr desk.val 0x40 w)

/-- VMAC (R243). -/
def execDVmac (desk : Fin 16) (w : DeskBits) (s : State) : Host.Outcome State Fault Refusal :=
  .next (s.deskInstr desk.val 0x41 w)

/-- VMSU (R243). -/
def execDVmsu (desk : Fin 16) (w : DeskBits) (s : State) : Host.Outcome State Fault Refusal :=
  .next (s.deskInstr desk.val 0x42 w)

/-- VMACM (R243). -/
def execDVmacm (desk : Fin 16) (w : DeskBits) (s : State) : Host.Outcome State Fault Refusal :=
  .next (s.deskInstr desk.val 0x43 w)

/-- FTAP (R250). -/
def execDFtap (desk : Fin 16) (w : DeskBits) (s : State) : Host.Outcome State Fault Refusal :=
  .next (s.deskInstr desk.val 0x44 w)

/-- VSTA (R243). -/
def execDVsta (desk : Fin 16) (w : DeskBits) (s : State) : Host.Outcome State Fault Refusal :=
  .next (s.deskInstr desk.val 0x45 w)

/-- BEXP (R251). -/
def execDBexp (desk : Fin 16) (w : DeskBits) (s : State) : Host.Outcome State Fault Refusal :=
  .next (s.deskInstr desk.val 0x48 w)

/-- BFLY (R252). -/
def execDBfly (desk : Fin 16) (w : DeskBits) (s : State) : Host.Outcome State Fault Refusal :=
  .next (s.deskInstr desk.val 0x49 w)

/-- XFER (R254). -/
def execDXfer (desk : Fin 16) (w : DeskBits) (s : State) : Host.Outcome State Fault Refusal :=
  .next (s.deskInstr desk.val 0x50 w)

/-- XWAIT (R243). -/
def execDXwait (desk : Fin 16) (w : DeskBits) (s : State) : Host.Outcome State Fault Refusal :=
  .next (s.deskInstr desk.val 0x51 w)

/-! ### Debug controls (R257, R258) -/

def deskHalt (d : Nat) (s : State) : State :=
  let k := s.desk d
  if k.st = .running ∨ k.st = .idle then s.setDesk d { k with st := .halted } else s

def execDeskHalt (desk : Fin 16) (s : State) : Host.Outcome State Fault Refusal := .next (barWrite (deskHalt desk.val) s)

def deskRun (d : Nat) (s : State) : State :=
  let k := s.desk d
  if k.st = .halted then
    s.setDesk d (if k.task.isSome then { k with st := .running, passBrk := true, stepWait := false } else { k with st := .idle })
  else s

def execDeskRun (desk : Fin 16) (s : State) : Host.Outcome State Fault Refusal := .next (barWrite (deskRun desk.val) s)

/-- One instruction from local memory runs; it may have to wait for the running XFER. -/
def State.stepIssue (s : State) (d : Nat) : State :=
  let k := s.desk d
  let s1 := (deskExec 2 d (k.fetchAt k.pc).1 (k.fetchAt k.pc).2 s).runLimit d
  s1.setDesk d { s1.desk d with stepWait := (s1.desk d).xferWait }

/-- STEP: one instruction from local memory, then HALTED again. -/
def deskStepOne (d : Nat) (s : State) : State :=
  let k := s.desk d
  if k.st = .halted ∧ k.task.isSome ∧ ¬ k.sigWait ∧ ¬ k.stepWait then s.stepIssue d else s

def execDeskStep (desk : Fin 16) (s : State) : Host.Outcome State Fault Refusal := .next (barWrite (fun s => deskStepOne desk.val s) s)

/-- A spill or fill finishes (R254): `bad` are the words that met an uncorrectable DRAM error, whenever they moved; a fill
writes them as 0. A STEP that waited for it executes (R257). -/
def xferComplete (d : Nat) (bad : List Nat) (s : State) : State :=
  match (s.desk d).xfer with
  | none => s
  | some x =>
    let s1 := s.xferMove d x.todo
    let zero := if x.spill then [] else bad.filter (fun i => decide (i < x.len))
    let k := zero.foldl (fun k i => k.mset (x.loc + i) 0) (s1.desk d)
    let s2 := s1.setDesk d { k with xfer := none }
    let s3 := if zero.isEmpty then s2 else (s2.count (dskReg Reg.DSK_Dn_SPILL_ERRS d) 1).evt Reg.DSK_DESK_EVT 4
    if (s3.desk d).stepWait && (s3.desk d).st == .halted then s3.stepIssue d else s3

def execXferComplete (desk : Fin 16) (badWords : List Nat) (s : State) : Host.Outcome State Fault Refusal :=
  .next (xferComplete desk.val badWords s)

def deskClear (d : Nat) (s : State) : State :=
  let k := s.desk d
  if k.st = .fault then s.setDesk d { k with st := .idle, fault := 0 } else s

def execDeskClear (desk : Fin 16) (s : State) : Host.Outcome State Fault Refusal := .next (barWrite (deskClear desk.val) s)

/-- A write of DSK_Dn_CTL: the lowest-numbered bit that is set acts, the others are ignored (R257). -/
def deskCtl (d : Nat) (v : Word) (s : State) : State :=
  if bitOf v 0 then deskHalt d s
  else if bitOf v 1 then deskRun d s
  else if bitOf v 2 then deskStepOne d s
  else if bitOf v 3 then deskClear d s
  else s

/-- A write of DSK_Dn_CFG (R233, R261). -/
def deskCfg (d : Nat) (v : Word) (s : State) : State :=
  let k := s.desk d
  let g := fieldOf v 1 2
  let refused := g ≠ k.group ∧ s.tasks.tasks.any (fun p => p.2.cfg.bound && p.2.cfg.desk == d)
  let k1 := { k with enable := bitOf v 0, group := if refused then k.group else g }
  let k2 :=
    if bitOf v 0 then (if k.st = .off then { k1 with st := .idle, fault := 0, pc := 0 } else k1)
    else match k.st with
      | .off => k1
      | .idle => { k1 with st := .off }
      | .running => { k1 with offAtEnd := true }
      | .halted => if k.task.isSome then { k1 with offAtEnd := true } else { k1 with st := .off }
      | .fault => { k1 with st := .off }
      | .lent => k1
  let s1 := s.setDesk d k2
  if refused then s1.evt Reg.DSK_SCH_EVT 3 else s1

def execDeskEnableWrite (desk : Fin 16) (v : Word) (s : State) : Host.Outcome State Fault Refusal :=
  .next (barWrite (fun s => deskCfg desk.val v s) s)

/-- Level `l` of a stack that is kept innermost first, level 0 being the outermost. -/
def levelOf {α : Type} (xs : List α) (l : Nat) : Option Nat := if l < xs.length then some (xs.length - 1 - l) else none

/-- The part of an accumulator a selector names. -/
def accPart (x : Int) (part : Nat) : Word :=
  if part = 0 then word (toField 72 x) else if part = 1 then word (toField 72 x / 2 ^ 32) else word (toField 72 x / 2 ^ 64)

def accWith (x : Int) (part : Nat) (v : Word) : Int :=
  let f := toField 72 x
  let lo := f % 2 ^ 32
  let mid := f / 2 ^ 32 % 2 ^ 32
  let hi := f / 2 ^ 64
  signed 72 (if part = 0 then v.toNat + 2 ^ 32 * mid + 2 ^ 64 * hi
    else if part = 1 then lo + 2 ^ 32 * v.toNat + 2 ^ 64 * hi
    else lo + 2 ^ 32 * mid + 2 ^ 64 * (v.toNat % 256))

/-- The word that a selector names (R258). -/
def Desk.dbgRead (k : Desk) (sel : Nat) : Word :=
  let i := sel % 256
  match sel / 256 with
  | 0 => if i < 32 then k.sreg i else 0
  | 1 => k.v.getD i 0
  | 2 => if i < 96 then accPart (k.acc.getD (8 * (i / 24) + i % 24 / 3) 0) (i % 3) else 0
  | 3 => word (k.p.getD i 0)
  | 4 => word (k.mb.getD i 0)
  | 5 => word (k.ml.getD i 0)
  | 6 =>
    (match levelOf k.loops (i / 3) with
     | some j =>
       let l := k.loops.getD j (0, 0, 0)
       word (if i % 3 = 0 then l.1 else if i % 3 = 1 then l.2.1 else l.2.2)
     | none => 0)
  | 7 =>
    (match levelOf k.calls i with
     | some j => word (65536 * k.calls.getD j 0 + 256 * k.calls.length)
     | none => word (256 * k.calls.length))
  | _ => 0

/-- A write of the word that a selector names. -/
def Desk.dbgWrite (k : Desk) (sel : Nat) (v : Word) : Desk :=
  let i := sel % 256
  match sel / 256 with
  | 0 => if i < 32 then k.setS i v else k
  | 1 => { k with v := k.v.set i v }
  | 2 =>
    if i < 96 then
      let a := 8 * (i / 24) + i % 24 / 3
      { k with acc := k.acc.set a (accWith (k.acc.getD a 0) (i % 3) v) }
    else k
  | 3 => { k with p := k.p.set i (fieldOf v 0 17) }
  | 4 => { k with mb := k.mb.set i (fieldOf v 0 17) }
  | 5 => { k with ml := k.ml.set i (fieldOf v 0 18) }
  | 6 =>
    (match levelOf k.loops (i / 3) with
     | some j =>
       let l := k.loops.getD j (0, 0, 0)
       let n := fieldOf v 0 16
       { k with loops := k.loops.set j (if i % 3 = 0 then (n, l.2.1, l.2.2) else if i % 3 = 1 then (l.1, n, l.2.2) else (l.1, l.2.1, n)) }
     | none => k)
  | 7 =>
    (match levelOf k.calls i with
     | some j => { k with calls := k.calls.set j (fieldOf v 16 16) }
     | none => k)
  | _ => k

def deskDbg (d : Nat) (v : Word) (s : State) : State :=
  let k := s.desk d
  if k.st = .halted then s.setDesk d (k.dbgWrite (s.reg (dskReg Reg.DSK_Dn_DBG_SEL d)).toNat v) else s

def execDeskDbgDataWrite (desk : Fin 16) (v : Word) (s : State) : Host.Outcome State Fault Refusal :=
  .next (barWrite (deskDbg desk.val v) s)

def deskPc (d : Nat) (v : Word) (s : State) : State :=
  let k := s.desk d
  if k.st = .halted then s.setDesk d { k with pc := fieldOf v 0 16 } else s

def execDeskPcWrite (desk : Fin 16) (v : Word) (s : State) : Host.Outcome State Fault Refusal :=
  .next (barWrite (deskPc desk.val v) s)

end Sys2Proof.Machine
end

