-- ==== Sys2Proof/Machine/Shelf.lean ====
section
/-!
DEFINITION. The shelf commands: SHELF_SWITCH (R98), SHELF_LOAD (R96), SHELF_VERIFY (R97), the ends of copies and
verifications, and the examination of the flash slots (R91). What stands in the flash is outside the part: it
comes with the commands.
-/
namespace Sys2Proof.Machine

/-! ### SHELF_SWITCH (R98) -/

/-- Slots that a shelf switch of an epoch that is not final reserves. -/
def State.pendingTargets (s : State) : List Nat :=
  (s.epochs.map (fun e => e.members.filterMap (fun m => m.switch.map (fun w => w.target)))).flatten

/-- The shelf may become active now (R98). -/
def State.switchOk (s : State) (t : Nat) : Bool :=
  let v := s.slot t
  let sameFrame := s.active == 15 || v.frame == (s.slot s.active).frame
  let strict := s.pwr.mode == .show_ || s.pwr.mode == .service || s.pwr.mode == .fallback
  (t < 4 || t == 8) && v.st == .verified && t != s.active && !(v.rate == 1 && s.clock.media.rate96) &&
    !(v.rate == 2 && !s.clock.media.rate96) && (sameFrame || !strict)

def shelfSwitch (e : Submission) (c : CmdRef) (s : State) : State :=
  let w : Switch := { target := sub e 16 1, xfade := sub e 18 2, atEnd := sub e 17 1 == 1 }
  let bad := decide (8 < w.target) || decide (1 < sub e 17 1) || !(w.xfade == 0 || (decide (10 ≤ w.xfade) && w.xfade ≤ 500)) ||
    !subZero e 20 44 || !s.switchOk w.target
  let m : Member := { chgs := [], switch := some w, staged := false, geo := true }
  if e.epoch ≠ 0 then
    let second := ((s.openEpoch e).map Epoch.hasSwitch).getD false
    if bad || second then s.badMember c e stBadParam 0 else s.addMember c e m
  else if bad then s.complete c stBadParam 0
  else if s.pwr.mode = .standby then (s.switchNow w.target).complete c stOk s.msc
  else s.ownEpoch c (s.mscOf e.present) false m

def execShelfSwitch (e : Submission) (s : State) : Host.Outcome State Fault Refusal := .next (hostCommand 0x09 e (shelfSwitch e) s)

/-! ### SHELF_LOAD and SHELF_VERIFY (R96, R97) -/

/-- What the header of an image says of its slot. -/
def ShelfSlot.named (v : ShelfSlot) (p : Nat → Byte) : ShelfSlot :=
  { v with id := word (imgNat p 16 4), frame := word (imgNat p 20 4), rate := imgNat p 24 1, length := imgNat p 8 8 }

/-- TT_SHELFk_ID (R93). -/
def ShelfSlot.shownId (v : ShelfSlot) : Word := if v.st = .empty ∨ v.st = .loading then 0 else v.id

/-- The flash slot that a job waits for is under examination (R91). -/
def State.jobWaits (s : State) (k : Nat) (j : ShelfJob) : Bool :=
  (s.slot k).examine || (match j.flash with
    | some f => (s.slot f).examine
    | none => false)

def State.addJob (s : State) (k : Nat) (j : ShelfJob) : State :=
  let v := s.slot k
  s.setSlot k { v with jobs := v.jobs ++ [j], st := if j.load ∧ k ≠ 8 then .loading else v.st }

/-- SHELF_LOAD (R96). DESIGN CHOICE (assumption 64): a DEST with a load under way counts as busy, BAD_PARAM. -/
def shelfLoad (e : Submission) (c : CmdRef) (s : State) : State :=
  let src := sub e 16 1
  let from_ := sub e 17 1
  let dest := sub e 18 1
  let len := sub e 32 8
  let v := s.slot dest
  let srcOk := if src = 0 then from_ == 0 && sub e 24 8 % 64 == 0 && decide (len ≤ slotMax dest)
    else src == 1 && decide (4 ≤ from_) && decide (from_ ≤ 8) && subZero e 24 16
  let busy := dest != 8 && (v.st == .active || v.st == .fading || v.jobs.any (fun j => j.load))
  let refused := decide (4 ≤ dest ∧ s.pwr.mode ≠ .setup) || s.pwr.mode == .standby || (decide (dest < 4) && s.noDram)
  guardCmd (!srcOk || decide (8 < dest) || !subZero e 19 5 || !subZero e 40 24 || busy || s.pendingTargets.contains dest) stBadParam c
    (guardCmd refused stModeRefused c (fun s =>
      let job : ShelfJob := { cmd := c, load := true, flash := if src = 1 then some from_ else none, length := len }
      if src = 1 then s.addJob dest job
      else
        match e.records with
        | none => ((if dest = 8 then s else s.slotState dest .failed)).complete c stMemError (shelfResult (crc32c []) 0xFD)
        | some h => if imgNat (listByte h) 8 8 = len then s.addJob dest job else s.complete c stBadParam 0)) s

def execShelfLoad (e : Submission) (s : State) : Host.Outcome State Fault Refusal := .next (hostCommand 0x0A e (shelfLoad e) s)

def shelfVerify (e : Submission) (c : CmdRef) (s : State) : State :=
  let k := sub e 16 1
  let v := s.slot k
  guardCmd (decide (8 < k) || !subZero e 17 47 || (!v.examine && (v.st == .empty || v.st == .loading))) stBadParam c
    (fun s => s.addJob k { cmd := c, load := false, flash := none, length := 0 }) s

def execShelfVerify (e : Submission) (s : State) : Host.Outcome State Fault Refusal := .next (hostCommand 0x0B e (shelfVerify e) s)

/-- A slot takes the state that its copy or verification found. -/
def State.settleSlot (s : State) (k : Nat) (ok : Bool) (p : Nat → Byte) : State :=
  s.setSlot k { (s.slot k).named p with st := if ok then .verified else .failed }

/-- The copy of a SHELF_LOAD ends (R96): bytes, error, code and CRC. -/
def shelfCopied (k : Nat) (x : ShelfCopy) (j : ShelfJob) (s : State) : State :=
  let head := listByte x.bytes
  let flash := j.flash.isSome
  let stopped := flash && !x.err && !headerOk k head (imgNat head 8 8)
  let len := if stopped then 64 else if flash then imgNat head 8 8 else j.length
  let bytes := if x.err then x.bytes else x.bytes.take len
  let p := listByte bytes
  let code := if x.err then 0xFD else if stopped then 0xFE else s.verifyImage k p bytes.length
  let ok := code == 0xFF
  let s1 := if k < 4 then s.dramWrite (slotBase k) bytes else s
  let s2 := if k = 8 then s1 else s1.settleSlot k ok p
  s2.complete j.cmd (if ok then stOk else if x.err then stMemError else stBadParam) (shelfResult (crc32c bytes) code)

def shelfLoadCopyEnd (k : Nat) (x : ShelfCopy) (s : State) : State :=
  match (s.slot k).jobs with
  | j :: rest =>
    if j.load && !s.jobWaits k j then shelfCopied k x j (s.setSlot k { s.slot k with jobs := rest }) else s
  | [] => s

def execShelfLoadCopyEnd (slot : Nat) (x : ShelfCopy) (s : State) : Host.Outcome State Fault Refusal :=
  .next (shelfLoadCopyEnd slot x s)

/-- Epochs that switch to a slot that failed become DEFECTIVE (R98). -/
def State.spoilEpochs (s : State) (k : Nat) : State :=
  { s with epochs := s.epochs.map (fun e =>
      if e.members.any (fun m => (m.switch.map (fun w => w.target)) == some k) then { e with defective := true } else e) }

/-- The image of a slot where it stands: a flash slot's bytes come with the command. -/
def State.verifySource (s : State) (k : Nat) (x : ShelfCopy) : (Nat → Byte) × Nat :=
  if 4 ≤ k ∧ k < 8 then (listByte x.bytes, x.bytes.length) else (s.image k, (s.slot k).length)

/-- The code of a verification where the slot stands; slot 8 has a copy in DRAM and one on the chip (R90, R97). -/
def State.verifyCode (s : State) (k : Nat) (x : ShelfCopy) : Nat :=
  let r := s.verifySource k x
  let code := s.verifyImage k r.1 r.2
  if k = 8 ∧ code = 0xFF ∧ ¬s.noDram then s.verifyImage k (memGet s.memory.fallback) r.2 else code

/-- The verification of a SHELF_VERIFY ends (R97). DEDUCED (assumption 26): with a header that fails, the CRC is that of its 64 bytes,
as in R96. -/
def shelfVerified (k : Nat) (x : ShelfCopy) (j : ShelfJob) (s : State) : State :=
  let r := s.verifySource k x
  let code := if x.err then 0xFD else s.verifyCode k x
  let n := imgNat r.1 8 8
  let crc := if x.err then crc32c x.bytes else crc32c ((List.range (if headerOk k r.1 n then n else 64)).map r.1)
  let ok := code == 0xFF
  let v := s.slot k
  let s1 := match v.st with
    | .verified => if ok then s else (s.slotState k .failed).spoilEpochs k
    | .failed => if ok then s.slotState k .verified else s
    | .active => if ok then s else s.evt Reg.TT_EVT 6
    | .fading => if ok then s else s.evt Reg.TT_EVT 6
    | .empty => s
    | .loading => s
  s1.complete j.cmd (if ok then stOk else if x.err then stMemError else stBadParam) (shelfResult crc code)

def shelfVerifyEnd (k : Nat) (x : ShelfCopy) (s : State) : State :=
  match (s.slot k).jobs with
  | j :: rest =>
    if !j.load && !s.jobWaits k j then shelfVerified k x j (s.setSlot k { s.slot k with jobs := rest }) else s
  | [] => s

def execShelfVerifyEnd (slot : Nat) (x : ShelfCopy) (s : State) : Host.Outcome State Fault Refusal :=
  .next (shelfVerifyEnd slot x s)

/-! ### Examination of the flash slots (R91) -/

/-- A flash slot's first 64 bytes are erased. -/
def erased (p : Nat → Byte) : Bool := (List.range 64).all (fun i => p i == 0xFF)

/-- The slots are examined in ascending order. -/
def flashSlotExamined (k : Nat) (image : List Byte) (s : State) : State :=
  if (s.slot k).examine && !(List.range k).any (fun i => (s.slot i).examine) then
    let p := listByte image
    let st : SlotState := if erased p then .empty else if s.verifyImage k p image.length = 0xFF then .verified else .failed
    let v := s.slot k
    let loads := v.jobs.any (fun j => j.load)
    let named := { v.named p with examine := false, st := if loads then .loading else st,
                                  jobs := if st = .empty then v.jobs.filter (fun j => j.load) else v.jobs }
    let s1 := s.setSlot k named
    if st = .empty then s1.completeMany ((v.jobs.filter (fun j => !j.load)).map (fun j => j.cmd)) stBadParam 0 else s1
  else s

def execFlashSlotExamined (slot : Nat) (image : List Byte) (s : State) : Host.Outcome State Fault Refusal :=
  .next (flashSlotExamined slot image s)

end Sys2Proof.Machine
end

