-- ==== Sys2Proof/Machine/RegRead.lean ====
section
/-!
DEFINITION. Reading registers (R9–R12, R434–R440, R444): the registers whose value stands elsewhere in
the state, the 64-bit pairs with their latches, and the registers that a read clears.
-/
namespace Sys2Proof.Machine

/-- A word from its fields, each with its lowest bit. -/
def bits (l : List (Nat × Nat)) : Word := word (l.foldl (fun a p => a + p.2 * 2 ^ p.1) 0)

/-- The index of a register of an array that starts at `base`. -/
def idx (base stride count off : Nat) : Option Nat :=
  if base ≤ off ∧ (off - base) % stride = 0 ∧ (off - base) / stride < count then some ((off - base) / stride) else none

/-! ### SYS and PWR -/

/-- The event registers that hold a bit that is set and enabled. -/
def State.liveEvts (s : State) : List (EvtRow × Word) :=
  (evtRows.map (fun r => (r, s.reg r.evt &&& s.reg r.en))).filter (fun p => p.2 != 0)

/-- SYS_IRQ_SRC. -/
def State.irqSrc (s : State) : Word :=
  let cq := (List.range 16).map (fun q => (q, b2n ((s.queue q).cqTail != (s.queue q).cqHead)))
  let has (v : Nat) : Bool := s.liveEvts.any (fun p => (List.range 32).any (fun b => bitOf p.2 b && evtVector p.1 b == some v))
  bits (cq ++ (List.range 11).map (fun i => (16 + i, b2n (has (16 + i)))))

def State.irqBlock (s : State) : Word :=
  bits ((List.range 17).map (fun b => (b, b2n (s.liveEvts.any (fun p => p.1.evt / 0x10000 == b)))))

def State.sysMode (s : State) : Word :=
  let p := s.pwr
  bits [(0, p.mode.code), (3, b2n p.wait.isSome), (4, (p.wait.map (fun w => w.target.code)).getD 0),
        (8, b2n p.fbDram), (9, b2n p.fbWdog), (10, b2n p.fbTherm)]

def State.liveSys (s : State) (off : Nat) : Option Word :=
  if off = Reg.SYS_MODE then some s.sysMode
  else if off = Reg.SYS_IRQ_SRC then some s.irqSrc
  else if off = Reg.SYS_IRQ_BLOCK then some s.irqBlock
  else none

def State.bootStat (s : State) : Word := bits [(0, s.pwr.bootStage), (4, s.pwr.bootCause), (16, min s.pwr.bootMs 0xFFFF)]
def State.tempWord (s : State) : Word := bits [(0, toField 16 s.pwr.temp), (16, toField 16 s.pwr.tempMax)]

def State.livePwr (s : State) (off : Nat) : Option Word :=
  let p := s.pwr
  if off = Reg.PWR_STAT then
    some (bits [(0, p.straps.bootMode), (2, p.straps.profSel), (4, b2n p.straps.chainHead), (5, b2n p.imageB),
                (6, b2n (!p.fuses.keyBlank)), (7, b2n p.dormantReady), (8, s.thermNow)])
  else if off = Reg.PWR_BOOT_STAT then some s.bootStat
  else if off = Reg.PWR_RESET_CAUSE then some (word p.resetCause)
  else if off = Reg.PWR_TEMP then some s.tempWord
  else if off = Reg.PWR_FUSE_STAT then
    some (bits [(0, b2n p.fuses.keyBlank), (8, p.fuses.rollback), (16, b2n p.fuses.busy.isSome), (17, b2n p.fuses.err)])
  else if off = Reg.PWR_ATTIC_CFG then some p.attic.cfg
  else if off = Reg.PWR_CMP_THR then some p.attic.thr
  else if off = Reg.PWR_ATTIC_STAT then
    some (bits ((p.attic.cmp.zipIdx.map (fun x => (x.2, b2n x.1))) ++
      [(4, b2n p.attic.extClk), (5, b2n p.attic.timeValid), (8, p.attic.cause)]))
  else none

/-! ### TMB and TT -/

def TbState.code : TbState → Nat
  | .disabled => 0
  | .free => 1
  | .acquiring => 2
  | .locked => 3
  | .holdover => 4

/-- The outputs are muted under R63, or not yet back under R64. -/
def MediaClock.muted (m : MediaClock) : Bool := (m.outMute.target == 0) != m.outMute.busy

def State.mediaStat (s : State) : Word :=
  let m := s.clock.media
  bits [(0, b2n m.valid), (1, m.active.val), (3, b2n m.seeded), (4, b2n (m.slewLeft != 0)), (5, b2n m.holding),
        (6, b2n m.muted), (7, b2n m.rejected), (8, b2n m.step.isSome)]

def State.liveTb (s : State) (n off : Nat) : Option Word :=
  let t := s.tb n
  if off = Reg.TMB_TBn_STAT then
    some (bits [(0, t.st.code), (3, b2n t.conflict), (4, b2n t.isLeader), (5, ((t.leader.map (fun l => l.port.val)).getD 0))])
  else if off = Reg.TMB_TBn_OFFSET then some (BitVec.ofInt 32 (clampI (-(2 ^ 31)) (2 ^ 31 - 1) t.offset))
  else if off = Reg.TMB_TBn_FREQ then (if t.st = .free then none else some (BitVec.ofInt 32 t.servo))
  else if off = Reg.TMB_TBn_UTC then some t.utc
  else none

def State.liveTmb (s : State) (off : Nat) : Option Word :=
  if off = Reg.TMB_MEDIA_STAT then some s.mediaStat
  else if off < 0x20080 ∧ 0x20040 ≤ off then
    let tod := s.clock.snapTod.getD ((off - 0x20040) / 16) 0
    if off % 16 = 0 then some (word (tod / second16))
    else if off % 16 = 4 then some (bits [(0, tod / second16 / 2 ^ 32 % 65536), (16, tod % 65536)])
    else if off % 16 = 8 then some (word (tod % second16 / ns16))
    else none
  else
    match idx Reg.TMB_CLOAKp 4 2 off with
    | some p => some (bits [(0, (s.cloak p).occupied), (8, (s.cloak p).high)])
    | none => if 0x20100 ≤ off ∧ off < 0x20200 then s.liveTb ((off - 0x20100) / 0x40) (off - (off - 0x20100) / 0x40 * 0x40) else none

def SlotState.code : SlotState → Nat
  | .empty => 0
  | .loading => 1
  | .verified => 2
  | .failed => 3
  | .active => 4
  | .fading => 5

/-- The MSC of the next armed bell or epoch check; all ones with none. -/
def State.nextBell (s : State) : Nat :=
  let bs := ((s.bells ++ s.cues).filter (fun p => p.2.armed && p.2.stop.isNone)).map (fun p => p.2.next)
  let es := (s.epochs.filter (fun e => (e.st == .sealed || e.st == .waiting) && !e.expiring)).map (fun e => e.m - s.lead e)
  (bs ++ es).foldl min (2 ^ 64 - 1)

def State.liveTt (s : State) (off : Nat) : Option Word :=
  if off = Reg.TT_STAT then
    some (bits [(0, (s.bells.filter (fun p => p.2.armed && p.2.stop.isNone)).length), (16, (s.epochs.filter (fun e => !e.safe)).length % 128), (24, s.active),
                (28, b2n (!s.xfades.isEmpty)), (29, b2n (s.epochs.any (fun e => e.st == .waiting)))])
  else
    match idx Reg.TT_SHELFk_STAT 4 9 off with
    | some k => some (word (s.slot k).st.code)
    | none => (idx Reg.TT_SHELFk_ID 4 9 off).map (fun k => (s.slot k).shownId)

/-! ### HQ -/

def QState.code : QState → Nat
  | .disabled => 0
  | .running => 1
  | .draining => 2
  | .error => 3

def State.liveQueue (s : State) (q off : Nat) : Option Word :=
  let a := s.queue q
  if off = Reg.HQ_Qq_CTL then some (bits [(0, b2n a.enable), (1, a.prio), (4, a.size)])
  else if off = Reg.HQ_Qq_STAT then
    some (bits [(0, a.st.code), (2, b2n a.empty), (3, b2n a.held), (8, a.cfgStatus), (16, b2n a.phase)])
  else if off = Reg.HQ_Qq_SQ_HEAD then some (word a.sqHead)
  else if off = Reg.HQ_Qq_SQ_TAIL then some (word a.sqTail)
  else if off = Reg.HQ_Qq_CQ_TAIL then some (word a.cqTail)
  else if off = Reg.HQ_Qq_CQ_HEAD then some (word a.cqHead)
  else if off = Reg.HQ_Qq_OUTSTANDING then some (word a.out.length)
  else none

/-- The MSI-X table and its pending bits (R339, R362). -/
def State.liveMsix (s : State) (off : Nat) : Option Word :=
  if 0x4F000 ≤ off ∧ off < 0x4F200 then
    if off % 16 = 12 then some (word (b2n (s.host.msix.mask.contains ((off - 0x4F000) / 16)))) else none
  else if off = 0x4F800 then some (bits (s.host.msix.pend.map (fun v => (v, 1))))
  else none

def State.liveHq (s : State) (off : Nat) : Option Word :=
  if off = Reg.HQ_CFG then some (bits [(0, s.host.version), (4, 1), (8, 2)])
  else if off = Reg.HQ_STAT then some (bits [(0, 512 - s.host.freeSlots), (16, s.records)])
  else if off = Reg.HQ_WDOG_LEFT then some (word ((s.host.wdogLeft + 95) / 96))
  else if 0x41000 ≤ off ∧ off < 0x41400 then s.liveQueue ((off - 0x41000) / 0x40) (off - (off - 0x41000) / 0x40 * 0x40)
  else s.liveMsix off

/-! ### DMA and MEM -/

def DmaState.code : DmaState → Nat
  | .idle => 0
  | .running => 1
  | .waiting => 2
  | .paused => 3
  | .idleAtEnd => 4
  | .fault => 5

def State.liveDma (s : State) (off : Nat) : Option Word :=
  if 0x51000 ≤ off ∧ off < 0x51800 then
    let k := s.dch ((off - 0x51000) / 0x40)
    let o := off - (off - 0x51000) / 0x40 * 0x40
    if o = Reg.DMA_Cc_STAT then
      some (bits [(0, k.st.code), (4, k.status), (6, b2n k.abortIgnored), (7, b2n k.shadowValid), (8, b2n k.shadowLate),
                  (9, b2n k.dbPending), (10, b2n k.held), (12, k.faultCode), (16, k.loops.length)])
    else if o = Reg.DMA_Cc_SPACE then some (word k.startSpace)
    else if o = Reg.DMA_Cc_RESIDUE then some (word k.residue)
    else if o = Reg.DMA_Cc_ITER then some (word k.iter)
    else none
  else none

/-- The longest pause of the last 1 ms, ns. -/
def State.pauseNow (s : State) : Nat :=
  ((s.memory.pauses.filter (fun p => decide (s.samples < p.1 + s.fs / 1000))).map (fun p => p.2)).foldl max 0

def State.liveMem (s : State) (off : Nat) : Option Word :=
  let m := s.memory
  let margin (c : Nat) : Nat := b2n (s.dramChan c).marginLost
  let x2 (c : Nat) : Nat := b2n (s.dramChan c).x2
  if off = Reg.MEM_STAT then
    some (bits [(0, m.config), (3, m.speed), (6, b2n m.trained), (7, margin 0), (8, margin 1), (9, x2 0), (10, x2 1),
                (11, b2n m.failed)])
  else if off = Reg.MEM_REF_DEBT then some (bits (m.sub.zipIdx.map (fun p => (4 * p.2, min 15 p.1.debt))))
  else if off = Reg.MEM_PAUSE then some (bits [(0, min 0xFFFF s.pauseNow), (16, min 0xFFFF m.pauseHigh)])
  else if off = Reg.MEM_CELLAR_MIN then some (word m.cellarMin)
  else none

/-! ### SAP, NET and NTK -/

def GroupState.code : GroupState → Nat
  | .off => 0
  | .acquiring => 1
  | .locked => 2
  | .relock => 3
  | .lost => 4
  | .leading => 5

def State.livePort (s : State) (p off : Nat) : Option Word :=
  if off = Reg.SAP_Pp_MASK then some (s.port p).mask
  else if off = Reg.SAP_Pp_MASKCTL then some (word (b2n (s.port p).compact))
  else none

def State.liveGroup (s : State) (g off : Nat) : Option Word :=
  let k := s.group g
  if off = Reg.SAP_Gg_STAT then
    some (bits [(0, k.st.code), (3, b2n k.cfgErr), (4, b2n k.fade.busy), (8, s.activeCh g)])
  else if off = Reg.SAP_Gg_RATIO then
    some (if k.st = .acquiring ∨ k.st = .locked then Config.ratio g s.samples else 0)
  else none

def State.liveSap (s : State) (off : Nat) : Option Word :=
  let past (f : Port → Bool) (j : Nat) : Word := bits ((List.range 32).map (fun i => (i, b2n (f (s.port (32 * j + i))))))
  if 0x71000 ≤ off ∧ off < 0x72000 then s.livePort ((off - 0x71000) / 0x40) (off - (off - 0x71000) / 0x40 * 0x40)
  else if 0x70100 ≤ off ∧ off < 0x70300 then s.liveGroup ((off - 0x70100) / 0x20) (off - (off - 0x70100) / 0x20 * 0x20)
  else
    match idx Reg.SAP_MASK_ACTIVEj 4 2 off with
    | some j => some (past (fun p => p.toggle) j)
    | none => (idx Reg.SAP_MASK_PENDINGj 4 2 off).map (past (fun p => p.pend.isSome))

def NetLink.code : NetLink → Nat
  | .down => 0
  | .up10 => 1
  | .up1 => 2

def State.liveNet (s : State) (off : Nat) : Option Word :=
  match idx Reg.NET_Pn_STAT 0x40 2 off with
  | some n => some (bits [(0, NetLink.code (s.netPort n).link), (2, b2n (s.netPort n).module)])
  | none => if off = Reg.NET_TRS_VER then some (word s.net.trs.ver) else none

def LinkState.code : LinkState → Nat
  | .down => 0
  | .training => 1
  | .up => 2
  | .incompatible => 3
  | .ready => 4

def State.liveNtkPort (s : State) (n off : Nat) : Option Word :=
  let p := s.ntkPort n
  if off = Reg.NTK_Pn_STAT then
    some (bits [(0, p.link.code), (3, b2n p.module), (8, p.version), (16, b2n (s.follows && s.timePort == n))])
  else if off = Reg.NTK_Pn_PROP then some (word p.prop)
  else if off = Reg.NTK_Pn_CREDITS then some (word p.credits)
  else if off = Reg.NTK_Pn_FREE then some (word (2048 - p.used))
  else if off = Reg.NTK_Pn_TOTAL then some (word p.total)
  else none

def State.liveNtk (s : State) (off : Nat) : Option Word :=
  let c := s.chain
  if off = Reg.NTK_CHAIN_STAT then
    some (bits [(0, c.st.code), (3, b2n c.head), (4, b2n c.ring), (5, b2n c.split), (8, c.position), (16, c.version), (24, c.fail)])
  else if off = Reg.NTK_HOLD then some (bits [(0, c.budget), (16, c.hold)])
  else if 0x90100 ≤ off ∧ off < 0x90180 then s.liveNtkPort ((off - 0x90100) / 0x40) (off - (off - 0x90100) / 0x40 * 0x40)
  else (idx Reg.NTK_MEMBERS_j 4 8 off).map (fun j =>
    bits ((List.range 32).map (fun i => (i, b2n (c.members.any (fun m => m.entry.position == 32 * j + i))))))

/-! ### OBJ, GEO, PTH and SPK -/

def State.liveObj (s : State) (off : Nat) : Option Word :=
  if off = Reg.OBJ_CAP_STAT then some (bits [(0, s.capture.st), (3, b2n s.capture.oneShot), (16, s.capture.taps.length)])
  else if off = Reg.OBJ_RPL_STAT then
    some (bits [(0, s.replay.st), (2, b2n s.replay.loop), (3, b2n s.replay.underrun), (16, s.replay.channels)])
  else none

def State.liveGeo (s : State) (off : Nat) : Option Word :=
  let g := s.geo
  if off = Reg.GEO_STAT then
    some (bits [(0, g.kept), (20, b2n g.pruning), (21, b2n g.lateLast), (22, b2n (s.lockers.any (fun p => p.2.report.oog))),
                (23, b2n g.past)])
  else if off = Reg.GEO_BUDGET_SEEN then some (word g.budget)
  else if off = Reg.GEO_WORK_CORNERS then some (bits [(0, g.corners), (16, g.cornersHigh)])
  else if off = Reg.GEO_WORK_DIRECT then some (word g.direct)
  else if off = Reg.GEO_FADING then some (word g.fading)
  else if 0xB0100 ≤ off ∧ off < 0xB0140 then
    let z := (off - 0xB0100) / 8
    if off % 8 = 0 then
      let a := g.airNow.getD z (5120, 12800)
      some (bits [(0, toField 16 a.1), (16, toField 16 a.2)])
    else
      let a := g.sound.getD z (0, 0)
      some (bits [(0, a.1 % 65536), (16, a.2 % 65536)])
  else none

def State.livePth (s : State) (off : Nat) : Option Word :=
  if off = Reg.PTH_BUDGET_NOW then some (bits [(0, s.budgetNow), (20, b2n s.throttled)])
  else if off = Reg.PTH_STAT then some (bits [(0, s.path.rendered), (20, b2n s.path.clamping)])
  else none

def State.overRoutes (s : State) (f : Route → Bool) : Word := bits ((List.range 32).map (fun r => (r, b2n (f (s.route r)))))

def State.liveSpk (s : State) (off : Nat) : Option Word :=
  let o := s.ovr
  if off = Reg.SPK_STAT then
    some (bits [(0, b2n (s.stage.acc == 0 && !s.stage.busy)), (1, b2n s.stage.busy),
                (2, b2n (s.feeds.any (fun p => p.2.firOld.isSome)))])
  else if off = Reg.SPK_FIR_USED then some (word s.firUsed)
  else if off = Reg.SPK_FIR_POOL then some (word (if s.valid then firPoolNow s else 0))
  else if off = Reg.SPK_CORR_EN then some (s.overRoutes (fun r => r.cfg.enable))
  else if off = Reg.SPK_CORR_ABSENT then some (s.overRoutes (fun r => r.absent))
  else if off = Reg.SPK_CORR_RAMPING then some (s.overRoutes (fun r => r.gain.busy || r.srcOld.isSome))
  else if off = Reg.SPK_OVR_STAT then
    some (bits [(0, b2n o.ovrPin), (1, b2n o.ovrOn), (2, b2n (s.ovrActs && (ovrFading o s.msc || o.wNext.any (fun n => decide (n.1 ≤ s.msc))))), (3, b2n o.mutePin),
                (4, b2n o.muteOn), (5, b2n s.ovrEmpty)])
  else none

/-! ### DSK and SDAC -/

def DeskState.code : DeskState → Nat
  | .off => 0
  | .idle => 1
  | .running => 2
  | .halted => 3
  | .fault => 4
  | .lent => 5

def State.liveDesk (s : State) (d off : Nat) : Option Word :=
  let k := s.desk d
  if off = Reg.DSK_Dn_CFG then some (bits [(0, b2n k.enable), (1, k.group)])
  else if off = Reg.DSK_Dn_STAT then
    some (bits [(0, k.st.code), (4, k.fault), (8, b2n k.rep.isSome), (9, b2n k.xfer.isSome), (16, k.task.getD k.lastTask)])
  else if off = Reg.DSK_Dn_PC then some (word k.pc)
  else if off = Reg.DSK_Dn_DBG_DATA then
    some (if k.st = .halted then k.dbgRead (s.reg (dskReg Reg.DSK_Dn_DBG_SEL d)).toNat else 0)
  else if off = Reg.DSK_Dn_CYCLES then some (word (min k.cycles 0xFFFFFFFF))
  else none

def State.liveDsk (s : State) (off : Nat) : Option Word :=
  if 0xE4000 ≤ off ∧ off < 0xE5000 then s.liveDesk ((off - 0xE4000) / 0x100) (off - (off - 0xE4000) / 0x100 * 0x100)
  else
    (idx 0xE0100 4 32 off).map (fun key =>
      bits [(0, ((tget s.tasks.lists key).getD []).length), (8, (tget s.tasks.high key).getD 0), (16, s.reserved key)])

def State.liveSdac (s : State) (off : Nat) : Option Word :=
  let c := s.sdac.getD ((off - 0xF0100) / 16) {}
  if 0xF0100 ≤ off ∧ off < 0xF0180 then
    if off % 16 = 0 then
      some (bits [(0, c.code), (16, b2n c.range), (17, b2n c.stream), (18, b2n c.clamped), (19, b2n c.loaded), (20, c.src),
                  (23, b2n c.ilim), (24, b2n c.first)])
    else if off % 16 = 4 then some (bits [(0, c.holdCode), (16, b2n c.holdRange)])
    else none
  else none

/-- A register whose value stands elsewhere than in the register file. -/
def State.live (s : State) (off : Nat) : Option Word :=
  match off / 0x10000 with
  | 0 => s.liveSys off
  | 1 => s.livePwr off
  | 2 => s.liveTmb off
  | 3 => s.liveTt off
  | 4 => s.liveHq off
  | 5 => s.liveDma off
  | 6 => s.liveMem off
  | 7 => s.liveSap off
  | 8 => s.liveNet off
  | 9 => s.liveNtk off
  | 10 => s.liveObj off
  | 11 => s.liveGeo off
  | 12 => s.livePth off
  | 13 => s.liveSpk off
  | 14 => s.liveDsk off
  | 15 => s.liveSdac off
  | _ => none

/-! ### 64-bit pairs (R12, R437, R438) -/

/-- The low words of the latched pairs: offset, stride, count. -/
def pairRows : List (Nat × Nat × Nat) :=
  [(Reg.SYS_LEDGER_MSC_LO, 8, 6), (Reg.PWR_WAKE_SEC_LO, 8, 1), (Reg.TMB_MSC_LO, 8, 2), (Reg.TMB_SNAP_MSC_LO, 8, 1),
   (Reg.TMB_TBn_LEADER_LO, 0x40, 4), (Reg.TMB_TBn_SET_SEC_LO, 0x40, 4), (Reg.TT_NEXT_BELL_LO, 8, 2),
   (Reg.HQ_Qq_SQ_BASE_LO, 0x40, 16), (Reg.HQ_Qq_CQ_BASE_LO, 0x40, 16), (Reg.HQ_Qq_FETCHED_LO, 0x40, 16)] ++
  [(Reg.DMA_Cc_PC_LO, 0x40, 32), (Reg.DMA_Cc_START_LO, 0x40, 32), (Reg.DMA_Cc_NEXT_PC_LO, 0x40, 32),
   (Reg.DMA_Cc_BYTES_LO, 0x40, 32), (Reg.MEM_UE_ADDR_LO, 8, 1), (Reg.SAP_Pp_FRAMES_LO, 0x40, 64),
   (Reg.SAP_Pp_MASK_MSC_LO, 0x40, 64), (Reg.OBJ_CAP_START_LO, 8, 2), (Reg.OBJ_RPL_START_LO, 8, 3)] ++
  [(Reg.GEO_FRAME_LO, 8, 1), (Reg.PTH_PROBE_MSC_LO, 8, 1), (Reg.SPK_CORR_STBY_LO, 8, 1), (Reg.SPK_OVR_K0_LO, 8, 1),
   (Reg.DSK_EVT_POSTED_LO, 8, 4), (Reg.DSK_Dn_SPILL_BASE_LO, 0x100, 16)]

/-- The offset is the low word of a latched pair. -/
def isLow (off : Nat) : Bool := pairRows.any (fun r => (idx r.1 r.2.1 r.2.2 off).isSome)

/-- The value of a pair by the offset of its low word. -/
def State.pairVal (s : State) (lo : Nat) : Nat :=
  let tbn := (lo - 0x20100) / 0x40
  let q := s.queue ((lo - 0x41000) / 0x40)
  let k := s.dch ((lo - 0x51000) / 0x40)
  let p := s.port ((lo - 0x71000) / 0x40)
  let stored := (s.reg lo).toNat + 2 ^ 32 * (s.reg (lo + 4)).toNat
  if lo = Reg.PWR_WAKE_SEC_LO then s.pwr.attic.wakeSec
  else if lo = Reg.TMB_MSC_LO then s.resMsc
  else if lo = Reg.TMB_ORIGIN_LO then (if s.valid then s.clock.media.origin else s.clock.media.originWritten.getD 0)
  else if lo = Reg.TMB_SNAP_MSC_LO then s.clock.snapMsc
  else if lo = Reg.TT_NEXT_BELL_LO then s.nextBell
  else if lo = Reg.MEM_UE_ADDR_LO then s.memory.ueAddr
  else if lo = Reg.OBJ_CAP_START_LO then s.capture.start
  else if lo = Reg.OBJ_CAP_FRAMES_LO then s.capture.frames
  else if lo = Reg.OBJ_RPL_START_LO then s.replay.start
  else if lo = Reg.OBJ_RPL_FILL_LO then s.replay.fill
  else if lo = Reg.OBJ_RPL_READ_LO then s.replay.read
  else if lo = Reg.GEO_FRAME_LO then s.geo.frame
  else if lo = Reg.SPK_OVR_K0_LO then s.ovr.k0
  else if lo = Reg.DSK_EVT_POSTED_LO then s.tasks.posted
  else if lo = Reg.DSK_EVT_CONSUMED_LO then s.tasks.consumed
  else if lo = Reg.DSK_EVT_RETURNED_LO then s.tasks.returned
  else if lo = Reg.DSK_EVT_PENDING_LO then s.pendingFlags
  else if (idx Reg.TMB_TBn_LEADER_LO 0x40 4 lo).isSome then (((s.tb tbn).leader.map (fun l => l.source.toNat)).getD 0)
  else if (idx Reg.TMB_TBn_SET_SEC_LO 0x40 4 lo).isSome then 0
  else if (idx Reg.HQ_Qq_SQ_BASE_LO 0x40 16 lo).isSome then q.sqBase.toNat
  else if (idx Reg.HQ_Qq_CQ_BASE_LO 0x40 16 lo).isSome then q.cqBase.toNat
  else if (idx Reg.HQ_Qq_FETCHED_LO 0x40 16 lo).isSome then q.total
  else if (idx Reg.DMA_Cc_PC_LO 0x40 32 lo).isSome then k.pc
  else if (idx Reg.DMA_Cc_START_LO 0x40 32 lo).isSome then k.start
  else if (idx Reg.DMA_Cc_NEXT_PC_LO 0x40 32 lo).isSome then k.nextPc
  else if (idx Reg.DMA_Cc_BYTES_LO 0x40 32 lo).isSome then k.bytes
  else if (idx Reg.SAP_Pp_FRAMES_LO 0x40 64 lo).isSome then p.frames
  else if (idx Reg.SAP_Pp_MASK_MSC_LO 0x40 64 lo).isSome then p.maskMsc
  else stored

/-- Latches, by low word and master. -/
def latchGet (l : List ((Nat × Master) × Word)) (k : Nat × Master) : Word := ((l.find? (fun p => p.1 == k)).map (fun p => p.2)).getD 0
def latchSet (l : List ((Nat × Master) × Word)) (k : Nat × Master) (v : Word) : List ((Nat × Master) × Word) :=
  (k, v) :: l.filter (fun p => p.1 != k)

/-- A read of a low word (R12). -/
def lowRead (m : Master) (off : Nat) (s : State) : Word × State :=
  let v := s.pairVal off
  (word v, { s with rlatch := latchSet s.rlatch (off, m) (word (v / 2 ^ 32)) })

/-! ### Registers that a read clears (R444) -/

/-- What a read of a register with a high-water mark or a maximum clears. -/
def clearRead (off : Nat) (s : State) : State :=
  if off = Reg.PWR_TEMP then s.setPwr { s.pwr with tempMax := 0 }
  else if off = Reg.GEO_WORK_CORNERS then { s with geo := { s.geo with cornersHigh := 0 } }
  else if off = Reg.PTH_LOAD then s.setReg off (s.reg off &&& 0x3FF#32)
  else if off = Reg.MEM_PAUSE then s.setMemory { s.memory with pauseHigh := 0 }
  else if off = Reg.MEM_CELLAR_MIN then s.setMemory { s.memory with cellarMin := 192 }
  else
    match idx Reg.TMB_CLOAKp 4 2 off with
    | some p => s.setCloak p { s.cloak p with high := 0 }
    | none =>
      match idx 0xE0100 4 32 off with
      | some key => { s with tasks := { s.tasks with high := tdel s.tasks.high key } }
      | none => if (idx Reg.DSK_Dn_LOAD 0x100 16 off).isSome then s.setReg off (s.reg off &&& 0x3FF#32) else s

/-- A read of a register by a master, with what the read changes. -/
def readReg (m : Master) (off : Nat) (s : State) : Word × State :=
  if 0x100000 ≤ off then (0, s)
  else if isLow off then lowRead m off s
  else if 4 ≤ off && isLow (off - 4) then (latchGet s.rlatch (off - 4, m), s)
  else ((s.live off).getD (s.reg off), clearRead off s)

/-- Two spans of addresses meet. -/
def meets (a n b m : Nat) : Bool := decide (a < b + m ∧ b < a + n)

/-- Registers that channels 0–27 may not reach (R367). -/
def barredRegs : List (Nat × Nat) :=
  [(0, 0x10000), (0x10000, 0x10000), (0x40000, 0x10000), (0x60000, 0x10000), (0x100000, 0x10000), (0x51700, 0x100)]

def regBarred (c a n : Nat) : Bool := decide (c < 28) && barredRegs.any (fun b => meets a n b.1 b.2)

/-- The register is within the master's reach. -/
def mayReach (m : Master) (off : Nat) : Bool := match m with
  | .host => true
  | .dma c => !regBarred c.val off 4

/-! ### Rows -/

/-- In factory mode the DBG block is not part of the manual (R436). -/
def State.factory (s : State) : Bool := s.pwr.straps.bootMode == 3

/-- BAR0 can be read (R435). -/
def State.readable (s : State) : Bool := s.pwr.mode.awake || (s.pwr.mode == .boot && decide (4 ≤ s.pwr.bootStage))

def inDbg (off : Nat) : Bool := decide (0x100000 ≤ off ∧ off < 0x110000)

/-- What a read of a register returned to the host. -/
def State.answered (s : State) (m : Master) (v : Word) : State :=
  if m = .host then { s with host := { s.host with answer := some v } } else s

/-- LOW_WORD_READ: a latched pair's low word; any other register is read as it is. -/
def execLowWordRead (m : Master) (off : Nat) (s : State) : Host.Outcome State Fault Refusal :=
  if inDbg off ∧ s.factory then .refused .factoryTestBlock
  else if s.readable && mayReach m off then .next ((readReg m off s).2.answered m (readReg m off s).1) else .next s

/-- CLEAR_ON_READ. -/
def execClearOnRead (off : Nat) (s : State) : Host.Outcome State Fault Refusal :=
  if inDbg off ∧ s.factory then .refused .factoryTestBlock
  else if s.readable then .next ((readReg .host off s).2.answered .host (readReg .host off s).1) else .next s

end Sys2Proof.Machine
end

