-- ==== Sys2Proof/Machine/Board.lean ====
section
/-!
DEFINITION. The SMBus target in the attic (R457) and the JTAG port (R458).
-/
namespace Sys2Proof.Machine

/-! ### SMBus -/

/-- The target answers: VDD_ATTIC and VDD_IO33 are present. -/
def State.smbUp (s : State) : Bool := s.pwr.atticUp && s.pwr.io33

/-- A transaction ends with these bytes read, or with a NACK. -/
def State.smbAnswer (s : State) (r : Option (List Byte)) : State := s.setPwr { s.pwr with smb := if s.smbUp then r else none }

/-- Code 0x00: SYS_ID, then the revision. -/
def smbId : List Byte := leBytes 4 (regReset Reg.SYS_ID).toNat ++ [0xB0]

def execSmbusReadId (s : State) : Host.Outcome State Fault Refusal := .next (s.smbAnswer (some smbId))

/-- Code 0x01. -/
def State.smbStatus (s : State) : Byte :=
  BitVec.ofNat 8 (s.pwr.mode.code + 8 * b2n s.pwr.dormantReady + 16 * b2n s.faultLow + 32 * s.thermNow + 128 * b2n s.pwr.attic.timeValid)

def execSmbusReadStatus (s : State) : Host.Outcome State Fault Refusal := .next (s.smbAnswer (some [s.smbStatus]))

/-- Code 0x02: the main sensor's temperature; in DORMANT the attic sensor's, which is free. -/
def smbTemperature (s : State) : State :=
  if s.pwr.mode = .dormant then
    let r := s.draw
    r.2.smbAnswer (some (leBytes 2 (toField 16 r.1)))
  else s.smbAnswer (some (leBytes 2 (toField 16 s.pwr.temp)))

def execSmbusReadTemperature (s : State) : Host.Outcome State Fault Refusal := .next (smbTemperature s)

/-- Code 0x03. -/
def execSmbusReadWakeCause (s : State) : Host.Outcome State Fault Refusal :=
  .next (s.smbAnswer (some [BitVec.ofNat 8 s.pwr.attic.cause]))

/-- Code 0x04. -/
def State.smbBoot (s : State) : List Byte := leBytes 2 (s.pwr.bootStage + 16 * s.pwr.bootCause + 256 * s.pwr.resetCause)

def execSmbusReadBoot (s : State) : Host.Outcome State Fault Refusal := .next (s.smbAnswer (some s.smbBoot))

/-- A write is NACKed after its command code. -/
def execSmbusWrite (_ : Byte) (s : State) : Host.Outcome State Fault Refusal := .next (s.smbAnswer none)

/-- An unknown command code is NACKed. -/
def execSmbusUnknownRead (code : Byte) (s : State) : Host.Outcome State Fault Refusal :=
  .next (if code.toNat < 5 then s else s.smbAnswer none)

/-- The answer to the Alert Response Address releases SMB_ALERT_N; `changed`: something changed during it. -/
def alertResponse (changed : Bool) (s : State) : State :=
  if s.smbUp && !s.pwr.alertN then s.setPwr { s.pwr with alertN := !changed, smb := some [BitVec.ofNat 8 (2 * 0x4C)] } else s

def execAlertResponse (changed : Bool) (s : State) : Host.Outcome State Fault Refusal := .next (alertResponse changed s)

/-! ### JTAG -/

def State.setJtag (s : State) (j : Jtag) : State := s.setPwr { s.pwr with jtag := j }

/-- An instruction of the TAP: nothing happens in DORMANT and while the TAP is held in Test-Logic-Reset. -/
def State.jtagRun (s : State) (k : Jtag → Jtag) : State :=
  if s.pwr.mode = .dormant ∨ s.pwr.jtag.held then s else s.setJtag (k s.pwr.jtag)

def wordBits (v : Word) : List Bool := (List.range 32).map (fun i => bitOf v i)

/-- BYPASS: one bit stands between TDI and TDO, 0 when the instruction is loaded. -/
def execJtagBypass (tdi : Bool) (s : State) : Host.Outcome State Fault Refusal :=
  .next (s.jtagRun (fun j => { j with op := .bypass, bypass := tdi, tdo := [j.op == .bypass && j.bypass] }))

def execJtagIdcode (s : State) : Host.Outcome State Fault Refusal :=
  .next (s.jtagRun (fun j => { j with op := .idcode, tdo := wordBits 0x264104B5 }))

/-- SAMPLE/PRELOAD: the pins are captured, the update latches loaded. -/
def execJtagSamplePreload (pins load : List Bool) (s : State) : Host.Outcome State Fault Refusal :=
  .next (s.jtagRun (fun j => { j with op := .sample, tdo := pins, latch := load }))

/-- EXTEST: the latches drive the pins. -/
def execJtagExtest (pins load : List Bool) (s : State) : Host.Outcome State Fault Refusal :=
  .next (s.jtagRun (fun j => { j with op := .extest, tdo := pins, latch := load }))

def execJtagHighz (s : State) : Host.Outcome State Fault Refusal := .next (s.jtagRun (fun j => { j with op := .highz }))

def execJtagClamp (s : State) : Host.Outcome State Fault Refusal := .next (s.jtagRun (fun j => { j with op := .clamp }))

/-- JTAG_TRST_N: while it is low the TAP is in Test-Logic-Reset, with IDCODE in force. -/
def jtagTrst (low : Bool) (s : State) : State :=
  s.setJtag (if low then { s.pwr.jtag with held := true, op := .idcode, bypass := false } else { s.pwr.jtag with held := false })

def execJtagTrst (low : Bool) (s : State) : Host.Outcome State Fault Refusal := .next (jtagTrst low s)

end Sys2Proof.Machine
end

