-- ==== Sys2Proof/Machine/Reset.lean ====
section
/-!
DEFINITION. Resets, the supplies, the attic's comparators and wake (R65, R414, R415, R430, R451), and the one-time fuses
(R427).
-/
namespace Sys2Proof.Machine

/-! ### Resets of the main domain (R430) -/

/-- The main domain is reset: the attic, the fuses, the pins, what the block sent and, where power was kept, the RWS field and
DRAM stay. -/
def State.resetMain (s : State) (keep : Bool) (cause : Nat) : State :=
  let r := State.reset
  let p := s.pwr
  let pwr : PwrSt := { r.pwr with
    resetCause := cause, straps := p.straps, xtalFault := p.xtalFault, wakeN := p.wakeN, alertN := p.alertN,
    resetN := p.resetN, railsUp := p.railsUp, atticUp := p.atticUp, io33 := p.io33, attic := p.attic,
    fuses := { p.fuses with busy := none, err := false }, smb := p.smb, jtag := p.jtag }
  { r with
    pending := s.pending, free := s.free, samples := s.samples, pwr := pwr,
    regs := if keep then tset r.regs Reg.SYS_SCRATCH (s.reg Reg.SYS_SCRATCH) else r.regs,
    dram := if keep then s.dram else r.dram,
    host := { r.host with linkUp := s.host.linkUp, mem := s.host.mem, msix := { r.host.msix with sent := s.host.msix.sent } },
    clock := { r.clock with sent := s.clock.sent },
    net := { r.net with ports := s.net.ports.map (fun q => { module := q.module }), sent := s.net.sent },
    ntk := { r.ntk with ports := s.ntk.ports.map (fun q => { module := q.module }) } }

/-- XTAL_25M is lost: the main domain is held in reset (R65). -/
def xtalFault (s : State) : State :=
  if s.pwr.mode = .dormant ∨ s.pwr.xtalFault then s
  else
    let s1 := s.resetMain true 4
    s1.setPwr { s1.pwr with xtalFault := true }

def execXtalFault (s : State) : Host.Outcome State Fault Refusal := .next (watched xtalFault s)

def execXtalReturn (s : State) : Host.Outcome State Fault Refusal :=
  .next (watched (fun s => s.setPwr { s.pwr with xtalFault := false }) s)

/-- RESET_N goes low; in DORMANT the main domain is off already. -/
def resetNAssert (s : State) : State :=
  let s1 := if s.pwr.mode = .dormant then s else s.resetMain true 2
  s1.setPwr { s1.pwr with resetN := false }

def execResetNAssert (s : State) : Host.Outcome State Fault Refusal := .next (watched resetNAssert s)

/-- PWR_RESET is written. -/
def softReset (key : Byte) (soft : Bool) (s : State) : State := if key = 0xB0 ∧ soft then s.resetMain true 3 else s

def execSoftReset (key : Byte) (soft : Bool) (s : State) : Host.Outcome State Fault Refusal :=
  .next (watched (barWrite (softReset key soft)) s)

/-! ### Supplies (R451, R455) -/

def mainRailDrop (s : State) : State :=
  let s1 := if s.pwr.mode = .dormant then s else s.resetMain false s.pwr.resetCause
  s1.setPwr { s1.pwr with railsUp := false }

def execMainRailDrop (s : State) : Host.Outcome State Fault Refusal := .next (watched mainRailDrop s)

/-- The main rails return: cause 1; in DORMANT, a wake. -/
def mainRailReturn (s : State) : State :=
  if s.pwr.railsUp then s
  else if s.pwr.mode = .dormant then s.setPwr { s.pwr with railsUp := true, woken := true, wakeN := false }
  else s.setPwr { s.pwr with railsUp := true, resetCause := 1 }

def execMainRailReturn (s : State) : Host.Outcome State Fault Refusal := .next (mainRailReturn s)

/-- VDD_ATTIC falls: the attic loses its state. -/
def vddAtticDrop (s : State) : State :=
  let s1 := s.resetMain false s.pwr.resetCause
  s1.setPwr { s1.pwr with atticUp := false, attic := {} }

def execVddAtticDrop (s : State) : Host.Outcome State Fault Refusal := .next (watched vddAtticDrop s)

def vddAtticRise (s : State) : State :=
  if s.pwr.atticUp then s
  else
    let s1 := s.resetMain false 0
    s1.setPwr { s1.pwr with atticUp := true, attic := {} }

def execVddAtticRise (s : State) : Host.Outcome State Fault Refusal := .next (watched vddAtticRise s)

def execVddIo33Loss (s : State) : Host.Outcome State Fault Refusal := .next (s.setPwr { s.pwr with io33 := false })
def execVddIo33Return (s : State) : Host.Outcome State Fault Refusal := .next (s.setPwr { s.pwr with io33 := true })

/-- Each service DAC output is high impedance (R225, R455, R413). -/
def State.sdacOff (s : State) : Bool := !s.pwr.io33 || s.pwr.mode == .dormant

/-! ### The start of BOOT (R414, R423, R428) -/

/-- BOOT starts: straps are sampled, WAKE_N is released. -/
def State.beginBoot (s : State) (straps : Straps) : State :=
  let s1 := if s.pwr.mode = .dormant then s.resetMain false 5 else s
  s1.setPwr { s1.pwr with mode := .boot, straps := straps, resetN := true, wakeN := true, woken := false, bootStage := 0 }

/-- The conditions of R451 besides RESET_N. -/
def State.supplied (s : State) : Bool := s.pwr.railsUp && s.pwr.atticUp && !s.pwr.xtalFault

def resetRelease (straps : Straps) (s : State) : State :=
  if s.supplied && (s.pwr.mode == .reset || (s.pwr.mode == .dormant && s.pwr.woken)) then s.beginBoot straps else s

def execResetRelease (straps : Straps) (s : State) : Host.Outcome State Fault Refusal := .next (watched (resetRelease straps) s)

def atticSelfBoot (straps : Straps) (s : State) : State :=
  if s.supplied && s.pwr.mode == .dormant && s.pwr.woken && s.pwr.resetN then s.beginBoot straps else s

def execAtticSelfBoot (straps : Straps) (s : State) : Host.Outcome State Fault Refusal := .next (watched (atticSelfBoot straps) s)

/-! ### The attic (R414, R415) -/

def State.setAttic (s : State) (a : Attic) : State := s.setPwr { s.pwr with attic := a }

/-- A comparator fires: CMP0–CMP2 on the edge that RISE selects, CMP3 once the attic time has reached the wake time. -/
def comparatorFire (k : Nat) (s : State) : State :=
  let a := s.pwr.attic
  if !s.pwr.atticUp || (k == 3 && decide (a.tod / second16 < a.wakeSec)) then s
  else
    let s1 := s.setAttic { a with cmp := a.cmp.set k (k == 3 || bitOf a.cfg (8 + k)) }
    if s1.mainUp then s1.evt Reg.PWR_EVT 5 else s1

def execComparatorFire (k : Fin 4) (s : State) : Host.Outcome State Fault Refusal := .next (comparatorFire k.val s)

/-- A wake in DORMANT by an enabled comparator, or by WAKE_N (source 4). -/
def wake (src : Nat) (s : State) : State :=
  let a := s.pwr.attic
  if s.pwr.mode == .dormant && bitOf a.cfg src && !s.pwr.woken then
    s.setPwr { s.pwr with attic := { a with cause := 2 ^ src }, woken := true, wakeN := false }
  else s

def execWake (src : Fin 5) (s : State) : Host.Outcome State Fault Refusal := .next (wake src.val s)

/-- The attic's own registers are written. -/
def atticWrite (off : Nat) (v : Word) (s : State) : State :=
  let a := s.pwr.attic
  if off = Reg.PWR_ATTIC_CFG then s.setAttic { a with cfg := v &&& 0x71F#32 }
  else if off = Reg.PWR_CMP_THR then s.setAttic { a with thr := v &&& 0xFFFFFF#32 }
  else s

/-- PWR_WAKE_SEC, 48 bits. -/
def wakeSecWrite (v : Nat) (s : State) : State :=
  s.setAttic { s.pwr.attic with wakeSec := v % 2 ^ 48, cmp := s.pwr.attic.cmp.set 3 false }

/-! ### Fuses (R427) -/

def State.setFuses (s : State) (f : Fuses) : State := s.setPwr { s.pwr with fuses := f }

/-- The hash as it stands in PWR_FUSE_DATA. -/
def State.fuseData (s : State) : List Byte :=
  ((List.range 12).map (fun k => leBytes 4 (s.reg (Reg.PWR_FUSE_DATAk + 4 * k)).toNat)).flatten

/-- PWR_FUSE_CMD: OP 1 burns KEY_HASH, OP 2 advances the rollback count. -/
def fuseCmd (op : Nat) (key : Byte) (s : State) : State :=
  let f := s.pwr.fuses
  if s.pwr.mode != .setup || key != 0xA5 || f.busy.isSome then s.setFuses { f with err := true }
  else if op = 1 ∧ f.keyBlank then s.setFuses { f with busy := some 1, keyHash := s.fuseData }
  else if op = 2 ∧ f.rollback < 64 then s.setFuses { f with busy := some 2 }
  else s.setFuses { f with err := true }

def execFuseBurnKeyHash (key : Byte) (s : State) : Host.Outcome State Fault Refusal := .next (barWrite (fuseCmd 1 key) s)
def execFuseRollbackAdvance (key : Byte) (s : State) : Host.Outcome State Fault Refusal := .next (barWrite (fuseCmd 2 key) s)

def fuseBurnEnd (ok : Bool) (s : State) : State :=
  let f := s.pwr.fuses
  match f.busy with
  | none => s
  | some op =>
    if ok then
      s.setFuses (if op = 1 then { f with busy := none, keyBlank := false } else { f with busy := none, rollback := f.rollback + 1 })
    else s.setFuses { f with busy := none, err := true }

def execFuseBurnEnd (ok : Bool) (s : State) : Host.Outcome State Fault Refusal := .next (fuseBurnEnd ok s)

end Sys2Proof.Machine
end

