-- ==== Sys2Proof/Machine/RegWrite.lean ====
section
/-!
DEFINITION. Writing registers (R9–R12, R38, R434–R444): select registers and what they capture, write-1-to-clear bits, event
enables, 64-bit pairs, and every register whose write does more than store.
-/
namespace Sys2Proof.Machine

/-! ### Select registers (R38, R440) -/

def State.setRegs (s : State) (l : List (Nat × Word)) : State := l.foldl (fun s p => s.setReg p.1 p.2) s

/-- The two halves of a pair. -/
def halves (lo v : Nat) : List (Nat × Word) := [(lo, word v), (lo + 4, word (v / 2 ^ 32))]

/-- SYS_LEDGER_SEL: the ledger as of the last completed boundary; zeros for an index that names none. -/
def sysLedgerSel (v : Word) (s : State) : State :=
  let i := fieldOf v 0 11
  let is := isLedger i
  let l : Ledger := if is then s.ledger i else {}
  s.setRegs ([(Reg.SYS_LEDGER_SEL, bits [(0, i), (16, b2n is), (17, b2n (is && s.ledgerActive i))]), (Reg.SYS_LEDGER_CLIP, l.clip)] ++
    halves Reg.SYS_LEDGER_MSC_LO s.led.lastMsc ++ halves Reg.SYS_LEDGER_ACC_LO l.acc.toNat ++ halves Reg.SYS_LEDGER_SYN_LO l.syn.toNat ++
    halves Reg.SYS_LEDGER_DIS_LO l.dis.toNat ++ halves Reg.SYS_LEDGER_DEL_LO l.del.toNat ++ halves Reg.SYS_LEDGER_INF_LO l.inf.toNat)

/-- A gain ramp or a crossfade runs. -/
def Locker.ramping (l : Locker) : Bool :=
  l.gain.busy || l.srcOld.isSome || l.bqOld.isSome || l.delayOld.isSome || l.decorOld.isSome

def objLkSel (v : Word) (s : State) : State :=
  let i := fieldOf v 0 10
  let l := s.locker i
  let st := bits [(0, b2n l.live), (1, l.cfg.mode), (3, l.src.kind), (6, b2n l.absent), (7, b2n (l.jump.isSome || l.jumpPlan.isSome)),
    (8, b2n l.held.isSome), (9, b2n l.pdLost), (10, b2n l.posHold), (11, b2n l.ramping), (12, l.cfg.prio), (16, l.cfg.decor)]
  s.setRegs [(Reg.OBJ_LK_SEL, word i), (Reg.OBJ_LK_STAT, st), (Reg.OBJ_LK_POS_X, BitVec.ofInt 32 l.target.x),
    (Reg.OBJ_LK_POS_X + 4, BitVec.ofInt 32 l.target.y), (Reg.OBJ_LK_POS_X + 8, BitVec.ofInt 32 l.target.z), (Reg.OBJ_LK_SAT, l.sat)]

def geoLkSel (v : Word) (s : State) : State :=
  let i := fieldOf v 0 10
  let r := (s.locker i).report
  s.setRegs [(Reg.GEO_LK_SEL, word i),
    (Reg.GEO_LK_PATHS, bits [(0, r.kept % 4096), (16, r.pruned % 4096), (28, b2n r.late), (29, b2n r.oog), (30, b2n r.limited),
                             (31, b2n r.clamped)]),
    (Reg.GEO_LK_NORM, bits [(0, toField 16 r.norm), (16, min 0xFFFF r.share)])]

def pthLkSel (v : Word) (s : State) : State :=
  let i := fieldOf v 0 10
  let l := s.locker i
  let ps := l.paths (fun _ => true)
  s.setRegs [(Reg.PTH_LK_SEL, word i),
    (Reg.PTH_LK_STAT, bits [(0, ps.length % 4096), (12, (l.paths (fun r => r.clamped)).length % 4096), (24, (l.sets.filter (fun t => !t.past)).length)]),
    (Reg.PTH_LK_LAG, word (min 0xFFFFFF ((ps.map (fun r => r.lag)).foldl max 0)))]

/-- PTH_PROBE_SEL: DONE clears, and the probe is taken at the next render slot. -/
def pthProbeSel (v : Word) (s : State) : State :=
  let s1 := s.setRegs [(Reg.PTH_PROBE_SEL, v &&& 0x0DFF03FF#32), (Reg.PTH_PROBE_STAT, s.reg Reg.PTH_PROBE_STAT &&& ~~~1#32)]
  { s1 with path := { s1.path with probeFrom := some (s1.nextMul 16) } }

def spkFdSel (v : Word) (s : State) : State :=
  let f := fieldOf v 0 9
  let d := s.feed f
  let st := bits [(0, b2n d.cfg.mute), (1, b2n d.cfg.invert), (2, b2n (!d.fades.isEmpty)), (3, b2n d.delayClamped), (4, b2n d.peakOn),
    (5, b2n d.thermOn), (6, b2n d.pilot.enable), (7, b2n d.fault), (8, b2n d.cfg.sumIn), (9, b2n d.cfg.sumOut), (16, d.fir.length)]
  s.setRegs [(Reg.SPK_FD_SEL, word f), (Reg.SPK_FD_STAT, st), (Reg.SPK_FD_ALIGN, word d.len),
    (Reg.SPK_FD_GR, bits [(0, d.gr.1), (16, d.gr.2)]), (Reg.SPK_FD_PILOT, word d.lastA)]

/-- The counters of a flow; zeros where none is configured. -/
def netFlSel (v : Word) (s : State) : State :=
  let i := fieldOf v 0 8
  let f := (if bitOf v 8 then tget s.net.tx i else tget s.net.rx i).getD {}
  s.setRegs ((Reg.NET_FL_SEL, v &&& 0x1FF#32) :: (List.range 6).map (fun j => (Reg.NET_FL_LATE + 4 * j, f.n.getD j 0)))

def TaskState.code : TaskState → Nat
  | .waiting => 1
  | .ready => 2
  | .running => 3

def dskTaskSel (v : Word) (s : State) : State :=
  let t := fieldOf v 0 8
  match s.task t with
  | none =>
    s.setRegs [(Reg.DSK_TASK_SEL, word t), (Reg.DSK_TASK_STAT, 0), (Reg.DSK_TASK_PENDING, 0), (Reg.DSK_TASK_WAIT, 0),
      (Reg.DSK_TASK_DRY, 0), (Reg.DSK_TASK_RUNS, 0)]
  | some k =>
    let st := bits [(0, k.st.code), (2, b2n k.claimed), (3, b2n (s.tasks.held.any (fun h => h.task == t))), (4, k.cfg.prio),
      (7, b2n k.cfg.bound), (8, if k.cfg.bound then k.cfg.desk else k.deskRun), (12, s.groupOf k.cfg), (14, k.cfg.ip)]
    s.setRegs [(Reg.DSK_TASK_SEL, word t), (Reg.DSK_TASK_STAT, st), (Reg.DSK_TASK_PENDING, k.pending),
      (Reg.DSK_TASK_WAIT, word k.waits), (Reg.DSK_TASK_DRY, k.dry), (Reg.DSK_TASK_RUNS, k.runs)]

def execSysLedgerSelWrite (v : Word) (s : State) : Host.Outcome State Fault Refusal := .next (barWrite (sysLedgerSel v) s)
def execObjLkSelWrite (v : Word) (s : State) : Host.Outcome State Fault Refusal := .next (barWrite (objLkSel v) s)
def execGeoLkSelWrite (v : Word) (s : State) : Host.Outcome State Fault Refusal := .next (barWrite (geoLkSel v) s)
def execPthLkSelWrite (v : Word) (s : State) : Host.Outcome State Fault Refusal := .next (barWrite (pthLkSel v) s)
def execPthProbeSelWrite (v : Word) (s : State) : Host.Outcome State Fault Refusal := .next (barWrite (pthProbeSel v) s)
def execSpkFdSelWrite (v : Word) (s : State) : Host.Outcome State Fault Refusal := .next (barWrite (spkFdSel v) s)
def execNetFlSelWrite (v : Word) (s : State) : Host.Outcome State Fault Refusal := .next (barWrite (netFlSel v) s)
def execDskTaskSelWrite (v : Word) (s : State) : Host.Outcome State Fault Refusal := .next (barWrite (dskTaskSel v) s)

/-! ### W1C and enables (R10, R11, R441) -/

/-- The bits of a word, lowest first. -/
def setBits (v : Word) : List Nat := (List.range 32).filter (fun i => bitOf v i)

/-- Bits of a register that stand as long as what they show lasts: outputs that limit their current (R228). -/
def State.standing (s : State) (off : Nat) : Word :=
  if off = Reg.SDAC_ILIM then word ((s.sdac.zipIdx.map (fun p => if p.1.ilim then 2 ^ p.2 else 0)).sum) else 0

/-- A write of ones clears bits; a bit that hardware sets in the same cycle stays set and, in an event register, is armed anew. -/
def w1c (off : Nat) (v same : Word) (s : State) : State :=
  match regRow off with
  | none => s
  | some r =>
    let m := v &&& word r.w1c
    let again := m &&& same
    let s1 := s.setReg off ((s.reg off &&& ~~~m) ||| again ||| s.standing off)
    match evtRow off with
    | none => s1
    | some e => (setBits (again &&& s.reg e.en)).foldl (fun s b => s.arm off b) s1

/-- An event enable register is written: bits that are set and newly enabled are armed. -/
def enableWrite (off : Nat) (v : Word) (s : State) : State :=
  match evtRowByEn off, regRow off with
  | some e, some r =>
    let n := v &&& word r.rw
    (setBits (n &&& ~~~(s.reg off) &&& s.reg e.evt)).foldl (fun s b => s.arm e.evt b) (s.setReg off n)
  | _, _ => s

/-! ### Pairs that are written (R438) -/

/-- The low words of the writable pairs: offset, stride, count. -/
def writePairRows : List (Nat × Nat × Nat) :=
  [(Reg.PWR_WAKE_SEC_LO, 8, 1), (Reg.TMB_ORIGIN_LO, 8, 1), (Reg.TMB_TBn_SET_SEC_LO, 0x40, 4), (Reg.HQ_Qq_SQ_BASE_LO, 0x40, 16),
   (Reg.HQ_Qq_CQ_BASE_LO, 0x40, 16), (Reg.DMA_Cc_START_LO, 0x40, 32), (Reg.DMA_Cc_NEXT_PC_LO, 0x40, 32),
   (Reg.DSK_Dn_SPILL_BASE_LO, 0x100, 16)]

def isWriteLow (off : Nat) : Bool := writePairRows.any (fun r => (idx r.1 r.2.1 r.2.2 off).isSome)

/-- One write of the whole value of a pair. -/
def pairStore (lo v : Nat) (s : State) : State :=
  if lo = Reg.PWR_WAKE_SEC_LO then wakeSecWrite v s
  else if lo = Reg.TMB_ORIGIN_LO then tmbOriginWrite (BitVec.ofNat 64 v) s
  else
    match idx Reg.TMB_TBn_SET_SEC_LO 0x40 4 lo with
    | some n => s.setSec n v
    | none =>
      match idx Reg.HQ_Qq_SQ_BASE_LO 0x40 16 lo with
      | some q => writeRingBase (Fin.ofNat 16 q) false (BitVec.ofNat 64 v) s
      | none =>
        match idx Reg.HQ_Qq_CQ_BASE_LO 0x40 16 lo with
        | some q => writeRingBase (Fin.ofNat 16 q) true (BitVec.ofNat 64 v) s
        | none =>
          match idx Reg.DMA_Cc_START_LO 0x40 32 lo with
          | some c => if c < 28 then s.setDch c { s.dch c with start := v } else s
          | none =>
            match idx Reg.DMA_Cc_NEXT_PC_LO 0x40 32 lo with
            | some c => dmaNextPc c v false s
            | none => s.setRegs (halves lo v)

/-- A write to _LO is held in the master's latch. -/
def lowWrite (m : Master) (off : Nat) (v : Word) (s : State) : State := { s with wlatch := latchSet s.wlatch (off, m) v }

/-- A write to _HI stores both halves. -/
def highWrite (m : Master) (hiOff : Nat) (v : Word) (s : State) : State :=
  pairStore (hiOff - 4) ((latchGet s.wlatch (hiOff - 4, m)).toNat + 2 ^ 32 * v.toNat) s

/-- DMA_NEXT_PC_WRITE: the write of the high half, `same` in the fabric cycle in which END takes the shadow (R375). -/
def dmaNextPcHigh (c : Nat) (m : Master) (hi : Word) (same : Bool) (s : State) : State :=
  let lo := dmaReg Reg.DMA_Cc_NEXT_PC_LO c
  dmaNextPc c ((latchGet s.wlatch (lo, m)).toNat + 2 ^ 32 * hi.toNat) same s

def execDmaNextPcWrite (c : Fin 32) (m : Master) (hi : Word) (sameCycle : Bool) (s : State) : Host.Outcome State Fault Refusal :=
  .next (barWrite (dmaNextPcHigh c.val m hi sameCycle) s)

/-! ### Every other register -/

/-- The value is stored in the writable fields (R10). -/
def store (off : Nat) (v : Word) (s : State) : State :=
  match regRow off with
  | some r => if r.rw = 0 then s else s.setReg off ((s.reg off &&& ~~~(word r.rw)) ||| (v &&& word r.rw))
  | none => s

def writeSys (off : Nat) (v : Word) (s : State) : State :=
  if off = Reg.SYS_LEDGER_SEL then sysLedgerSel v s else if off = Reg.SYS_IRQ_TEST then irqTest v s else store off v s

def writePwr (off : Nat) (v : Word) (s : State) : State :=
  if off = Reg.PWR_RESET then softReset (BitVec.ofNat 8 (fieldOf v 8 8)) (bitOf v 0) s
  else if off = Reg.PWR_FUSE_CMD then fuseCmd (fieldOf v 0 8) (BitVec.ofNat 8 (fieldOf v 8 8)) s
  else if off = Reg.PWR_ATTIC_CFG ∨ off = Reg.PWR_CMP_THR then atticWrite off v s
  else store off v s

def writeTmb (taken : Bool) (off : Nat) (v : Word) (s : State) : State :=
  if off = Reg.TMB_MEDIA_CFG then mediaCfg (taken || s.pwr.mode == .setup) v s
  else if off = Reg.TMB_MEDIA_CMD then
    (if fieldOf v 0 2 = 1 then forceMedia true s else if fieldOf v 0 2 = 2 then forceMedia false s else s)
  else if off = Reg.TMB_SNAP then (if bitOf v 0 then tmbSnapGo s else s)
  else if off = Reg.TMB_IO_CFG then (store off v s).ppsCheck
  else
    match idx Reg.TMB_TBn_CFG 0x40 4 off with
    | some n => tmbTbCfgWrite n v s
    | none => store off v s

/-- HQ, with the MSI-X table (R339): the mask bit of an entry, its address and data. -/
def writeHq (off : Nat) (v : Word) (s : State) : State :=
  if 0x4F000 ≤ off ∧ off < 0x4F200 then
    (if off % 16 = 12 then setMask ((off - 0x4F000) / 16) (bitOf v 0) s else s.setReg off v)
  else if off = Reg.HQ_WDOG_CFG then wdogRestart (s.setReg Reg.HQ_WDOG_CFG (v &&& 0xFFFF0003#32))
  else
    match idx Reg.HQ_Qq_CTL 0x40 16 off with
    | some q => writeQueueCtl (Fin.ofNat 16 q) v s
    | none => store off v s

def writeDma (off : Nat) (v : Word) (s : State) : State :=
  if off = Reg.DMA_CFG then dmaModeWrite v s
  else
    match idx Reg.DMA_Cc_CTL 0x40 32 off with
    | some c =>
      let s1 := if bitOf v 0 then dmaDoorbell c s else s
      if bitOf v 1 then dmaCtlAbort c s1 else s1
    | none =>
      match idx Reg.DMA_Cc_SPACE 0x40 32 off with
      | some c => if c < 28 then s.setDch c { s.dch c with startSpace := fieldOf v 0 2 } else s
      | none => store off v s

def writeSap (off : Nat) (v : Word) (s : State) : State :=
  match idx Reg.SAP_Gg_CFG 0x20 16 off with
  | some g => sapGroupCfgWrite g v s
  | none =>
    match idx Reg.SAP_Pp_CFG 0x40 64 off with
    | some p => sapPortCfgWrite p v s
    | none =>
      match idx Reg.SAP_Pp_MASKCTL 0x40 64 off with
      | some p => sapMaskctlWrite p v s
      | none => store off v s

/-- NET_Pn_CFG: a port that is disabled goes DOWN; one that is enabled tries 10GBASE-R first (R293, R294). -/
def netCfg (n : Nat) (v : Word) (s : State) : State :=
  let s1 := store (netReg Reg.NET_Pn_CFG n) v s
  if bitOf v 0 then
    (if bitOf (s.reg (netReg Reg.NET_Pn_CFG n)) 0 then s1 else s1.setNetPort n { s1.netPort n with tryLow := false, triedAt := s.samples })
  else netLinkChange n .down s1

def writeNet (off : Nat) (v : Word) (s : State) : State :=
  if off = Reg.NET_FL_SEL then netFlSel v s
  else if off = Reg.NET_TRS_CFG ∨ off = Reg.NET_TRS_GROUP ∨ off = Reg.NET_TRS_ID then netTrsCfgWrite off v s
  else
    match idx Reg.NET_Pn_CFG 0x40 2 off with
    | some n => netCfg n v s
    | none =>
      match idx Reg.NET_Pn_I2C 0x40 2 off with
      | some n => moduleI2cGo n v s
      | none => store off v s

/-- NTK_Pn_CFG: ENABLE 0 takes the port DOWN; ENABLE 1 with a module present starts its training (R310). -/
def ntkCfg (n : Nat) (v : Word) (s : State) : State :=
  let s1 := store (ntkReg Reg.NTK_Pn_CFG n) v s
  if bitOf v 0 then (if s1.ntkEnabled n ∧ (s1.ntkPort n).link = .down then s1.setLink n .training else s1)
  else (s1.linkDown n).auditDone

def writeNtk (off : Nat) (v : Word) (s : State) : State :=
  match idx Reg.NTK_Pn_CFG 0x40 2 off with
  | some n => ntkCfg n v s
  | none =>
    match idx Reg.NTK_Pn_I2C 0x40 2 off with
    | some n => moduleI2cGo (2 + n) v s
    | none => store off v s

def writeDsk (off : Nat) (v : Word) (s : State) : State :=
  if off = Reg.DSK_TASK_SEL then dskTaskSel v s
  else
    match idx Reg.DSK_Dn_CFG 0x100 16 off with
    | some d => deskCfg d v s
    | none =>
      match idx Reg.DSK_Dn_CTL 0x100 16 off with
      | some d => deskCtl d v s
      | none =>
        match idx Reg.DSK_Dn_PC 0x100 16 off with
        | some d => deskPc d v s
        | none =>
          match idx Reg.DSK_Dn_DBG_DATA 0x100 16 off with
          | some d => deskDbg d v s
          | none => store off v s

/-- A write of a register that is no half of a pair, no event register and no enable, by its block. `taken`: a boot image record. -/
def writePlain (taken : Bool) (off : Nat) (v : Word) (s : State) : State :=
  match off / 0x10000 with
  | 0 => writeSys off v s
  | 1 => writePwr off v s
  | 2 => writeTmb taken off v s
  | 4 => writeHq off v s
  | 5 => writeDma off v s
  | 7 => writeSap off v s
  | 8 => writeNet off v s
  | 9 => writeNtk off v s
  | 10 => if off = Reg.OBJ_LK_SEL then objLkSel v s else store off v s
  | 11 => if off = Reg.GEO_LK_SEL then geoLkSel v s else store off v s
  | 12 =>
    if off = Reg.PTH_LK_SEL then pthLkSel v s else if off = Reg.PTH_PROBE_SEL then pthProbeSel v s else store off v s
  | 13 => if off = Reg.SPK_FD_SEL then spkFdSel v s else store off v s
  | 14 => writeDsk off v s
  | _ => store off v s

/-- A write of a register by a master, or by a boot image record (`taken`). -/
def writeReg (taken : Bool) (m : Master) (off : Nat) (v : Word) (s : State) : State :=
  if 0x100000 ≤ off then s
  else if isWriteLow off then lowWrite m off v s
  else if 4 ≤ off && isWriteLow (off - 4) then highWrite m off v s
  else if (evtRowByEn off).isSome then enableWrite off v s
  else if ((regRow off).map (fun r => r.w1c != 0)).getD false then w1c off v 0 s
  else writePlain taken off v s

/-! ### Rows -/

/-- A write row: refused in the factory test block, without effect where BAR0 takes no writes. -/
def writeRow (off : Nat) (k : State → State) (s : State) : Host.Outcome State Fault Refusal :=
  if inDbg off ∧ s.factory then .refused .factoryTestBlock else .next (watched (barWrite k) s)

/-- W1C_WRITE. -/
def execW1cWrite (off : Nat) (v sameCycle : Word) (s : State) : Host.Outcome State Fault Refusal := writeRow off (w1c off v sameCycle) s

/-- EVENT_ENABLE_WRITE. -/
def execEventEnableWrite (off : Nat) (v : Word) (s : State) : Host.Outcome State Fault Refusal := writeRow off (enableWrite off v) s

/-- LOW_WORD_WRITE: a writable pair's low half; any other register is written as it is. -/
def execLowWordWrite (m : Master) (off : Nat) (v : Word) (s : State) : Host.Outcome State Fault Refusal :=
  writeRow off (fun s => if mayReach m off then writeReg false m off v s else s) s

/-- HIGH_WORD_WRITE. -/
def execHighWordWrite (m : Master) (off : Nat) (v : Word) (s : State) : Host.Outcome State Fault Refusal :=
  writeRow off (fun s => if mayReach m off then writeReg false m off v s else s) s

/-- REGISTER_WRITE. -/
def execRegisterWrite (m : Master) (off : Nat) (v : Word) (s : State) : Host.Outcome State Fault Refusal :=
  writeRow off (fun s => if mayReach m off then writeReg false m off v s else s) s

end Sys2Proof.Machine
end

