-- ==== Sys2Proof/Machine/Boot.lean ====
section
/-!
DEFINITION. The boot sequence (R423–R429, R92, R69) and the automatic start (R423). What the flash holds and whether the
signatures verify comes with the commands.
-/
namespace Sys2Proof.Machine

/-! ### Boot images (R425, R426) -/

def imageRecords (p : Nat → Byte) : Nat := imgNat p 28 4

/-- Header and signature block as R425 lays them out, in a copy of `len` bytes. -/
def bootLayoutOk (p : Nat → Byte) (len : Nat) : Bool :=
  let n := imageRecords p
  let sig := 64 + 8 * n
  imgNat p 0 4 == 0x54424447 && imgNat p 4 2 == 1 && imgNat p 6 2 == 64 && decide (n ≤ 65536) && imgNat p 8 4 == 264 + 8 * n &&
    decide (264 + 8 * n ≤ len) && decide (imgNat p 12 4 ≤ 64) && decide (1 ≤ imgNat p 22 1) && decide (imgNat p 22 1 ≤ 4) &&
    decide (imgNat p 23 1 ≤ 4) && decide (1 ≤ imgNat p 24 2) && decide (imgNat p 24 2 ≤ 3600) && zeroImg p 26 2 && zeroImg p 32 32 &&
    p sig == 0x04 && zeroImg p (sig + 97) 7

/-- Registers that can be written and hold nothing that reads back. -/
def writeOnly (off : Nat) : Bool :=
  off == Reg.TMB_MEDIA_CMD || off == Reg.TMB_SNAP || off == Reg.PWR_RESET || off == Reg.PWR_FUSE_CMD || off == Reg.SYS_IRQ_TEST ||
    (idx Reg.DSK_Dn_CTL 0x100 16 off).isSome || (idx Reg.SAP_Pp_MASK 0x40 64 off).isSome || (idx Reg.SAP_Pp_MASKCTL 0x40 64 off).isSome

/-- A register with a writable field, outside the HQ block and DMA_Cc_CTL. -/
def recordOk (off : Nat) : Bool :=
  let named := (regRow off).any (fun r => r.rw != 0 || r.w1c != 0)
  off % 4 == 0 && off / 0x10000 != 4 && (idx Reg.DMA_Cc_CTL 0x40 32 off).isNone &&
    (named || isWriteLow off || (decide (4 ≤ off) && isWriteLow (off - 4)) || writeOnly off)

/-- The records of an image: offset and value. -/
def bootRecords (p : Nat → Byte) : List (Nat × Word) :=
  (List.range (imageRecords p)).map (fun k => (imgNat p (64 + 8 * k) 4, word (imgNat p (68 + 8 * k) 4)))

/-- A copy passes verification; `sig`, its signature and, where KEY_HASH is fused, its key's hash do. -/
def State.bootCopyOk (s : State) (copy : Option (List Byte)) (sig : Bool) : Bool :=
  match copy with
  | none => false
  | some b =>
    let p := listByte b
    bootLayoutOk p b.length && sig && decide (s.pwr.fuses.rollback ≤ imgNat p 12 4) && (bootRecords p).all (fun r => recordOk r.1)

/-! ### Stages (R428, R429) -/

def State.bootAt (s : State) (stage : Nat) : State := s.setPwr { s.pwr with bootStage := stage }

/-- A failure of BOOT. -/
def State.bootFail (s : State) (cause : Nat) : State := s.setPwr { s.pwr with bootCause := cause }

/-- BOOT is held. -/
def State.bootHold (s : State) (cause : Nat) : State :=
  let s1 := s.bootFail cause
  { s1.setPwr { s1.pwr with bootHeld := true } with host := { s1.host with linkUp := false } }

/-- STAGE 2 ends: copy A, else copy B, is the image. -/
def bootImage (x : BootInput) (s : State) : State :=
  let take (b : List Byte) (second : Bool) : State :=
    let s1 := (s.setPwr { s.pwr with image := b, imageB := second }).bootAt 3
    s1.setMemory { s1.memory with config := imgNat (listByte b) 22 1, speed := imgNat (listByte b) 23 1 }
  if s.bootCopyOk x.copyA x.sigA then take (x.copyA.getD []) false
  else if s.bootCopyOk x.copyB x.sigB then take (x.copyB.getD []) true
  else s.bootHold (if x.copyA.isNone ∧ x.copyB.isNone then 2 else 1)

/-- STAGE 4 ends: DRAM is trained, or not (R394). -/
def bootTrain (x : BootInput) (s : State) : State :=
  let s1 := s.bootAt 5
  if x.trained then
    s1.setMemory { s1.memory with trained := true,
                                  chan := s1.memory.chan.map (fun v => { v with trainedAt := s.samples, trainTemp := s.pwr.temp }) }
  else (((s1.setMemory { s1.memory with failed := true }).evt Reg.MEM_EVT 8)).bootFail 3

/-- A shelf in the flash, up to its length. -/
def shelfBytes (b : List Byte) : List Byte := b.take (imgNat (listByte b) 8 8)

/-- PROF_SEL is acted on (R92). -/
def State.profActs (s : State) : Bool :=
  (s.pwr.straps.bootMode == 0 || s.pwr.straps.bootMode == 2) && s.memory.trained

/-- STAGE 5 ends: the safe shelf is copied and verified. -/
def bootSafe (x : BootInput) (s : State) : State :=
  let b := shelfBytes x.shelf
  let s0 := s.bootAt (if s.profActs then 6 else 7)
  let s1 := if s.memory.trained then s0.dramWrite (slotBase 8) b else s0
  let s2 := s1.setMemory { s1.memory with fallback := memWrite [] 0 b }
  let ok := s.verifyImage 8 (listByte b) x.shelf.length == 0xFF
  let s3 := s2.settleSlot 8 ok (listByte b)
  if ok then { s3.slotState 8 .active with active := 8 }
  else ((({ s3 with active := 15 } : State).bootFail 5).evt Reg.PWR_EVT 6)

/-- STAGE 6 ends: flash shelf PROF_SEL is loaded into slot 0. -/
def bootProf (x : BootInput) (s : State) : State :=
  let b := shelfBytes x.shelf
  let k := 4 + s.pwr.straps.profSel % 4
  let s1 := (s.bootAt 7).dramWrite (slotBase 0) b
  let ok := s.verifyImage 0 (listByte b) x.shelf.length == 0xFF
  let s2 := (s1.settleSlot 0 ok (listByte b)).settleSlot k ok (listByte b)
  if ok then
    let s3 := if s2.active = 8 then s2.slotState 8 .verified else s2
    { s3.slotState 0 .active with active := 0 }
  else (s2.bootFail 4).evt Reg.PWR_EVT 6

/-! ### SETUP is entered -/

/-- The attic's time seeds the time bases that have none, and the media time base (R69). -/
def State.seed (s : State) : State :=
  let a := s.pwr.attic
  if !a.timeValid then s
  else
    let act := s.clock.media.active.val
    let own (n : Nat) : Bool := s.tbSource n == 1 || s.tbSource n == 4
    let tbs := s.clock.tb.zipIdx.map (fun p =>
      if p.1.st = .disabled ∨ (own p.2 ∧ p.2 ≠ act) then p.1
      else { p.1 with tod := a.tod, frac := 0 })
    let s1 : State := { s with clock := { s.clock with tb := tbs }, pwr := { s.pwr with attic := { a with stored := false } } }
    if (s.tb act).st = .disabled then s1
    else
      let s2 := s1.loseTb act
      let m := s2.clock.media
      (s2.setMedia { m with seeded := true, timerOn := false, expired := true,
                            seedOrigin := if a.stored then some (a.origin, a.rate96) else none,
                            outMute := if s.mediaBit 8 || s.mediaBit 9 then m.outMute else Ramp.at_ 0 }).evt Reg.TMB_EVT 2

/-- A change of the safe shelf's CORRIDOR section beside the sections of the active shelf. DESIGN CHOICE (assumption 64): what the
active shelf brings for the same route or register, or for a destination that the record names, stands. -/
def State.corridorFits (own : List Change) (s : State) (c : Change) : Bool :=
  match c with
  | .route r k _ => s.routeMayHold r k && !own.any (fun d => match d with
      | .route q _ _ => q == r
      | _ => false)
  | .ovr _ _ => !own.any (fun d => match d with
      | .ovr _ _ => true
      | _ => false)
  | _ => false

/-- The sections of the active shelf, and the safe shelf's CORRIDOR section (R219). -/
def State.bootSections (s : State) : State :=
  if s.active = 15 then s
  else
    let r := s.fitFirs (s.shelfOwn s.active 0 ++ s.shelfSpeaker s.active)
    let s1 := r.2.applyNow r.1
    if s.active = 8 ∨ (s.slot 8).st = .failed ∨ (s.slot 8).st = .empty then s1
    else (s.corridorOf 8).foldl (fun t c => if t.corridorFits (s.corridorOf s.active) c then t.applyNow [c] else t) s1

/-- The flash slots are to be examined (R91), but the one that PROF_SEL loaded. DESIGN CHOICE (assumption 64): also where BOOT ends
in FALLBACK. -/
def State.examineFlash (s : State) : State :=
  { s with shelves := s.shelves.zipIdx.map (fun p =>
      if 4 ≤ p.2 ∧ p.2 < 8 ∧ p.1.st = .empty then { p.1 with st := .loading, examine := true } else p.1) }

/-- STAGE 7 ends: SETUP, or FALLBACK where DRAM failed; the records are applied first. -/
def bootEnd (x : BootInput) (s : State) : State :=
  if s.pwr.straps.bootMode = 3 then s
  else
    let lost := s.memory.failed
    let s1 := s.setPwr { s.pwr with mode := if lost then .fallback else .setup, fbDram := lost, bootMs := x.ms, setupAt := s.samples,
                                    autoArmed := s.pwr.straps.bootMode == 0 }
    let s2 := (bootRecords (listByte s.pwr.image)).foldl
      (fun s r => if s.pwr.mode.awake then writeReg true .host r.1 r.2 s else s) s1.bootSections
    if s2.pwr.mode.awake then
      let s3 := wdogRestart s2.seed.examineFlash
      if lost then (s3.both Reg.PWR_FALLBACKS Reg.PWR_EVT 3).dramLost s3.msc else s3
    else s2

/-- BOOT_STAGE_END. -/
def bootStageEnd (x : BootInput) (s : State) : State :=
  if s.pwr.mode ≠ .boot ∨ s.pwr.bootHeld then s
  else match s.pwr.bootStage with
    | 0 => s.bootAt 1
    | 1 => s.bootAt 2
    | 2 => bootImage x s
    | 3 => s.bootAt 4
    | 4 => bootTrain x s
    | 5 => bootSafe x s
    | 6 => bootProf x s
    | _ => bootEnd x s

def execBootStageEnd (x : BootInput) (s : State) : Host.Outcome State Fault Refusal := .next (watched (bootStageEnd x) s)

/-! ### The automatic start (R423) -/

def autoStart (s : State) : State :=
  if s.modeTurn && s.autoDue s.msc && !s.fallbackDue s.msc && !s.clock.media.rateChange then
    (s.enterRunning .show_ none false).modeDone
  else s

def execAutoStart (s : State) : Host.Outcome State Fault Refusal := .next (watched autoStart s)

/-- HOST_WAIT seconds passed in SETUP and queue 0 was not enabled. -/
def hostWaitExpiry (s : State) : State :=
  if s.pwr.mode = .setup ∧ s.pwr.straps.bootMode = 2 ∧ ¬s.pwr.hostSeen ∧
      s.passed s.pwr.setupAt (imgNat (listByte s.pwr.image) 24 2 * 1000000) then s.setPwr { s.pwr with autoArmed := true } else s

def execHostWaitExpiry (s : State) : Host.Outcome State Fault Refusal := .next (hostWaitExpiry s)

end Sys2Proof.Machine
end

