-- ==== Sys2Proof/Machine/Boundary.lean ====
section
/-!
DEFINITION. Time in the pipeline: the start of a sample period (R463, R21, R220, R299), and the block boundary (R14, R34) at
which the slots of R18 end and begin.
-/
namespace Sys2Proof.Machine

/-! ### A sample period -/

/-- The pins' filters and the force bits at a sample start (R220). -/
def State.pinStep (s : State) (x : SampleInput) : State :=
  let o := s.ovr
  let a := pinFilter x.overrideN o.ovrPin o.ovrCount
  let b := pinFilter x.muteN o.mutePin o.muteCount
  let cmd := s.reg Reg.SPK_OVR_CMD
  { s with ovr := { o with ovrPin := a.1, ovrCount := a.2, mutePin := b.1, muteCount := b.2,
                           forceOvr := bitOf cmd 0, forceMute := bitOf cmd 1 } }

/-- The supervision channel's sample of input index `p` (R201). -/
def State.feedWatch (s : State) (p : Nat) (f : Feed) : Feed :=
  if f.pilot.supEn then
    let d : Dest := { kind := f.pilot.supType, index := f.pilot.supIndex, chan := f.pilot.supChan }
    let x := (s.routeSource p d).1
    if p % 4096 = 0 then { f with win := [x] }
    else if f.win.length = p % 4096 then { f with win := x :: f.win }
    else f
  else f

def State.superviseAt (s : State) (p : Nat) : State :=
  if s.piping then { s with feeds := tmap (fun _ f => s.feedWatch p f) s.feeds } else s

/-- The command watchdog's time runs in units of 1/96 ms. -/
def State.wdogTick (s : State) : State :=
  if s.host.wdogRun then
    { s with host := { s.host with wdogLeft := s.host.wdogLeft - (if s.clock.media.rate96 then 1 else 2) } }
  else s

/-- The attic keeps its own time in steps of 100 ns: by ATTIC_CLK_IN while 10 MHz is present, else by its oscillator (R68). -/
def State.atticTick (s : State) (x : SampleInput) : State :=
  let a := s.pwr.attic
  let n := if a.extClk then x.atticIn else x.atticOsc
  if s.pwr.atticUp then s.setPwr { s.pwr with attic := { a with tod := a.tod + n * atticTick16 } } else s

/-- The streams in the period that starts at MSC `n`: a frame ends on the pins in either direction, the corridor works,
indexes reach the ingest boundary and their deadlines. -/
def State.streamStep (s : State) (n : Nat) (x : SampleInput) : State :=
  let s0 := if 3 ≤ n then s.serialOut (n - 3) else s
  let s1 := s0.serialIn (n + 1) x.serial
  let s2 := ((s1.stepRoutes (n - 1) (s1.routeSource (n - 1))).stepMix (n - 1)).txMix (n - 1)
  (((s2.superviseAt (n - 1)).serialIngest (n - 1)).rxIngest (n - 1)).rxDeadline (n + 2)

/-- The period that starts at MSC `n`; `first`, the first one of a valid MSC, in which no frame has run before. -/
def State.periodAt (s : State) (n : Nat) (first : Bool) (x : SampleInput) : State :=
  let s1 := s.setMedia { s.clock.media with msc := n, starting := false }
  let s2 := if first then s1 else s1.streamStep n x
  let s3 := (((s2.pinStep x).sdacDue n).sdacStreams n).mediaTick
  { s3 with boundary := !first && n % 16 == 0 }

/-- SAMPLE_PERIOD_START. A sample period cannot start before the boundary of the last one has been worked. -/
def samplePeriodStart (x : SampleInput) (s : State) : State :=
  if s.boundary || s.tail then s
  else
    let s1 := s.atticTick x
    if s1.pwr.mode.awake then
      let s2 := (({ s1 with samples := s1.samples + 1 } : State).advanceTime x.xtal).wdogTick
      let m := s2.clock.media
      if m.valid then s2.periodAt (if m.starting then m.msc else m.msc + 1) m.starting x else s2
    else s1

def execSamplePeriodStart (x : SampleInput) (s : State) : Host.Outcome State Fault Refusal := .next (samplePeriodStart x s)

/-! ### Errors that the block's reads met (R386, R400, R404) -/

/-- A list with the elements from `a` up to `b` set to 0. -/
def zeroRun (l : List Int) (a b : Nat) : List Int := l.zipIdx.map (fun p => if a ≤ p.2 && p.2 < b then 0 else p.1)

/-- The block that is due to be read from a cellar line reads as zeros; a feed's samples are DISCARDED and SYNTHESIZED. -/
def State.lineLost (s : State) (k : Nat) : State :=
  if k < 1024 then
    match tget s.lockers k with
    | some l => s.setLocker k { l with line := zeroRun l.line (l.delay - 16) l.delay }
    | none => s
  else
    match tget s.feeds (k - 1024) with
    | some f =>
      let n := min 16 f.len
      (s.setFeed (k - 1024) { f with line := f.line.take (f.len - n) }).addLed (feedLedger (k - 1024)) { dis := n, syn := n }
    | none => s

def State.lineError (s : State) (p : Nat × Nat) : State :=
  if s.dramUp then
    let s1 := s.lineLost p.1
    (if p.1 < 1024 then s1.both Reg.OBJ_PREDELAY_ERRS Reg.OBJ_EVT 3 else s1.both Reg.SPK_CELLAR_ERRS Reg.SPK_EVT 5).dramUe p.2
  else s

def State.lineDry (s : State) (k : Nat) : State := (s.lineLost k).both Reg.MEM_CELLAR_LIMITS Reg.MEM_EVT 7

def State.readErrors (s : State) (x : BoundaryInput) : State :=
  x.cellarDry.foldl State.lineDry (x.cellarErr.foldl State.lineError (sramScrub x.sram s))

/-! ### Taps (R125, R230) -/

/-- The blocks with pipeline index `n` at a tap point: kept for the service DAC's taps, and taken by the capture. -/
def State.tapIn (s : State) (point n : Nat) (bs : Tbl (List Int)) : State :=
  let taps := bs.foldl (fun t b =>
    let k := point * 1024 + b.1
    tset t k (((n, b.2) :: (tget t k).getD []).take 8)) s.pipe.taps
  let c := s.capture
  let frames (p : (Nat × Nat) × Nat) : List ((Nat × Nat) × Int) :=
    (List.range 16).map (fun i => ((n + i, p.2), sampleAt ((tget bs p.1.2).getD []) i))
  let data := if c.st = 2 ∧ c.start ≤ n then ((c.taps.zipIdx.filter (fun p => p.1.1 == point)).map frames).flatten else []
  { s with pipe := { s.pipe with taps := taps }, capture := { c with data := c.data ++ data } }

/-! ### The feed slot ends (R183, R221) -/

/-- Every task of an insertion point leaves the slot of block `n`. -/
def State.slotsEnd (s : State) (ip n : Nat) : State := (s.tasksAt ip n).foldl State.slotEnd s

/-- The block of a channel as it leaves an insertion point. -/
def State.pointOut (s : State) (ip n ch : Nat) (dry : List Int) : List Int :=
  match s.taskFor ip n ch with
  | some k => k.outBlock ch dry
  | none => dry

/-- Output indexes of the block from `t` on at which the override has a part in the feeds (R221). -/
def State.replaced (s : State) (t : Nat) : Nat :=
  if s.ovrActs then ((List.range 16).filter (fun i => ovrWeight (ovrAt s.ovr (t + i)) (t + i) != 0)).length else 0

/-- One feed's block leaves the feed slot: DELIVERED, or DISCARDED where the override replaces it. -/
def State.feedEnd (s : State) (stage : List Int) (n gone : Nat) (p : Nat × List Int) : State :=
  let r := feedFeedSlot s.clock.media.rate96 s.fs stage n (s.feed p.1) (s.pointOut 4 n p.1 p.2)
  let m := r.1.moved.getD (0, 0)
  let s1 := ((s.setFeed p.1 { r.1 with moved := some (0, 0) }).addLed (feedLedger p.1)
    { del := 16 - gone, dis := gone + m.1, syn := m.2, clip := clipCount r.2.1 }).fxs r.2.2
  { s1 with pipe := { s1.pipe with emit := tset s1.pipe.emit p.1 r.2.1,
                                   emitTo := tset s1.pipe.emitTo p.1 (r.1.cfg.dest0, r.1.cfg.dest1) } }

/-- Block `n` leaves the feed slot at boundary `t` and enters emit; `stage`, the stage mute over the slot. -/
def State.feedSlotEnd (s : State) (stage : List Int) (t n : Nat) : State :=
  let s0 : State := { s with pipe := { s.pipe with emit := [], emitTo := [] } }
  let s1 := s.pipe.mixOut.foldl (fun s p => s.feedEnd stage n (s.replaced t) p) s0
  (s1.tapIn 4 n s1.pipe.emit).slotsEnd 4 n

/-! ### The mix slot ends (R183, R185, R192) -/

/-- The matrix inputs of the block in the mix slot (R184, R185). -/
def State.matrixIn (s : State) (n i : Nat) : List Int :=
  if i < 512 then s.pointOut 3 n i ((tget s.pipe.buses i).getD zeros16) else (tget s.pipe.auxMix (i - 512)).getD zeros16

/-- A feed's chain sum is added, and its own sum made ready to leave (R192, R324): the block, and what it sends. -/
def State.chainSum (s : State) (b f : Nat) (c : FeedBasic) (xs : List Int) : (List Int × Bool × Nat) × State :=
  if c.sumIn then
    let r := s.takeSum b f
    let ys := zip2 (fun a d => a + d) xs r.1.1
    let s1 := r.2.fxs (fxBoth Reg.SPK_MIX_SAT (ys.map sats).sum Reg.SPK_EVT 0)
    let s2 := if c.sumOut then s1 else s1.tailSum f r.1.2.1 r.1.2.2
    ((ys.map sat427, r.1.2.1, r.1.2.2 + 1), s2)
  else ((xs, false, 1), s)

/-- One feed through the mix slot of block `n`; `sum` is the chain block of its sums. The sums that leave are gathered. -/
def State.feedMix (input : Nat → List Int) (sum : Option Nat) (f : Nat) (a : State × List (Nat × List Int × Bool × Nat)) :
    State × List (Nat × List Int × Bool × Nat) :=
  let s := a.1
  let r := feedMixSlot input s.matrix f (s.feed f)
  let s1 := (s.setFeed f r.1).fxs r.2.2
  let q := match sum with
    | some b => s1.chainSum b f r.1.cfg r.2.1
    | none => ((r.2.1, false, 1), s1)
  let s2 := q.2.addLed (feedLedger f) { acc := 16 }
  ({ s2 with pipe := { s2.pipe with mixOut := tset s2.pipe.mixOut f q.1.1 } },
   if sum.isSome && r.1.cfg.sumOut then a.2 ++ [(f, q.1.1, q.1.2.1, q.1.2.2)] else a.2)

/-- A feed that nothing has configured plays nothing; its filters' crossfades run their time (R188, R189). -/
def Feed.idle (f : Feed) : Feed :=
  if f.used then f
  else { f with firOld := f.firOld.map (fun p => (p.1, (rampVals 16 p.2).1)), bqOld := f.bqOld.map (fun p => (p.1, (rampVals 16 p.2).1)) }

/-- Block `n` leaves the mix slot. -/
def State.mixSlotEnd (s : State) (n : Nat) : State :=
  let c := s.ntk.chain
  let sum : Option Nat := if s.chainRuns ∧ c.since ≤ n ∧ c.hold ≤ n then some (n - c.hold) else none
  let fs := (s.feeds.filter (fun p => p.2.used)).map (fun p => p.1)
  let s0 : State := { s with pipe := { s.pipe with mixOut := [] } }
  let r := fs.foldl (fun a f => State.feedMix (s.matrixIn n) sum f a) (s0, [])
  let s1 : State := { r.1 with matrix := matrixNext r.1.matrix, feeds := tmap (fun _ f => f.idle) r.1.feeds }
  let s2 := match sum with
    | some b => (if r.2.isEmpty then s1 else s1.queueSums b r.2).sumDeadline b
    | none => s1
  s2.slotsEnd 3 n

/-! ### The render slot ends (R164, R178, R179) -/

def State.busEnd (s : State) (p : Nat × List Int) : State :=
  let r := busConvert p.1 p.2
  let s1 := s.fxs r.2
  { s1 with pipe := { s1.pipe with buses := tset s1.pipe.buses p.1 r.1 } }

/-- A load in per mille, between two bounds: what a measurement shows is not stated (assumption 1). -/
def State.measureLoad (s : State) (lo hi : Nat) : Nat × State := (clampN lo hi s.draw.1.toNat, s.draw.2)

/-- PTH_LOAD after a block of rendered cost `c`: the cycles of the busiest unit lie between its share and R179's bound. -/
def State.pathLoad (s : State) (c : Nat) : State :=
  let slot := slotCycles s.clock.media.rate96
  let r := s.measureLoad ((c + 31) / 32 * 16 * 1000 / slot) (min 1000 (unitCycles c * 1000 / slot))
  let peak := fieldOf (s.reg Reg.PTH_LOAD) 16 10
  r.2.setReg Reg.PTH_LOAD (word (r.1 + 65536 * max r.1 peak))

/-- Block `n` leaves the render slot; `overrun`, the records that a path unit did not finish: what it did not render contributes
nothing (R179). -/
def State.renderSlotEnd (s : State) (n : Nat) (overrun : List (Nat × Nat × Nat)) : State :=
  let r := renderBlock s.clock.media.rate96 s.path.tiltEn (s.xfadeAt n) (n / 128 * 128) n overrun s.lockers []
  let c := renderedCost r.1
  let s0 : State := { s with lockers := r.1, path := { s.path with rendered := c },
                             pipe := { s.pipe with buses := [], auxMix := s.pipe.auxRend } }
  let s1 := (s0.fxs (fxBoth Reg.PTH_PATH_SAT r.2.2 Reg.PTH_EVT 1)).pathLoad c
  let s2 := r.2.1.foldl State.busEnd (if overrun = [] then s1 else (s1.both Reg.PTH_OVERRUNS Reg.PTH_EVT 4).hwFault)
  s2.tapIn 2 n s2.pipe.buses

/-! ### The object slot ends and begins (R103, R104, R105, R184) -/

/-- Steps 5 to 7 of R103 for one locker. -/
def State.lockerEnd (s : State) (n : Nat) (p : Nat × List Int) : State :=
  match tget s.lockers p.1 with
  | some l =>
    let r := lockerWell p.1 n l (s.pointOut 1 n p.1 p.2)
    (s.setLocker p.1 r.1).fxs r.2
  | none => s

/-- Block `n` leaves the object slot. -/
def State.objectSlotEnd (s : State) (n : Nat) : State :=
  let s1 := s.pipe.objDry.foldl (fun s p => s.lockerEnd n p) s
  let wells : Tbl (List Int) := s.pipe.objDry.filterMap (fun p => (tget s1.lockers p.1).map (fun l => (p.1, (l.window.take 16).reverse)))
  let auxs : Tbl (List Int) := s.pipe.auxDry.map (fun p => (p.1, s.pointOut 2 n p.1 p.2))
  let s2 := (s1.tapIn 1 n wells).tapIn 3 n auxs
  (({ s2 with pipe := { s2.pipe with auxRend := auxs } } : State).slotsEnd 1 n).slotsEnd 2 n

/-- A block of 16 samples. -/
def pad16 (xs : List Int) : List Int := (xs ++ zeros16).take 16

/-- The stream of a source is removed at this boundary, before the object slot selects sources (R34, R292, R303). -/
def State.sourceGone (s : State) (a : Src) : Bool :=
  if a.kind = 1 then
    (s.portDue s.msc a.index && (s.port a.index).wait.any (fun w => !w.1)) ||
    (s.groupDue s.msc (a.index / 4) && (s.group (a.index / 4)).wait.any (fun w => !w.1))
  else a.kind == 2 && (s.rxFlow a.index).isNone

/-- A source channel's block of the object slot, and whether it is absent (R105). -/
def State.sourceOf (s : State) (a : Src) : List Int × Bool :=
  if a.kind = 0 then (zeros16, false)
  else if s.sourceGone a then (zeros16, true)
  else match tget s.pipe.last a.key with
    | some xs => (pad16 xs, false)
    | none => (zeros16, true)

/-- The return blocks of pipeline index `n` (R240, R262): a channel is there from its task's first block on, on zeros where
none was handed back. -/
def State.returnsIn (s : State) (n : Nat) : State :=
  let chans := ((s.tasks.tasks.filter (fun p => p.2.cfg.ip != 0 && p.2.attached && decide (p.2.from_ ≤ n))).map (fun p => (List.range p.2.cfg.retCount).map (fun i => p.2.cfg.retFirst + i))).flatten
  let block (ch : Nat) : List Int := ((s.tasks.rets.find? (fun r => r.1 == (n, ch))).map (fun r => r.2)).getD zeros16
  let last := if s.noDram then s.pipe.last else chans.foldl (fun t ch => tset t (srcKey 4 0 ch) (block ch)) s.pipe.last
  { s with pipe := { s.pipe with last := last },
           tasks := { s.tasks with rets := s.tasks.rets.filter (fun r => decide (n < r.1.1)) } }

/-- Block `n` has been taken in: the replay's part of it is DELIVERED (R29), chain inputs and desk returns join it (R18, R318,
R325). -/
def State.ingestEnd (s : State) (n : Nat) : State :=
  let s0 := s.tally replayLedger { del := s.replayHeld }
  let s1 := ({ s0 with pipe := { s0.pipe with last := s.pipe.cur, cur := [] } } : State).returnsIn n
  (s1.publishBlock n).chainDeliver n

/-- Steps 1 to 3 of R103 for one locker. -/
def State.lockerStart (s : State) (p : Nat × Locker) : State :=
  if p.2.live then
    let r := lockerDry s.sourceOf p.1 p.2
    let s1 := (s.setLocker p.1 r.1).fxs r.2.2
    { s1 with pipe := { s1.pipe with objDry := tset s1.pipe.objDry p.1 r.2.1 } }
  else s

/-- An aux input is conditioned; one that is disabled plays out its ramp. -/
def State.auxStart (s : State) (p : Nat × Aux) : State :=
  let r := auxBlock s.sourceOf p.2
  let on := p.2.enable && !r.1.absent
  { s with auxs := tset s.auxs p.1 r.1,
           pipe := { s.pipe with auxDry := tset s.pipe.auxDry p.1 r.2, auxOn := if on then s.pipe.auxOn ++ [p.1] else s.pipe.auxOn } }

/-- The capture that was to start with block `n` runs. -/
def State.captureRuns (s : State) (n : Nat) : State :=
  if s.capture.st = 1 ∧ s.capture.start ≤ n then { s with capture := { s.capture with st := 2 } } else s

/-- Every task of an insertion point is released with block `n` (R268). -/
def State.releases (s : State) (ip n : Nat) (input : Tbl (List Int)) : State :=
  ((s.tasks.tasks.filter (fun p => p.2.cfg.ip == ip)).map (fun p => p.1)).foldl
    (fun s t => s.release t n (fun ch => (tget input ch).getD zeros16)) s

/-- Block `n` enters the object slot. -/
def State.objectSlotStart (s : State) (n : Nat) : State :=
  let inputs : Tbl (List Int) := (s.lockers.filter (fun p => p.2.live)).map (fun p => (p.1, (sourceBlock s.sourceOf p.2.src p.2.srcOld).1))
  let s1 := (s.captureRuns n).tapIn 0 n inputs
  let s2 : State := { s1 with pipe := { s1.pipe with objDry := [], auxDry := [], auxOn := [] } }
  let s3 := s.auxs.foldl State.auxStart (s.lockers.foldl State.lockerStart s2)
  (s3.releases 1 n s3.pipe.objDry).releases 2 n s3.pipe.auxDry

/-! ### The slots of a boundary -/

/-- Whether the pipeline has rendered since before block `t` − `k`: the block that is `k` samples old exists. -/
def State.had (s : State) (t k : Nat) : Bool := decide (s.pipe.start + k ≤ t)

/-- The blocks that leave their slots at boundary `t`, the last slot first. The stage mute runs in MSC time. -/
def State.slotsLeave (s : State) (t : Nat) (overrun : List (Nat × Nat × Nat)) : State :=
  let g := rampVals 16 s.stage
  let s0 : State := { s with stage := g.1 }
  let s1 := if s0.had t 80 then s0.feedSlotEnd g.2 t (t - 80) else s0
  let s2 := if s1.had t 64 then s1.mixSlotEnd (t - 64) else s1
  let s3 := if s2.had t 48 then s2.renderSlotEnd (t - 48) overrun else s2
  let s4 := if s3.had t 32 then s3.objectSlotEnd (t - 32) else s3
  if s4.had t 16 then s4.ingestEnd (t - 16) else s4

/-- The aux inputs' activity reaches the mix slot with their block: a source that went or returned moves the columns (R186). -/
def State.mixSlotStart (s : State) (n : Nat) : State :=
  let changed := s.pipe.auxOnM != s.pipe.auxOnR
  let s1 := ({ s with pipe := { s.pipe with auxOnM := s.pipe.auxOnR, auxOnR := s.pipe.auxOn } } : State).applyStage .mix n
  if changed then s1.recount false s1.spkRamp else s1

/-- The evaluation of a frame that nothing closed before its hand-over ends here. -/
def State.closeFrame (s : State) (t : Nat) : State :=
  match s.geo.frozen with
  | fr :: _ => if fr.frame + 32 ≤ t then s.evaluateGeo { stallUs := 0, recordErr := [] } else s
  | [] => s

/-- The blocks that enter their slots at boundary `t`, with the changes that act from them on (R16) and the releases of
their tasks. -/
def State.slotsEnter (s : State) (t : Nat) : State :=
  let s1 := if t % 128 = 32 then (s.closeFrame t).handOver else s
  let s2 := ((s1.applyStage .feed (t - 64)).mixSlotStart (t - 48)).applyStage .render (t - 32)
  let s3 := s2.applyStage .obj (t - 16)
  let s4 := if s3.had t 16 then s3.objectSlotStart (t - 16) else s3
  let s5 := if s4.had t 48 then s4.releases 3 (t - 48) s4.pipe.buses else s4
  if s5.had t 64 then s5.releases 4 (t - 64) s5.pipe.mixOut else s5

/-! ### Step 2 of R34 -/

/-- A timed command acts (R73, R356, R272, R381). -/
def State.timedAct (s : State) (c : Timed) : State :=
  match c.act with
  | .nop => s.complete c.cmd (adjusted c.adj) s.resMsc
  | .taskSignal k m => if s.noTasks then s.complete c.cmd stModeRefused 0 else s.signalTask c.cmd c.adj k m
  | .dmaStart ch a sp => s.dmaStartNow c.cmd c.adj ch a.toNat sp
  | .ledgerSnapshot _ => s
  | .statsSnapshot _ => s
  | .creditAudit => s

/-- The timed commands of boundary `t` that act in step 2, in the order in which they were fetched. -/
def State.timedActs (s : State) (t : Nat) : State :=
  let due (c : Timed) : Bool := !c.late && decide (c.at_ ≤ t)
  (s.timed.filter due).foldl State.timedAct { s with timed := s.timed.filter (fun c => !due c) }

/-- Commits, stream additions and removals, and timed commands (R73). -/
def State.commits (s : State) (t : Nat) : State :=
  let s1 := if t % 128 = 0 then s.checkEpochs else s
  ((s1.applyStage .commit t).timedActs t).applyStage .input t

/-- The replay stream at boundary `t` (R128, R129). -/
def State.replayAt (s : State) (t : Nat) : State :=
  match s.replay.stopAt with
  | some b => if b ≤ t then s.replayEnd else s.replayBlock t
  | none => s.replayBlock t

/-- What a control-frame boundary does beside its commits: the stage mute (R202), the media clock (R58, R64), the frame
whose inputs freeze (R131). -/
def State.frameStep (s : State) (t : Nat) : State :=
  if t % 128 = 0 then
    let s1 := s.stageStep.measureMedia
    let s2 := s1.setMedia { s1.clock.media with force := none }
    if s2.piping then s2.freezeGeo (t + 128) else s2.applyStage .geo t
  else s

/-- SPK_LOAD after a block: the matrix engine's fixed cost (R187), and the taps in use (R190), as shares of the mix slot. -/
def State.spkLoad (s : State) : Word :=
  let r96 := s.clock.media.rate96
  let taps := (s.feeds.map (fun p => feedTaps p.2)).sum
  let mill (n d : Nat) : Nat := (rdiv ((n * 1000 : Nat) : Int) d).toNat
  word (mill 5242880 (if r96 then 10666688 else 21333312) + 65536 * mill (16 * taps) (if r96 then 21333376 else 42666624))

/-- Cycles of a desk's full clock, 1.2 GHz, in a block (R232). -/
def State.blockCycles (s : State) : Nat := 1200000000 * 16 / s.fs

/-- A desk's block is over: its busy cycles, of a clock that throttling halves, join those of the last 1,024 blocks (R275). -/
def Desk.blockOver (k : Desk) (total : Nat) (half : Bool) : Desk :=
  { k with busy := 0, loads := (min total (if half then 2 * k.busy else k.busy) :: k.loads).take 1024 }

/-- Loads that the desks and the speaker stage show (R213, R275). -/
def State.otherLoads (s : State) : State :=
  let total := s.blockCycles
  let mill (n d : Nat) : Nat := (rdiv ((1000 * n : Nat) : Int) d).toNat
  let desk (s : State) (d : Nat) : State :=
    let off := dskReg Reg.DSK_Dn_LOAD d
    let k := (s.desk d).blockOver total s.throttled
    (s.setDesk d k).setReg off
      (word (mill k.loads.sum (1024 * total) + 65536 * max (mill (k.loads.headD 0) total) (fieldOf (s.reg off) 16 10)))
  let s1 := (List.range 16).foldl desk s
  s1.setReg Reg.SPK_LOAD s1.spkLoad

/-- A boundary while the pipeline runs. -/
def State.pipeBoundary (s : State) (t : Nat) (x : BoundaryInput) : State :=
  let s1 := (s.readErrors x).slotsLeave t x.overrun
  let s2 := (s1.commits t).replayAt t
  ((s2.slotsEnter t).frameStep t).takeEmit t |>.otherLoads

/-- A boundary in STANDBY: nothing plays, and what is due takes its value. -/
def State.stillBoundary (s : State) (t : Nat) : State :=
  let s1 := s.commits t
  let s2 := (((s1.applyStage .feed (t - 64)).applyStage .mix (t - 48)).applyStage .render (t - 32)).applyStage .obj (t - 16)
  s2.frameStep t

/-- BLOCK_BOUNDARY: steps 1 and 2 of R34; steps 3 to 5 follow at once, or after the bells and the change of mode that are
due at this boundary. -/
def blockBoundary (x : BoundaryInput) (s : State) : State :=
  if s.boundary && s.valid then
    let t := s.msc
    let s1 := (if s.piping then s.pipeBoundary t x else s.stillBoundary t).framesSend t
    let s2 : State := { s1 with boundary := false }
    if s2.tailDue t then { s2 with tail := true } else s2.boundaryEnd t
  else s

def execBlockBoundary (x : BoundaryInput) (s : State) : Host.Outcome State Fault Refusal := .next (watched (blockBoundary x) s)

end Sys2Proof.Machine
end

