-- ==== Sys2Proof/Machine/Dma.lean ====
section
/-!
DEFINITION. DMA programs (spec chapter 15): the eight instructions (R367–R373), the ends of MOVEs, aborts and
pauses (R378–R380), and DMA_START, DMA_ABORT, DMA_PAUSE and DMA_RESUME (R381, R382).
-/
namespace Sys2Proof.Machine

/-! ### Spaces (R367, R389) -/

/-- `n` bytes from `a` on lie in a space and channel `c` may reach them there. -/
def State.spaceOk (s : State) (c space a n : Nat) : Bool :=
  if space = 0 then decide (a + n ≤ 2 ^ 64)
  else if space = 1 then decide (a + n ≤ s.dramCap)
  else if space = 2 then decide (a + n ≤ 0x800000)
  else if space = 3 then decide (a + n ≤ 0x200000) && !regBarred c a n
  else true

/-- Fault code 4 or 5 of an access to a space that does not answer (R340, R378). -/
def State.spaceDown (s : State) (space : Nat) : Option Nat :=
  if space = 0 ∧ ¬(s.host.linkUp ∧ s.host.bme) then some 4
  else if space = 1 ∧ (s.noDram ∨ ¬s.dramUp) then some 5
  else none

/-- A read meets an uncorrectable error that the state knows of. -/
def State.readBad (s : State) (space a n : Nat) : Bool :=
  if space = 1 then s.poisoned a n
  else if space = 2 then
    (List.range ((n + 3) / 4)).any (fun i =>
      let w := a / 4 + i
      (s.desk (w / 131072)).st != .lent && (s.desk (w / 131072)).bad.contains (w % 131072))
  else false

/-! ### Fetching -/

/-- The fault of reading the instruction at PC. -/
def State.dmaFetchFault (s : State) (c : Nat) : Option Nat :=
  let k := s.dch c
  if k.pc % 32 ≠ 0 ∨ ¬s.spaceOk c k.space k.pc 32 then some 2
  else
    match s.spaceDown k.space with
    | some f => some f
    | none => if s.readBad k.space k.pc 32 then some 5 else none

/-- The channel executes its next instruction: it is RUNNING, no MOVE is under way, and no abort or pause was sampled. -/
def DmaChan.ready (k : DmaChan) : Bool := k.st == .running && !k.aborting && !k.pausing && k.move.isNone

/-- An instruction runs: `op` is the row's OP, `ok` whether its reserved bytes are 0 and its values in their ranges. Another
row's OP is another instruction. -/
def State.dmaInstr (s : State) (c op : Nat) (ins : DmaBits) (ok : Bool) (k : State → State) : State :=
  let o := fieldOf ins 0 8
  if !(s.dch c).ready then s
  else if o ≠ op ∧ o < 6 then s
  else
    match s.dmaFetchFault c with
    | some f => s.dmaFault c f
    | none => if o ≠ op ∨ ¬ok then s.dmaFault c 1 else k (s.setDch c { s.dch c with afterMove := false })

/-- The channel goes on at the next instruction. -/
def State.dmaNext (s : State) (c : Nat) : State := s.setDch c (s.dch c).advance

/-! ### MOVE (R369) -/

/-- Start address in iteration `i`. -/
def strided (a i stride : Nat) : Int := a + i * signed 32 stride

def movePlan (ins : DmaBits) (i : Nat) : DmaMove × Int × Int :=
  let m : DmaMove :=
    { srcSpace := fieldOf ins 8 3, dstSpace := fieldOf ins 12 3, srcFixed := bitOf ins 16, dstFixed := bitOf ins 17,
      len := fieldOf ins 32 32, src := 0, dst := 0, pattern := word (fieldOf ins 64 32) }
  (m, strided (fieldOf ins 64 64) i (fieldOf ins 192 32), strided (fieldOf ins 128 64) i (fieldOf ins 224 32))

/-- Reserved bits, spaces and values of a MOVE. -/
def moveOk (ins : DmaBits) : Bool :=
  fieldOf ins 11 1 == 0 && fieldOf ins 15 1 == 0 && fieldOf ins 18 6 == 0 && fieldOf ins 24 8 == 0 &&
    decide (fieldOf ins 8 3 < 5) && decide (fieldOf ins 12 3 < 4) && fieldOf ins 32 32 != 0

/-- One side of a MOVE is aligned and lies in its space. -/
def State.sideOk (s : State) (c space : Nat) (a : Int) (n : Nat) (fixed write : Bool) : Bool :=
  let span := if fixed then 4 else n
  space == 4 || (decide (0 ≤ a) && a.toNat % 4 == 0 && s.spaceOk c space a.toNat span &&
    !(write && decide (c < 28) && space == 1 && !s.inGeneral a.toNat span))

/-- DMA_MOVE. -/
def dmaMove (c : Nat) (ins : DmaBits) (s : State) : State :=
  s.dmaInstr c 1 ins (moveOk ins) (fun s =>
    let p := movePlan ins (s.dch c).iter
    let m := p.1
    let ok := m.len % 4 == 0 && s.sideOk c m.srcSpace p.2.1 m.len m.srcFixed false && s.sideOk c m.dstSpace p.2.2 m.len m.dstFixed true
    if !ok then s.dmaFault c 2
    else
      match s.spaceDown m.srcSpace, s.spaceDown m.dstSpace with
      | some f, _ => s.dmaFault c f
      | none, some f => s.dmaFault c f
      | none, none => s.setDch c { s.dch c with move := some { m with src := p.2.1.toNat, dst := p.2.2.toNat } })

def execDmaMove (c : Fin 32) (ins : DmaBits) (s : State) : Host.Outcome State Fault Refusal := .next (dmaMove c.val ins s)

def DmaMove.srcAt (m : DmaMove) (i : Nat) : Nat := if m.srcFixed then m.src else m.src + 4 * i
def DmaMove.dstAt (m : DmaMove) (i : Nat) : Nat := if m.dstFixed then m.dst else m.dst + 4 * i

/-- Word `i` of a MOVE is read. `host`: the bytes a HOST source gives. -/
def State.moveRead (s : State) (c : Nat) (m : DmaMove) (host : List Byte) (i : Nat) : Word × State :=
  let a := m.srcAt i
  match m.srcSpace with
  | 0 => (word (fieldAt host (4 * i) 4), s)
  | 1 => (word (leNat (memRead s.dram a 4)), s)
  | 2 =>
    let k := s.desk (a / 0x80000)
    (if k.st = .lent then 0 else k.mget (a % 0x80000 / 4), s)
  | 3 => readReg (.dma (Fin.ofNat 32 c)) a s
  | _ => (m.pattern, s)

/-- Word `i` of a MOVE is written. -/
def State.moveWrite (s : State) (c : Nat) (m : DmaMove) (i : Nat) (v : Word) : State :=
  let a := m.dstAt i
  match m.dstSpace with
  | 0 => s.hostWrite a (leBytes 4 v.toNat)
  | 1 => s.dramWrite a (leBytes 4 v.toNat)
  | 2 =>
    let k := s.desk (a / 0x80000)
    if k.st = .lent then s else s.setDesk (a / 0x80000) (k.mset (a % 0x80000 / 4) v)
  | _ => writeReg false (.dma (Fin.ofNat 32 c)) a v s

/-- Word `i` of a MOVE is the first of an aligned 8-byte write to a desk (R235). -/
def DmaMove.pairs (m : DmaMove) (i : Nat) : Bool :=
  m.dstSpace == 2 && !m.dstFixed && m.dstAt i % 8 == 0 && decide (4 * (i + 1) < m.len)

/-- Words `i` to `i + n − 1` of a MOVE, in ascending order; what stands after them is how many words were moved, and the word
whose read met an uncorrectable error. Of an aligned 8-byte write to a desk both words land, or none. -/
def moveWords (c : Nat) (m : DmaMove) (host : List Byte) : Nat → Nat → State → State × Nat × Option Nat
  | 0, i, s => (s, i, none)
  | n + 1, i, s =>
    if s.readBad m.srcSpace (m.srcAt i) 4 then (s, i, some i)
    else if m.pairs i && s.readBad m.srcSpace (m.srcAt (i + 1)) 4 then (s, i, some (i + 1))
    else if m.pairs i && n == 0 then (s, i, none)
    else
      let r := s.moveRead c m host i
      moveWords c m host n (i + 1) (r.2.moveWrite c m i r.1)

/-- The MOVE under way goes on up to byte `upTo`: DONE and BYTES follow; the word whose read met an error. -/
def State.moveOn (s : State) (c upTo : Nat) (host : List Byte) : State × Option Nat :=
  match (s.dch c).move with
  | none => (s, none)
  | some m =>
    let r := moveWords c m host ((min upTo m.len - m.done) / 4) (m.done / 4) s
    let k := r.1.dch c
    (r.1.setDch c { k with move := some { m with done := 4 * r.2.1 }, bytes := k.bytes + (4 * r.2.1 - m.done) }, r.2.2)

/-- An uncorrectable error of the memory that a MOVE reads, at word `i`, is counted (R386, R400). -/
def State.moveError (s : State) (c i : Nat) : State :=
  match (s.dch c).move with
  | some m =>
    if m.srcSpace = 1 then s.dramUe (m.srcAt i)
    else if m.srcSpace = 2 then s.both Reg.MEM_SRAM_UE Reg.MEM_EVT 2
    else s
  | none => s

/-- DMA_MOVE_COMPLETE. An error at a byte is a LINK fault where a side is HOST, else a MEMORY fault. -/
def dmaMoveComplete (c : Nat) (x : MoveResult) (s : State) : State :=
  let k := s.dch c
  match k.move with
  | none => s
  | some m =>
    if k.st ≠ .running ∨ k.aborting ∨ k.pausing then s
    else
      match s.spaceDown m.srcSpace, s.spaceDown m.dstSpace with
      | some f, _ => s.dmaFault c f
      | none, some f => s.dmaFault c f
      | none, none =>
        let r := s.moveOn c (x.failedAt.getD m.len) x.hostData
        match r.2, x.failedAt with
        | some i, _ => (r.1.moveError c i).dmaFault c 5
        | none, some b => if m.srcSpace = 0 ∨ m.dstSpace = 0 then r.1.dmaFault c 4 else (r.1.moveError c (b / 4)).dmaFault c 5
        | none, none =>
          let k1 := r.1.dch c
          if k1.aborting ∨ k1.pausing then r.1 else r.1.setDch c { k1.advance with move := none, afterMove := true }

def execDmaMoveComplete (c : Fin 32) (x : MoveResult) (s : State) : Host.Outcome State Fault Refusal :=
  .next (watched (dmaMoveComplete c.val x) s)

/-! ### LOOP and JUMP (R370, R373) -/

def loopOk (ins : DmaBits) : Bool :=
  fieldOf ins 8 8 == 0 && fieldOf ins 64 192 == 0 && decide (1 ≤ fieldOf ins 16 16) && decide (fieldOf ins 16 16 ≤ 4096)

/-- DMA_LOOP. -/
def dmaLoop (c : Nat) (ins : DmaBits) (s : State) : State :=
  s.dmaInstr c 2 ins (loopOk ins) (fun s =>
    let k := s.dch c
    let body := fieldOf ins 16 16
    let count := fieldOf ins 32 32
    if count = 0 then
      let r := dmaLoopEnd ((k.pc + 32 * (body + 1)) % 2 ^ 64) k.loops
      s.setDch c { k with pc := r.1, loops := r.2 }
    else if 2 ≤ k.loops.length then s.dmaFault c 3
    else
      let first := (k.pc + 32) % 2 ^ 64
      s.setDch c { k with pc := first, loops := { first := first, body := body, count := count, i := 0 } :: k.loops })

def execDmaLoop (c : Fin 32) (ins : DmaBits) (s : State) : Host.Outcome State Fault Refusal := .next (dmaLoop c.val ins s)

/-- Loops whose body a jump's target lies outside end, from the innermost on. -/
def jumpLoops (pc : Nat) : List DmaLoop → List DmaLoop
  | [] => []
  | l :: r => if l.first ≤ pc ∧ pc < l.first + 32 * l.body then l :: r else jumpLoops pc r

/-- DMA_JUMP. -/
def dmaJump (c : Nat) (ins : DmaBits) (s : State) : State :=
  s.dmaInstr c 5 ins (fieldOf ins 8 24 == 0 && fieldOf ins 32 32 != 0) (fun s =>
    let k := s.dch c
    let pc := (((k.pc : Int) + 32 * signed 32 (fieldOf ins 32 32)) % 2 ^ 64).toNat
    s.setDch c { k with pc := pc, loops := jumpLoops pc k.loops })

def execDmaJump (c : Fin 32) (ins : DmaBits) (s : State) : Host.Outcome State Fault Refusal := .next (dmaJump c.val ins s)

/-! ### WAIT (R371) -/

def waitOk (ins : DmaBits) : Bool :=
  decide (fieldOf ins 8 8 < 2) && fieldOf ins 16 16 == 0 && fieldOf ins 192 64 == 0 &&
    (fieldOf ins 8 8 == 1 || fieldOf ins 32 32 == 0)

/-- The condition holds; a register pair is read with the channel's own latch. -/
def State.dmaHolds (s : State) (c : Nat) (w : DmaWait) : Bool × State :=
  match w with
  | .msc t => (s.valid && decide (t ≤ s.msc), s)
  | .reg off t =>
    let m : Master := .dma (Fin.ofNat 32 c)
    let lo := readReg m off s
    let hi := readReg m (off + 4) lo.2
    (decide (t ≤ lo.1.toNat + 2 ^ 32 * hi.1.toNat), hi.2)

/-- A WAIT is evaluated: the channel goes on, or is WAITING. -/
def State.dmaAwait (s : State) (c : Nat) (w : DmaWait) : State :=
  let r := s.dmaHolds c w
  let k := r.2.dch c
  if r.1 then r.2.setDch c { k.advance with st := .running, wait := none }
  else r.2.setDch c { k with st := .waiting, wait := some w }

/-- DMA_WAIT. -/
def dmaWait (c : Nat) (ins : DmaBits) (s : State) : State :=
  s.dmaInstr c 3 ins (waitOk ins) (fun s =>
    let t := (((fieldOf ins 64 64 : Int) + (s.dch c).iter * signed 64 (fieldOf ins 128 64)) % 2 ^ 64).toNat
    let off := fieldOf ins 32 32
    if fieldOf ins 8 8 = 0 then s.dmaAwait c (.msc t)
    else if off % 4 ≠ 0 ∨ ¬s.spaceOk c 3 off 8 then s.dmaFault c 2
    else s.dmaAwait c (.reg off t))

def execDmaWait (c : Fin 32) (ins : DmaBits) (s : State) : Host.Outcome State Fault Refusal := .next (dmaWait c.val ins s)

/-- DMA_WAIT_SATISFIED: a WAITING channel evaluates its condition again. -/
def dmaWaitSatisfied (c : Nat) (s : State) : State :=
  let k := s.dch c
  match k.wait with
  | some w => if k.st = .waiting ∧ ¬k.aborting then s.dmaAwait c w else s
  | none => s

def execDmaWaitSatisfied (c : Fin 32) (s : State) : Host.Outcome State Fault Refusal := .next (dmaWaitSatisfied c.val s)

/-! ### SIGNAL and END (R372, R373, R375) -/

def signalOk (ins : DmaBits) : Bool :=
  fieldOf ins 8 8 == 0 && decide (fieldOf ins 16 16 < 256) && fieldOf ins 32 32 != 0 && fieldOf ins 64 192 == 0

/-- DMA_SIGNAL. -/
def dmaSignal (c : Nat) (ins : DmaBits) (s : State) : State :=
  s.dmaInstr c 4 ins (signalOk ins) (fun s =>
    let t := fieldOf ins 16 16
    let mask := word (fieldOf ins 32 32)
    if (s.task t).isNone then s.dmaNext c
    else if s.canPost t mask then (s.applyPost t mask).dmaNext c
    else ((s.setDch c { s.dch c with st := .waiting, held := true }).hold (.dma c) t mask).count Reg.DMA_SIG_STALLS 1)

def execDmaSignal (c : Fin 32) (ins : DmaBits) (s : State) : Host.Outcome State Fault Refusal := .next (dmaSignal c.val ins s)

/-- END: the handover, or one more read of the instruction after a doorbell, or the stop. -/
def State.dmaEndActs (s : State) (c : Nat) : State :=
  let k := s.dch c
  if k.shadowValid then
    s.setDch c { k with pc := k.shadow, nextPc := k.shadow, shadowValid := false, shadowLate := false, afterMove := false }
  else if k.dbPending then s.setDch c { k with dbPending := false }
  else s.dmaAtEnd c

/-- DMA_END. -/
def dmaEnd (c : Nat) (ins : DmaBits) (s : State) : State := s.dmaInstr c 0 ins true (fun s => s.dmaEndActs c)

def execDmaEnd (c : Fin 32) (ins : DmaBits) (s : State) : Host.Outcome State Fault Refusal := .next (dmaEnd c.val ins s)

/-! ### Stops and pauses (R379, R380) -/

/-- OP of the instruction at PC; `host`: its bytes in HOST space. -/
def State.dmaOpAt (s : State) (k : DmaChan) (host : List Byte) : Nat :=
  match k.space with
  | 0 => fieldAt host 0 1
  | 1 => leNat (memRead s.dram k.pc 1)
  | _ =>
    let d := s.desk (k.pc / 0x80000)
    if d.st = .lent then 0 else fieldOf (d.mget (k.pc % 0x80000 / 4)) 0 8

/-- DMA_STOP: the issued bursts of an aborted channel are complete. -/
def dmaStop (c : Nat) (x : StopInput) (s : State) : State :=
  let k := s.dch c
  if !k.aborting then s
  else if k.late && (s.dmaFetchFault c).isNone && s.dmaOpAt k x.hostData == 0 then
    (s.count Reg.DMA_ABORT_IGNORED 1).dmaStopped c
      { k with st := .idleAtEnd, status := 1, residue := 0, abortIgnored := true, shadowValid := false, dbPending := false } 0
  else
    let s1 := if k.st = .running then (s.moveOn c x.moved x.hostData).1 else s
    let k1 := s1.dch c
    let left := (k1.move.map DmaMove.left).getD 0
    let done := (k1.move.map DmaMove.done).getD 0
    s1.dmaStopped c
      { k1 with st := .idle, status := 2, residue := left, abortIgnored := false, shadowValid := false, dbPending := false } done

def execDmaStop (c : Fin 32) (x : StopInput) (s : State) : Host.Outcome State Fault Refusal := .next (watched (dmaStop c.val x) s)

/-- Bytes of the current MOVE that are written. -/
def DmaChan.written (k : DmaChan) : Nat := (k.move.map DmaMove.done).getD 0

/-- PAUSED is entered: the DMA_PAUSE commands complete. -/
def State.dmaPaused (s : State) (c : Nat) : State :=
  let k := s.dch c
  (s.setDch c { k with st := .paused, pausing := false, pauseCmds := [] }).completeMany k.pauseCmds stOk (k.written % 2 ^ 32)

/-- DMA_PAUSE_EFFECT. -/
def dmaPauseEffect (c : Nat) (x : StopInput) (s : State) : State :=
  let k := s.dch c
  if k.pausing && !k.aborting && k.st == .running then
    let r := s.moveOn c x.moved x.hostData
    match r.2 with
    | some i => (r.1.moveError c i).dmaFault c 5
    | none => r.1.dmaPaused c
  else s

def execDmaPauseEffect (c : Fin 32) (x : StopInput) (s : State) : Host.Outcome State Fault Refusal :=
  .next (watched (dmaPauseEffect c.val x) s)

/-! ### Commands (R381, R382) -/

/-- DMA_START. -/
def dmaStart (e : Submission) (c : CmdRef) (s : State) : State :=
  let ch := sub e 16 1
  let fl := sub e 17 1
  let space := sub e 18 1
  let addr := sub e 24 8
  let bad := decide (32 ≤ ch) || (decide (28 ≤ ch) && e.queue != 0) || !lateFlag fl || decide (2 < space) || !subZero e 19 5 ||
    addr % 32 != 0 || !subZero e 32 32
  if bad then s.complete c stBadParam 0
  else if s.pwr.mode = .standby then s.complete c stModeRefused 0
  else if e.present = 0 then s.dmaStartNow c false ch addr space
  else if !s.valid then s.complete c stModeRefused 0
  else
    let b := upTo 16 (s.mscOf e.present)
    if s.msc < s.mscOf e.present then s.addTimed c b false (.dmaStart ch (BitVec.ofNat 64 addr) space)
    else if fl = 2 then s.dmaStartNow c true ch addr space
    else s.complete c stLate 0

def execDmaStart (e : Submission) (s : State) : Host.Outcome State Fault Refusal := .next (hostCommand 0x58 e (dmaStart e) s)

/-- The parameters of the three commands that name a channel alone; the privileged channels take queue 0 alone. -/
def chanBad (e : Submission) : Bool :=
  decide (32 ≤ sub e 16 1) || (decide (28 ≤ sub e 16 1) && e.queue != 0) || !subZero e 17 47 || e.present != 0

/-- DMA_ABORT. -/
def dmaAbort (e : Submission) (c : CmdRef) (s : State) : State :=
  let ch := sub e 16 1
  let k := s.dch ch
  if chanBad e then s.complete c stBadParam 0
  else if !k.live then s.complete c stOk (k.residue + 2 ^ 32 * b2n k.abortIgnored + 2 ^ 33)
  else (s.setDch ch { k with abortCmds := k.abortCmds ++ [c] }).dmaAbortSample ch

def execDmaAbort (e : Submission) (s : State) : Host.Outcome State Fault Refusal := .next (hostCommand 0x59 e (dmaAbort e) s)

/-- DMA_PAUSE: a WAIT pauses at once; a held SIGNAL and a MOVE first end. -/
def dmaPause (e : Submission) (c : CmdRef) (s : State) : State :=
  let ch := sub e 16 1
  let k := s.dch ch
  if chanBad e || decide (ch < 28) || !k.live then s.complete c stBadParam 0
  else
    let s1 := s.setDch ch { k with pauseCmds := k.pauseCmds ++ [c], pausing := true }
    if !k.aborting && (k.st == .paused || (k.st == .waiting && !k.held)) then s1.dmaPaused ch else s1

def execDmaPause (e : Submission) (s : State) : Host.Outcome State Fault Refusal := .next (hostCommand 0x5A e (dmaPause e) s)

/-- DMA_RESUME: a WAIT re-evaluates its condition. -/
def dmaResume (e : Submission) (c : CmdRef) (s : State) : State :=
  let ch := sub e 16 1
  let k := s.dch ch
  if chanBad e || decide (ch < 28) || k.st != .paused then s.complete c stBadParam 0
  else
    let s1 := match k.wait with
      | some w => s.dmaAwait ch w
      | none => s.setDch ch { k with st := .running }
    s1.complete c stOk 0

def execDmaResume (e : Submission) (s : State) : Host.Outcome State Fault Refusal := .next (hostCommand 0x5B e (dmaResume e) s)

end Sys2Proof.Machine
end

