-- ==== Sys2Proof/Machine/Dispatch.lean ====
section
/-!
DEFINITION. What each command does: one arm for each row of spec/opcode_table.json, each a direct call of
the command's meaning.
-/
namespace Sys2Proof.Machine

/-- A command's effect on everything but the queue of commands. -/
def exec (i : Instr) (s : State) : Host.Outcome State Fault Refusal :=
  match i with
  | .nop e => Sys2Proof.Machine.execNop e s
  | .versionSet e => Sys2Proof.Machine.execVersionSet e s
  | .modeSet e => Sys2Proof.Machine.execModeSet e s
  | .shelfSwitch e => Sys2Proof.Machine.execShelfSwitch e s
  | .shelfLoad e => Sys2Proof.Machine.execShelfLoad e s
  | .shelfVerify e => Sys2Proof.Machine.execShelfVerify e s
  | .epochOpen e => Sys2Proof.Machine.execEpochOpen e s
  | .epochCommit e => Sys2Proof.Machine.execEpochCommit e s
  | .epochCancel e => Sys2Proof.Machine.execEpochCancel e s
  | .bellSet e => Sys2Proof.Machine.execBellSet e s
  | .bellCancel e => Sys2Proof.Machine.execBellCancel e s
  | .objConfig e => Sys2Proof.Machine.execObjConfig e s
  | .objPosition e => Sys2Proof.Machine.execObjPosition e s
  | .objGain e => Sys2Proof.Machine.execObjGain e s
  | .objEq e => Sys2Proof.Machine.execObjEq e s
  | .airSet e => Sys2Proof.Machine.execAirSet e s
  | .matrixSet e => Sys2Proof.Machine.execMatrixSet e s
  | .feedConfig e => Sys2Proof.Machine.execFeedConfig e s
  | .firLoad e => Sys2Proof.Machine.execFirLoad e s
  | .limiterSet e => Sys2Proof.Machine.execLimiterSet e s
  | .corridorSet e => Sys2Proof.Machine.execCorridorSet e s
  | .flowAdd e => Sys2Proof.Machine.execFlowAdd e s
  | .flowRemove e => Sys2Proof.Machine.execFlowRemove e s
  | .chainConfig e => Sys2Proof.Machine.execChainConfig e s
  | .taskCreate e => Sys2Proof.Machine.execTaskCreate e s
  | .taskSignal e => Sys2Proof.Machine.execTaskSignal e s
  | .taskCancel e => Sys2Proof.Machine.execTaskCancel e s
  | .dmaStart e => Sys2Proof.Machine.execDmaStart e s
  | .dmaAbort e => Sys2Proof.Machine.execDmaAbort e s
  | .dmaPause e => Sys2Proof.Machine.execDmaPause e s
  | .dmaResume e => Sys2Proof.Machine.execDmaResume e s
  | .captureStart e => Sys2Proof.Machine.execCaptureStart e s
  | .captureStop e => Sys2Proof.Machine.execCaptureStop e s
  | .replaySet e => Sys2Proof.Machine.execReplaySet e s
  | .ledgerSnapshot e => Sys2Proof.Machine.execLedgerSnapshot e s
  | .statsSnapshot e => Sys2Proof.Machine.execStatsSnapshot e s
  | .creditAudit e => Sys2Proof.Machine.execCreditAudit e s
  | .sdacWrite e => Sys2Proof.Machine.execSdacWrite e s
  | .sdacStrobe e => Sys2Proof.Machine.execSdacStrobe e s
  | .watchdogKick e => Sys2Proof.Machine.execWatchdogKick e s
  | .samplePeriodStart x => Sys2Proof.Machine.execSamplePeriodStart x s
  | .blockBoundary x => Sys2Proof.Machine.execBlockBoundary x s
  | .epochExpire id => Sys2Proof.Machine.execEpochExpire id s
  | .epochMemberStaged id member => Sys2Proof.Machine.execEpochMemberStaged id member s
  | .epochSplit id => Sys2Proof.Machine.execEpochSplit id s
  | .bellRing stream id => Sys2Proof.Machine.execBellRing stream id s
  | .geometryEvaluationDeadline x => Sys2Proof.Machine.execGeometryEvaluationDeadline x s
  | .pruneHoldEnd locker set speaker => Sys2Proof.Machine.execPruneHoldEnd locker set speaker s
  | .probeCapture => Sys2Proof.Machine.execProbeCapture s
  | .jumpCrossfadeEnd locker => Sys2Proof.Machine.execJumpCrossfadeEnd locker s
  | .xfadeDone => Sys2Proof.Machine.execXfadeDone s
  | .lockerDisable locker => Sys2Proof.Machine.execLockerDisable locker s
  | .firCrossfadeEnd feed => Sys2Proof.Machine.execFirCrossfadeEnd feed s
  | .alignFadeOutEnd feed => Sys2Proof.Machine.execAlignFadeOutEnd feed s
  | .pilotWindowEnd feed => Sys2Proof.Machine.execPilotWindowEnd feed s
  | .inboxWritten task => Sys2Proof.Machine.execInboxWritten task s
  | .taskDispatch desk => Sys2Proof.Machine.execTaskDispatch desk s
  | .taskCutoff task => Sys2Proof.Machine.execTaskCutoff task s
  | .runaway desk => Sys2Proof.Machine.execRunaway desk s
  | .heldPostApply => Sys2Proof.Machine.execHeldPostApply s
  | .taskRemoval task => Sys2Proof.Machine.execTaskRemoval task s
  | .captureFrameWritten dramError => Sys2Proof.Machine.execCaptureFrameWritten dramError s
  | .originStepApply => Sys2Proof.Machine.execOriginStepApply s
  | .slewEnd => Sys2Proof.Machine.execSlewEnd s
  | .mediaChangeover => Sys2Proof.Machine.execMediaChangeover s
  | .revertTimeout => Sys2Proof.Machine.execRevertTimeout s
  | .mscValidate => Sys2Proof.Machine.execMscValidate s
  | .mscInvalidate => Sys2Proof.Machine.execMscInvalidate s
  | .ptpSync tb m => Sys2Proof.Machine.execPtpSync tb m s
  | .ptpFollowUp tb m => Sys2Proof.Machine.execPtpFollowUp tb m s
  | .ptpDelayReq tb m => Sys2Proof.Machine.execPtpDelayReq tb m s
  | .ptpDelayResp tb m => Sys2Proof.Machine.execPtpDelayResp tb m s
  | .ptpAnnounce tb m => Sys2Proof.Machine.execPtpAnnounce tb m s
  | .ptpUnsupportedMessage port => Sys2Proof.Machine.execPtpUnsupportedMessage port s
  | .announceReceiptTimeout tb => Sys2Proof.Machine.execAnnounceReceiptTimeout tb s
  | .ptpSyncDue tb => Sys2Proof.Machine.execPtpSyncDue tb s
  | .ptpDelayReqDue tb => Sys2Proof.Machine.execPtpDelayReqDue tb s
  | .ptpAnnounceDue tb => Sys2Proof.Machine.execPtpAnnounceDue tb s
  | .ptpEventTransmitted port at_ => Sys2Proof.Machine.execPtpEventTransmitted port at_ s
  | .timeBaseLocked tb => Sys2Proof.Machine.execTimeBaseLocked tb s
  | .timeBaseUnlock tb => Sys2Proof.Machine.execTimeBaseUnlock tb s
  | .sourceLost tb => Sys2Proof.Machine.execSourceLost tb s
  | .ppsInPulse => Sys2Proof.Machine.execPpsInPulse s
  | .wclkMeasurement offsetNs => Sys2Proof.Machine.execWclkMeasurement offsetNs s
  | .holdoverExpiry => Sys2Proof.Machine.execHoldoverExpiry s
  | .xtalFault => Sys2Proof.Machine.execXtalFault s
  | .xtalReturn => Sys2Proof.Machine.execXtalReturn s
  | .atticTimeReload => Sys2Proof.Machine.execAtticTimeReload s
  | .atticClkPresent => Sys2Proof.Machine.execAtticClkPresent s
  | .atticClkAbsent => Sys2Proof.Machine.execAtticClkAbsent s
  | .tmbSnapGo => Sys2Proof.Machine.execTmbSnapGo s
  | .forceSecondary => Sys2Proof.Machine.execForceSecondary s
  | .forcePrimary => Sys2Proof.Machine.execForcePrimary s
  | .tmbMediaCfgWrite v => Sys2Proof.Machine.execTmbMediaCfgWrite v s
  | .tmbOriginWrite v => Sys2Proof.Machine.execTmbOriginWrite v s
  | .tmbTbCfgWrite tb v => Sys2Proof.Machine.execTmbTbCfgWrite tb v s
  | .tmbSetSecWrite tb hi => Sys2Proof.Machine.execTmbSetSecWrite tb hi s
  | .tmbHoldoverLimitWrite v => Sys2Proof.Machine.execTmbHoldoverLimitWrite v s
  | .flashSlotExamined slot image => Sys2Proof.Machine.execFlashSlotExamined slot image s
  | .shelfLoadCopyEnd slot x => Sys2Proof.Machine.execShelfLoadCopyEnd slot x s
  | .shelfVerifyEnd slot x => Sys2Proof.Machine.execShelfVerifyEnd slot x s
  | .overrideNChange => Sys2Proof.Machine.execOverrideNChange s
  | .muteNChange => Sys2Proof.Machine.execMuteNChange s
  | .forceOvrWrite on => Sys2Proof.Machine.execForceOvrWrite on s
  | .forceMuteWrite on => Sys2Proof.Machine.execForceMuteWrite on s
  | .sdacLoadNFall => Sys2Proof.Machine.execSdacLoadNFall s
  | .sdacRangeClampEnd ch => Sys2Proof.Machine.execSdacRangeClampEnd ch s
  | .sdacCurrentLimit ch => Sys2Proof.Machine.execSdacCurrentLimit ch s
  | .dNop desk w => Sys2Proof.Machine.execDNop desk w s
  | .dRetire desk w => Sys2Proof.Machine.execDRetire desk w s
  | .dBr desk w => Sys2Proof.Machine.execDBr desk w s
  | .dCall desk w => Sys2Proof.Machine.execDCall desk w s
  | .dRet desk w => Sys2Proof.Machine.execDRet desk w s
  | .dLoop desk w => Sys2Proof.Machine.execDLoop desk w s
  | .dRepeat desk w => Sys2Proof.Machine.execDRepeat desk w s
  | .dTrap desk w => Sys2Proof.Machine.execDTrap desk w s
  | .dSignal desk w => Sys2Proof.Machine.execDSignal desk w s
  | .dLi desk w => Sys2Proof.Machine.execDLi desk w s
  | .dAdd desk w => Sys2Proof.Machine.execDAdd desk w s
  | .dSub desk w => Sys2Proof.Machine.execDSub desk w s
  | .dAnd desk w => Sys2Proof.Machine.execDAnd desk w s
  | .dOr desk w => Sys2Proof.Machine.execDOr desk w s
  | .dXor desk w => Sys2Proof.Machine.execDXor desk w s
  | .dShl desk w => Sys2Proof.Machine.execDShl desk w s
  | .dShr desk w => Sys2Proof.Machine.execDShr desk w s
  | .dSar desk w => Sys2Proof.Machine.execDSar desk w s
  | .dMul desk w => Sys2Proof.Machine.execDMul desk w s
  | .dLds desk w => Sys2Proof.Machine.execDLds desk w s
  | .dSts desk w => Sys2Proof.Machine.execDSts desk w s
  | .dSetp desk w => Sys2Proof.Machine.execDSetp desk w s
  | .dSetm desk w => Sys2Proof.Machine.execDSetm desk w s
  | .dGetp desk w => Sys2Proof.Machine.execDGetp desk w s
  | .dVld desk w => Sys2Proof.Machine.execDVld desk w s
  | .dVst desk w => Sys2Proof.Machine.execDVst desk w s
  | .dVldb desk w => Sys2Proof.Machine.execDVldb desk w s
  | .dVins desk w => Sys2Proof.Machine.execDVins desk w s
  | .dVext desk w => Sys2Proof.Machine.execDVext desk w s
  | .dVadd desk w => Sys2Proof.Machine.execDVadd desk w s
  | .dVsub desk w => Sys2Proof.Machine.execDVsub desk w s
  | .dVmin desk w => Sys2Proof.Machine.execDVmin desk w s
  | .dVmax desk w => Sys2Proof.Machine.execDVmax desk w s
  | .dVabs desk w => Sys2Proof.Machine.execDVabs desk w s
  | .dVneg desk w => Sys2Proof.Machine.execDVneg desk w s
  | .dVmul desk w => Sys2Proof.Machine.execDVmul desk w s
  | .dVshl desk w => Sys2Proof.Machine.execDVshl desk w s
  | .dVsar desk w => Sys2Proof.Machine.execDVsar desk w s
  | .dVclr desk w => Sys2Proof.Machine.execDVclr desk w s
  | .dVmac desk w => Sys2Proof.Machine.execDVmac desk w s
  | .dVmsu desk w => Sys2Proof.Machine.execDVmsu desk w s
  | .dVmacm desk w => Sys2Proof.Machine.execDVmacm desk w s
  | .dFtap desk w => Sys2Proof.Machine.execDFtap desk w s
  | .dVsta desk w => Sys2Proof.Machine.execDVsta desk w s
  | .dBexp desk w => Sys2Proof.Machine.execDBexp desk w s
  | .dBfly desk w => Sys2Proof.Machine.execDBfly desk w s
  | .dXfer desk w => Sys2Proof.Machine.execDXfer desk w s
  | .dXwait desk w => Sys2Proof.Machine.execDXwait desk w s
  | .xferComplete desk badWords => Sys2Proof.Machine.execXferComplete desk badWords s
  | .deskHalt desk => Sys2Proof.Machine.execDeskHalt desk s
  | .deskRun desk => Sys2Proof.Machine.execDeskRun desk s
  | .deskStep desk => Sys2Proof.Machine.execDeskStep desk s
  | .deskClear desk => Sys2Proof.Machine.execDeskClear desk s
  | .deskEnableWrite desk v => Sys2Proof.Machine.execDeskEnableWrite desk v s
  | .deskDbgDataWrite desk v => Sys2Proof.Machine.execDeskDbgDataWrite desk v s
  | .deskPcWrite desk v => Sys2Proof.Machine.execDeskPcWrite desk v s
  | .dmaMove c ins => Sys2Proof.Machine.execDmaMove c ins s
  | .dmaMoveComplete c x => Sys2Proof.Machine.execDmaMoveComplete c x s
  | .dmaLoop c ins => Sys2Proof.Machine.execDmaLoop c ins s
  | .dmaWait c ins => Sys2Proof.Machine.execDmaWait c ins s
  | .dmaWaitSatisfied c => Sys2Proof.Machine.execDmaWaitSatisfied c s
  | .dmaSignal c ins => Sys2Proof.Machine.execDmaSignal c ins s
  | .dmaJump c ins => Sys2Proof.Machine.execDmaJump c ins s
  | .dmaEnd c ins => Sys2Proof.Machine.execDmaEnd c ins s
  | .dmaDoorbell c => Sys2Proof.Machine.execDmaDoorbell c s
  | .dmaCtlAbort c => Sys2Proof.Machine.execDmaCtlAbort c s
  | .dmaStop c x => Sys2Proof.Machine.execDmaStop c x s
  | .dmaPauseEffect c x => Sys2Proof.Machine.execDmaPauseEffect c x s
  | .dmaNextPcWrite c m hi sameCycle => Sys2Proof.Machine.execDmaNextPcWrite c m hi sameCycle s
  | .dmaModeWrite v => Sys2Proof.Machine.execDmaModeWrite v s
  | .sqTailWrite q v => Sys2Proof.Machine.execSqTailWrite q v s
  | .cqHeadWrite q v => Sys2Proof.Machine.execCqHeadWrite q v s
  | .queueEnable q v => Sys2Proof.Machine.execQueueEnable q v s
  | .queueDisable q v => Sys2Proof.Machine.execQueueDisable q v s
  | .queueDrainEnd q => Sys2Proof.Machine.execQueueDrainEnd q s
  | .entryFetch q entries => Sys2Proof.Machine.execEntryFetch q entries s
  | .completionWrite q linkOk => Sys2Proof.Machine.execCompletionWrite q linkOk s
  | .eventRecordWrite linkOk => Sys2Proof.Machine.execEventRecordWrite linkOk s
  | .irqTimerExpiry q => Sys2Proof.Machine.execIrqTimerExpiry q s
  | .msixUnmask v => Sys2Proof.Machine.execMsixUnmask v s
  | .irqTestWrite v => Sys2Proof.Machine.execIrqTestWrite v s
  | .watchdogExpiry => Sys2Proof.Machine.execWatchdogExpiry s
  | .wdogCfgWrite v => Sys2Proof.Machine.execWdogCfgWrite v s
  | .pcieLinkLoss => Sys2Proof.Machine.execPcieLinkLoss s
  | .pcieLinkReturn => Sys2Proof.Machine.execPcieLinkReturn s
  | .badAccess isRead => Sys2Proof.Machine.execBadAccess isRead s
  | .sysLedgerSelWrite v => Sys2Proof.Machine.execSysLedgerSelWrite v s
  | .objLkSelWrite v => Sys2Proof.Machine.execObjLkSelWrite v s
  | .geoLkSelWrite v => Sys2Proof.Machine.execGeoLkSelWrite v s
  | .pthLkSelWrite v => Sys2Proof.Machine.execPthLkSelWrite v s
  | .pthProbeSelWrite v => Sys2Proof.Machine.execPthProbeSelWrite v s
  | .spkFdSelWrite v => Sys2Proof.Machine.execSpkFdSelWrite v s
  | .netFlSelWrite v => Sys2Proof.Machine.execNetFlSelWrite v s
  | .dskTaskSelWrite v => Sys2Proof.Machine.execDskTaskSelWrite v s
  | .w1cWrite off v sameCycle => Sys2Proof.Machine.execW1cWrite off v sameCycle s
  | .eventEnableWrite off v => Sys2Proof.Machine.execEventEnableWrite off v s
  | .lowWordRead m off => Sys2Proof.Machine.execLowWordRead m off s
  | .lowWordWrite m off v => Sys2Proof.Machine.execLowWordWrite m off v s
  | .highWordWrite m off v => Sys2Proof.Machine.execHighWordWrite m off v s
  | .clearOnRead off => Sys2Proof.Machine.execClearOnRead off s
  | .registerWrite m off v => Sys2Proof.Machine.execRegisterWrite m off v s
  | .sapGroupCfgWrite g v => Sys2Proof.Machine.execSapGroupCfgWrite g v s
  | .sapPortCfgWrite p v => Sys2Proof.Machine.execSapPortCfgWrite p v s
  | .sapEnableAct isPort idx => Sys2Proof.Machine.execSapEnableAct isPort idx s
  | .sapMaskctlWrite p v => Sys2Proof.Machine.execSapMaskctlWrite p v s
  | .maskPairApply p => Sys2Proof.Machine.execMaskPairApply p s
  | .bclkLoss g => Sys2Proof.Machine.execBclkLoss g s
  | .bclkReturn g => Sys2Proof.Machine.execBclkReturn g s
  | .groupLock g => Sys2Proof.Machine.execGroupLock g s
  | .rateStep g => Sys2Proof.Machine.execRateStep g s
  | .fsyncMissing g words => Sys2Proof.Machine.execFsyncMissing g words s
  | .fsyncGlitch g => Sys2Proof.Machine.execFsyncGlitch g s
  | .netLinkChange port link => Sys2Proof.Machine.execNetLinkChange port link s
  | .autoSpeedTimeout port => Sys2Proof.Machine.execAutoSpeedTimeout port s
  | .rtpPacket port p => Sys2Proof.Machine.execRtpPacket port p s
  | .rtpPacketSend flow => Sys2Proof.Machine.execRtpPacketSend flow s
  | .arpRequest port target sender => Sys2Proof.Machine.execArpRequest port target sender s
  | .icmpEcho port dest sender payload => Sys2Proof.Machine.execIcmpEcho port dest sender payload s
  | .igmpQuery port v2 => Sys2Proof.Machine.execIgmpQuery port v2 s
  | .unsupportedPacket port => Sys2Proof.Machine.execUnsupportedPacket port s
  | .trosynData port bytes => Sys2Proof.Machine.execTrosynData port bytes s
  | .trosynHelloDue => Sys2Proof.Machine.execTrosynHelloDue s
  | .trosynSeqTimeout => Sys2Proof.Machine.execTrosynSeqTimeout s
  | .netTrsCfgWrite off v => Sys2Proof.Machine.execNetTrsCfgWrite off v s
  | .moduleI2cGo mod_ v => Sys2Proof.Machine.execModuleI2cGo mod_ v s
  | .moduleI2cDone mod_ data nack => Sys2Proof.Machine.execModuleI2cDone mod_ data nack s
  | .ntkBlockLockLoss n => Sys2Proof.Machine.execNtkBlockLockLoss n s
  | .ntkTrainingDone n => Sys2Proof.Machine.execNtkTrainingDone n s
  | .ntkVersionAgreed n verMin verMax total => Sys2Proof.Machine.execNtkVersionAgreed n verMin verMax total s
  | .objectCell n cell => Sys2Proof.Machine.execObjectCell n cell s
  | .sumCell n cell => Sys2Proof.Machine.execSumCell n cell s
  | .ntkBlock n msc chainState position => Sys2Proof.Machine.execNtkBlock n msc chainState position s
  | .ntkTime n t origin rate => Sys2Proof.Machine.execNtkTime n t origin rate s
  | .ntkCredit n count total => Sys2Proof.Machine.execNtkCredit n count total s
  | .rollCall n recs => Sys2Proof.Machine.execRollCall n recs s
  | .rollReply n recs hops => Sys2Proof.Machine.execRollReply n recs hops s
  | .epochReport n id position st => Sys2Proof.Machine.execEpochReport n id position st s
  | .epochDecision n id m outcome => Sys2Proof.Machine.execEpochDecision n id m outcome s
  | .ntkStep n k boundary => Sys2Proof.Machine.execNtkStep n k boundary s
  | .ntkAudit n boundary received free => Sys2Proof.Machine.execNtkAudit n boundary received free s
  | .ntkJoin n rec place hops => Sys2Proof.Machine.execNtkJoin n rec place hops s
  | .ntkLeave n position reason => Sys2Proof.Machine.execNtkLeave n position reason s
  | .linkDelay n probe echo received => Sys2Proof.Machine.execLinkDelay n probe echo received s
  | .chainSourceLost => Sys2Proof.Machine.execChainSourceLost s
  | .chainReturn => Sys2Proof.Machine.execChainReturn s
  | .memberRemoval position => Sys2Proof.Machine.execMemberRemoval position s
  | .refreshInterval sub issued catchUp => Sys2Proof.Machine.execRefreshInterval sub issued catchUp s
  | .mr4Read ch doubled => Sys2Proof.Machine.execMr4Read ch doubled s
  | .refreshRateReturn ch => Sys2Proof.Machine.execRefreshRateReturn ch s
  | .activationWindowReset => Sys2Proof.Machine.execActivationWindowReset s
  | .neighbourRefresh sub bank row => Sys2Proof.Machine.execNeighbourRefresh sub bank row s
  | .retrainDue ch => Sys2Proof.Machine.execRetrainDue ch s
  | .retrainSlice ch ns => Sys2Proof.Machine.execRetrainSlice ch ns s
  | .retrainEnd ch found => Sys2Proof.Machine.execRetrainEnd ch found s
  | .retrainRetry ch => Sys2Proof.Machine.execRetrainRetry ch s
  | .alertNPulse sub during recent => Sys2Proof.Machine.execAlertNPulse sub during recent s
  | .dramScrub addr outcome => Sys2Proof.Machine.execDramScrub addr outcome s
  | .sramScrub errors => Sys2Proof.Machine.execSramScrub errors s
  | .modeChange => Sys2Proof.Machine.execModeChange s
  | .standbyEntry => Sys2Proof.Machine.execStandbyEntry s
  | .standbyExit => Sys2Proof.Machine.execStandbyExit s
  | .dormantEntry => Sys2Proof.Machine.execDormantEntry s
  | .fallbackEntry => Sys2Proof.Machine.execFallbackEntry s
  | .temperatureMeasure t => Sys2Proof.Machine.execTemperatureMeasure t s
  | .thermalStep step => Sys2Proof.Machine.execThermalStep step s
  | .thermalEmergency => Sys2Proof.Machine.execThermalEmergency s
  | .comparatorFire k => Sys2Proof.Machine.execComparatorFire k s
  | .wake src => Sys2Proof.Machine.execWake src s
  | .atticSelfBoot straps => Sys2Proof.Machine.execAtticSelfBoot straps s
  | .vddAtticRise => Sys2Proof.Machine.execVddAtticRise s
  | .mainRailDrop => Sys2Proof.Machine.execMainRailDrop s
  | .mainRailReturn => Sys2Proof.Machine.execMainRailReturn s
  | .resetNAssert => Sys2Proof.Machine.execResetNAssert s
  | .resetRelease straps => Sys2Proof.Machine.execResetRelease straps s
  | .softReset key soft => Sys2Proof.Machine.execSoftReset key soft s
  | .bootStageEnd x => Sys2Proof.Machine.execBootStageEnd x s
  | .autoStart => Sys2Proof.Machine.execAutoStart s
  | .hostWaitExpiry => Sys2Proof.Machine.execHostWaitExpiry s
  | .fuseBurnKeyHash key => Sys2Proof.Machine.execFuseBurnKeyHash key s
  | .fuseRollbackAdvance key => Sys2Proof.Machine.execFuseRollbackAdvance key s
  | .fuseBurnEnd ok => Sys2Proof.Machine.execFuseBurnEnd ok s
  | .smbusReadId => Sys2Proof.Machine.execSmbusReadId s
  | .smbusReadStatus => Sys2Proof.Machine.execSmbusReadStatus s
  | .smbusReadTemperature => Sys2Proof.Machine.execSmbusReadTemperature s
  | .smbusReadWakeCause => Sys2Proof.Machine.execSmbusReadWakeCause s
  | .smbusReadBoot => Sys2Proof.Machine.execSmbusReadBoot s
  | .smbusWrite code => Sys2Proof.Machine.execSmbusWrite code s
  | .smbusUnknownRead code => Sys2Proof.Machine.execSmbusUnknownRead code s
  | .alertResponse changed => Sys2Proof.Machine.execAlertResponse changed s
  | .jtagBypass tdi => Sys2Proof.Machine.execJtagBypass tdi s
  | .jtagIdcode => Sys2Proof.Machine.execJtagIdcode s
  | .jtagSamplePreload pins load => Sys2Proof.Machine.execJtagSamplePreload pins load s
  | .jtagExtest pins load => Sys2Proof.Machine.execJtagExtest pins load s
  | .jtagHighz => Sys2Proof.Machine.execJtagHighz s
  | .jtagClamp => Sys2Proof.Machine.execJtagClamp s
  | .jtagTrst low => Sys2Proof.Machine.execJtagTrst low s
  | .modulePresenceChange mod_ present => Sys2Proof.Machine.execModulePresenceChange mod_ present s
  | .busMasterEnableChange on => Sys2Proof.Machine.execBusMasterEnableChange on s
  | .frameStartEdge g words => Sys2Proof.Machine.execFrameStartEdge g words s
  | .wholeSecond tb => Sys2Proof.Machine.execWholeSecond tb s
  | .ppsWidthEnd => Sys2Proof.Machine.execPpsWidthEnd s
  | .vddAtticDrop => Sys2Proof.Machine.execVddAtticDrop s
  | .sdacCurrentLimitEnd ch => Sys2Proof.Machine.execSdacCurrentLimitEnd ch s
  | .vddIo33Loss => Sys2Proof.Machine.execVddIo33Loss s
  | .vddIo33Return => Sys2Proof.Machine.execVddIo33Return s

end Sys2Proof.Machine
end

