-- ==== Sys2Proof/Safety.lean ====
section
/-!
DEFINITION. What counts as a safe run: a step that neither faults nor is refused, and the invariants of
the block that the spec states over every boundary (R30, R42, R273).
-/
namespace Sys2Proof.Machine

/-- The step goes on. -/
def State.goesOn (s : State) : Prop := ∃ t, step s = .next t

/-- R30 of one ledger. -/
def Ledger.balanced (l : Ledger) : Prop := l.acc + l.syn = l.del + l.dis + l.inf

/-- R30 of every ledger. -/
def State.ledgersBalance (s : State) : Prop := ∀ p ∈ s.led.tab, p.2.balanced

/-- The three memories are in canonical form: what the renderer wrote to host memory, DRAM, the on-chip fallback table. -/
def State.memoriesWf (s : State) : Prop :=
  Memory.wf s.host.mem = true ∧ Memory.wf s.dram = true ∧ Memory.wf s.memory.fallback = true

/-- What every step keeps. -/
def State.sound (s : State) : Prop := s.memoriesWf ∧ s.ledgersBalance

/-! ### Terms of the claims -/

/-- A host command has its turn in `s` (R346, R347, R350): it is the oldest entry fetched or may be fetched now, no FENCE holds it
back, and the five ordered checks pass. -/
def State.ready (s : State) (op : Byte) (e : Submission) : Bool :=
  match s.admitEntry op e with
  | some (c, s1) => !s1.fenced e.queue.val e.flags c.order && (s1.entryCheck c e.flags e.epoch).isNone
  | none => false

/-- The command as its completion will name it, once the renderer takes it in `s`. -/
def State.refOf (s : State) (op : Byte) (e : Submission) : CmdRef :=
  match s.admitEntry op e with
  | some (c, _) => c
  | none => default

/-- `s` once the renderer has taken the command: its entry has left its queue, and it is outstanding. -/
def State.taken (s : State) (op : Byte) (e : Submission) : State :=
  match s.admitEntry op e with
  | some (_, s1) => s1
  | none => s

/-- In every state in which the host command `i` has its turn and `hyp` holds, it answers a next state: `eff` of the state once it is
taken, after which entries of its queue with an unknown opcode complete as their turn comes (R350). -/
def Acts (i : Instr) (op : Byte) (e : Submission) (hyp : CmdRef → State → Prop) (eff : CmdRef → State → State) : Prop :=
  ∀ s, s.ready op e = true → hyp (s.refOf op e) s → exec i s = .next ((eff (s.refOf op e) (s.taken op e)).settle e.queue.val)

/-- Whenever `hyp` holds, `i` answers a next state, and `p` holds of the states before and after. -/
def Leads (i : Instr) (hyp : State → Prop) (p : State → State → Prop) : Prop :=
  ∀ s, hyp s → ∃ t, exec i s = .next t ∧ p s t

/-- Whenever `hyp` holds, `i` answers the next state that `eff` gives. -/
def Moves (i : Instr) (hyp : State → Prop) (eff : State → State) : Prop := ∀ s, hyp s → exec i s = .next (eff s)

/-- Desk `d` takes an instruction word now (R242, R257): it is RUNNING and does not wait, no breakpoint is in its way, its words
are readable and hold a known OP, the fields that the row does not use are 0, no XFER runs and no REPEAT holds. -/
def State.deskTakes (s : State) (d : Nat) (r : DeskRow) (w : DeskBits) : Prop :=
  (s.desk d).st = .running ∧ (s.desk d).sigWait = false ∧ (s.brkHit d (s.desk d).pc = false ∨ (s.desk d).passBrk = true) ∧
  ([2 * (s.desk d).pc, 2 * (s.desk d).pc + 1].any (s.desk d).bad.contains) = false ∧
  strayBits (if fI w then r.used1 else r.used0) w = false ∧
  (s.desk d).xfer = none ∧ (s.desk d).xferWait = false ∧ (s.desk d).rep = none ∧
  (deskRow ((s.desk d).fetchAt (s.desk d).pc).1).isSome = true

/-- The run on desk `d`, if any, has had fewer cycles than DSK_Dn_RUN_LIMIT; 0 is no limit (R256). -/
def State.underLimit (s : State) (d : Nat) : Bool :=
  let n := (s.reg (dskReg Reg.DSK_Dn_RUN_LIMIT d)).toNat
  (s.desk d).task.isNone || n == 0 || decide ((s.desk d).cycles < n)

/-- The desk `k1` that an instruction computes from `k`, with the instruction's cycles, interlock included, counted (R243, R245). -/
def Desk.after (k : Desk) (op : Nat) (r : DeskRow) (w : DeskBits) (k1 : Desk) (extra : Nat) : Desk :=
  { k1.issued op (r.cycles + interlock op r w k + extra) w with passBrk := false, rep := none }

/-- Whenever a desk takes the instruction, `hyp` holds, the next instruction exists and the run stays under its limit, the
instruction answers a next state that differs in the desk, which is as `f` computes it from the desk before and stands at the next instruction, and in the
lanes that saturated, which `f` counts. -/
def Computes (mk : Fin 16 → DeskBits → Instr) (op : Nat) (hyp : DeskBits → Desk → Prop) (f : DeskBits → Desk → Desk × Nat) : Prop :=
  ∀ (d : Fin 16) (w : DeskBits) (s : State) (r : DeskRow) (k2 : Desk), deskRow op = some r → s.deskTakes d.val r w →
    hyp w (s.desk d.val) → ((s.desk d.val).after op r w (f w (s.desk d.val)).1 0).advance = some k2 →
    ((s.count (dskReg Reg.DSK_Dn_SAT d.val) (f w (s.desk d.val)).2).setDesk d.val k2).underLimit d.val = true →
    exec (mk d w) s = .next ((s.count (dskReg Reg.DSK_Dn_SAT d.val) (f w (s.desk d.val)).2).setDesk d.val k2)

/-- Whenever a desk takes the instruction, `hyp` holds and the run stays under its limit, the instruction answers the next state
`eff`, given the desk's number, the word and the cycles that it takes. -/
def Steers (mk : Fin 16 → DeskBits → Instr) (op : Nat) (hyp : Nat → DeskBits → State → Prop)
    (eff : Nat → DeskBits → DeskRow → State → State) : Prop :=
  ∀ (d : Fin 16) (w : DeskBits) (s : State) (r : DeskRow), deskRow op = some r → s.deskTakes d.val r w → hyp d.val w s →
    (eff d.val w r s).underLimit d.val = true → exec (mk d w) s = .next (eff d.val w r s)

/-- `t` differs from `s` in registers, the host interface and the ledgers at most. -/
def Side (s t : State) : Prop := ∃ r h l, t = { s with regs := r, host := h, led := l }

/-- A register of which a chain of reports counts nothing. -/
def noCounter (off : Nat) : Prop := off ≠ Reg.HQ_CPL_DROPPED ∧ off ≠ Reg.HQ_EVT_LOST

/-- The host command that a constructor stands for: its opcode and its entry. -/
def hostOf : Instr → Option (Byte × Submission)
  | .nop e => some (0x00, e)
  | .versionSet e => some (0x01, e)
  | .modeSet e => some (0x08, e)
  | .shelfSwitch e => some (0x09, e)
  | .shelfLoad e => some (0x0A, e)
  | .shelfVerify e => some (0x0B, e)
  | .epochOpen e => some (0x10, e)
  | .epochCommit e => some (0x11, e)
  | .epochCancel e => some (0x12, e)
  | .bellSet e => some (0x18, e)
  | .bellCancel e => some (0x19, e)
  | .objConfig e => some (0x20, e)
  | .objPosition e => some (0x21, e)
  | .objGain e => some (0x22, e)
  | .objEq e => some (0x23, e)
  | .airSet e => some (0x28, e)
  | .matrixSet e => some (0x30, e)
  | .feedConfig e => some (0x31, e)
  | .firLoad e => some (0x32, e)
  | .limiterSet e => some (0x33, e)
  | .corridorSet e => some (0x38, e)
  | .flowAdd e => some (0x40, e)
  | .flowRemove e => some (0x41, e)
  | .chainConfig e => some (0x48, e)
  | .taskCreate e => some (0x50, e)
  | .taskSignal e => some (0x51, e)
  | .taskCancel e => some (0x52, e)
  | .dmaStart e => some (0x58, e)
  | .dmaAbort e => some (0x59, e)
  | .dmaPause e => some (0x5A, e)
  | .dmaResume e => some (0x5B, e)
  | .captureStart e => some (0x60, e)
  | .captureStop e => some (0x61, e)
  | .replaySet e => some (0x62, e)
  | .ledgerSnapshot e => some (0x68, e)
  | .statsSnapshot e => some (0x69, e)
  | .creditAudit e => some (0x6A, e)
  | .sdacWrite e => some (0x70, e)
  | .sdacStrobe e => some (0x71, e)
  | .watchdogKick e => some (0x78, e)
  | _ => none

end Sys2Proof.Machine
end

