-- ==== Sys2Proof/Certificates/Slice0/Obligations.lean ====
section
/-!
DEFINITION. The statements for the provers. `Acts`, `Leads`, `Moves`, `Computes`, `Steers` and `hostOf` are in `Safety`.
-/
open Sys2Proof Sys2Proof.Machine

/-- A host command whose turn has not come, or that a FENCE holds back, changes nothing (R346, R347). For each of the 40
host commands: where no entry of its queue may be taken, exec answers next with the state unchanged; where the command
is taken but its FENCE waits for an earlier command of its queue, the same. That a command stands for its entry until
then is the model's choice (assumption 4). -/
def Obligations.HostCommandWaits : Prop :=
  ∀ (i : Instr) (op : Byte) (e : Submission) (s : State), hostOf i = some (op, e) →
    (s.admitEntry op e = none → exec i s = .next s) ∧
    (∀ c s1, s.admitEntry op e = some (c, s1) → s1.fenced e.queue.val e.flags c.order = true → exec i s = .next s)

/-- The first failed check of an entry decides its status, and nothing else changes (R350, R359). For each of the 40 host
commands: where it is taken and no FENCE holds it, and a check of R350 that is common to all commands fails, it
completes with that check's status: BAD_PARAM with DUP_TAG and the ring index, counted in HQ_DUP_TAGS, for a tag that
is held; BAD_OPCODE for an unknown opcode and for an admin opcode on a queue other than 0; BAD_PARAM for a reserved
flag; BAD_VERSION for INT_SUPPRESS under version 1; BAD_PARAM for an EPOCH where none may be named; in that order. -/
def Obligations.HostChecksDecide : Prop :=
  ∀ (i : Instr) (op : Byte) (e : Submission) (s s1 : State) (c : CmdRef), hostOf i = some (op, e) →
    s.admitEntry op e = some (c, s1) → s1.fenced e.queue.val e.flags c.order = false →
    (s1.dupTag c = true → exec i s = .next (((s1.both Reg.HQ_DUP_TAGS Reg.HQ_EVT 3).complete c stBadParam (2 ^ 63 + e.index % 4096)).settle e.queue.val)) ∧
    (s1.dupTag c = false →
      (¬knownOpcodes.contains c.opcode.toNat → exec i s = .next ((s1.complete c stBadOpcode 0).settle e.queue.val)) ∧
      (knownOpcodes.contains c.opcode.toNat →
        (adminOpcodes.contains c.opcode.toNat ∧ c.queue ≠ 0 → exec i s = .next ((s1.complete c stBadOpcode 0).settle e.queue.val)) ∧
        (¬(adminOpcodes.contains c.opcode.toNat ∧ c.queue ≠ 0) →
          (4 ≤ e.flags.toNat → exec i s = .next ((s1.complete c stBadParam 0).settle e.queue.val)) ∧
          (e.flags.toNat < 4 →
            (bitOf e.flags 0 ∧ s1.host.version = 1 → exec i s = .next ((s1.complete c stBadVersion 0).settle e.queue.val)) ∧
            (¬(bitOf e.flags 0 ∧ s1.host.version = 1) → e.epoch ≠ 0 → ¬epochOpcodes.contains c.opcode.toNat →
              exec i s = .next ((s1.complete c stBadParam 0).settle e.queue.val))))))

/-- NOP completes with bytes 16-23 of its entry, or waits for the first block boundary at or after p (R356). With bytes
24-63 of its entry 0: with a presentation MSC of 0 NOP completes when processed with OK and its bytes 16-23; with a
presentation MSC p, in a state with MSC_VALID, it waits, in its place in the order of fetching, for the first block
boundary at or after p, or with OK_ADJUSTED for the next one where that has passed; when its boundary comes it
completes with the MSC of the boundary and nothing else changes. Concluded: under conditions on the state and the
operands alone exec answers a next state, for nop. -/
def Obligations.NopAct : Prop :=
  (∀ e, Acts (.nop e) 0x00 e (fun _ _ => subZero e 24 40 ∧ e.present = 0) (fun c s => s.complete c stOk (sub e 16 8))) ∧
  (∀ e, Acts (.nop e) 0x00 e (fun _ s => subZero e 24 40 ∧ e.present ≠ 0 ∧ s.valid ∧ s.msc < upTo 16 (s.mscOf e.present))
    (fun c s => s.addTimed c (upTo 16 (s.mscOf e.present)) false .nop)) ∧
  (∀ e, Acts (.nop e) 0x00 e (fun _ s => subZero e 24 40 ∧ e.present ≠ 0 ∧ s.valid ∧ upTo 16 (s.mscOf e.present) ≤ s.msc)
    (fun c s => s.addTimed c (s.nextMul 16) true .nop)) ∧
  (∀ (s : State) (t : Timed), t.act = .nop → s.timedAct t = s.complete t.cmd (adjusted t.adj) s.resMsc)

/-- WATCHDOG_KICK restarts the watchdog and completes with its TOKEN (R364). With a presentation MSC of 0 and bytes 24-63
of its entry 0, WATCHDOG_KICK restarts the watchdog in any mode and completes with OK and bytes 16-23 as its result;
with another presentation MSC it completes with BAD_PARAM; an EPOCH that is not 0 fails the fifth check of R350 with
BAD_PARAM. The restart gives the full TIMEOUT where the watchdog is enabled in SHOW or SERVICE, and stops it
elsewhere. Concluded: under conditions on the state and the operands alone exec answers a next state, for
watchdogKick. -/
def Obligations.WatchdogKickRestarts : Prop :=
  (∀ e, Acts (.watchdogKick e) 0x78 e (fun _ _ => subZero e 24 40 ∧ e.present = 0)
    (fun c s =>
      (if bitOf (s.reg Reg.HQ_WDOG_CFG) 0 ∧ (s.pwr.mode = Mode.show_ ∨ s.pwr.mode = Mode.service) then
        { s with host := { s.host with wdogRun := true, wdogLeft := 96 * clampN 10 60000 (fieldOf (s.reg Reg.HQ_WDOG_CFG) 16 16) } }
       else { s with host := { s.host with wdogRun := false, wdogLeft := 0 } }).complete c stOk (sub e 16 8))) ∧
  (∀ e, Acts (.watchdogKick e) 0x78 e (fun _ _ => e.present ≠ 0) (fun c s => s.complete c stBadParam 0)) ∧
  (∀ (e : Submission) (c : CmdRef) (s : State), c.opcode = 0x78 → s.dupTag c = false → e.flags.toNat < 4 →
    ¬(bitOf e.flags 0 ∧ s.host.version = 1) → e.epoch ≠ 0 → s.entryCheck c e.flags e.epoch = some stBadParam)

/-- VERSION_SET takes the version, and the snapshots and the audit wait for a block boundary (R354, R36, R358, R43, R17).
VERSION_SET with valid fields, every other queue DISABLED and no other command outstanding completes with OK and
VER_MAX, which is then in force. LEDGER_SNAPSHOT, STATS_SNAPSHOT and CREDIT_AUDIT with valid fields and MSC_VALID
wait, in their place in the order of fetching, for the first block boundary after the MSC at which they were fetched
with a presentation MSC of 0, and for the first block boundary at or after p with a presentation MSC p, where that
boundary is still to come; while MSC_VALID is 0 they complete with MODE_REFUSED. Concluded: under conditions on the
state and the operands alone exec answers a next state, for versionSet, ledgerSnapshot, statsSnapshot, creditAudit. -/
def Obligations.AdminSnapshotsAct : Prop :=
  (∀ e, Acts (.versionSet e) 0x01 e
    (fun _ s => 1 ≤ sub e 16 1 ∧ sub e 16 1 ≤ sub e 17 1 ∧ sub e 17 1 ≤ 2 ∧ subZero e 18 46 ∧
      (∀ q ∈ List.range 16, q ≠ 0 → (s.queue q).st = .disabled) ∧
      s.host.freeSlots = (if (s.queue e.queue.val).fetched = [] then 512 else 511))
    (fun c s =>
      let t := s.complete c stOk (sub e 17 1)
      { t with host := { t.host with version := sub e 17 1 } })) ∧
  (∀ e, Acts (.ledgerSnapshot e) 0x68 e
    (fun c s => sub e 16 8 % 64 = 0 ∧ 52432 ≤ sub e 24 4 ∧ subZero e 28 36 ∧ s.valid ∧ e.present = 0 ∧ s.msc < upTo 16 (c.fetched + 1))
    (fun c s => s.addTimed c (upTo 16 (c.fetched + 1)) false (.ledgerSnapshot (BitVec.ofNat 64 (sub e 16 8))))) ∧
  (∀ e, Acts (.statsSnapshot e) 0x69 e
    (fun _ s => sub e 16 8 % 64 = 0 ∧ 2728 ≤ sub e 24 4 ∧ subZero e 28 36 ∧ s.valid ∧ e.present ≠ 0 ∧
      s.msc < upTo 16 (s.mscOf e.present))
    (fun c s => s.addTimed c (upTo 16 (s.mscOf e.present)) false (.statsSnapshot (BitVec.ofNat 64 (sub e 16 8))))) ∧
  (∀ e, Acts (.creditAudit e) 0x6A e (fun c s => subZero e 16 48 ∧ s.valid ∧ e.present = 0 ∧ s.msc < upTo 16 (c.fetched + 1))
    (fun c s => s.addTimed c (upTo 16 (c.fetched + 1)) false .creditAudit)) ∧
  (∀ e, Acts (.ledgerSnapshot e) 0x68 e
    (fun _ s => sub e 16 8 % 64 = 0 ∧ 52432 ≤ sub e 24 4 ∧ subZero e 28 36 ∧ s.valid = false) (fun c s => s.complete c stModeRefused 0)) ∧
  (∀ e, Acts (.creditAudit e) 0x6A e (fun _ s => subZero e 16 48 ∧ s.valid = false) (fun c s => s.complete c stModeRefused 0))

/-- EPOCH_OPEN opens an epoch, EPOCH_COMMIT seals it with its commit MSC, EPOCH_CANCEL ends it (R82, R83, R86, R88, R79).
EPOCH_OPEN with a new identifier, valid fields and a free entry outside STANDBY adds an OPEN epoch with its deadline,
frees the identifier of any earlier final state and completes with OK. EPOCH_COMMIT of an OPEN epoch that is not a
chain epoch seals it, with MSC_VALID, for the commit MSC of its rule, or ends with LATE where that is late and LATE_OK
is not set; while MSC_VALID is 0 and the presentation MSC is 0 it applies it at once. EPOCH_CANCEL of an epoch that
has not expired ends it as CANCELLED, completes the commit with ABORTED and itself with OK; for an identifier that is
final it completes with LATE and the final state. Concluded: under conditions on the state and the operands alone exec
answers a next state, for epochOpen, epochCommit, epochCancel. -/
def Obligations.EpochCommandsAct : Prop :=
  (∀ e, Acts (.epochOpen e) 0x10 e
    (fun _ s => e.epoch ≠ 0 ∧ s.epochNamed e.epoch = none ∧ sub e 16 1 ≤ 64 ∧ sub e 17 1 = 0 ∧ subZero e 18 6 ∧ sub e 24 32 = 0 ∧
      subZero e 56 8 ∧ s.entries < 64 ∧ s.pwr.mode ≠ Mode.standby)
    (fun c s =>
      State.complete { s with
        epochs := s.epochs ++ [{ id := e.epoch, st := .open_, chain := false, parts := 0, deadline := s.deadline (sub e 16 1), order := s.epochSeq }],
        epochSeq := s.epochSeq + 1, finals := tdel s.finals e.epoch.toNat } c stOk 0)) ∧
  (∀ e p, Acts (.epochCommit e) 0x11 e
    (fun _ s => sub e 16 1 ≤ 1 ∧ subZero e 17 47 ∧ s.openEpoch e = some p ∧ s.valid ∧ p.chain = false ∧
      ((s.commitFor 128 (s.mscOf e.present)).2.2 = false ∨ sub e 16 1 = 1))
    (fun c s => s.seal p (some c) (s.commitFor 128 (s.mscOf e.present)).1 (s.commitFor 128 (s.mscOf e.present)).2.1)) ∧
  (∀ e p, Acts (.epochCommit e) 0x11 e
    (fun _ s => sub e 16 1 = 0 ∧ subZero e 17 47 ∧ s.openEpoch e = some p ∧ s.valid ∧ p.chain = false ∧
      (s.commitFor 128 (s.mscOf e.present)).2.2)
    (fun c s => s.complete c stLate 0)) ∧
  (∀ e p, Acts (.epochCommit e) 0x11 e
    (fun _ s => sub e 16 1 ≤ 1 ∧ subZero e 17 47 ∧ s.openEpoch e = some p ∧ s.valid = false ∧ p.chain = false ∧ e.present = 0)
    (fun c s => s.commitQuiet p c)) ∧
  (∀ e p, Acts (.epochCancel e) 0x12 e
    (fun _ s => subZero e 16 48 ∧ s.boundary = false ∧ s.epochNamed e.epoch = some p ∧ p.expiring = false)
    (fun c s => (s.endEpoch p 5 stAborted).complete c stOk 0)) ∧
  (∀ e k, Acts (.epochCancel e) 0x12 e
    (fun _ s => subZero e 16 48 ∧ s.boundary = false ∧ s.epochNamed e.epoch = none ∧ tget s.finals e.epoch.toNat = some k)
    (fun c s => s.complete c stLate k))

/-- BELL_SET arms a bell and BELL_CANCEL disarms it (R74, R75, R77, R78). BELL_SET with valid fields, MSC_VALID and a bell
of that ID that is not armed arms it; with a first point still to come it completes with OK and the MSC of its first
ring; once that point has passed it completes with LATE, or with LATE_OK it takes the ring that R75 gives and
completes with OK_ADJUSTED. BELL_CANCEL of a bell that was set and not cancelled before completes with OK and the
count of its acted rings in bits 31:0, with bit 32 set where it was not armed: a bell of which no ring is due is
disarmed; rings whose acting point has come count as acted and are worked still, and no later one is. Concluded: under
conditions on the state and the operands alone exec answers a next state, for bellSet, bellCancel. -/
def Obligations.BellCommandsAct : Prop :=
  (∀ e id late b, Acts (.bellSet e) 0x18 e
    (fun _ s => parseBell (s.mscOf e.present) e = some (id, late, b) ∧ s.valid ∧ (∀ x, tget s.bells id = some x → (x.armed && x.stop.isNone) = false) ∧ s.msc < b.next)
    (fun c s => State.complete { s with bells := tset s.bells id b } c stOk b.msc)) ∧
  (∀ e id b, Acts (.bellSet e) 0x18 e
    (fun _ s => parseBell (s.mscOf e.present) e = some (id, false, b) ∧ s.valid ∧ (∀ x, tget s.bells id = some x → (x.armed && x.stop.isNone) = false) ∧ b.next ≤ s.msc)
    (fun c s => s.complete c stLate 0)) ∧
  (∀ e id b, Acts (.bellSet e) 0x18 e
    (fun _ s => parseBell (s.mscOf e.present) e = some (id, true, b) ∧ s.valid ∧ (∀ x, tget s.bells id = some x → (x.armed && x.stop.isNone) = false) ∧ b.next ≤ s.msc)
    (fun c s => State.complete { s with bells := tset s.bells id (s.lateBell b).1 } c stAdjusted (s.lateBell b).2)) ∧
  (∀ e b, Acts (.bellCancel e) 0x19 e
    (fun _ s => sub e 16 2 < 4096 ∧ subZero e 18 46 ∧ tget s.bells (sub e 16 2) = some b ∧ b.due s.msc = 0 ∧ b.stop = none)
    (fun c s => State.complete { s with bells := tset s.bells (sub e 16 2) { b with armed := false } } c stOk
      (b.acted % 2 ^ 32 + (if b.armed then 0 else 2 ^ 32)))) ∧
  (∀ e b, Acts (.bellCancel e) 0x19 e
    (fun _ s => sub e 16 2 < 4096 ∧ subZero e 18 46 ∧ tget s.bells (sub e 16 2) = some b ∧ b.due s.msc ≠ 0 ∧ b.stop = none)
    (fun c s => State.complete { s with bells := tset s.bells (sub e 16 2) { b with stop := some s.msc } } c stOk
      ((b.acted + b.due s.msc) % 2 ^ 32 + (if b.armed then 0 else 2 ^ 32))))

/-- The commands of the object stage act on the first block or control frame they may, or at once where no pipeline runs
(R117, R120, R121, R122, R123, R150, R17). With valid fields, no epoch, a presentation MSC of 0 and MSC_VALID:
OBJ_CONFIG, OBJ_GAIN and OBJ_EQ schedule their changes for the first block whose object-stage slot has not begun and
complete with OK and its index; OBJ_POSITION and AIR_SET schedule theirs for the control frame that begins 128 samples
after the next one and complete with OK and its MSC, OBJ_POSITION counting its updates. While MSC_VALID is 0 OBJ_GAIN
and AIR_SET apply at once and complete with OK and 0. Concluded: under conditions on the state and the operands alone
exec answers a next state, for objConfig, objGain, objEq, objPosition, airSet. -/
def Obligations.ObjectCommandsAct : Prop :=
  (∀ e l late cfg, Acts (.objConfig e) 0x20 e
    (fun _ s => parseLocker s.fs (entryByte e) = some (l, late, cfg) ∧ e.epoch = 0 ∧ s.valid ∧ e.present = 0)
    (fun c s => (s.putAll (some c.order) (s.nextMul 16 - 16) (lockerChanges l cfg (upTo 128 (max (s.nextMul 16 - 16) (s.msc + 129))))).complete c stOk
      (s.nextMul 16 - 16))) ∧
  (∀ e, Acts (.objGain e) 0x22 e
    (fun _ s => sub e 16 2 < 1024 ∧ sub e 18 1 = 0 ∧ subZero e 19 1 ∧ codeOk (sub e 20 2) ∧ rampOk (sub e 22 2) ∧ subZero e 24 40 ∧
      e.epoch = 0 ∧ s.valid ∧ e.present = 0)
    (fun c s => (s.put (some c.order) (s.nextMul 16 - 16) (.objGain (sub e 16 2) (sub e 20 2) (sub e 22 2))).complete c stOk (s.nextMul 16 - 16))) ∧
  (∀ e, Acts (.objGain e) 0x22 e
    (fun _ s => sub e 16 2 < 1024 ∧ sub e 18 1 = 0 ∧ subZero e 19 1 ∧ codeOk (sub e 20 2) ∧ rampOk (sub e 22 2) ∧ subZero e 24 40 ∧
      e.epoch = 0 ∧ s.valid = false ∧ e.present = 0)
    (fun c s => (s.applyChange true 0 (.objGain (sub e 16 2) (sub e 20 2) (sub e 22 2))).complete c stOk 0)) ∧
  (∀ e r bs, Acts (.objEq e) 0x23 e
    (fun _ s => sub e 16 2 < 1024 ∧ sub e 18 1 = 0 ∧ sub e 20 1 ≠ 0 ∧ sub e 19 1 + sub e 20 1 ≤ 8 ∧ subZero e 21 3 ∧
      sub e 24 8 % 8 = 0 ∧ subZero e 32 32 ∧ e.records = some r ∧ parseBiquads (listByte r) 0 (sub e 20 1) = some bs ∧
      e.epoch = 0 ∧ s.valid ∧ e.present = 0)
    (fun c s => (s.put (some c.order) (s.nextMul 16 - 16) (.objEq (sub e 16 2) (sub e 19 1) bs)).complete c stOk (s.nextMul 16 - 16))) ∧
  (∀ e r ups, Acts (.objPosition e) 0x21 e
    (fun _ s => sub e 16 8 % 16 = 0 ∧ 1 ≤ sub e 24 4 ∧ sub e 24 4 ≤ 4096 ∧ subZero e 28 36 ∧ e.records = some r ∧
      parseBatch (listByte r) (sub e 24 4) = .inl ups ∧ s.pwr.freeze = false ∧ e.epoch = 0 ∧ s.valid ∧ e.present = 0)
    (fun c s => ((s.put (some s.host.fetchOrder) (s.nextMul 128 + 128) (.objPos ups false)).count Reg.OBJ_POS_UPDATES (sub e 24 4)).complete c stOk
      (s.nextMul 128 + 128))) ∧
  (∀ e, Acts (.airSet e) 0x28 e
    (fun _ s => sub e 16 1 ≠ 0 ∧ subZero e 17 3 ∧ sub e 20 4 ≤ 3600000 ∧ -10240 ≤ signed 16 (sub e 24 2) ∧
      signed 16 (sub e 24 2) ≤ 15360 ∧ sub e 26 2 ≤ 25600 ∧ subZero e 28 36 ∧ e.epoch = 0 ∧ s.valid ∧ e.present = 0)
    (fun c s => (({ s with geo := { s.geo with airSet := true } } : State).put (some c.order) (s.nextMul 128 + 128)
      (.air (sub e 16 1) (sub e 20 4) (signed 16 (sub e 24 2)) (sub e 26 2))).complete c stOk (s.nextMul 128 + 128)))

/-- The commands of the speaker stage and the corridor act on the first block they may (R190, R191, R205, R206, R207,
R208, R217, R218). With valid fields, no epoch, a presentation MSC of 0 and MSC_VALID: MATRIX_SET schedules its nodes
or its scale modes for the first block whose mix slot has not begun; FEED_CONFIG its equaliser for that block and its
pilot for the first block whose feed slot has not begun; FEED_CONFIG without a new alignment its mixing and output
fields; LIMITER_SET its limiter for the first block whose feed slot has not begun; each completes with OK and the
index of that block. FIR_LOAD reserves its taps where the pool has room, completing with OK and the taps left, and
with NO_RESOURCE where it has not. CORRIDOR_SET schedules its route for the first multiple of 16 that is at least 32
after the MSC and completes with OK and that index. Concluded: under conditions on the state and the operands alone
exec answers a next state, for matrixSet, feedConfig, firLoad, limiterSet, corridorSet. -/
def Obligations.SpeakerCommandsAct : Prop :=
  (∀ e r recs, Acts (.matrixSet e) 0x30 e
    (fun _ s => sub e 17 1 = 0 ∧ rampOk (sub e 18 2) ∧ sub e 16 1 = 0 ∧ sub e 20 4 ≠ 0 ∧ sub e 20 4 ≤ 327680 ∧ sub e 24 8 % 8 = 0 ∧
      subZero e 32 32 ∧ e.records = some r ∧ parseNodes (listByte r) (sub e 20 4) = .inl recs ∧ e.epoch = 0 ∧ s.valid ∧ e.present = 0)
    (fun c s => (s.put (some c.order) (s.nextMul 16 - 48) (.nodes recs (s.rampMs (sub e 18 2)))).complete c stOk (s.nextMul 16 - 48))) ∧
  (∀ e, Acts (.matrixSet e) 0x30 e
    (fun _ s => sub e 17 1 = 0 ∧ rampOk (sub e 18 2) ∧ sub e 16 1 = 2 ∧ sub e 20 2 < 512 ∧ sub e 22 2 ≠ 0 ∧
      sub e 20 2 + sub e 22 2 ≤ 512 ∧ sub e 24 1 ≤ 2 ∧ subZero e 25 39 ∧ e.epoch = 0 ∧ s.valid ∧ e.present = 0)
    (fun c s => (s.put (some c.order) (s.nextMul 16 - 48) (.scale (sub e 20 2) (sub e 22 2) (sub e 24 1) (s.rampMs (sub e 18 2)))).complete c stOk
      (s.nextMul 16 - 48))) ∧
  (∀ e r bs, Acts (.feedConfig e) 0x31 e
    (fun _ s => sub e 17 1 = 0 ∧ rampOk (sub e 18 2) ∧ sub e 20 2 < 512 ∧ sub e 16 1 = 1 ∧ sub e 23 1 ≠ 0 ∧
      sub e 22 1 + sub e 23 1 ≤ 16 ∧ sub e 24 8 % 8 = 0 ∧ subZero e 32 32 ∧ e.records = some r ∧
      parseBiquads (listByte r) 0 (sub e 23 1) = some bs ∧ e.epoch = 0 ∧ s.valid ∧ e.present = 0)
    (fun c s => (s.put (some c.order) (s.nextMul 16 - 48) (.feedEq (sub e 20 2) (sub e 22 1) bs (s.rampMs (sub e 18 2)) (s.rampMs (sub e 18 2)))).complete c
      stOk (s.nextMul 16 - 48))) ∧
  (∀ e p, Acts (.feedConfig e) 0x31 e
    (fun _ s => sub e 17 1 = 0 ∧ rampOk (sub e 18 2) ∧ sub e 20 2 < 512 ∧ sub e 16 1 = 2 ∧ parsePilot s.fs (entryByte e) = some p ∧
      subZero e 39 25 ∧ e.epoch = 0 ∧ s.valid ∧ e.present = 0)
    (fun c s => (s.put (some c.order) (s.nextMul 16 - 64) (.pilot (sub e 20 2) p (s.rampMs (sub e 18 2)) (s.rampMs (sub e 18 2)))).complete c stOk
      (s.nextMul 16 - 64))) ∧
  (∀ e f b, Acts (.feedConfig e) 0x31 e
    (fun _ s => sub e 17 1 = 0 ∧ rampOk (sub e 18 2) ∧ sub e 20 2 < 512 ∧ sub e 16 1 = 0 ∧ parseFeed s.fs (entryByte e) = some (f, b) ∧
      subZero e 40 24 ∧ s.feedMayHold f b ∧ b.align = (s.feed f).cfg.align ∧ e.epoch = 0 ∧ s.valid ∧ e.present = 0)
    (fun c s => (s.putAll (some c.order) (s.nextMul 16 - 48) (feedChanges f b (s.rampMs (sub e 18 2)) (s.rampMs (sub e 18 2)))).complete c stOk
      (s.nextMul 16 - 48))) ∧
  (∀ e r, Acts (.firLoad e) 0x32 e
    (fun _ s => sub e 16 2 < 512 ∧ sub e 18 1 = 0 ∧ subZero e 19 1 ∧ sub e 20 2 ≠ 0 ∧ sub e 20 2 ≤ 8192 ∧ sub e 20 2 % 16 = 0 ∧
      rampOk (sub e 22 2) ∧ sub e 24 8 % 4 = 0 ∧ subZero e 32 32 ∧ e.records = some r ∧ e.epoch = 0 ∧ s.valid ∧ e.present = 0 ∧
      firPoolNow s < s.firUsed + sub e 20 2)
    (fun c s => s.complete c stNoResource 0)) ∧
  (∀ e r, Acts (.firLoad e) 0x32 e
    (fun _ s => sub e 16 2 < 512 ∧ sub e 18 1 = 0 ∧ subZero e 19 1 ∧ sub e 20 2 ≠ 0 ∧ sub e 20 2 ≤ 8192 ∧ sub e 20 2 % 16 = 0 ∧
      rampOk (sub e 22 2) ∧ sub e 24 8 % 4 = 0 ∧ subZero e 32 32 ∧ e.records = some r ∧ e.epoch = 0 ∧ s.valid ∧ e.present = 0 ∧
      s.firUsed + sub e 20 2 ≤ firPoolNow s)
    (fun c s =>
      let t := ({ s with firUsed := s.firUsed + sub e 20 2 } : State).put (some c.order) (s.nextMul 16 - 48)
        (.fir (sub e 16 2) (parseTaps (listByte r) (sub e 20 2)) (s.rampMs (sub e 22 2)))
      t.complete c stOk (if t.valid then firPoolNow t - t.firUsed else 0))) ∧
  (∀ e l, Acts (.limiterSet e) 0x33 e
    (fun _ s => parseLimiter (entryByte e) = some l ∧ sub e 16 2 < 512 ∧ sub e 18 1 = 0 ∧ subZero e 19 1 ∧ subZero e 36 28 ∧
      e.epoch = 0 ∧ s.valid ∧ e.present = 0)
    (fun c s => (s.put (some c.order) (s.nextMul 16 - 64) (.limiter (sub e 16 2) l)).complete c stOk (s.nextMul 16 - 64))) ∧
  (∀ e r late k, Acts (.corridorSet e) 0x38 e
    (fun _ s => parseRoute (entryByte e) = some (r, late, k) ∧ s.routeMayHold r k ∧ e.epoch = 0 ∧ s.valid ∧ e.present = 0)
    (fun c s => (s.put (some c.order) (upTo 16 (s.msc + 32)) (.route r { k with ramp := s.rampMs k.ramp } (s.rampMs k.ramp))).complete c stOk
      (upTo 16 (s.msc + 32))))

/-- MODE_SET waits for the next control-frame boundary, or completes at once (R409, R410, R411). MODE_SET with valid
fields: for the mode in force it completes with OK and 0; for a mode that no transition of the table leads to it
completes with MODE_REFUSED; for an allowed one, with MSC_VALID, outside STANDBY, no other mode command under way and
a presentation MSC of 0, the change waits for the next multiple of 128 with its command outstanding. Concluded: under
conditions on the state and the operands alone exec answers a next state, for modeSet. -/
def Obligations.ModeSetWaits : Prop :=
  (∀ e m, Acts (.modeSet e) 0x08 e
    (fun _ s => modeOf (sub e 16 1) = some m ∧ sub e 17 1 = 0 ∧ subZero e 18 46 ∧ m ≠ s.pwr.mode ∧ modeAllowed s.pwr.mode m ∧
      s.leaveRefused m = false ∧ s.pwr.wait = none ∧ s.pwr.entering = none ∧ s.valid ∧ e.present = 0 ∧ s.pwr.mode ≠ Mode.standby)
    (fun c s => { s with pwr := { s.pwr with wait := some { target := m, at_ := (s.msc / 128 + 1) * 128, adj := false, cmd := c } } })) ∧
  (∀ e m, Acts (.modeSet e) 0x08 e
    (fun _ s => modeOf (sub e 16 1) = some m ∧ sub e 17 1 = 0 ∧ subZero e 18 46 ∧ m = s.pwr.mode) (fun c s => s.complete c stOk 0)) ∧
  (∀ e m, Acts (.modeSet e) 0x08 e
    (fun _ s => modeOf (sub e 16 1) = some m ∧ sub e 17 1 = 0 ∧ subZero e 18 46 ∧ m ≠ s.pwr.mode ∧ modeAllowed s.pwr.mode m = false)
    (fun c s => s.complete c stModeRefused 0))

/-- SHELF_SWITCH in STANDBY switches at once; SHELF_LOAD and SHELF_VERIFY start their work on a slot (R96, R97, R98). In
STANDBY a SHELF_SWITCH outside an epoch to a slot that it may name switches at once and completes with OK and the MSC.
SHELF_LOAD with valid fields from a flash slot to a free slot makes the destination LOADING (slot 8 keeps its state)
and joins the work of that slot; SHELF_VERIFY of a slot that is neither EMPTY nor LOADING joins the work of its slot;
both complete when that work ends. Concluded: under conditions on the state and the operands alone exec answers a next
state, for shelfSwitch, shelfLoad, shelfVerify. -/
def Obligations.ShelfCommandsAct : Prop :=
  (∀ e, Acts (.shelfSwitch e) 0x09 e
    (fun _ s => sub e 16 1 ≤ 8 ∧ sub e 17 1 ≤ 1 ∧ sub e 18 2 = 0 ∧ subZero e 20 44 ∧ s.switchOk (sub e 16 1) ∧ e.epoch = 0 ∧
      s.pwr.mode = Mode.standby)
    (fun c s => (s.switchNow (sub e 16 1)).complete c stOk s.msc)) ∧
  (∀ e, Acts (.shelfLoad e) 0x0A e
    (fun _ s => sub e 16 1 = 1 ∧ 4 ≤ sub e 17 1 ∧ sub e 17 1 ≤ 8 ∧ subZero e 24 16 ∧ sub e 18 1 < 4 ∧ subZero e 19 5 ∧ subZero e 40 24 ∧
      (s.slot (sub e 18 1)).st ≠ .active ∧ (s.slot (sub e 18 1)).st ≠ .fading ∧ (∀ j ∈ (s.slot (sub e 18 1)).jobs, j.load = false) ∧
      s.pendingTargets.contains (sub e 18 1) = false ∧ s.pwr.mode ≠ Mode.standby ∧ s.noDram = false)
    (fun c s => s.setSlot (sub e 18 1) { s.slot (sub e 18 1) with
      jobs := (s.slot (sub e 18 1)).jobs ++ [{ cmd := c, load := true, flash := some (sub e 17 1), length := sub e 32 8 }],
      st := .loading })) ∧
  (∀ e, Acts (.shelfVerify e) 0x0B e
    (fun _ s => sub e 16 1 ≤ 8 ∧ subZero e 17 47 ∧ (s.slot (sub e 16 1)).st ≠ .empty ∧ (s.slot (sub e 16 1)).st ≠ .loading)
    (fun c s => s.setSlot (sub e 16 1) { s.slot (sub e 16 1) with
      jobs := (s.slot (sub e 16 1)).jobs ++ [{ cmd := c, load := false, flash := none, length := 0 }] }))

/-- The commands of the flows, the chain and the service converters act at once or on the first block they may (R227,
R229, R302, R324). With valid fields: FLOW_ADD of a transmit flow that is free and fits, with MSC_VALID, outside
STANDBY, with no epoch and a presentation MSC of 0, adds it at the first block whose emit slot has not begun;
FLOW_REMOVE of a receive flow removes it at the next block boundary; both complete with OK and that block.
CHAIN_CONFIG OP 4 in SETUP leaves the chain at once, the time base that followed its head losing its source, and
completes with OK. SDAC_WRITE and SDAC_STROBE with a presentation MSC of 0 act at once and complete with OK and the
MSC, 0 while it is not valid, a write counting as the first of its sample period; with a presentation MSC still to
come they wait for it. Concluded: under conditions on the state and the operands alone exec answers a next state, for
flowAdd, flowRemove, chainConfig, sdacWrite, sdacStrobe. -/
def Obligations.IoCommandsAct : Prop :=
  (∀ e i late k, Acts (.flowAdd e) 0x40 e
    (fun _ s => parseFlow s.fs e = some (i, late, k) ∧ k.tx ∧ s.stagedIn e = [] ∧ tget (s.flowsDue true) i = none ∧ s.flowFits e i k ∧
      s.pwr.mode ≠ Mode.standby ∧ s.valid ∧ e.epoch = 0 ∧ e.present = 0)
    (fun c s => (s.put (some c.order) (s.nextMul 16 - 80) (.flowAdd i k)).complete c stOk (s.nextMul 16 - 80))) ∧
  (∀ e, Acts (.flowRemove e) 0x41 e
    (fun _ s => sub e 17 1 = 0 ∧ subZero e 18 46 ∧ (tget (s.flowsDue false) (sub e 16 1)).isSome ∧ (s.rxFlow (sub e 16 1)).isSome ∧
      s.valid ∧ e.epoch = 0 ∧ e.present = 0)
    (fun c s => (s.put (some c.order) (s.nextMul 16) (.flowRemove (sub e 16 1))).complete c stOk (s.nextMul 16))) ∧
  (∀ e, Acts (.chainConfig e) 0x48 e
    (fun _ s => sub e 16 1 = 4 ∧ sub e 17 1 ≤ 2 ∧ sub e 19 1 ≤ 1 ∧ sub e 20 1 ≤ 1 ∧ subZero e 23 1 ∧ sub e 26 2 ≤ 1024 ∧ sub e 24 2 ≤ 4096 ∧
      sub e 24 2 % 16 = 0 ∧ sub e 28 8 % 8 = 0 ∧ subZero e 36 28 ∧ e.epoch = 0 ∧ s.pwr.mode = Mode.setup)
    (fun c s => (((s.chainDone stAborted 0).sendOn [0, 1] (.leave 0 0)).chainAlone.chainUnled).complete c stOk 0)) ∧
  (∀ e w, Acts (.sdacWrite e) 0x70 e (fun _ s => parseSdac s.fs e = some w ∧ e.present = 0)
    (fun c s =>
      let strobed := w.strobe || (s.valid && (s.sdacCh w.ch).struck)
      State.complete { s with sdac := s.sdac.set w.ch { sdacApply { w with strobe := strobed } (s.sdacCh w.ch) with struck := strobed } } c stOk
        (if s.valid then s.msc else 0))) ∧
  (∀ e, Acts (.sdacStrobe e) 0x71 e (fun _ _ => sub e 16 1 ≠ 0 ∧ sub e 17 1 = 0 ∧ subZero e 18 46 ∧ e.present = 0)
    (fun c s => (s.strobeMask (sub e 16 1)).complete c stOk (if s.valid then s.msc else 0))) ∧
  (∀ e, Acts (.sdacStrobe e) 0x71 e
    (fun _ s => sub e 16 1 ≠ 0 ∧ sub e 17 1 = 0 ∧ subZero e 18 46 ∧ s.valid ∧ s.msc < s.mscOf e.present)
    (fun c s => { s with sdacWait := s.sdacWait ++ [.strobe c (s.mscOf e.present) (sub e 16 1)] }))

/-- TASK_CREATE, TASK_SIGNAL and TASK_CANCEL (R261, R264, R270, R272). With valid fields and outside the modes that refuse
tasks: TASK_CREATE of a free task without a flow creates it WAITING and completes with OK; TASK_SIGNAL with a
presentation MSC of 0 posts its flags where they can be taken and completes with OK and the MSC, and is held, with its
queue, where they cannot; TASK_CANCEL of a task without a flow ends it at once, the command completing with its
residue. Concluded: under conditions on the state and the operands alone exec answers a next state, for taskCreate,
taskSignal, taskCancel. -/
def Obligations.TaskCommandsAct : Prop :=
  (∀ e t late k, Acts (.taskCreate e) 0x50 e
    (fun _ s => parseTask e = some (t, late, k) ∧ s.task t = none ∧ s.taskClash k = false ∧ s.noTasks = false ∧ k.ip = 0 ∧ e.epoch = 0)
    (fun c s => State.complete { s with tasks := { s.tasks with tasks := tset s.tasks.tasks t { cfg := k } } } c stOk 0)) ∧
  (∀ e, Acts (.taskSignal e) 0x51 e
    (fun _ s => sub e 16 2 < 256 ∧ sub e 18 1 = 0 ∧ subZero e 19 1 ∧ word (sub e 20 4) ≠ 0 ∧ subZero e 24 40 ∧
      (s.task (sub e 16 2)).isSome ∧ s.noTasks = false ∧ e.present = 0 ∧ s.canPost (sub e 16 2) (word (sub e 20 4)))
    (fun c s => (s.applyPost (sub e 16 2) (word (sub e 20 4))).complete c stOk (if s.valid then s.msc else 0))) ∧
  (∀ e, Acts (.taskSignal e) 0x51 e
    (fun _ s => sub e 16 2 < 256 ∧ sub e 18 1 = 0 ∧ subZero e 19 1 ∧ word (sub e 20 4) ≠ 0 ∧ subZero e 24 40 ∧
      (s.task (sub e 16 2)).isSome ∧ s.noTasks = false ∧ e.present = 0 ∧ s.canPost (sub e 16 2) (word (sub e 20 4)) = false)
    (fun c s =>
      let t := s.hold (.host c false) (sub e 16 2) (word (sub e 20 4))
      t.setQueue c.queue.val { t.queue c.queue.val with held := true })) ∧
  (∀ e k, Acts (.taskCancel e) 0x52 e
    (fun _ s => sub e 16 2 < 256 ∧ sub e 18 1 = 0 ∧ subZero e 19 45 ∧ s.task (sub e 16 2) = some k ∧ k.cfg.ip = 0 ∧ e.epoch = 0)
    (fun c s => (s.setTask (sub e 16 2) { k with cancel := k.cancel ++ [(c, false)] }).finishTask (sub e 16 2)))

/-- DMA_START starts a channel, DMA_ABORT, DMA_PAUSE and DMA_RESUME end, pause and resume it (R380, R381, R382, R383,
R384, R385). With valid fields: DMA_START with a presentation MSC of 0 outside STANDBY starts an idle channel at its
address and completes with OK and the MSC, 0 while it is not valid, and completes with BAD_PARAM on one that runs,
waits or is paused. DMA_ABORT of a channel that does not run completes with OK, its residue and bit 33; of one that
runs it joins the channel's abort commands, the abort is taken into account and posts of the channel that are held are
dropped. DMA_PAUSE of a running channel waits for its instruction boundary; DMA_RESUME of a paused channel with no
wait makes it run again and completes with OK. Concluded: under conditions on the state and the operands alone exec
answers a next state, for dmaStart, dmaAbort, dmaPause, dmaResume. -/
def Obligations.DmaCommandsAct : Prop :=
  (∀ e, Acts (.dmaStart e) 0x58 e
    (fun _ s => sub e 16 1 < 28 ∧ sub e 17 1 = 0 ∧ sub e 18 1 ≤ 2 ∧ subZero e 19 5 ∧ sub e 24 8 % 32 = 0 ∧ subZero e 32 32 ∧
      s.pwr.mode ≠ Mode.standby ∧ e.present = 0 ∧ (s.dch (sub e 16 1)).live = false)
    (fun c s => State.complete { s with dma := s.dma.set (sub e 16 1) { s.dch (sub e 16 1) with
      start := sub e 24 8, startSpace := sub e 18 1, shadowValid := false, shadowLate := false, dbPending := false, st := .running,
      pc := sub e 24 8, space := sub e 18 1, loops := [], move := none, wait := none, afterMove := false } } c stOk
      (if s.valid then s.msc else 0))) ∧
  (∀ e, Acts (.dmaStart e) 0x58 e
    (fun _ s => sub e 16 1 < 28 ∧ sub e 17 1 = 0 ∧ sub e 18 1 ≤ 2 ∧ subZero e 19 5 ∧ sub e 24 8 % 32 = 0 ∧ subZero e 32 32 ∧
      s.pwr.mode ≠ Mode.standby ∧ e.present = 0 ∧ (s.dch (sub e 16 1)).live)
    (fun c s => s.complete c stBadParam 0)) ∧
  (∀ e, Acts (.dmaAbort e) 0x59 e
    (fun _ s => sub e 16 1 < 28 ∧ subZero e 17 47 ∧ e.present = 0 ∧ (s.dch (sub e 16 1)).live = false)
    (fun c s => s.complete c stOk ((s.dch (sub e 16 1)).residue + 2 ^ 32 * (if (s.dch (sub e 16 1)).abortIgnored then 1 else 0) + 2 ^ 33))) ∧
  (∀ e, Acts (.dmaAbort e) 0x59 e
    (fun _ s => sub e 16 1 < 28 ∧ subZero e 17 47 ∧ e.present = 0 ∧ (s.dch (sub e 16 1)).live)
    (fun c s => (s.setDch (sub e 16 1) { s.dch (sub e 16 1) with abortCmds := (s.dch (sub e 16 1)).abortCmds ++ [c] }).dmaAbortSample (sub e 16 1))) ∧
  (∀ e, Acts (.dmaPause e) 0x5A e
    (fun _ s => 28 ≤ sub e 16 1 ∧ sub e 16 1 < 32 ∧ e.queue = 0 ∧ subZero e 17 47 ∧ e.present = 0 ∧
      (s.dch (sub e 16 1)).st = .running)
    (fun c s => s.setDch (sub e 16 1) { s.dch (sub e 16 1) with pauseCmds := (s.dch (sub e 16 1)).pauseCmds ++ [c], pausing := true })) ∧
  (∀ e, Acts (.dmaResume e) 0x5B e
    (fun _ s => 28 ≤ sub e 16 1 ∧ sub e 16 1 < 32 ∧ e.queue = 0 ∧ subZero e 17 47 ∧ e.present = 0 ∧
      (s.dch (sub e 16 1)).st = .paused ∧ (s.dch (sub e 16 1)).wait = none)
    (fun c s => (s.setDch (sub e 16 1) { s.dch (sub e 16 1) with st := .running }).complete c stOk 0))

/-- CAPTURE_START, CAPTURE_STOP and REPLAY_SET set the recorder and the replay stream (R125, R127, R128). With valid
fields, MSC_VALID, outside STANDBY and with DRAM: CAPTURE_START of an idle recorder arms it for the first block whose
object-stage slot has not begun, its command outstanding until the first frame is written; CAPTURE_STOP of a busy one
that is to start earlier than its stop sets the stop, its command outstanding until then; REPLAY_SET OP 2 raises the
fill level and completes with OK, OP 1 with no stream running completes with OK and its block, OP 0 of a running
stream completes with NO_RESOURCE. Concluded: under conditions on the state and the operands alone exec answers a next
state, for captureStart, captureStop, replaySet. -/
def Obligations.RecorderCommandsAct : Prop :=
  (∀ e r taps, Acts (.captureStart e) 0x60 e
    (fun _ s => s.frameBuffer (sub e 24 8) (sub e 32 8) (sub e 16 2) ∧ sub e 18 1 < 2 ∧ sub e 19 1 = 0 ∧ subZero e 20 4 ∧ subZero e 48 16 ∧
      e.records = some r ∧ allSome ((List.range (sub e 16 2)).map (fun k => parseTap (imgAt (listByte r) (4 * k)))) = some taps ∧
      s.pwr.mode ≠ Mode.standby ∧ s.noDram = false ∧ s.valid ∧ s.capture.busy = false ∧ e.present = 0)
    (fun c s => { s with capture := { st := 1, oneShot := sub e 18 1 == 1, buffer := sub e 24 8, length := sub e 32 8, taps := taps,
                                       start := s.nextMul 16 - 16, cmd := some c, cmdAdj := false } })) ∧
  (∀ e, Acts (.captureStop e) 0x61 e
    (fun _ s => subZero e 16 3 ∧ sub e 19 1 = 0 ∧ subZero e 20 44 ∧ s.pwr.mode ≠ Mode.standby ∧ s.noDram = false ∧ s.valid ∧
      s.capture.busy ∧ s.capture.stopAt = none ∧ e.present = 0 ∧ s.capture.start < s.nextMul 16 - 16)
    (fun c s => { s with capture := { s.capture with stopAt := some (s.nextMul 16 - 16), stops := s.capture.stops ++ [(c, false)] } })) ∧
  (∀ e, Acts (.replaySet e) 0x62 e
    (fun _ s => replayFields e s ∧ sub e 16 1 = 2 ∧ s.replay.fill ≤ sub e 40 8 ∧ s.pwr.mode ≠ Mode.standby ∧ s.noDram = false ∧ s.valid)
    (fun c s => State.complete { s with replay := { s.replay with fill := sub e 40 8 } } c stOk 0)) ∧
  (∀ e, Acts (.replaySet e) 0x62 e
    (fun _ s => replayFields e s ∧ sub e 16 1 = 1 ∧ s.pwr.mode ≠ Mode.standby ∧ s.noDram = false ∧ s.valid ∧ e.present = 0 ∧ s.replay.st = 0)
    (fun c s => s.complete c stOk (s.nextMul 16 - 16))) ∧
  (∀ e, Acts (.replaySet e) 0x62 e
    (fun _ s => replayFields e s ∧ sub e 16 1 = 0 ∧ s.pwr.mode ≠ Mode.standby ∧ s.noDram = false ∧ s.valid ∧ s.replay.st ≠ 0)
    (fun c s => s.complete c stNoResource 0))

/-- The doorbells store their value and move the tail and the head of a queue that is RUNNING or DRAINING (R345, R348,
R435). In a mode in which register writes act: a SQ_TAIL below the ring's length becomes the submission tail of a
RUNNING or DRAINING queue; any other value leaves the tail, is counted in HQ_DB_ERRS and sets HQ_EVT.DB_ERROR. A
CQ_HEAD from the completion head up to the completion tail becomes the completion head and frees that many entries;
any other value is counted the same way. On a queue that is DISABLED or in ERROR the value is only stored. In every
case a read of the doorbell's value gives what was written. Concluded: under conditions on the state and the operands
alone exec answers a next state, for sqTailWrite, cqHeadWrite. -/
def Obligations.DoorbellsAct : Prop :=
  (∀ q v, Moves (.sqTailWrite q v)
    (fun s => s.pwr.mode.awake ∧ ((s.queue q.val).st = .running ∨ (s.queue q.val).st = .draining) ∧ v.toNat < 2 ^ (s.queue q.val).size)
    (fun s => s.setQueue q.val { s.queue q.val with tailBell := v, sqTail := v.toNat })) ∧
  (∀ q v, Moves (.sqTailWrite q v)
    (fun s => s.pwr.mode.awake ∧ ((s.queue q.val).st = .running ∨ (s.queue q.val).st = .draining) ∧ 2 ^ (s.queue q.val).size ≤ v.toNat)
    (fun s => (s.setQueue q.val { s.queue q.val with tailBell := v }).both Reg.HQ_DB_ERRS Reg.HQ_EVT 1)) ∧
  (∀ q v, Moves (.sqTailWrite q v)
    (fun s => s.pwr.mode.awake ∧ ((s.queue q.val).st = .disabled ∨ (s.queue q.val).st = .error))
    (fun s => s.setQueue q.val { s.queue q.val with tailBell := v })) ∧
  (∀ q v, Moves (.cqHeadWrite q v)
    (fun s => s.pwr.mode.awake ∧ ((s.queue q.val).st = .running ∨ (s.queue q.val).st = .draining) ∧ v.toNat < 2 ^ (s.queue q.val).size ∧
      ringDist (2 ^ (s.queue q.val).size) (s.queue q.val).cqHead v.toNat ≤
        ringDist (2 ^ (s.queue q.val).size) (s.queue q.val).cqHead (s.queue q.val).cqTail)
    (fun s =>
      let d := ringDist (2 ^ (s.queue q.val).size) (s.queue q.val).cqHead v.toNat
      s.setQueue q.val { s.queue q.val with headBell := v, cqHead := v.toNat, credit := (s.queue q.val).credit + d })) ∧
  (∀ q v, Moves (.cqHeadWrite q v)
    (fun s => s.pwr.mode.awake ∧ ((s.queue q.val).st = .running ∨ (s.queue q.val).st = .draining) ∧
      (2 ^ (s.queue q.val).size ≤ v.toNat ∨
       ringDist (2 ^ (s.queue q.val).size) (s.queue q.val).cqHead (s.queue q.val).cqTail <
        ringDist (2 ^ (s.queue q.val).size) (s.queue q.val).cqHead v.toNat))
    (fun s => (s.setQueue q.val { s.queue q.val with headBell := v }).both Reg.HQ_DB_ERRS Reg.HQ_EVT 1))

/-- A queue is enabled, drained and disabled, and its entries are fetched (R343, R344, R346). In a mode in which register
writes act: a CTL write with ENABLE 1 that keeps SIZE and PRIO makes a DISABLED queue other than 0 with aligned bases
and a SIZE code of 4-12 RUNNING with heads and tails 0, phase 1 and nothing unsignalled, and with a base that is not
aligned it leaves it DISABLED with CFG_STATUS 0x11; with ENABLE 0 it makes a RUNNING queue DRAINING. A DRAINING queue
with nothing outstanding becomes DISABLED. The queue that R346 picks fetches up to 8 entries; a fetch that ends in an
error puts it into ERROR. Concluded: under conditions on the state and the operands alone exec answers a next state,
for queueEnable, queueDisable, queueDrainEnd, entryFetch. -/
def Obligations.QueueStatesMove : Prop :=
  (∀ q v, Moves (.queueEnable q v)
    (fun s => s.pwr.mode.awake ∧ q ≠ 0 ∧ bitOf v 0 ∧ fieldOf v 1 2 = (s.queue q.val).prio ∧ fieldOf v 4 4 = (s.queue q.val).size ∧
      (s.queue q.val).st = .disabled ∧ (s.queue q.val).sqBase.toNat % 4096 = 0 ∧ (s.queue q.val).cqBase.toNat % 4096 = 0 ∧
      4 ≤ (s.queue q.val).size ∧ (s.queue q.val).size ≤ 12)
    (fun s => s.setQueue q.val { s.queue q.val with
      st := .running, enable := true, sqHead := 0, sqTail := 0, cqTail := 0, cqHead := 0, phase := true,
      credit := 2 ^ (s.queue q.val).size - 1, unsig := 0, fetched := [], cfgStatus := 0 })) ∧
  (∀ q v, Moves (.queueEnable q v)
    (fun s => s.pwr.mode.awake ∧ q ≠ 0 ∧ bitOf v 0 ∧ fieldOf v 1 2 = (s.queue q.val).prio ∧ fieldOf v 4 4 = (s.queue q.val).size ∧
      (s.queue q.val).st = .disabled ∧ (s.queue q.val).sqBase.toNat % 4096 ≠ 0)
    (fun s => s.setQueue q.val { s.queue q.val with cfgStatus := 0x11 })) ∧
  (∀ q v, Moves (.queueDisable q v)
    (fun s => s.pwr.mode.awake ∧ q ≠ 0 ∧ bitOf v 0 = false ∧ fieldOf v 1 2 = (s.queue q.val).prio ∧ fieldOf v 4 4 = (s.queue q.val).size ∧
      (s.queue q.val).st = .running)
    (fun s => s.setQueue q.val { s.queue q.val with st := .draining, enable := false })) ∧
  (∀ q, Moves (.queueDrainEnd q) (fun s => (s.queue q.val).st = .draining ∧ (s.queue q.val).out = [])
    (fun s => s.setQueue q.val { s.queue q.val with st := .disabled, enable := false })) ∧
  (∀ q l, Moves (.entryFetch q (some l)) (fun s => s.pick = some q.val ∧ q ≠ 0)
    (fun s =>
      let t := fetchAll q (l.take (min 8 (min (s.queue q.val).waiting s.host.freeSlots))) s
      State.settle { t with host := { t.host with rrLast := q.val } } q.val)) ∧
  (∀ q, Moves (.entryFetch q none) (fun s => s.pick = some q.val) (queueError q)) ∧
  (∀ q l, Moves (.entryFetch q l) (fun s => s.pick ≠ some q.val) id)

/-- Completions and event records go to the ring in the order in which they became ready (R348, R352, R360, R361, R362).
Where the renderer may write to a queue's ring and a completion is the first item that waits for the queue, it leaves
the outstanding commands and its 16 bytes are put at the completion tail; on the event queue a record goes with the
next sequence number; an error on the link puts the queue into ERROR. With a timer expired, the vector of a queue with
unsignalled entries is raised and they count as signalled. Concluded: under conditions on the state and the operands
alone exec answers a next state, for completionWrite, eventRecordWrite, irqTimerExpiry. -/
def Obligations.CompletionsAreWritten : Prop :=
  (∀ q c st res v2 rest, Moves (.completionWrite q true)
    (fun s => s.mayWrite q.val ∧ firstReady q.val s.host.ready = some (.completion c st res v2, rest))
    (fun s => (putEntry q (fun ph => completionBytes res.toNat c.tag.toNat (if v2 then (s.queue q.val).sqHead else 0) q.val st c.opcode ph)
      c.suppress (State.freeSlot { s with host := { s.host with ready := rest } } c)).settle q.val)) ∧
  (∀ q c st res v2 rest, Moves (.completionWrite q false)
    (fun s => s.mayWrite q.val ∧ firstReady q.val s.host.ready = some (.completion c st res v2, rest)) (queueError q)) ∧
  (∀ kind ident res rest, Moves (.eventRecordWrite true)
    (fun s => s.mayWrite 0 ∧ firstReady 0 s.host.ready = some (.record kind ident res, rest))
    (fun s => overflowRecord (nextSeq (putEntry 0
      (fun ph => completionBytes res.toNat (s.host.evtSeq % 65536) ident 0 kind 0xFF ph) false
      { s with host := { s.host with ready := rest } })))) ∧
  (∀ q, Moves (.irqTimerExpiry q) (fun s => 0 < (s.queue q.val).unsig ∧ s.passed (s.queue q.val).unsigAt (s.irqTimer q.val))
    (fun s => (s.setQueue q.val { s.queue q.val with unsig := 0 }).raiseVec q.val))

/-- Vectors are unmasked and tested, the watchdog expires, and bad accesses are counted (R340, R341, R362, R363, R442). In
a mode in which register writes act: unmasking a vector sends its pending message where the link is up, the renderer
may write and the function is enabled and not masked; SYS_IRQ_TEST raises one message for each vector of 0-26 whose
bit is 1; a write of HQ_WDOG_CFG stores it and restarts the watchdog. The expiry of the running watchdog, which comes
with no time left and not before, stops it, counts, sets HQ_EVT.WDOG, and with ACTION 1 in SHOW asks for FALLBACK. An
access that breaks R9 or R341 is counted in HQ_BAD_ACCESS and sets HQ_EVT.BAD_ACCESS; a read answers 0xFFFF_FFFF. A
change of Bus Master Enable is taken, and messages that may be sent now are sent. Concluded: under conditions on the
state and the operands alone exec answers a next state, for msixUnmask, irqTestWrite, wdogCfgWrite, watchdogExpiry,
badAccess, busMasterEnableChange. -/
def Obligations.InterruptsAndWatchdog : Prop :=
  (∀ v, Moves (.msixUnmask v) (fun s => s.pwr.mode.awake)
    (fun s => sendPending { s with host := { s.host with msix := { s.host.msix with mask := s.host.msix.mask.filter (fun k => k ≠ v.val) } } })) ∧
  (∀ v, Moves (.irqTestWrite v) (fun s => s.pwr.mode.awake) (fun s => ((List.range 27).filter (fun i => bitOf v i)).foldl State.raiseVec s)) ∧
  (∀ v, Moves (.wdogCfgWrite v) (fun s => s.pwr.mode.awake) (fun s => wdogRestart (s.setReg Reg.HQ_WDOG_CFG (v &&& 0xFFFF0003)))) ∧
  (Moves .watchdogExpiry (fun s => s.host.wdogRun ∧ s.host.wdogLeft = 0 ∧ s.pwr.mode = Mode.show_ ∧ bitOf (s.reg Reg.HQ_WDOG_CFG) 1)
    (fun s =>
      let t := State.both { s with host := { s.host with wdogRun := false } } Reg.HQ_WDOG_EXPIRIES Reg.HQ_EVT 5
      { t with pwr := { t.pwr with pendWdog := true } })) ∧
  (Moves .watchdogExpiry (fun s => s.host.wdogRun ∧ s.host.wdogLeft = 0 ∧ s.pwr.mode = Mode.service)
    (fun s => State.both { s with host := { s.host with wdogRun := false } } Reg.HQ_WDOG_EXPIRIES Reg.HQ_EVT 5)) ∧
  (Moves .watchdogExpiry (fun s => s.host.wdogLeft ≠ 0) id) ∧
  (Moves (.badAccess false) (fun _ => True) (fun s => s.both Reg.HQ_BAD_ACCESS Reg.HQ_EVT 0)) ∧
  (Moves (.badAccess true) (fun _ => True)
    (fun s => State.both { s with host := { s.host with answer := some 0xFFFFFFFF#32 } } Reg.HQ_BAD_ACCESS Reg.HQ_EVT 0)) ∧
  (∀ on, Moves (.busMasterEnableChange on) (fun _ => True) (fun s => sendPending { s with host := { s.host with bme := on } }))

/-- The loss of the link drops what was fetched and what waits to be written; its return leaves every queue DISABLED and
empty (R365, R430, R42). When the link goes down, entries fetched and not processed are dropped, every completion and
record that waits is dropped and counted in HQ_CPL_DROPPED, and later ones are until queue 0 is enabled again. When it
returns, every queue is DISABLED and empty with its configuration kept, the host credits are back at 512 and
HQ_EVT.LINK_LOST is set. Concluded: under conditions on the state and the operands alone exec answers a next state,
for pcieLinkLoss, pcieLinkReturn. -/
def Obligations.LinkLossDropsCommands : Prop :=
  (Moves .pcieLinkLoss (fun s => s.host.linkUp)
    (fun s => State.count { s with host := { s.host with
        linkUp := false, bme := false, ready := [], dropRec := true, lost := 0,
        queues := s.host.queues.map (fun q => { q with fetched := [], unsig := 0, held := false }),
        msix := { s.host.msix with mask := List.range 32, pend := [] } } } Reg.HQ_CPL_DROPPED s.host.ready.length)) ∧
  (Moves .pcieLinkReturn (fun s => s.host.linkUp = false)
    (fun s => State.evt { s with host := { s.host with
        linkUp := true, freeSlots := 512,
        queues := s.host.queues.map (fun q =>
          { q with st := .disabled, enable := false, sqHead := 0, sqTail := 0, cqTail := 0, cqHead := 0, phase := true, out := [],
                   fetched := [], held := false, credit := 2 ^ q.size - 1, unsig := 0 }) } } Reg.HQ_EVT 6))

/-- A write of a select register captures the member it names (R38, R440, R117, R159, R179, R194, R303, R279). In a mode
in which register writes act, each select register reads back the index written, and its capture registers hold the
values of that member: the ledger of the last completed boundary with its MSC (zeros and EXISTS 0 for an index that
names no ledger), the target position and saturation count of a locker, its geometry and path counts, the DONE bit of
the path probe cleared, the alignment length and pilot amplitude of a feed, the counters of a flow, and the pending
flags and runs of a task (zeros for a task that is FREE). Which words of the state a capture register shows is the
model's reading of each chapter. Concluded: under conditions on the state and the operands alone exec answers a next
state, for sysLedgerSelWrite, objLkSelWrite, geoLkSelWrite, pthLkSelWrite, pthProbeSelWrite, spkFdSelWrite,
netFlSelWrite, dskTaskSelWrite. -/
def Obligations.SelectsCapture : Prop :=
  (∀ v, Leads (.sysLedgerSelWrite v) (fun s => s.pwr.mode.awake ∧ isLedger (fieldOf v 0 11))
    (fun s t => fieldOf (t.reg Reg.SYS_LEDGER_SEL) 0 11 = fieldOf v 0 11 ∧ bitOf (t.reg Reg.SYS_LEDGER_SEL) 16 ∧
      t.reg Reg.SYS_LEDGER_ACC_LO = word (s.ledger (fieldOf v 0 11)).acc.toNat ∧
      t.reg (Reg.SYS_LEDGER_ACC_LO + 4) = word ((s.ledger (fieldOf v 0 11)).acc.toNat / 2 ^ 32) ∧
      t.reg Reg.SYS_LEDGER_INF_LO = word (s.ledger (fieldOf v 0 11)).inf.toNat ∧
      t.reg Reg.SYS_LEDGER_MSC_LO = word s.led.lastMsc ∧ t.reg Reg.SYS_LEDGER_CLIP = (s.ledger (fieldOf v 0 11)).clip ∧
      t = { s with regs := t.regs })) ∧
  (∀ v, Leads (.sysLedgerSelWrite v) (fun s => s.pwr.mode.awake ∧ isLedger (fieldOf v 0 11) = false)
    (fun s t => bitOf (t.reg Reg.SYS_LEDGER_SEL) 16 = false ∧ t.reg Reg.SYS_LEDGER_ACC_LO = 0 ∧ t.reg Reg.SYS_LEDGER_CLIP = 0 ∧
      t.reg Reg.SYS_LEDGER_MSC_LO = word s.led.lastMsc ∧ t = { s with regs := t.regs })) ∧
  (∀ v, Leads (.objLkSelWrite v) (fun s => s.pwr.mode.awake)
    (fun s t => t.reg Reg.OBJ_LK_SEL = word (fieldOf v 0 10) ∧
      t.reg Reg.OBJ_LK_POS_X = BitVec.ofInt 32 (s.locker (fieldOf v 0 10)).target.x ∧
      t.reg (Reg.OBJ_LK_POS_X + 4) = BitVec.ofInt 32 (s.locker (fieldOf v 0 10)).target.y ∧
      t.reg (Reg.OBJ_LK_POS_X + 8) = BitVec.ofInt 32 (s.locker (fieldOf v 0 10)).target.z ∧
      t.reg Reg.OBJ_LK_SAT = (s.locker (fieldOf v 0 10)).sat ∧ t = { s with regs := t.regs })) ∧
  (∀ v, Leads (.geoLkSelWrite v) (fun s => s.pwr.mode.awake)
    (fun s t => t.reg Reg.GEO_LK_SEL = word (fieldOf v 0 10) ∧
      t.reg Reg.GEO_LK_NORM = bits [(0, toField 16 (s.locker (fieldOf v 0 10)).report.norm), (16, min 0xFFFF (s.locker (fieldOf v 0 10)).report.share)] ∧
      t = { s with regs := t.regs })) ∧
  (∀ v, Leads (.pthLkSelWrite v) (fun s => s.pwr.mode.awake)
    (fun s t => t.reg Reg.PTH_LK_SEL = word (fieldOf v 0 10) ∧
      t.reg Reg.PTH_LK_LAG = word (min 0xFFFFFF ((((s.locker (fieldOf v 0 10)).paths (fun _ => true)).map (fun r => r.lag)).foldl max 0)) ∧
      t = { s with regs := t.regs })) ∧
  (∀ v, Leads (.pthProbeSelWrite v) (fun s => s.pwr.mode.awake)
    (fun s t => t.reg Reg.PTH_PROBE_SEL = v &&& 0x0DFF03FF#32 ∧ bitOf (t.reg Reg.PTH_PROBE_STAT) 0 = false ∧
      t.path.probeFrom = some (s.nextMul 16))) ∧
  (∀ v, Leads (.spkFdSelWrite v) (fun s => s.pwr.mode.awake)
    (fun s t => t.reg Reg.SPK_FD_SEL = word (fieldOf v 0 9) ∧ t.reg Reg.SPK_FD_ALIGN = word (s.feed (fieldOf v 0 9)).len ∧
      t.reg Reg.SPK_FD_PILOT = word (s.feed (fieldOf v 0 9)).lastA ∧ t = { s with regs := t.regs })) ∧
  (∀ v f, Leads (.netFlSelWrite v) (fun s => s.pwr.mode.awake ∧ bitOf v 8 = false ∧ tget s.net.rx (fieldOf v 0 8) = some f)
    (fun s t => t.reg Reg.NET_FL_SEL = v &&& 0x1FF#32 ∧ t.reg Reg.NET_FL_LATE = f.n.getD 0 0 ∧
      t.reg (Reg.NET_FL_LATE + 20) = f.n.getD 5 0 ∧ t = { s with regs := t.regs })) ∧
  (∀ v k, Leads (.dskTaskSelWrite v) (fun s => s.pwr.mode.awake ∧ s.task (fieldOf v 0 8) = some k)
    (fun s t => t.reg Reg.DSK_TASK_SEL = word (fieldOf v 0 8) ∧ t.reg Reg.DSK_TASK_PENDING = k.pending ∧
      t.reg Reg.DSK_TASK_DRY = k.dry ∧ t.reg Reg.DSK_TASK_RUNS = k.runs ∧ t = { s with regs := t.regs })) ∧
  (∀ v, Leads (.dskTaskSelWrite v) (fun s => s.pwr.mode.awake ∧ s.task (fieldOf v 0 8) = none)
    (fun s t => t.reg Reg.DSK_TASK_STAT = 0 ∧ t.reg Reg.DSK_TASK_PENDING = 0 ∧ t.reg Reg.DSK_TASK_RUNS = 0 ∧ t = { s with regs := t.regs }))

/-- Register writes store, clear or arm by the type of the bit; in RESET, BOOT and DORMANT they have no effect (R10, R11,
R435, R436, R441). In a mode in which register writes act and outside the factory test block: a W1C write with no
event in the same cycle clears exactly the W1C bits written 1, those whose condition still stands excepted; a bit of a
register that is no event register and that hardware sets in the same cycle stays set. A write of an enable register
stores its bits and arms, lowest first, each bit that is newly enabled and set. A plain register of the timetable,
memory or service-converter block stores its writable fields and keeps the others. In the other modes these writes
change nothing. In factory mode accesses to the DBG block are refused: its contents are not part of the manual.
Concluded: under conditions on the state and the operands alone exec answers a next state, for w1cWrite,
eventEnableWrite, registerWrite. -/
def Obligations.RegisterWritesStore : Prop :=
  (∀ off v r, Moves (.w1cWrite off v 0) (fun s => s.pwr.mode.awake ∧ ¬(inDbg off ∧ s.factory) ∧ regRow off = some r)
    (watched (fun s => s.setReg off ((s.reg off &&& ~~~(v &&& word r.w1c)) ||| s.standing off)))) ∧
  (∀ off v same r, Moves (.w1cWrite off v same)
    (fun s => s.pwr.mode.awake ∧ ¬(inDbg off ∧ s.factory) ∧ regRow off = some r ∧ evtRow off = none)
    (watched (fun s => s.setReg off ((s.reg off &&& ~~~(v &&& word r.w1c)) ||| (v &&& word r.w1c &&& same) ||| s.standing off)))) ∧
  (∀ off v e r, Moves (.eventEnableWrite off v)
    (fun s => s.pwr.mode.awake ∧ ¬(inDbg off ∧ s.factory) ∧ evtRowByEn off = some e ∧ regRow off = some r)
    (watched (fun s => ((List.range 32).filter (fun i => bitOf ((v &&& word r.rw) &&& ~~~(s.reg off) &&& s.reg e.evt) i)).foldl
      (fun s b => s.arm e.evt b) (s.setReg off (v &&& word r.rw))))) ∧
  (∀ off v r, Moves (.registerWrite .host off v)
    (fun s => s.pwr.mode.awake ∧ regRow off = some r ∧ (off / 0x10000 = 3 ∨ off / 0x10000 = 6 ∨ off / 0x10000 = 15) ∧ isWriteLow off = false ∧
      isWriteLow (off - 4) = false ∧ evtRowByEn off = none ∧ r.w1c = 0 ∧ r.rw ≠ 0)
    (watched (fun s => s.setReg off ((s.reg off &&& ~~~(word r.rw)) ||| (v &&& word r.rw))))) ∧
  (∀ m off v same, ∀ i ∈ [Instr.w1cWrite off v same, .eventEnableWrite off v, .lowWordWrite m off v, .highWordWrite m off v, .registerWrite m off v],
    Moves i (fun s => s.pwr.mode.awake = false ∧ ¬(inDbg off ∧ s.factory)) id) ∧
  (∀ m off v same, ∀ i ∈ [Instr.w1cWrite off v same, .eventEnableWrite off v, .lowWordWrite m off v, .highWordWrite m off v, .registerWrite m off v,
      .lowWordRead m off, .clearOnRead off],
    ∀ s : State, inDbg off → s.factory → exec i s = .refused .factoryTestBlock)

/-- 64-bit pairs are read and written through latches, and a high-water mark clears on reading (R12, R367, R438, R444).
Reading the low word of a 64-bit pair, where BAR0 can be read, answers the low half and holds the high half for that
master, which reading the high word then gives, and changes nothing else. Writing the low word of a writable pair only
holds it for that master; writing the high word stores both halves as one write of the whole value. Reading PWR_TEMP,
MEM_PAUSE or MEM_CELLAR_MIN starts their high-water marks anew. A write by a DMA channel 0-27 to a register that it
may not reach changes nothing. Concluded: under conditions on the state and the operands alone exec answers a next
state, for lowWordRead, lowWordWrite, highWordWrite, clearOnRead. -/
def Obligations.PairsGoThroughLatches : Prop :=
  (∀ m off, Leads (.lowWordRead m off)
    (fun s => s.readable ∧ mayReach m off ∧ off < 0xFFFFC ∧ isLow off ∧ isLow (off + 4) = false)
    (fun s t => (m = .host → t.host.answer = some (word (s.pairVal off))) ∧ (readReg m (off + 4) t).1 = word (s.pairVal off / 2 ^ 32) ∧
      t = { s with rlatch := t.rlatch, host := { s.host with answer := t.host.answer } })) ∧
  (∀ m off v, Leads (.lowWordWrite m off v)
    (fun s => s.pwr.mode.awake ∧ mayReach m off ∧ off < 0x100000 ∧ isWriteLow off)
    (fun s t => latchGet t.wlatch (off, m) = v ∧ t = { s with wlatch := t.wlatch })) ∧
  (∀ m lo v, Moves (.highWordWrite m (lo + 4) v)
    (fun s => s.pwr.mode.awake ∧ mayReach m (lo + 4) ∧ lo + 4 < 0x100000 ∧ isWriteLow lo ∧ isWriteLow (lo + 4) = false)
    (watched (fun s => pairStore lo ((latchGet s.wlatch (lo, m)).toNat + 2 ^ 32 * v.toNat) s))) ∧
  (Moves (.clearOnRead Reg.PWR_TEMP) (fun s => s.readable) (fun s => { s with pwr := { s.pwr with tempMax := 0 }, host := { s.host with answer := some ((s.live Reg.PWR_TEMP).getD (s.reg Reg.PWR_TEMP)) } })) ∧
  (Moves (.clearOnRead Reg.MEM_PAUSE) (fun s => s.readable) (fun s => { s with memory := { s.memory with pauseHigh := 0 }, host := { s.host with answer := some ((s.live Reg.MEM_PAUSE).getD (s.reg Reg.MEM_PAUSE)) } })) ∧
  (Moves (.clearOnRead Reg.MEM_CELLAR_MIN) (fun s => s.readable) (fun s => { s with memory := { s.memory with cellarMin := 192 }, host := { s.host with answer := some ((s.live Reg.MEM_CELLAR_MIN).getD (s.reg Reg.MEM_CELLAR_MIN)) } })) ∧
  (∀ c off v, ∀ i ∈ [Instr.lowWordWrite (.dma c) off v, .highWordWrite (.dma c) off v, .registerWrite (.dma c) off v],
    Moves i (fun s => s.pwr.mode.awake ∧ ¬(inDbg off ∧ s.factory) ∧ regBarred c.val off 4) id)

/-- Scalar instructions write the wrapped result, the pointer or the buffer, and nothing else (R236, R242, R243, R244,
R245, R246, R247). A desk that takes the instruction answers the next state with: LI the low 32 bits of the word in
S[D]; ADD, SUB, AND, OR, XOR, SHL, SHR, SAR and MUL of S[X] and of S[Y] or, with I, the sign-extended IMM16 in S[D],
wrapped modulo 2^32, a shift taking the low five bits of the amount; SETP the pointer S[X] plus IMM16 folded into its
buffer; SETM the buffer base and length of a pointer with base plus length within the memory, the pointer folded in
where it lies outside; GETP the pointer in S[D]; NOP nothing. A write of S0 is ignored. No lane saturates. Concluded:
under conditions on the state and the operands alone exec answers a next state, for dNop, dLi, dAdd, dSub, dAnd, dOr,
dXor, dShl, dShr, dSar, dMul, dSetp, dSetm, dGetp. -/
def Obligations.DeskScalarResults : Prop :=
  Computes .dNop 0x00 (fun _ _ => True) (fun _ k => (k, 0)) ∧
  Computes .dLi 0x10 (fun _ _ => True) (fun w k => (k.setS (fD w) (fLow w), 0)) ∧
  Computes .dAdd 0x11 (fun _ _ => True) (fun w k => (k.setS (fD w) (k.sreg (fX w) + aluB w k), 0)) ∧
  Computes .dSub 0x12 (fun _ _ => True) (fun w k => (k.setS (fD w) (k.sreg (fX w) - aluB w k), 0)) ∧
  Computes .dAnd 0x13 (fun _ _ => True) (fun w k => (k.setS (fD w) (k.sreg (fX w) &&& aluB w k), 0)) ∧
  Computes .dOr 0x14 (fun _ _ => True) (fun w k => (k.setS (fD w) (k.sreg (fX w) ||| aluB w k), 0)) ∧
  Computes .dXor 0x15 (fun _ _ => True) (fun w k => (k.setS (fD w) (k.sreg (fX w) ^^^ aluB w k), 0)) ∧
  Computes .dShl 0x16 (fun _ _ => True) (fun w k => (k.setS (fD w) (k.sreg (fX w) <<< fieldOf (aluB w k) 0 5), 0)) ∧
  Computes .dShr 0x17 (fun _ _ => True) (fun w k => (k.setS (fD w) (k.sreg (fX w) >>> fieldOf (aluB w k) 0 5), 0)) ∧
  Computes .dSar 0x18 (fun _ _ => True) (fun w k => (k.setS (fD w) ((k.sreg (fX w)).sshiftRight (fieldOf (aluB w k) 0 5)), 0)) ∧
  Computes .dMul 0x19 (fun _ _ => True) (fun w k => (k.setS (fD w) (k.sreg (fX w) * aluB w k), 0)) ∧
  Computes .dSetp 0x1C (fun _ _ => True)
    (fun w k => (k.setPtr (fPA w) (k.fold (fPA w) ((((k.sreg (fX w)).toNat + fImm w) % 131072 : Nat) : Int)), 0)) ∧
  Computes .dSetm 0x1D (fun w k => fieldOf (k.sreg (fX w)) 0 17 + fieldOf (k.sreg (fY w)) 0 18 ≤ 131072)
    (fun w k =>
      let b := fieldOf (k.sreg (fX w)) 0 17
      let l := fieldOf (k.sreg (fY w)) 0 18
      let k1 := { k with mb := k.mb.set (fPA w) b, ml := k.ml.set (fPA w) l }
      (if l = 0 ∨ (b ≤ k.ptr (fPA w) ∧ k.ptr (fPA w) < b + l) then k1 else k1.setPtr (fPA w) (k1.fold (fPA w) (k.ptr (fPA w))), 0)) ∧
  Computes .dGetp 0x1E (fun _ _ => True) (fun w k => (k.setS (fD w) (word (k.ptr (fPA w))), 0))

/-- Loads and stores move the words at the pointer and step the pointer (R234, R242, R243, R246). A desk that takes the
instruction, the accessed addresses existing and, for a read, none of them holding an uncorrectable error, answers the
next state with: LDS the word at P[PA] in S[D], VLD the eight words in V[D], VLDB the word in every lane of V[D]; STS
S[X] and VST the eight lanes of V[X] stored at the addresses; each with P[PA] stepped by the signed SA and folded into
its buffer. Concluded: under conditions on the state and the operands alone exec answers a next state, for dLds, dSts,
dVld, dVst, dVldb. -/
def Obligations.DeskMemoryResults : Prop :=
  (∀ as, Computes .dLds 0x1A (fun w k => k.addrs (fPA w) 0 1 = some as ∧ as.any k.bad.contains = false)
    (fun w k => ((k.setS (fD w) ((k.load as).getD 0 0)).bump (fPA w) (fSA w), 0))) ∧
  (∀ as, Computes .dSts 0x1B (fun w k => k.addrs (fPA w) 0 1 = some as)
    (fun w k => ((k.store as [k.sreg (fX w)]).bump (fPA w) (fSA w), 0))) ∧
  (∀ as, Computes .dVld 0x20 (fun w k => k.addrs (fPA w) 0 8 = some as ∧ as.any k.bad.contains = false)
    (fun w k => ((k.setV (fD w) (k.load as)).bump (fPA w) (fSA w), 0))) ∧
  (∀ as, Computes .dVst 0x21 (fun w k => k.addrs (fPA w) 0 8 = some as)
    (fun w k => ((k.store as (k.vec (fX w))).bump (fPA w) (fSA w), 0))) ∧
  (∀ as, Computes .dVldb 0x22 (fun w k => k.addrs (fPA w) 0 1 = some as ∧ as.any k.bad.contains = false)
    (fun w k => ((k.setV (fD w) (List.replicate 8 ((k.load as).getD 0 0))).bump (fPA w) (fSA w), 0)))

/-- Vector instructions compute eight exact results, saturate them and count the lanes that did (R242, R243, R244). A desk
that takes the instruction answers the next state with: VINS V[D] with one lane set to S[X]; VEXT one lane of V[X] in
S[D]; VADD, VSUB, VMIN, VMAX, VABS, VNEG, VMUL (shifted right by SH with rounding), VSHL and VSAR the eight results in
V[D], each saturated to 32 bits, the lanes that saturated counted in DSK_Dn_SAT. Concluded: under conditions on the
state and the operands alone exec answers a next state, for dVins, dVext, dVadd, dVsub, dVmin, dVmax, dVabs, dVneg,
dVmul, dVshl, dVsar. -/
def Obligations.DeskVectorResults : Prop :=
  let sats (k : Desk) (w : DeskBits) (xs : List Int) : Desk × Nat :=
    (k.setV (fD w) (xs.map (fun x => BitVec.ofInt 32 (sat32 x))), (xs.map sats32).sum)
  let two (f : Int → Int → Int) (w : DeskBits) (k : Desk) : Desk × Nat :=
    sats k w (((k.vec (fX w)).map BitVec.toInt).zipWith f ((k.vec (fY w)).map BitVec.toInt))
  let one (f : Int → Int) (w : DeskBits) (k : Desk) : Desk × Nat := sats k w (((k.vec (fX w)).map BitVec.toInt).map f)
  Computes .dVins 0x23 (fun _ _ => True) (fun w k => (k.setV (fD w) ((k.vec (fD w)).set (fImm w % 8) (k.sreg (fX w))), 0)) ∧
  Computes .dVext 0x24 (fun _ _ => True) (fun w k => (k.setS (fD w) (k.lane (fX w) (fImm w % 8)), 0)) ∧
  Computes .dVadd 0x30 (fun _ _ => True) (two (· + ·)) ∧
  Computes .dVsub 0x31 (fun _ _ => True) (two (· - ·)) ∧
  Computes .dVmin 0x32 (fun _ _ => True) (two min) ∧
  Computes .dVmax 0x33 (fun _ _ => True) (two max) ∧
  Computes .dVabs 0x34 (fun _ _ => True) (one (fun x => (x.natAbs : Int))) ∧
  Computes .dVneg 0x35 (fun _ _ => True) (one (fun x => -x)) ∧
  Computes .dVmul 0x36 (fun _ _ => True) (fun w k => two (fun x y => rdiv (x * y) (2 ^ (fImm w % 64))) w k) ∧
  Computes .dVshl 0x37 (fun _ _ => True) (fun w k => one (fun x => x * 2 ^ (fImm w % 32)) w k) ∧
  Computes .dVsar 0x38 (fun _ _ => True) (fun w k => one (fun x => rdiv x (2 ^ (fImm w % 32))) w k)

/-- Accumulator, filter and transform instructions compute as the table says (R243, R244, R245, R250, R251, R252). A desk
that takes the instruction, its addresses existing and, where read, without error, answers the next state with: VCLR
eight zeros in ACC[AC]; VMAC and VMSU the lane products added to and taken from ACC[AC], VMACM the products of the
words at P[PA] and P[PB], FTAP the products of the eight words at P[PA] and the eight coefficients, or with I the one,
at P[PB], those words moved eight addresses on, each accumulator saturated at 72 bits and the lanes counted; VSTA the
accumulator shifted right with rounding and saturated in V[D]; BEXP the smaller of S[D] and the least number of
redundant sign bits; BFLY four butterflies in place. Concluded: under conditions on the state and the operands alone
exec answers a next state, for dVclr, dVmac, dVmsu, dVmacm, dFtap, dVsta, dBexp, dBfly. -/
def Obligations.DeskAccumulatorResults : Prop :=
  let int (ws : List Word) : List Int := ws.map BitVec.toInt
  let acc (k : Desk) (w : DeskBits) (ps : List Int) : Desk × Nat :=
    let ys := (k.accs (fAC w)).zipWith (· + ·) ps
    (k.setAcc (fAC w) (ys.map satAcc), (ys.map satsAcc).sum)
  Computes .dVclr 0x40 (fun _ _ => True) (fun w k => (k.setAcc (fAC w) (List.replicate 8 0), 0)) ∧
  Computes .dVmac 0x41 (fun _ _ => True) (fun w k => acc k w ((int (k.vec (fX w))).zipWith (· * ·) (int (k.vec (fY w))))) ∧
  Computes .dVmsu 0x42 (fun _ _ => True) (fun w k => acc k w ((int (k.vec (fX w))).zipWith (fun x y => -(x * y)) (int (k.vec (fY w))))) ∧
  (∀ as bs, Computes .dVmacm 0x43
    (fun w k => k.addrs (fPA w) 0 8 = some as ∧ as.any k.bad.contains = false ∧ k.addrs (fPB w) 0 8 = some bs ∧ bs.any k.bad.contains = false)
    (fun w k =>
      let r := acc k w ((int (k.load as)).zipWith (· * ·) (int (k.load bs)))
      ((r.1.bump (fPA w) (fSA w)).bump (fPB w) (fSB w), r.2))) ∧
  (∀ hs ts cs, Computes .dFtap 0x44
    (fun w k => k.addrs (fPA w) 0 8 = some hs ∧ hs.any k.bad.contains = false ∧ k.addrs (fPA w) 8 8 = some ts ∧
      k.addrs (fPB w) 0 (if fI w then 1 else 8) = some cs ∧ cs.any k.bad.contains = false)
    (fun w k =>
      let c := if fI w then List.replicate 8 ((k.load cs).getD 0 0) else k.load cs
      let r := acc k w ((int (k.load hs)).zipWith (· * ·) (int c))
      (((r.1.store ts (k.load hs)).bump (fPA w) (fSA w)).bump (fPB w) (fSB w), r.2))) ∧
  Computes .dVsta 0x45 (fun _ _ => True)
    (fun w k =>
      let xs := (k.accs (fAC w)).map (fun x => rdiv x (2 ^ (fImm w % 64)))
      (k.setV (fD w) (xs.map (fun x => BitVec.ofInt 32 (sat32 x))), (xs.map sats32).sum)) ∧
  Computes .dBexp 0x48 (fun w _ => fI w) (fun w k => (k.setS (fD w) (minRsb (k.sreg (fD w)) (k.vec (fX w))), 0)) ∧
  (∀ as, Computes .dBexp 0x48 (fun w k => fI w = false ∧ k.addrs (fPA w) 0 8 = some as ∧ as.any k.bad.contains = false)
    (fun w k => ((k.setS (fD w) (minRsb (k.sreg (fD w)) (k.load as))).bump (fPA w) (fSA w), 0))) ∧
  (∀ as bs ts, Computes .dBfly 0x49
    (fun w k => fieldOf w 8 2 ≠ 3 ∧ k.addrs (fPA w) 0 8 = some as ∧ as.any k.bad.contains = false ∧
      k.addrs (fPB w) 0 8 = some bs ∧ bs.any k.bad.contains = false ∧ k.addrs (fX w % 8) 0 8 = some ts ∧ ts.any k.bad.contains = false)
    (fun w k =>
      let at_ (l : List Word) (i : Nat) : Int := (l.getD i 0).toInt
      let rs := (List.range 4).map (butterfly (fieldOf w 8 2) (at_ (k.load as)) (at_ (k.load bs)) (at_ (k.load ts)))
      let xa := (rs.map Prod.fst).flatten
      let xb := (rs.map Prod.snd).flatten
      let out (xs : List Int) : List Word := xs.map (fun x => BitVec.ofInt 32 (sat32 x))
      let k1 := k.setS (fD w) (minRsb (k.sreg (fD w)) (out xa ++ out xb))
      (((((k1.store as (out xa)).store bs (out xb)).bump (fPA w) (fSA w)).bump (fPB w) (fSB w)).bump (fX w % 8) (signed 8 (fieldOf w 0 8)),
        ((xa ++ xb).map sats32).sum)))

/-- Control instructions steer the program, signal tasks, start transfers and retire (R239, R243, R248, R249, R253, R254,
R257). A desk that takes the instruction: BR whose condition holds goes on at IMM16, leaving the loops whose body does
not hold it, with two more cycles, and one whose condition does not hold goes on at the next instruction; CALL with
room pushes the next index and goes to IMM16; RET with a level pops it; LOOP with an end behind it, room and a count
that is not 0 opens the loop; REPEAT of 0 goes on at the next instruction, which it does not take; TRAP halts at the
next instruction with DESK_EVT bit 1; RETIRE retires its task; SIGNAL of an existing task with a free outlet posts and
goes on, with a full one waits and counts a stall; XFER of words within the memory and the window starts the transfer
and goes on; XWAIT with none running goes on. Concluded: under conditions on the state and the operands alone exec
answers a next state, for dBr, dCall, dRet, dLoop, dRepeat, dTrap, dRetire, dSignal, dXfer, dXwait. -/
def Obligations.DeskControlResults : Prop :=
  Steers .dBr 0x02 (fun d w s => condition (fD w) ((s.desk d).sreg (fX w)) ((s.desk d).sreg (fY w)) = some true)
    (fun d w r s => s.setDesk d ((s.desk d).after 0x02 r w ((s.desk d).branch (fImm w)) 2)) ∧
  Computes .dBr 0x02 (fun w k => condition (fD w) (k.sreg (fX w)) (k.sreg (fY w)) = some false) (fun _ k => (k, 0)) ∧
  Steers .dCall 0x03 (fun d _ s => (s.desk d).calls.length < 8 ∧ (s.desk d).pc + 1 < 65536)
    (fun d w r s => s.setDesk d ((s.desk d).after 0x03 r w { s.desk d with calls := ((s.desk d).pc + 1) :: (s.desk d).calls, pc := fImm w } 0)) ∧
  (∀ a rest, Steers .dRet 0x04 (fun d _ s => (s.desk d).calls = a :: rest)
    (fun d w r s => s.setDesk d ((s.desk d).after 0x04 r w { s.desk d with calls := rest, pc := a } 0))) ∧
  Steers .dLoop 0x05
    (fun d w s => (s.desk d).pc < fieldOf w 0 16 ∧ (s.desk d).loops.length < 4 ∧
      (if fX w = 0 then fieldOf w 16 16 else fieldOf ((s.desk d).sreg (fX w)) 0 16) ≠ 0)
    (fun d w r s => s.setDesk d ((s.desk d).after 0x05 r w
      { s.desk d with loops := ((s.desk d).pc + 1, fieldOf w 0 16, if fX w = 0 then fieldOf w 16 16 else fieldOf ((s.desk d).sreg (fX w)) 0 16) :: (s.desk d).loops,
                      pc := (s.desk d).pc + 1 } 0)) ∧
  (∀ k1, Steers .dRepeat 0x06
    (fun d w s => fX w = 0 ∧ fImm w = 0 ∧ ∀ r, deskRow 0x06 = some r → ((s.desk d).after 0x06 r w (s.desk d) 0).advance = some k1)
    (fun d _ _ s => s.deskNext d k1)) ∧
  (∀ k1, Steers .dTrap 0x07
    (fun d w s => ∀ r, deskRow 0x07 = some r → ((s.desk d).after 0x07 r w (s.desk d) 0).advance = some k1)
    (fun d _ _ s => (s.setDesk d { k1 with st := .halted, passBrk := false }).evt Reg.DSK_DESK_EVT 1)) ∧
  Steers .dRetire 0x01 (fun _ _ _ => True) (fun d w r s => (s.setDesk d ((s.desk d).after 0x01 r w (s.desk d) 0)).retireTask d) ∧
  (∀ t m, Steers .dSignal 0x08
    (fun d w s => t = fieldOf ((s.desk d).sreg (fX w)) 0 8 ∧ m = (s.desk d).sreg (fY w) ∧ m ≠ 0 ∧ (s.task t).isSome ∧ s.canPost t m)
    (fun d w r s => (s.applyPost t m).deskNext d ((s.desk d).after 0x08 r w (s.desk d) 0))) ∧
  (∀ t m, Steers .dSignal 0x08
    (fun d w s => t = fieldOf ((s.desk d).sreg (fX w)) 0 8 ∧ m = (s.desk d).sreg (fY w) ∧ m ≠ 0 ∧ (s.task t).isSome ∧ s.canPost t m = false)
    (fun d w r s => ((s.setDesk d { (s.desk d).after 0x08 r w (s.desk d) 0 with sigWait := true }).hold (.desk d) t m).count
      (dskReg Reg.DSK_Dn_SIG_STALLS d) 1)) ∧
  (∀ n o, Steers .dXfer 0x50
    (fun d w s => n = ((s.desk d).sreg (fY w)).toNat ∧ o = ((s.desk d).sreg (fX w)).toNat ∧ 0 < n ∧ n ≤ 16384 ∧
      (s.desk d).ptr (fPA w) + n ≤ 131072 ∧ 4 * (o + n) ≤ s.spillSize d)
    (fun d w r s => s.deskNext d { (s.desk d).after 0x50 r w (s.desk d) 0 with
      xfer := some { spill := fI w, loc := (s.desk d).ptr (fPA w), off := o, todo := List.range n, len := n } })) ∧
  Computes .dXwait 0x51 (fun _ k => k.xfer = none) (fun _ k => (k, 0))

/-- Illegal words, bad addresses, stacks, repeats, windows and runaways fault the desk (R242, R246, R248, R249, R254,
R255, R256). On a RUNNING desk that takes it: RET with no level and CALL at the eighth are STACK faults (3), LDS
beyond the memory an ADDRESS fault (2), LDS of a word with an uncorrectable error a MEMORY fault (6), REPEAT above
4,096 a REPEAT fault (4), XFER outside the window a SPILL fault (5), LOOP with END at or before PC an ILLEGAL fault
(1); a word whose unused field is not 0 and an OP that the table does not have are ILLEGAL faults; an instruction that
brings a run to RUN_LIMIT cycles (shown of NOP), and RUNAWAY of a running desk whose cycles have reached its limit or
that waits, is fault 7. A fault puts the desk in FAULT with its code, counts and reports it; the program counter
stays. Concluded: under conditions on the state and the operands alone exec answers a next state, for dRet, dCall,
dLds, dRepeat, dXfer, dLoop, dNop, runaway. -/
def Obligations.DeskFaultsStopTheTask : Prop :=
  Steers .dRet 0x04 (fun d _ s => (s.desk d).calls = []) (fun d _ _ s => s.deskFault d 3) ∧
  Steers .dCall 0x03 (fun d _ s => 8 ≤ (s.desk d).calls.length) (fun d _ _ s => s.deskFault d 3) ∧
  Steers .dLds 0x1A (fun d w s => (s.desk d).addrs (fPA w) 0 1 = none) (fun d _ _ s => s.deskFault d 2) ∧
  (∀ as, Steers .dLds 0x1A (fun d w s => (s.desk d).addrs (fPA w) 0 1 = some as ∧ as.any (s.desk d).bad.contains)
    (fun d _ _ s => s.deskFault d 6)) ∧
  Steers .dRepeat 0x06 (fun d w s => fX w ≠ 0 ∧ 4096 < ((s.desk d).sreg (fX w)).toNat) (fun d _ _ s => s.deskFault d 4) ∧
  Steers .dXfer 0x50 (fun d w s => (s.desk d).ptr (fPA w) + ((s.desk d).sreg (fY w)).toNat ≤ 131072 ∧
      s.spillSize d < 4 * (((s.desk d).sreg (fX w)).toNat + ((s.desk d).sreg (fY w)).toNat)) (fun d _ _ s => s.deskFault d 5) ∧
  Steers .dLoop 0x05 (fun d w s => fieldOf w 0 16 ≤ (s.desk d).pc) (fun d _ _ s => s.deskFault d 1) ∧
  (∀ (d : Fin 16) w, Moves (.dNop d w)
    (fun s => (s.desk d.val).st = .running ∧ (s.desk d.val).sigWait = false ∧ s.brkHit d.val (s.desk d.val).pc = false ∧
      (s.desk d.val).bad = [] ∧ strayBits [] w ∧ (deskRow ((s.desk d.val).fetchAt (s.desk d.val).pc).1).isSome ∧
      (s.deskFault d.val 1).underLimit d.val)
    (fun s => s.deskFault d.val 1)) ∧
  (∀ (d : Fin 16) w, Moves (.dNop d w)
    (fun s => (s.desk d.val).st = .running ∧ (s.desk d.val).sigWait = false ∧ s.brkHit d.val (s.desk d.val).pc = false ∧
      (s.desk d.val).bad = [] ∧ deskRow ((s.desk d.val).fetchAt (s.desk d.val).pc).1 = none ∧ (s.deskFault d.val 1).underLimit d.val)
    (fun s => s.deskFault d.val 1)) ∧
  (∀ (d : Fin 16) w r k2, Moves (.dNop d w)
    (fun s => deskRow 0 = some r ∧ s.deskTakes d.val r w ∧ ((s.desk d.val).after 0 r w (s.desk d.val) 0).advance = some k2 ∧
      ((s.count (dskReg Reg.DSK_Dn_SAT d.val) 0).setDesk d.val k2).underLimit d.val = false)
    (fun s => ((s.count (dskReg Reg.DSK_Dn_SAT d.val) 0).setDesk d.val k2).deskFault d.val 7)) ∧
  (∀ d : Fin 16, Moves (.runaway d)
    (fun s => (s.desk d.val).st = .running ∧ s.reg (dskReg Reg.DSK_Dn_RUN_LIMIT d.val) ≠ 0 ∧
      ((s.reg (dskReg Reg.DSK_Dn_RUN_LIMIT d.val)).toNat ≤ (s.desk d.val).cycles ∨ (s.desk d.val).sigWait ∨ (s.desk d.val).xferWait))
    (fun s => (s.setDesk d.val ((s.desk d.val).spend ((s.reg (dskReg Reg.DSK_Dn_RUN_LIMIT d.val)).toNat - (s.desk d.val).cycles))).deskFault d.val 7)) ∧
  (∀ (s : State) (d code : Nat), d < s.desks.length → (s.desk d).task = none →
    ((s.deskFault d code).desk d).st = .fault ∧ ((s.deskFault d code).desk d).fault = code ∧
    ((s.deskFault d code).desk d).pc = (s.desk d).pc)

/-- HALT, RUN, STEP, CLEAR, ENABLE, the debug window and the end of an XFER act on a desk (R233, R254, R257, R258). While
the register bar acts: HALT of a RUNNING or IDLE desk makes it HALTED; RUN of a HALTED desk with a task makes it
RUNNING, without one IDLE; STEP of a HALTED desk with a task runs the instruction at PC from local memory; CLEAR of a
desk in FAULT makes it IDLE; ENABLE 1 of a desk that is OFF makes it IDLE and 0 of an IDLE one OFF; in HALTED a write
of PC and of DBG_DATA takes, in another state neither does. An XFER that completes without an error moves its words
and ends; a fill with a word that met an uncorrectable error leaves 0 there, is counted in DSK_Dn_SPILL_ERRS and sets
DESK_EVT bit 4. Concluded: under conditions on the state and the operands alone exec answers a next state, for
deskHalt, deskRun, deskStep, deskClear, deskEnableWrite, deskPcWrite, deskDbgDataWrite, xferComplete. -/
def Obligations.DeskDebugActs : Prop :=
  (∀ d : Fin 16, Moves (.deskHalt d) (fun s => s.pwr.mode.awake ∧ ((s.desk d.val).st = .running ∨ (s.desk d.val).st = .idle))
    (fun s => s.setDesk d.val { s.desk d.val with st := .halted })) ∧
  (∀ d : Fin 16, Moves (.deskRun d) (fun s => s.pwr.mode.awake ∧ (s.desk d.val).st = .halted ∧ (s.desk d.val).task.isSome)
    (fun s => s.setDesk d.val { s.desk d.val with st := .running, passBrk := true, stepWait := false })) ∧
  (∀ d : Fin 16, Moves (.deskRun d) (fun s => s.pwr.mode.awake ∧ (s.desk d.val).st = .halted ∧ (s.desk d.val).task = none)
    (fun s => s.setDesk d.val { s.desk d.val with st := .idle })) ∧
  (∀ d : Fin 16, Moves (.deskStep d)
    (fun s => s.pwr.mode.awake ∧ (s.desk d.val).st = .halted ∧ (s.desk d.val).task.isSome ∧ (s.desk d.val).sigWait = false ∧
      (s.desk d.val).stepWait = false)
    (fun s =>
      let t := (deskExec 2 d.val ((s.desk d.val).fetchAt (s.desk d.val).pc).1 ((s.desk d.val).fetchAt (s.desk d.val).pc).2 s).runLimit d.val
      t.setDesk d.val { t.desk d.val with stepWait := (t.desk d.val).xferWait })) ∧
  (∀ d : Fin 16, Moves (.deskClear d) (fun s => s.pwr.mode.awake ∧ (s.desk d.val).st = .fault)
    (fun s => s.setDesk d.val { s.desk d.val with st := .idle, fault := 0 })) ∧
  (∀ (d : Fin 16) v, Moves (.deskEnableWrite d v)
    (fun s => s.pwr.mode.awake ∧ bitOf v 0 ∧ (s.desk d.val).st = .off ∧ fieldOf v 1 2 = (s.desk d.val).group)
    (fun s => s.setDesk d.val { s.desk d.val with enable := true, st := .idle, fault := 0, pc := 0 })) ∧
  (∀ (d : Fin 16) v, Moves (.deskEnableWrite d v)
    (fun s => s.pwr.mode.awake ∧ bitOf v 0 = false ∧ (s.desk d.val).st = .idle ∧ fieldOf v 1 2 = (s.desk d.val).group)
    (fun s => s.setDesk d.val { s.desk d.val with enable := false, st := .off })) ∧
  (∀ (d : Fin 16) v, Moves (.deskPcWrite d v) (fun s => s.pwr.mode.awake ∧ (s.desk d.val).st = .halted)
    (fun s => s.setDesk d.val { s.desk d.val with pc := fieldOf v 0 16 })) ∧
  (∀ (d : Fin 16) v, Moves (.deskDbgDataWrite d v) (fun s => s.pwr.mode.awake ∧ (s.desk d.val).st = .halted)
    (fun s => s.setDesk d.val ((s.desk d.val).dbgWrite (s.reg (dskReg Reg.DSK_Dn_DBG_SEL d.val)).toNat v))) ∧
  (∀ (d : Fin 16) v, Moves (.deskPcWrite d v) (fun s => (s.desk d.val).st ≠ .halted) id ∧
    Moves (.deskDbgDataWrite d v) (fun s => (s.desk d.val).st ≠ .halted) id) ∧
  (∀ (d : Fin 16) x, Moves (.xferComplete d []) (fun s => (s.desk d.val).xfer = some x ∧ (s.desk d.val).stepWait = false)
    (fun s => (s.xferMove d.val x.todo).setDesk d.val { (s.xferMove d.val x.todo).desk d.val with xfer := none })) ∧
  (∀ (d : Fin 16) x b, Moves (.xferComplete d [b])
    (fun s => (s.desk d.val).xfer = some x ∧ (s.desk d.val).stepWait = false ∧ x.spill = false ∧ b < x.len)
    (fun s => (((s.xferMove d.val x.todo).setDesk d.val
      { ((s.xferMove d.val x.todo).desk d.val).mset (x.loc + b) 0 with xfer := none }).count (dskReg Reg.DSK_Dn_SPILL_ERRS d.val) 1).evt
        Reg.DSK_DESK_EVT 4))

/-- MOVE, LOOP, WAIT, SIGNAL and JUMP of a running channel act as their rows say (R367, R368, R369, R370, R371, R372,
R373). A channel that is running, with no MOVE, abort or pause under way, whose instruction is readable and well
formed: MOVE with a length of whole words and both sides in their spaces begins the copy, its ends strided by the
loop's index; LOOP with COUNT 0 goes on behind its body, with COUNT above 0 and room it opens the loop at the next
instruction; WAIT for an MSC that has come goes on, for one that has not it waits; SIGNAL of an existing task with
room posts and goes on, without room it waits and counts a stall, to a FREE task it goes on; JUMP goes to PC + 32 ×
OFFSET, ending the loops whose body it leaves. Concluded: under conditions on the state and the operands alone exec
answers a next state, for dmaMove, dmaLoop, dmaWait, dmaSignal, dmaJump. -/
def Obligations.DmaInstructionsAct : Prop :=
  let takes (c : Fin 32) (op : Nat) (ins : DmaBits) (s : State) : Prop :=
    (s.dch c.val).ready ∧ fieldOf ins 0 8 = op ∧ s.dmaFetchFault c.val = none
  let got (c : Fin 32) (s : State) : State := s.setDch c.val { s.dch c.val with afterMove := false }
  (∀ c ins, Moves (.dmaMove c ins)
    (fun s =>
      let p := movePlan ins ((got c s).dch c.val).iter
      takes c 1 ins s ∧ moveOk ins ∧ p.1.len % 4 = 0 ∧ (got c s).sideOk c.val p.1.srcSpace p.2.1 p.1.len p.1.srcFixed false ∧
      (got c s).sideOk c.val p.1.dstSpace p.2.2 p.1.len p.1.dstFixed true ∧
      (got c s).spaceDown p.1.srcSpace = none ∧ (got c s).spaceDown p.1.dstSpace = none)
    (fun s =>
      let p := movePlan ins ((got c s).dch c.val).iter
      (got c s).setDch c.val { (got c s).dch c.val with move := some { p.1 with src := p.2.1.toNat, dst := p.2.2.toNat } })) ∧
  (∀ c ins, Moves (.dmaLoop c ins) (fun s => takes c 2 ins s ∧ loopOk ins ∧ fieldOf ins 32 32 = 0)
    (fun s =>
      let k := (got c s).dch c.val
      let r := dmaLoopEnd ((k.pc + 32 * (fieldOf ins 16 16 + 1)) % 2 ^ 64) k.loops
      (got c s).setDch c.val { k with pc := r.1, loops := r.2 })) ∧
  (∀ c ins, Moves (.dmaLoop c ins)
    (fun s => takes c 2 ins s ∧ loopOk ins ∧ fieldOf ins 32 32 ≠ 0 ∧ ((got c s).dch c.val).loops.length < 2)
    (fun s =>
      let k := (got c s).dch c.val
      (got c s).setDch c.val { k with pc := (k.pc + 32) % 2 ^ 64, loops := { first := (k.pc + 32) % 2 ^ 64, body := fieldOf ins 16 16, count := fieldOf ins 32 32, i := 0 } :: k.loops })) ∧
  (∀ c ins t, Moves (.dmaWait c ins)
    (fun s => takes c 3 ins s ∧ waitOk ins ∧ fieldOf ins 8 8 = 0 ∧
      t = (((fieldOf ins 64 64 : Int) + ((got c s).dch c.val).iter * signed 64 (fieldOf ins 128 64)) % 2 ^ 64).toNat ∧ s.valid ∧ t ≤ s.msc)
    (fun s => (got c s).setDch c.val { ((got c s).dch c.val).advance with st := .running, wait := none })) ∧
  (∀ c ins t, Moves (.dmaWait c ins)
    (fun s => takes c 3 ins s ∧ waitOk ins ∧ fieldOf ins 8 8 = 0 ∧
      t = (((fieldOf ins 64 64 : Int) + ((got c s).dch c.val).iter * signed 64 (fieldOf ins 128 64)) % 2 ^ 64).toNat ∧ s.msc < t)
    (fun s => (got c s).setDch c.val { (got c s).dch c.val with st := .waiting, wait := some (.msc t) })) ∧
  (∀ c ins, Moves (.dmaSignal c ins)
    (fun s => takes c 4 ins s ∧ signalOk ins ∧ (s.task (fieldOf ins 16 16)).isSome ∧ s.canPost (fieldOf ins 16 16) (word (fieldOf ins 32 32)))
    (fun s => ((got c s).applyPost (fieldOf ins 16 16) (word (fieldOf ins 32 32))).dmaNext c.val)) ∧
  (∀ c ins, Moves (.dmaSignal c ins)
    (fun s => takes c 4 ins s ∧ signalOk ins ∧ (s.task (fieldOf ins 16 16)).isSome ∧
      s.canPost (fieldOf ins 16 16) (word (fieldOf ins 32 32)) = false)
    (fun s => (((got c s).setDch c.val { (got c s).dch c.val with st := .waiting, held := true }).hold (.dma c.val) (fieldOf ins 16 16)
      (word (fieldOf ins 32 32))).count Reg.DMA_SIG_STALLS 1)) ∧
  (∀ c ins, Moves (.dmaSignal c ins) (fun s => takes c 4 ins s ∧ signalOk ins ∧ s.task (fieldOf ins 16 16) = none)
    (fun s => (got c s).dmaNext c.val)) ∧
  (∀ c ins, Moves (.dmaJump c ins) (fun s => takes c 5 ins s ∧ fieldOf ins 8 24 = 0 ∧ fieldOf ins 32 32 ≠ 0)
    (fun s =>
      let k := (got c s).dch c.val
      let pc := (((k.pc : Int) + 32 * signed 32 (fieldOf ins 32 32)) % 2 ^ 64).toNat
      (got c s).setDch c.val { k with pc := pc, loops := jumpLoops pc k.loops }))

/-- A doorbell starts, END hands over, rereads or stops, an abort and a pause take effect (R366, R373, R374, R375, R377,
R379, R380). END of a channel that runs goes on at the shadow where it is valid, else clears a pending doorbell and
stays, else stops the channel at the END with STATUS COMPLETE and its CH_EVT bit. A doorbell of channels 0–27 starts
an idle channel at its START, lets one that stands at its END read on, and is pending for one that runs. CTL.ABORT
samples an abort of a live channel; the stop of an aborted channel leaves it IDLE and ABORTED, or COMPLETE with
ABORT_IGNORED where its MOVE was over and the next instruction is an END. A pause takes effect once the issued bursts
are complete; a complete MOVE goes on at the next instruction. A NEXT_PC write sets the shadow; in the cycle of a copy
it is late and counted. MODE is written only while no channel is live, else CFG_ERR is set. Concluded: under
conditions on the state and the operands alone exec answers a next state, for dmaEnd, dmaDoorbell, dmaCtlAbort,
dmaStop, dmaPauseEffect, dmaMoveComplete, dmaWaitSatisfied, dmaNextPcWrite, dmaModeWrite. -/
def Obligations.DmaChannelsStartAndStop : Prop :=
  (∀ c ins, Moves (.dmaEnd c ins)
    (fun s => (s.dch c.val).ready ∧ fieldOf ins 0 8 = 0 ∧ s.dmaFetchFault c.val = none)
    (fun s => (s.setDch c.val { s.dch c.val with afterMove := false }).dmaEndActs c.val)) ∧
  (∀ (c : Fin 32) (s : State), (s.dch c.val).shadowValid →
    s.dmaEndActs c.val = s.setDch c.val { s.dch c.val with pc := (s.dch c.val).shadow, nextPc := (s.dch c.val).shadow, shadowValid := false, shadowLate := false, afterMove := false }) ∧
  (∀ (c : Fin 32) (s : State), (s.dch c.val).shadowValid = false → (s.dch c.val).dbPending →
    s.dmaEndActs c.val = s.setDch c.val { s.dch c.val with dbPending := false }) ∧
  (∀ (c : Fin 32) (s : State), c.val < s.dma.length → (s.dch c.val).shadowValid = false → (s.dch c.val).dbPending = false →
    ((s.dmaEndActs c.val).dch c.val).st = .idleAtEnd ∧ ((s.dmaEndActs c.val).dch c.val).status = 1 ∧
    ((s.dmaEndActs c.val).dch c.val).pc = (s.dch c.val).pc ∧ bitOf ((s.dmaEndActs c.val).reg Reg.DMA_CH_EVT) c.val) ∧
  (∀ c, Moves (.dmaDoorbell c) (fun s => s.pwr.mode.awake ∧ c.val < 28 ∧ s.runs ∧ ((s.dch c.val).st = .idle ∨ (s.dch c.val).st = .fault))
    (fun s => s.setDch c.val ((s.dch c.val).begin (s.dch c.val).start (s.dch c.val).startSpace))) ∧
  (∀ c, Moves (.dmaDoorbell c) (fun s => s.pwr.mode.awake ∧ c.val < 28 ∧ s.runs ∧ (s.dch c.val).st = .idleAtEnd)
    (fun s => s.setDch c.val { s.dch c.val with st := .running })) ∧
  (∀ c, Moves (.dmaDoorbell c) (fun s => s.pwr.mode.awake ∧ c.val < 28 ∧ s.runs ∧ (s.dch c.val).live)
    (fun s => s.setDch c.val { s.dch c.val with dbPending := true })) ∧
  (∀ c, Moves (.dmaCtlAbort c) (fun s => s.pwr.mode.awake ∧ c.val < 28) (fun s => s.dmaAbortSample c.val)) ∧
  (∀ c, Moves (.dmaCtlAbort c) (fun s => s.pwr.mode.awake ∧ 28 ≤ c.val) id) ∧
  (∀ c x, Moves (.dmaStop c x) (fun s => (s.dch c.val).aborting ∧ (s.dch c.val).late = false ∧ (s.dch c.val).st ≠ .running)
    (fun s => watched (fun s => s.dmaStopped c.val { s.dch c.val with
      st := .idle, status := 2, residue := ((s.dch c.val).move.map DmaMove.left).getD 0, abortIgnored := false, shadowValid := false, dbPending := false }
      (s.dch c.val).written) s)) ∧
  (∀ c x, Moves (.dmaStop c x)
    (fun s => (s.dch c.val).aborting ∧ (s.dch c.val).late ∧ s.dmaFetchFault c.val = none ∧ s.dmaOpAt (s.dch c.val) x.hostData = 0)
    (fun s => watched (fun s => (s.count Reg.DMA_ABORT_IGNORED 1).dmaStopped c.val { s.dch c.val with
      st := .idleAtEnd, status := 1, residue := 0, abortIgnored := true, shadowValid := false, dbPending := false } 0) s)) ∧
  (∀ c x, Moves (.dmaPauseEffect c x)
    (fun s => (s.dch c.val).pausing ∧ (s.dch c.val).aborting = false ∧ (s.dch c.val).st = .running ∧ (s.moveOn c.val x.moved x.hostData).2 = none)
    (fun s => watched (fun s => (s.moveOn c.val x.moved x.hostData).1.dmaPaused c.val) s)) ∧
  (∀ c x m, Moves (.dmaMoveComplete c x)
    (fun s =>
      let k := s.dch c.val
      let r := s.moveOn c.val m.len x.hostData
      k.move = some m ∧ k.st = .running ∧ k.aborting = false ∧ k.pausing = false ∧ s.spaceDown m.srcSpace = none ∧
      s.spaceDown m.dstSpace = none ∧ x.failedAt = none ∧ r.2 = none ∧ (r.1.dch c.val).aborting = false ∧ (r.1.dch c.val).pausing = false)
    (fun s => watched (fun s =>
      let t := (s.moveOn c.val m.len x.hostData).1
      t.setDch c.val { (t.dch c.val).advance with move := none, afterMove := true }) s)) ∧
  (∀ c w, Moves (.dmaWaitSatisfied c) (fun s => (s.dch c.val).wait = some w ∧ (s.dch c.val).st = .waiting ∧ (s.dch c.val).aborting = false ∧
      (s.dmaHolds c.val w).1)
    (fun s => (s.dmaHolds c.val w).2.setDch c.val { ((s.dmaHolds c.val w).2.dch c.val).advance with st := .running, wait := none })) ∧
  (∀ c m hi, Moves (.dmaNextPcWrite c m hi false) (fun s => s.pwr.mode.awake ∧ c.val < 28)
    (fun s => s.setDch c.val { s.dch c.val with
      shadow := (latchGet s.wlatch (dmaReg Reg.DMA_Cc_NEXT_PC_LO c.val, m)).toNat + 2 ^ 32 * hi.toNat, shadowValid := true, shadowLate := false })) ∧
  (∀ c m hi, Moves (.dmaNextPcWrite c m hi true) (fun s => s.pwr.mode.awake ∧ c.val < 28)
    (fun s => (s.setDch c.val { s.dch c.val with
      shadow := (latchGet s.wlatch (dmaReg Reg.DMA_Cc_NEXT_PC_LO c.val, m)).toNat + 2 ^ 32 * hi.toNat, shadowValid := true, shadowLate := true }).both
        Reg.DMA_SHADOW_LATES Reg.DMA_EVT 0)) ∧
  (∀ v, Moves (.dmaModeWrite v) (fun s => s.pwr.mode.awake ∧ s.dma.any DmaChan.live = false) (fun s => s.setReg Reg.DMA_CFG (v &&& 1))) ∧
  (∀ v, Moves (.dmaModeWrite v) (fun s => s.pwr.mode.awake ∧ s.dma.any DmaChan.live) (fun s => s.evt Reg.DMA_EVT 1))

/-- Time bases lock, unlock and lose their source; pulses, snapshots and configuration act (R45, R46, R47, R48, R54, R66,
R67, R68). An ACQUIRING time base with 8 good measurements in a row becomes LOCKED and reports it; a LOCKED one with 4
bad ones in a row acquires again; one that acquires or is LOCKED goes to HOLDOVER as its source is lost, its losses
counted; a pulse and a word-clock measurement are measurements of the time base with that source, in ACQUIRING beyond
50,000 ns a step of its time; TMB_TBn_CFG with ENABLE and SOURCE 0 to 4 that no other enabled time base uses enters
FREE or ACQUIRING, with a conflict DISABLED and CFG_CONFLICT; SET_SEC of a time base with SOURCE 0, 2 or 3 waits for
the next whole second, which takes it; PPS_OUT rises with PPS_TB's second and falls at its width's end; TMB_SNAP
captures all four times, 0 for DISABLED, and the MSC; the attic takes the active time base's time, in units of 100 ns,
at a whole second, and its clock input's presence. Concluded: under conditions on the state and the operands alone
exec answers a next state, for timeBaseLocked, timeBaseUnlock, sourceLost, ppsInPulse, wclkMeasurement, tmbTbCfgWrite,
tmbSetSecWrite, wholeSecond, ppsWidthEnd, tmbSnapGo, atticTimeReload, atticClkPresent, atticClkAbsent. -/
def Obligations.TimeBasesFollowTheirSources : Prop :=
  (∀ n : Fin 4, Moves (.timeBaseLocked n) (fun s => (s.tb n.val).st = .acquiring ∧ 8 ≤ (s.tb n.val).good ∧ s.clock.media.active ≠ n)
    (fun s => ((s.setTb n.val { s.tb n.val with st := .locked, bad := 0 }).setMedia
      { s.clock.media with primLost := s.clock.media.primLost && decide (n.val ≠ s.primaryTb) }).evt Reg.TMB_EVT 0)) ∧
  (∀ n : Fin 4, Leads (.timeBaseLocked n) (fun s => (s.tb n.val).st = .acquiring ∧ 8 ≤ (s.tb n.val).good ∧ n.val < s.clock.tb.length)
    (fun _ t => (t.tb n.val).st = .locked)) ∧
  (∀ n : Fin 4, Moves (.timeBaseLocked n) (fun s => (s.tb n.val).good < 8) id) ∧
  (∀ n : Fin 4, Moves (.timeBaseUnlock n) (fun s => (s.tb n.val).st = .locked ∧ 4 ≤ (s.tb n.val).bad ∧ s.clock.media.active ≠ n)
    (fun s => s.setTb n.val { s.tb n.val with st := .acquiring, good := 0, bad := 0 })) ∧
  (∀ n : Fin 4, Moves (.sourceLost n)
    (fun s => ((s.tb n.val).st = .acquiring ∨ (s.tb n.val).st = .locked) ∧ s.clock.media.active ≠ n ∧ s.primaryTb ≠ n.val ∧
      s.tbSource n.val ≠ 4 ∧ s.silent n.val)
    (fun s => ((s.setTb n.val { s.tb n.val with st := .holdover }).count (tbReg Reg.TMB_TBn_LOSSES n.val) 1).evt Reg.TMB_EVT 1)) ∧
  (∀ n : Fin 4, Leads (.sourceLost n)
    (fun s => ((s.tb n.val).st = .acquiring ∨ (s.tb n.val).st = .locked) ∧ n.val < s.clock.tb.length ∧ s.tbSource n.val ≠ 4 ∧ s.silent n.val)
    (fun _ t => (t.tb n.val).st = .holdover)) ∧
  (∀ n, Moves .ppsInPulse (fun s => s.tbWith 2 = some n)
    (fun s => s.measureTb n (((((s.tb n).tod + second16 / 2) % second16 : Nat) : Int) - ((second16 / 2 : Nat) : Int)))) ∧
  (∀ n d, Moves (.wclkMeasurement d) (fun s => s.tbWith 3 = some n) (fun s => s.measureTb n (d * 65536))) ∧
  (∀ (s : State) (n : Nat) (off : Int), (s.tb n).st = .acquiring → 50000 * 65536 < off.natAbs →
    s.measureTb n off = s.setTb n { s.tb n with seen := (s.tb n).run, offset := rdiv off 65536, tod := ((s.tb n).tod - off).toNat, good := 0 }) ∧
  (∀ (n : Fin 4) v src, Leads (.tmbTbCfgWrite n v)
    (fun s => s.pwr.mode.awake ∧ bitOf v 0 ∧ src = fieldOf (v &&& tbCfgMask) 1 3 ∧ src < 5 ∧ n.val < s.clock.tb.length ∧
      (∀ k, k < 4 → k ≠ n.val → (s.tb k).st = .disabled))
    (fun _ t => t.tbCfg n.val = v &&& tbCfgMask ∧ (t.tb n.val).st = (if src = 0 then .free else .acquiring) ∧ (t.tb n.val).good = 0)) ∧
  (∀ (n : Fin 4) v, Leads (.tmbTbCfgWrite n v) (fun s => s.pwr.mode.awake ∧ bitOf v 0 = false ∧ n.val < s.clock.tb.length)
    (fun _ t => (t.tb n.val).st = .disabled)) ∧
  (∀ (n : Fin 4) hi, Moves (.tmbSetSecWrite n hi)
    (fun s => s.pwr.mode.awake ∧ (s.tbSource n.val = 0 ∨ s.tbSource n.val = 2 ∨ s.tbSource n.val = 3))
    (fun s => s.setTb n.val { s.tb n.val with
      setSec := some ((s.lowWord (tbReg Reg.TMB_TBn_SET_SEC_LO n.val) .host + 2 ^ 32 * fieldOf hi 0 16) % 2 ^ 48) })) ∧
  (∀ (n : Fin 4) x, Moves (.wholeSecond n) (fun s => (s.tb n.val).second ∧ (s.tb n.val).setSec = some x ∧ s.ppsOn = false)
    (fun s => s.setTb n.val { s.tb n.val with tod := x * second16 + (s.tb n.val).tod % second16, setSec := none, second := false })) ∧
  (∀ n : Fin 4, Leads (.wholeSecond n)
    (fun s => (s.tb n.val).second ∧ s.valid ∧ bitOf (s.reg Reg.TMB_IO_CFG) 4 ∧ fieldOf (s.reg Reg.TMB_IO_CFG) 5 2 = n.val)
    (fun _ t => t.clock.ppsHigh = true)) ∧
  (Moves .ppsWidthEnd (fun s => s.ppsWidth ≤ (s.tb s.ppsTb).tod % second16) (fun s => { s with clock := { s.clock with ppsHigh := false } })) ∧
  (Moves .tmbSnapGo (fun s => s.pwr.mode.awake) (fun s => { s with clock := { s.clock with
    snapTod := s.clock.tb.map (fun t => if t.st = .disabled then 0 else t.tod), snapMsc := s.msc } })) ∧
  (Moves .atticTimeReload (fun s => s.clock.atticDue) (fun s => { s with
    clock := { s.clock with atticDue := false },
    pwr := { s.pwr with attic := { s.pwr.attic with tod := atticTime (s.tb s.clock.media.active.val).tod, timeValid := true } } })) ∧
  (Moves .atticClkPresent (fun _ => True) (fun s => { s with pwr := { s.pwr with attic := { s.pwr.attic with extClk := true } } })) ∧
  (Moves .atticClkAbsent (fun _ => True) (fun s => { s with pwr := { s.pwr with attic := { s.pwr.attic with extClk := false } } }))

/-- Origin steps, slews, changeovers, holdover's expiry and the media clock's registers act (R56, R57, R58, R59, R60, R61,
R62, R63). At its boundary a decided step adds k to ORIGIN, is counted and reported with k in ORIGIN_LAST, starts the
slew of its residual and shifts each flow's play-out, and the MSC stays; a slew in its last period ends; a changeover
at a control-frame boundary makes the other time base the active one; REVERT is due after 10 s LOCKED; FORCE asks for
a changeover; holdover's timer at its limit reports and, without HOLDOVER_PLAY, mutes; TMB_ORIGIN is kept while
MSC_VALID is 0 and rejected while it is 1; TMB_MEDIA_CFG takes RATE in SETUP only. Concluded: under conditions on the
state and the operands alone exec answers a next state, for originStepApply, slewEnd, mediaChangeover, revertTimeout,
forceSecondary, forcePrimary, holdoverExpiry, tmbHoldoverLimitWrite, tmbOriginWrite, tmbMediaCfgWrite. -/
def Obligations.MediaClockActs : Prop :=
  (∀ k b r, Moves .originStepApply (fun s => s.clock.media.step = some (k, b, r) ∧ s.valid ∧ s.boundary ∧ b ≤ s.msc)
    (fun s => (s.stepOrigin k r).shiftFlows k)) ∧
  (∀ (s : State) (k : Int) r, s.clock.media.unmuteAtStep = false →
    (s.stepOrigin k r).clock.media = { s.clock.media with
      origin := ((s.clock.media.origin + k) % 2 ^ 64).toNat, step := none, slewLeft := slewFor r }) ∧
  (Moves .slewEnd (fun s => s.clock.media.slewLeft = 1) (fun s => s.setMedia { s.clock.media with slewLeft := 0 })) ∧
  (∀ n, Moves .mediaChangeover (fun s => s.boundary ∧ s.msc % 128 = 0 ∧ s.changeoverTo = some n)
    (fun s => (s.setMedia { s.clock.media with active := Fin.ofNat 4 n, force := none, revertDue := false, primGood := 0 }).checkHold.evt
      Reg.TMB_EVT 3)) ∧
  (∀ s : State, s.mediaBit 5 → s.clock.media.active.val = s.primaryTb → s.secondaryTb ≠ s.primaryTb → (s.tb s.secondaryTb).st = .locked →
    (s.mediaBit 6 ∧ s.clock.media.primLost ∨ s.clock.media.force = some true) → s.changeoverTo = some s.secondaryTb) ∧
  (∀ s : State, s.clock.media.active.val ≠ s.primaryTb → (s.tb s.primaryTb).st = .locked →
    ((s.clock.media.revertDue ∧ s.mediaBit 7) ∨ s.clock.media.force = some false) → s.changeoverTo = some s.primaryTb) ∧
  (Moves .revertTimeout (fun s => s.mediaBit 7 ∧ s.clock.media.active.val ≠ s.primaryTb ∧ 10 * s.fs ≤ s.clock.media.primGood)
    (fun s => s.setMedia { s.clock.media with revertDue := true })) ∧
  (Moves .forceSecondary (fun s => s.pwr.mode.awake) (fun s => s.setMedia { s.clock.media with force := some true })) ∧
  (Moves .forcePrimary (fun s => s.pwr.mode.awake) (fun s => s.setMedia { s.clock.media with force := some false })) ∧
  (Moves .holdoverExpiry (fun s => s.clock.media.timerOn ∧ s.holdLimit * s.fs ≤ s.clock.media.holdFor * 1000 ∧ s.mediaBit 8 = false)
    (fun s => (s.setMedia { s.clock.media with
      timerOn := false, expired := true, outMute := s.clock.media.outMute.start 0 s.len50 }).evt Reg.TMB_EVT 2)) ∧
  (Moves .holdoverExpiry (fun s => s.clock.media.timerOn ∧ s.holdLimit * s.fs ≤ s.clock.media.holdFor * 1000 ∧ s.mediaBit 8)
    (fun s => (s.setMedia { s.clock.media with timerOn := false, expired := true }).evt Reg.TMB_EVT 2)) ∧
  (∀ v, Moves (.tmbHoldoverLimitWrite v) (fun s => s.pwr.mode.awake) (fun s => s.setReg Reg.TMB_HOLDOVER_LIMIT v)) ∧
  (∀ v, Moves (.tmbOriginWrite v) (fun s => s.pwr.mode.awake ∧ s.valid) (fun s => s.setMedia { s.clock.media with rejected := true })) ∧
  (∀ v, Moves (.tmbOriginWrite v) (fun s => s.pwr.mode.awake ∧ s.valid = false)
    (fun s => s.setMedia { s.clock.media with originWritten := some v.toNat })) ∧
  (∀ v, Moves (.tmbMediaCfgWrite v) (fun s => s.pwr.mode = .setup ∧ s.valid = false)
    (fun s => (s.setReg Reg.TMB_MEDIA_CFG (v &&& 0x3FF)).setMedia { s.clock.media with
      cfgWritten := true, rate96 := bitOf (v &&& 0x3FF) 0, primary := fieldOf (v &&& 0x3FF) 1 2, secondary := fieldOf (v &&& 0x3FF) 3 2,
      active := Fin.ofNat 4 (fieldOf (v &&& 0x3FF) 1 2) })) ∧
  (∀ v, Leads (.tmbMediaCfgWrite v) (fun s => (s.pwr.mode = .show_ ∨ s.pwr.mode = .standby) ∧ s.valid)
    (fun s t => t.reg Reg.TMB_MEDIA_CFG = (v &&& 0x3FE) ||| (s.reg Reg.TMB_MEDIA_CFG &&& 1) ∧ t.msc = s.msc ∧ t.valid = true))

/-- The PTP engine measures, answers, chooses a leader and holds time-stamps in the cloakroom (R49, R50, R51, R52, R55). A
one-step Sync of the followed leader is a measurement of the offset, corrected for the path delay and the asymmetry; a
two-step one waits for its Follow_Up, which supplies its origin; a Delay_Resp to the request that is out gives the
mean path delay and frees the request's entry; a leader answers Delay_Req; an Announce of the instance's domain
replaces what was heard of that leader and the BMCA runs; the chosen leader's timeout forgets it and the BMCA runs;
due messages go out from a leader, Sync on each port through the cloakroom unless one is still held; a Delay_Req goes
to the chosen leader's port; a full cloakroom of 64 holds the message and counts it; a Sync that left is followed up
and its entry freed; unsupported messages count as dropped on their port. Concluded: under conditions on the state and
the operands alone exec answers a next state, for ptpSync, ptpFollowUp, ptpDelayResp, ptpDelayReq, ptpAnnounce,
announceReceiptTimeout, ptpSyncDue, ptpDelayReqDue, ptpAnnounceDue, ptpEventTransmitted, ptpUnsupportedMessage. -/
def Obligations.PtpMessagesAct : Prop :=
  (∀ (n : Fin 4) m, Moves (.ptpSync n m)
    (fun s => s.ptpMine n.val m.h ∧ (s.tb n.val).isLeader = false ∧ (s.tb n.val).follows m.h ∧ m.twoStep = false)
    (fun s =>
      let ms : Int := (unitsOf m.rx : Int) - unitsOf m.origin - m.h.correction
      (s.setTb n.val { s.tb n.val with sync := none, msDelay := ms, syncLog := some m.h.logInterval }).measureTb n.val
        (ms - (s.tb n.val).pathDelay - s.asym n.val m.h.port))) ∧
  (∀ (n : Fin 4) m, Moves (.ptpSync n m)
    (fun s => s.ptpMine n.val m.h ∧ (s.tb n.val).isLeader = false ∧ (s.tb n.val).follows m.h ∧ m.twoStep)
    (fun s => s.setTb n.val { s.tb n.val with sync := some m })) ∧
  (∀ (n : Fin 4) m y, Moves (.ptpFollowUp n m)
    (fun s => (s.tb n.val).sync = some y ∧ s.ptpMine n.val m.h ∧ (s.tb n.val).follows m.h ∧ y.h.seq = m.h.seq)
    (fun s =>
      let ms : Int := (unitsOf y.rx : Int) - unitsOf m.precise - (y.h.correction + m.h.correction)
      (s.setTb n.val { s.tb n.val with sync := none, msDelay := ms, syncLog := some y.h.logInterval }).measureTb n.val
        (ms - (s.tb n.val).pathDelay - s.asym n.val y.h.port))) ∧
  (∀ (n : Fin 4) m q (sent : TimeStamp), Moves (.ptpDelayResp n m)
    (fun s => (s.tb n.val).reqOut = some (q, some sent) ∧ s.ptpMine n.val m.h ∧ (s.tb n.val).follows m.h ∧
      m.requester = Config.ownIdentity ∧ m.h.seq = q)
    (fun s => (s.setTb n.val { s.tb n.val with
        pathDelay := rdiv ((s.tb n.val).msDelay + ((unitsOf m.receive : Int) - unitsOf sent - m.h.correction)) 2, reqOut := none }).retireCloak
      m.h.port (fun e => e.tb == n && e.kind == .delayReq && e.seq == q))) ∧
  (∀ (n : Fin 4) m, Moves (.ptpDelayReq n m) (fun s => s.ptpMine n.val m.h ∧ (s.tb n.val).isLeader)
    (fun s => s.sendPtp (.delayResp m.h.port n m.h.source m.h.seq m.rx m.h.correction (s.ptpIntervals n.val).2.2.2))) ∧
  (∀ (n : Fin 4) m, Moves (.ptpAnnounce n m) (fun s => s.ptpMine n.val m.h)
    (fun s =>
      let same (x : PtpLeader) : Bool := x.port == m.h.port && x.source == m.h.source
      let rest := (s.tb n.val).foreign.filter (fun x => !same x && x.fresh (s.tb n.val).run)
      let heard : PtpLeader := ⟨m.h.port, m.h.source, m, (s.tb n.val).run, ((s.tb n.val).foreign.find? same).map (fun x => x.last)⟩
      (s.setTb n.val { s.tb n.val with foreign := rest ++ [heard] }).bmca n.val false)) ∧
  (∀ (n : Fin 4) l, Leads (.announceReceiptTimeout n)
    (fun s => (s.tb n.val).leader = some l ∧ s.ptpRuns n.val ∧ ((s.tb n.val).foreign.filter (fun x => !(x.port == l.port && x.source == l.source))) = [] ∧
      s.ptpRole n.val = 0 ∧ (s.tb n.val).isLeader = false ∧ (s.tb n.val).waitFrom + s.receiptSpan n.val ≤ (s.tb n.val).run ∧
      n.val < s.clock.tb.length)
    (fun _ t => (t.tb n.val).leader = none ∧ (t.tb n.val).foreign = [])) ∧
  (∀ n : Fin 4, Moves (.ptpSyncDue n) (fun s => s.ptpRuns n.val ∧ (s.tb n.val).isLeader)
    (fun s =>
      let q := (s.tb n.val).seqSync
      let s1 := (s.ptpPorts n.val).foldl (fun s p => if s.stillHeld p n.val .sync then s.skipPtp p
        else s.launch p { tb := n, kind := .sync, seq := q, stamp := none }) s
      s1.setTb n.val { s1.tb n.val with seqSync := (q + 1) % 65536 })) ∧
  (∀ (n : Fin 4) l, Moves (.ptpDelayReqDue n) (fun s => (s.tb n.val).leader = some l ∧ s.ptpRuns n.val ∧ s.stillHeld l.port n.val .delayReq)
    (fun s => s.both (Reg.TMB_CLOAK_SKIPp + 4 * l.port.val) Reg.TMB_EVT 7)) ∧
  (∀ (n : Fin 4) l, Moves (.ptpDelayReqDue n)
    (fun s => (s.tb n.val).leader = some l ∧ s.ptpRuns n.val ∧ s.stillHeld l.port n.val .delayReq = false)
    (fun s =>
      let q := (s.tb n.val).seqReq
      let s2 := (s.retireCloak l.port (fun e => e.tb == n && e.kind == .delayReq && e.stamp.isSome)).launch l.port
        { tb := n, kind := .delayReq, seq := q, stamp := none }
      s2.setTb n.val { s2.tb n.val with seqReq := (q + 1) % 65536, reqOut := some (q, none) })) ∧
  (∀ n : Fin 4, Moves (.ptpAnnounceDue n) (fun s => s.ptpRuns n.val ∧ (s.tb n.val).isLeader)
    (fun s =>
      let s1 := (s.ptpPorts n.val).foldl (fun s' p => s'.sendPtp (.announce p n (s.tb n.val).seqAnn (s.ptpIntervals n.val).2.1
        (fieldOf (s.reg (tbReg Reg.TMB_TBn_BMCA n.val)) 0 8) (fieldOf (s.reg (tbReg Reg.TMB_TBn_BMCA n.val)) 8 8)
        (fieldOf (s.reg (tbReg Reg.TMB_TBn_BMCA n.val)) 16 8) (fieldOf (s.reg (tbReg Reg.TMB_TBn_BMCA n.val)) 24 8))) s
      s1.setTb n.val { s1.tb n.val with seqAnn := ((s.tb n.val).seqAnn + 1) % 65536 })) ∧
  (∀ (s : State) p e, (s.cloak p.val).entries.length < 64 →
    s.launch p e = s.setCloak p.val { s.cloak p.val with entries := (s.cloak p.val).entries ++ [e] }) ∧
  (∀ (s : State) p e, 64 ≤ (s.cloak p.val).entries.length →
    s.launch p e = (s.setCloak p.val { s.cloak p.val with held := (s.cloak p.val).held ++ [e] }).both (Reg.TMB_CLOAK_HELDp + 4 * p.val) Reg.TMB_EVT 6) ∧
  (∀ p at_ e, Moves (.ptpEventTransmitted p at_)
    (fun s => (s.cloak p.val).entries.find? (fun e => e.stamp.isNone) = some e ∧ e.kind = .sync)
    (fun s =>
      let k1 := { s.cloak p.val with entries := stampFirst at_ (s.cloak p.val).entries }
      (((s.setCloak p.val { k1 with high := max k1.high k1.occupied }).sendPtp (.sync p e.tb e.seq (s.ptpIntervals e.tb.val).1)).sendPtp (.followUp p e.tb e.seq at_)).retireCloak p
        (fun x => x.tb == e.tb && x.kind == .sync && x.seq == e.seq && x.stamp.isSome))) ∧
  (∀ p, Moves (.ptpUnsupportedMessage p) (fun _ => True) (fun s => s.count (Reg.NET_Pn_DROPPED + 0x40 * p.val) 1))

/-- Group and port configuration, mask pairs, bridge states and frame faults act (R278, R279, R281, R283, R284, R285,
R286, R287, R288, R291, R292). A group's or port's CFG written while ENABLE stands at 0 takes every field, while it
stands at 1 ENABLE alone; an ENABLE of 1 that breaks R279 or R281 stores 0 and reports CFG_ERR; an accepted change
waits for its boundary, a control-frame boundary for a leader's ENABLE of 1. In its turn the change acts: the group's
or port's streams start or stop. MASKCTL makes the pair of mask shadow and COMPACT pending, and at a frame start a
pair that obeys R283 is in force, another is dropped with CFG_ERR. A follower that locks becomes LOCKED and fades in
from the next control-frame boundary; a rate step sends it through RELOCK to ACQUIRING; without BCLK it is LOST, and
ACQUIRING when BCLK returns; a frame start in its place is taken, a single missing one reconstructed and counted, a
glitch counted and its frame repeated, two faults in a row are a RELOCK. Concluded: under conditions on the state and
the operands alone exec answers a next state, for sapGroupCfgWrite, sapPortCfgWrite, sapEnableAct, sapMaskctlWrite,
maskPairApply, groupLock, rateStep, bclkLoss, bclkReturn, frameStartEdge, fsyncMissing, fsyncGlitch. -/
def Obligations.SerialCommandsAct : Prop :=
  let gc (g : Nat) : Nat := gReg Reg.SAP_Gg_CFG g
  let pc (p : Nat) : Nat := pReg Reg.SAP_Pp_CFG p
  (∀ (g : Fin 16) v, Moves (.sapGroupCfgWrite g v)
    (fun s => s.pwr.mode.awake ∧ bitOf (s.reg (gc g.val)) 0 = false ∧ bitOf (v &&& 0x7FFFF) 0 ∧ (s.setReg (gc g.val) (v &&& 0x7FFFF)).groupOk g.val ∧
      s.groups.length = 16)
    (fun s => (s.setReg (gc g.val) (v &&& 0x7FFFF)).setGroup g.val { s.group g.val with
      cfgErr := false, wait := sapWait (s.group g.val).acts true (if s.valid then upTo (if bitOf (v &&& 0x7FFFF) 1 then 16 else 128) (s.msc + 16) else 0) })) ∧
  (∀ (g : Fin 16) v, Leads (.sapGroupCfgWrite g v)
    (fun s => s.pwr.mode.awake ∧ bitOf (s.reg (gc g.val)) 0 = false ∧ bitOf (v &&& 0x7FFFF) 0 ∧
      (s.setReg (gc g.val) (v &&& 0x7FFFF)).groupOk g.val = false ∧ s.groups.length = 16)
    (fun _ t => (t.group g.val).cfgErr = true)) ∧
  (∀ (g : Fin 16) v, Moves (.sapGroupCfgWrite g v)
    (fun s => s.pwr.mode.awake ∧ bitOf (s.reg (gc g.val)) 0 ∧ bitOf v 0 = false ∧ s.valid = false ∧ s.groups.length = 16)
    (fun s => (s.setReg (gc g.val) ((s.reg (gc g.val) &&& ~~~1#32) ||| (v &&& 1#32))).setGroup g.val { s.group g.val with
      wait := sapWait (s.group g.val).acts false 0 })) ∧
  (∀ (p : Fin 64) v, Moves (.sapPortCfgWrite p v)
    (fun s => s.pwr.mode.awake ∧ bitOf (s.reg (pc p.val)) 0 = false ∧ bitOf (v &&& 0xF) 0 ∧ (s.setReg (pc p.val) (v &&& 0xF)).portOk p.val ∧
      (s.group (p.val / 4)).st ≠ .off)
    (fun s =>
      let s1 := (s.setReg (pc p.val) (v &&& 0xF)).setGroup (p.val / 4) { s.group (p.val / 4) with cfgErr := false }
      s1.setPort p.val { s.port p.val with wait := sapWait (s.port p.val).acts true (if s.valid then upTo 16 (s.msc + 16) else 0) })) ∧
  (∀ (p : Fin 64) v, Moves (.sapPortCfgWrite p v)
    (fun s => s.pwr.mode.awake ∧ bitOf (s.reg (pc p.val)) 0 = false ∧ bitOf (v &&& 0xF) 0 ∧
      (s.setReg (pc p.val) (v &&& 0xF)).portOk p.val = false ∧ (s.group (p.val / 4)).st ≠ .off ∧ s.valid = false)
    (fun s =>
      let s1 := ((s.setReg (pc p.val) (v &&& 0xF)).setReg (pc p.val) ((v &&& 0xF) &&& ~~~1#32)).sapRefuse (p.val / 4)
      s1.setPort p.val { s1.port p.val with wait := sapWait (s1.port p.val).acts (bitOf (s1.reg (pc p.val)) 0) 0 })) ∧
  (∀ (i : Fin 64) v at_, Moves (.sapEnableAct true i.val)
    (fun s => (s.port i.val).wait = some (v, at_) ∧ (s.group (i.val / 4)).st ≠ .off ∧ s.streamTurn ∧ s.portDue s.msc i.val)
    (fun s => watched (fun s => (s.portActs i.val v).modeDone) s)) ∧
  (∀ (g : Fin 16) v at_, Moves (.sapEnableAct false g.val)
    (fun s => (s.group g.val).wait = some (v, at_) ∧ s.streamTurn ∧ s.groupDue s.msc g.val)
    (fun s => watched (fun s => (if v then s.startGroup s.msc g.val else s.stopGroup g.val).modeDone) s)) ∧
  (∀ (p : Fin 64) v, Moves (.sapMaskctlWrite p v) (fun s => s.pwr.mode.awake)
    (fun s => (s.setReg (pReg Reg.SAP_Pp_MASKCTL p.val) (v &&& 1#32)).setPort p.val { s.port p.val with
      pend := some (s.reg (pReg Reg.SAP_Pp_MASK p.val), bitOf v 0) })) ∧
  (∀ (p : Fin 64) mask compact, Moves (.maskPairApply p)
    (fun s => (s.port p.val).pend = some (mask, compact) ∧ (s.group (p.val / 4)).st.frames ∧ maskOk (cfgSlots (s.gCfg (p.val / 4))) mask compact ∧
      cfgFollow (s.gCfg (p.val / 4)) = false)
    (fun s =>
      let s1 := s.setPort p.val { s.port p.val with
        mask := mask, compact := compact, pend := none, toggle := !(s.port p.val).toggle, maskMsc := s.resMsc }
      s1.setGroup (p.val / 4) { s1.group (p.val / 4) with cfgErr := false })) ∧
  (∀ (p : Fin 64) mask compact, Moves (.maskPairApply p)
    (fun s => (s.port p.val).pend = some (mask, compact) ∧ (s.group (p.val / 4)).st.frames ∧
      maskOk (cfgSlots (s.gCfg (p.val / 4))) mask compact = false)
    (fun s => (s.setPort p.val { s.port p.val with pend := none }).sapRefuse (p.val / 4))) ∧
  (∀ g : Fin 16, Moves (.groupLock g) (fun s => (s.group g.val).st = .acquiring ∧ s.valid)
    (fun s => (s.setGroup g.val { s.group g.val with
      st := .locked, faults := 0, fadeIn := some (s.nextMul 128) }).evt Reg.SAP_EVT 5)) ∧
  (∀ g : Fin 16, Moves (.rateStep g) (fun s => (s.group g.val).st = .locked) (fun s => s.relock g.val)) ∧
  (∀ (s : State) (g : Nat), (s.group g).fadeIn.isSome → s.relock g = (s.setGroup g { s.group g with
      st := .acquiring, faults := 0, again := false, lostAt := some (s.msc + 2) }).both (gReg Reg.SAP_Gg_RELOCKS g) Reg.SAP_EVT 1) ∧
  (∀ g : Fin 16, Moves (.bclkLoss g) (fun s => (s.group g.val).st = .locked ∧ (s.group g.val).fadeIn.isSome)
    (fun s => (s.setGroup g.val { s.group g.val with lostAt := some (s.msc + 25), again := true, st := .lost, faults := 0 }).both
      (gReg Reg.SAP_Gg_LOSSES g.val) Reg.SAP_EVT 0)) ∧
  (∀ g : Fin 16, Moves (.bclkLoss g) (fun s => (s.group g.val).st = .acquiring)
    (fun s => (s.setGroup g.val { s.group g.val with st := .lost, faults := 0 }).both (gReg Reg.SAP_Gg_LOSSES g.val) Reg.SAP_EVT 0)) ∧
  (∀ g : Fin 16, Moves (.bclkReturn g) (fun s => (s.group g.val).st = .lost)
    (fun s => s.setGroup g.val { s.group g.val with st := .acquiring, faults := 0 })) ∧
  (let running (s : State) (g : Nat) : Prop := (s.group g).st = .locked ∨ (s.group g).st = .acquiring
   (∀ (g : Fin 16) ws, Moves (.frameStartEdge g ws) (fun s => running s g.val)
     (fun s => (s.setGroup g.val { s.group g.val with faults := 0 }).bridgeFrame g.val ws false)) ∧
   (∀ (g : Fin 16) ws, Moves (.fsyncMissing g ws) (fun s => running s g.val ∧ (s.group g.val).faults = 0)
     (fun s => ((s.setGroup g.val { s.group g.val with faults := 1 }).bridgeFrame g.val ws false).both
       (gReg Reg.SAP_Gg_FSYNC_FIXED g.val) Reg.SAP_EVT 2)) ∧
   (∀ (g : Fin 16) ws, Moves (.fsyncMissing g ws) (fun s => (s.group g.val).st = .locked ∧ 1 ≤ (s.group g.val).faults) (fun s => s.relock g.val)) ∧
   (∀ g : Fin 16, Moves (.fsyncGlitch g) (fun s => running s g.val ∧ (s.group g.val).faults = 0)
     (fun s => ((s.setGroup g.val { s.group g.val with faults := 1 }).bridgeFrame g.val [] true).both (gReg Reg.SAP_Gg_GLITCHES g.val) Reg.SAP_EVT 3)) ∧
   (∀ g : Fin 16, Moves (.fsyncGlitch g) (fun s => (s.group g.val).st = .locked ∧ 1 ≤ (s.group g.val).faults)
     (fun s => (((s.setGroup g.val { s.group g.val with faults := (s.group g.val).faults + 1 }).bridgeFrame g.val [] true).both
       (gReg Reg.SAP_Gg_GLITCHES g.val) Reg.SAP_EVT 3).relock g.val)))

/-- Links, packets, flows, the position stream and the modules act (R293, R294, R295, R297, R298, R299, R300, R305, R307,
R421). A link of an enabled port comes up on the layer that SPEED allows and on no other, or goes down, and reports
it; SPEED 2 tries the other layer while the link stays down for its time; ARP and echo requests for the port's address
are answered, others are not; a query is answered by reports of the flows' groups and the position stream's;
unsupported packets count as dropped. A packet that matches a receive flow is taken by it: one with another payload
type, SSRC or length counts MALFORMED, a second copy of a time-stamp DUP and nothing else, a new one is decided sample
by sample, and one none of whose samples the flow still takes changes nothing. A transmit flow sends its packet when
its last sample has been emitted, with the time-stamp of R297, the next sequence number and the flow's VLAN. A
position packet is dropped while frozen or with a bad header, dropped as old, or accepted, which takes its SEQ and
applies its records; HELLO goes out on the ports that are up; the last SEQ is forgotten at the timeout and at a write
of the stream's registers. GO starts a module transfer, whose end gives the byte or NACK. Concluded: under conditions
on the state and the operands alone exec answers a next state, for netLinkChange, autoSpeedTimeout, arpRequest,
icmpEcho, igmpQuery, unsupportedPacket, rtpPacket, rtpPacketSend, trosynData, trosynHelloDue, trosynSeqTimeout,
netTrsCfgWrite, moduleI2cGo, moduleI2cDone, modulePresenceChange. -/
def Obligations.NetworkEventsAct : Prop :=
  (∀ (n : Fin 2) link, Moves (.netLinkChange n link)
    (fun s => (s.netPort n.val).link ≠ link ∧ link ≠ .down ∧ bitOf (s.reg (netReg Reg.NET_Pn_CFG n.val)) 0 ∧
      link = (if fieldOf (s.reg (netReg Reg.NET_Pn_CFG n.val)) 1 2 = 1 ∨
        (fieldOf (s.reg (netReg Reg.NET_Pn_CFG n.val)) 1 2 = 2 ∧ (s.netPort n.val).tryLow) then .up1 else .up10))
    (fun s => (s.setNetPort n.val { s.netPort n.val with link := link }).evt Reg.NET_EVT 0)) ∧
  (∀ (n : Fin 2) link, Moves (.netLinkChange n link)
    (fun s => link ≠ .down ∧ (bitOf (s.reg (netReg Reg.NET_Pn_CFG n.val)) 0 = false ∨ link ≠ s.netLayer n.val)) id) ∧
  (∀ n : Fin 2, Moves (.netLinkChange n .down) (fun s => (s.netPort n.val).link ≠ .down)
    (fun s => (s.setNetPort n.val { s.netPort n.val with link := .down, v2 := false, tryLow := false, triedAt := s.samples }).evt Reg.NET_EVT 0)) ∧
  (∀ n : Fin 2, Moves (.autoSpeedTimeout n)
    (fun s => bitOf (s.reg (netReg Reg.NET_Pn_CFG n.val)) 0 ∧ fieldOf (s.reg (netReg Reg.NET_Pn_CFG n.val)) 1 2 = 2 ∧ (s.netPort n.val).link = .down ∧
      s.passed (s.netPort n.val).triedAt (if (s.netPort n.val).tryLow then 2000000 else 500000))
    (fun s => s.setNetPort n.val { s.netPort n.val with tryLow := !(s.netPort n.val).tryLow, triedAt := s.samples })) ∧
  (∀ n ip who, Moves (.arpRequest n ip who) (fun s => s.forMe n.val ip) (fun s => s.netSend [.arpReply n ip who])) ∧
  (∀ n ip who, Moves (.arpRequest n ip who) (fun s => s.forMe n.val ip = false) id) ∧
  (∀ n ip who x, Moves (.icmpEcho n ip who x) (fun s => s.forMe n.val ip) (fun s => s.netSend [.echoReply n who x])) ∧
  (∀ n ip who x, Moves (.icmpEcho n ip who x) (fun s => s.forMe n.val ip = false) id) ∧
  (∀ n v2, Moves (.igmpQuery n v2) (fun s => s.netUp n.val ∧ s.net.rx = [] ∧ bitOf (s.reg Reg.NET_TRS_CFG) 0 = false)
    (fun s => s.setNetPort n.val { s.netPort n.val with v2 := (s.netPort n.val).v2 || v2 })) ∧
  (∀ n v2 i f, Leads (.igmpQuery n v2)
    (fun s => s.netUp n.val ∧ s.net.rx = [(i, f)] ∧ f.cfg.dual = false ∧ Fin.ofNat 2 f.cfg.port = n ∧ s.net.ports.length = 2 ∧
      bitOf (s.reg Reg.NET_TRS_CFG) 0 = false)
    (fun s t =>
      let old := (s.netPort n.val).v2 || v2
      t.net.sent = .igmpReport n old f.cfg.addrA (if f.cfg.ssm && !old then [f.cfg.srcA] else []) (f.cfg.vid n) :: s.net.sent)) ∧
  (∀ n v2, Leads (.igmpQuery n v2)
    (fun s => s.netUp n.val ∧ s.net.rx = [] ∧ s.netUp (1 - n).val = false ∧ bitOf (s.reg Reg.NET_TRS_CFG) 0 ∧ bitOf (s.reg Reg.NET_TRS_CFG) (1 + n.val) ∧
      s.net.ports.length = 2)
    (fun s t => t.net.sent = .igmpReport n ((s.netPort n.val).v2 || v2) (s.reg Reg.NET_TRS_GROUP) [] 0 :: s.net.sent)) ∧
  (∀ n, Moves (.unsupportedPacket n) (fun s => s.netUp n.val) (fun s => s.count (netReg Reg.NET_Pn_DROPPED n.val) 1)) ∧
  (∀ n p i f, Moves (.rtpPacket n p)
    (fun s => s.netUp n.val ∧ s.net.rx.find? (fun f => f.2.cfg.matches n p) = some (i, f) ∧ s.rxTakes i ∧ f.cfg.malformed p)
    (fun s => ((s.setRx i (f.gain 4)).fxs ((f.gain 4).sats [4])).evt Reg.NET_EVT 3)) ∧
  (∀ n p i f, Leads (.rtpPacket n p)
    (fun s => s.netUp n.val ∧ s.net.rx.find? (fun f => f.2.cfg.matches n p) = some (i, f) ∧ s.rxTakes i ∧ f.cfg.malformed p = false ∧
      f.seen.any (fun x => x.stamp == p.stamp))
    (fun s t => ∃ g : Flow, t = (s.setRx i g).fxs (g.sats [2]) ∧ g.buf = f.buf ∧ g.n = (f.gain 2).n)) ∧
  (∀ n p i f, Moves (.rtpPacket n p)
    (fun s => s.netUp n.val ∧ s.net.rx.find? (fun f => f.2.cfg.matches n p) = some (i, f) ∧ s.rxTakes i ∧ f.cfg.malformed p = false ∧
      f.seen.any (fun x => x.stamp == p.stamp) = false ∧ s.rtpRows i f p (s.rtpIndex f.cfg p.stamp) ≠ [])
    (fun s =>
      let m0 := s.rtpIndex f.cfg p.stamp
      let x : Seen := { stamp := p.stamp, legA := n == 0, legB := n != 0, first := m0.toNat }
      s.rtpTake i { f with seen := x :: f.recent s.msc } (s.rtpRows i f p m0))) ∧
  (∀ n p i f, Moves (.rtpPacket n p)
    (fun s => s.netUp n.val ∧ s.net.rx.find? (fun f => f.2.cfg.matches n p) = some (i, f) ∧ s.rxTakes i ∧ f.cfg.malformed p = false ∧
      f.seen.any (fun x => x.stamp == p.stamp) = false ∧ s.rtpRows i f p (s.rtpIndex f.cfg p.stamp) = []) id) ∧
  (∀ i f k0 row rest, Leads (.rtpPacketSend i)
    (fun s => tget s.net.tx i = some f ∧ f.buf = (k0, row) :: rest ∧ s.valid ∧ (k0 - f.from_) % f.cfg.pkt = 0 ∧ k0 + f.cfg.pkt ≤ s.msc ∧
      f.cfg.dual = false ∧ s.netUp (Fin.ofNat 2 f.cfg.port).val)
    (fun s t => t.net.sent = .rtp (Fin.ofNat 2 f.cfg.port) f.cfg.addrA f.cfg.udpA f.cfg.ssrc f.cfg.ptype f.seq
        (word (k0 + 2 + s.clock.media.origin + f.cfg.rtpOff)) f.cfg.dscp (f.cfg.vid (Fin.ofNat 2 f.cfg.port)) (rtpPayload (flowWidth f.cfg) ((f.buf.take f.cfg.pkt).map Prod.snd)) ::
      s.net.sent)) ∧
  (let hears (s : State) (n : Fin 2) : Prop := bitOf (s.reg Reg.NET_TRS_CFG) 0 ∧ bitOf (s.reg Reg.NET_TRS_CFG) (1 + n.val) ∧ s.netUp n.val ∧ s.runs
   let data (b : List Byte) : Prop := imgNat (listByte b) 5 1 ≠ 1
   let seq (b : List Byte) : Nat := imgNat (listByte b) 12 4
   let ver (b : List Byte) : Nat := imgNat (listByte b) 4 1
   let reads (b : List Byte) : Option (List PosUpdate × List (Nat × Nat × Bell)) := trsRecords (ver b) (imgNat (listByte b) 24 2) (listByte b)
   (∀ n b, Moves (.trosynData n b) (fun s => hears s n ∧ data b ∧ s.pwr.freeze) (fun s => s.count Reg.PWR_FROZEN_UPDATES 1)) ∧
   (∀ n b, Moves (.trosynData n b) (fun s => hears s n ∧ data b ∧ s.pwr.freeze = false ∧ (s.trsHeader b = false ∨ reads b = none))
     (fun s => s.both Reg.NET_TRS_BAD Reg.NET_EVT 4)) ∧
   (∀ n b x l, Moves (.trosynData n b)
     (fun s => hears s n ∧ data b ∧ s.pwr.freeze = false ∧ s.trsHeader b ∧ reads b = some x ∧ fieldOf (s.reg Reg.NET_TRS_CFG) 1 2 ≠ 3 ∧
       s.net.trs.last = some l ∧ seqLater (seq b) l = false ∧ s.net.trs.old < 7)
     (fun s => (s.setTrs { s.net.trs with heard := ((seq b, n) :: s.net.trs.heard).take 64, old := s.net.trs.old + 1 }).count Reg.NET_TRS_OLD 1)) ∧
   (∀ n b x l, Moves (.trosynData n b)
     (fun s => hears s n ∧ data b ∧ s.pwr.freeze = false ∧ s.trsHeader b ∧ reads b = some x ∧ fieldOf (s.reg Reg.NET_TRS_CFG) 1 2 ≠ 3 ∧
       s.net.trs.last = some l ∧ seqLater (seq b) l)
     (fun s => (s.setTrs { s.net.trs with
       heard := ((seq b, n) :: s.net.trs.heard).take 64, last := some (seq b), old := 0, ver := ver b, lastAt := s.samples }).trsApply
         (ver b) (imgNat (listByte b) 16 8) x.1 x.2))) ∧
  (Moves .trosynHelloDue (fun s => bitOf (s.reg Reg.NET_TRS_CFG) 0 ∧ s.net.trs.helloAt = none)
    (fun s => (s.setTrs { s.net.trs with helloAt := some s.samples }).netSend (([0, 1].filter (fun p : Fin 2 => bitOf (s.reg Reg.NET_TRS_CFG) (1 + p.val) && s.netUp p.val)).map (fun p =>
      NetOut.trosynHello p (s.reg Reg.NET_TRS_REPLY) (fieldOf (s.reg Reg.NET_TRS_REPLY_PORT) 0 16) s.trsVersions.1 s.trsVersions.2)))) ∧
  (Moves .trosynSeqTimeout (fun s => s.passed s.net.trs.lastAt 1000000)
    (fun s => s.setTrs { s.net.trs with last := none, old := 0, heard := [] })) ∧
  (∀ v, Moves (.netTrsCfgWrite Reg.NET_TRS_ID v) (fun s => s.pwr.mode.awake)
    (fun s => (s.setReg Reg.NET_TRS_ID v).setTrs { s.net.trs with last := none, old := 0, heard := [] })) ∧
  (∀ (k : Fin 4) v, Moves (.moduleI2cGo k v) (fun s => s.pwr.mode.awake ∧ bitOf (s.reg (moduleReg k.val)) 25 = false ∧ bitOf v 24)
    (fun s => s.setReg (moduleReg k.val) ((v &&& 0x00FFFFFF#32) ||| 0x02000000#32))) ∧
  (∀ (k : Fin 4) d, Moves (.moduleI2cDone k d false) (fun s => bitOf (s.reg (moduleReg k.val)) 25 ∧ bitOf (s.reg (moduleReg k.val)) 23)
    (fun s => s.setReg (moduleReg k.val) ((s.reg (moduleReg k.val) &&& 0x00FFFF00#32) ||| word d.toNat))) ∧
  (∀ (k : Fin 4) d, Moves (.moduleI2cDone k d true) (fun s => bitOf (s.reg (moduleReg k.val)) 25)
    (fun s => s.setReg (moduleReg k.val) ((s.reg (moduleReg k.val) &&& 0x00FFFFFF#32) ||| 0x04000000#32))) ∧
  (∀ (k : Fin 4) b, Moves (.modulePresenceChange k b) (fun _ => k.val < 2)
    (fun s => s.setNetPort k.val { s.netPort k.val with module := b })) ∧
  (∀ k : Fin 4, Moves (.modulePresenceChange k true)
    (fun s => 2 ≤ k.val ∧ (s.setNtkPort (k.val - 2) { s.ntkPort (k.val - 2) with module := true }).ntkEnabled (k.val - 2) = false)
    (fun s => s.setNtkPort (k.val - 2) { s.ntkPort (k.val - 2) with module := true })) ∧
  (∀ k : Fin 4, Moves (.modulePresenceChange k false) (fun _ => 2 ≤ k.val)
    (fun s => ((s.setNtkPort (k.val - 2) { s.ntkPort (k.val - 2) with module := false }).linkDown (k.val - 2)).auditDone))

/-- Links train, agree and fall; BLOCK, TIME, CREDIT, STEP, AUDIT and LINK_DELAY records act (R310, R312, R314, R316,
R317, R319, R327, R330). An enabled port with its module comes UP when trained; partners that share a version make it
READY at the highest one with the receiver's credits, others INCOMPATIBLE; a lost block lock takes a port DOWN, with
its credits and cells. A BLOCK record of the neighbour ends the port's silence and its cell is freed; TIME on the port
in use measures the time base with SOURCE 4 against the head and brings ORIGIN while the MSC is not valid; CREDIT
returns credits; LINK_DELAY gives the propagation, half the round trip; STEP is applied by a follower at its boundary;
AUDIT compares the sender's books with the receiver's, a difference being held for the repair at the next commit; four
silent block periods make a member CUT, eight good control frames make it MEMBER again. Concluded: under conditions on
the state and the operands alone exec answers a next state, for ntkTrainingDone, ntkVersionAgreed, ntkBlockLockLoss,
ntkBlock, ntkTime, ntkCredit, linkDelay, ntkStep, ntkAudit, chainSourceLost, chainReturn. -/
def Obligations.NitikLinksAct : Prop :=
  (∀ n : Fin 2, Moves (.ntkTrainingDone n) (fun s => s.ntkEnabled n.val ∧ ((s.ntkPort n.val).link = .down ∨ (s.ntkPort n.val).link = .training))
    (fun s => (s.setNtkPort n.val { s.ntkPort n.val with link := .up }).evt Reg.NTK_EVT 0)) ∧
  (∀ (n : Fin 2) lo hi total, Moves (.ntkVersionAgreed n lo hi total)
    (fun s => (s.ntkPort n.val).link = .up ∧ agreeVersion (s.chain.verMin, s.chain.verMax) (lo, hi) = 0)
    (fun s => (s.setNtkPort n.val { s.ntkPort n.val with link := .incompatible }).evt Reg.NTK_EVT 0)) ∧
  (∀ (n : Fin 2) lo hi total, Leads (.ntkVersionAgreed n lo hi total)
    (fun s => (s.ntkPort n.val).link = .up ∧ agreeVersion (s.chain.verMin, s.chain.verMax) (lo, hi) ≠ 0 ∧ s.ntk.ports.length = 2 ∧ s.chain.st = .alone)
    (fun s t => (t.ntkPort n.val).link = .ready ∧ (t.ntkPort n.val).credits = total ∧ (t.ntkPort n.val).total = total ∧
      (t.ntkPort n.val).version = agreeVersion (s.chain.verMin, s.chain.verMax) (lo, hi))) ∧
  (∀ n : Fin 2, Moves (.ntkBlockLockLoss n) (fun s => (s.ntkPort n.val).link ≠ .down) (fun s => (s.linkDown n.val).auditDone)) ∧
  (∀ (s : State) (n : Nat), (s.ntkPort n).link ≠ .down → s.chain.ring = false → n < s.ntk.ports.length →
    ((s.linkDown n).ntkPort n).link = .down ∧ ((s.linkDown n).ntkPort n).credits = 0 ∧ ((s.linkDown n).ntkPort n).queue = []) ∧
  (∀ (n : Fin 2) m st pos, Moves (.ntkBlock n m st pos)
    (fun s => s.ntkReady n.val ∧ s.neighbour n.val = some pos ∧ s.chain.head ∧ s.chain.ring = false)
    (fun s => ((s.setNtkPort n.val { s.ntkPort n.val with silent := 0 }).cellIn n.val).heard pos)) ∧
  (∀ (n : Fin 2) t o r k, Moves (.ntkTime n t o r)
    (fun s => s.ntkReady n.val ∧ s.follows ∧ n.val = s.timePort ∧ s.valid = false ∧ s.tbWith 4 = some k)
    (fun s => ((s.setChain { s.chain with origin := some o.toNat }).setMedia { s.clock.media with originWritten := some o.toNat, rate96 := r }).measureTb
      k (((s.tb k).tod : Int) - unitsOf t))) ∧
  (∀ (n : Fin 2) c total, Moves (.ntkCredit n c total) (fun s => s.ntkReady n.val)
    (fun s => s.setNtkPort n.val { s.ntkPort n.val with
      credits := (s.ntkPort n.val).credits + c % 65536, partner := total.toNat,
      backs := if (s.ntkPort n.val).auditAt.isEmpty then [] else (s.ntkPort n.val).backs ++ [(c % 65536, total.toNat)] })) ∧
  (∀ (n : Fin 2) probe e got, Moves (.linkDelay n probe (some e) got) (fun s => s.ntkReady n.val)
    (fun s => s.setNtkPort n.val { s.ntkPort n.val with
      prop := (rdiv ((unitsOf got : Int) - unitsOf e) (2 * 65536)).toNat, echo := some (unitsOf probe) })) ∧
  (∀ (n : Fin 2) k b, Moves (.ntkStep n k b)
    (fun s => s.ntkReady n.val ∧ s.follows ∧ s.valid ∧ s.tbSource s.clock.media.active.val = 4)
    (fun s => (s.setMedia { s.clock.media with step := some (k, s.mscOf b, 0) }).passOn n.val 1 (.step k (s.mscOf b)))) ∧
  (let told (s : State) (n b d : Nat) (p : NtkPort) (mis : List Nat) : State :=
     let rest := p.auditAt.filter (fun a => a.1 != b)
     let s1 := s.setNtkPort n { p with auditAt := rest, backs := if rest.isEmpty then [] else p.backs }
     let audits := s1.led.audits.map (fun a => if a.at_ = b then { a with found := a.found.set n (some d) } else a)
     State.auditDone { s1 with led := { s1.led with mismatch := mis, audits := audits } }
   (∀ (n : Fin 2) b got free sent credits, Moves (.ntkAudit n b got free)
     (fun s => s.ntkReady n.val ∧ (s.ntkPort n.val).auditAt.find? (fun a => a.1 == s.mscOf b) = some (s.mscOf b, sent, credits) ∧
       (s.ntkPort n.val).creditsAt credits (got.toNat - free) + (sent - got.toNat) + free = (s.ntkPort n.val).total)
     (fun s => told s n.val (s.mscOf b) 0 (s.ntkPort n.val) s.led.mismatch)) ∧
   (∀ (n : Fin 2) b got free sent credits d, Moves (.ntkAudit n b got free)
     (fun s => s.ntkReady n.val ∧ (s.ntkPort n.val).auditAt.find? (fun a => a.1 == s.mscOf b) = some (s.mscOf b, sent, credits) ∧ 0 < d ∧
       (s.ntkPort n.val).creditsAt credits (got.toNat - free) + (sent - got.toNat) + free = (s.ntkPort n.val).total + d)
     (fun s => told s n.val (s.mscOf b) d { s.ntkPort n.val with repair := some ((s.ntkPort n.val).total - (sent - got.toNat) - free) }
       (s.led.mismatch.set n.val d)))) ∧
  (Moves .chainSourceLost (fun s => s.follows ∧ 4 ≤ (s.ntkPort s.timePort).silent ∧ s.chain.st = .member ∧ s.tbWith 4 = none)
    (fun s => s.setChain { s.chain with st := .cut, good := 0 })) ∧
  (Moves .chainReturn (fun s => s.chain.st = .cut ∧ 8 ≤ s.chain.good) (fun s => s.setChain { s.chain with st := .member }))

/-- OBJECT and SUM cells are forwarded, kept, dropped or late; roll call, epoch, join, leave and removal records act
(R315, R318, R324, R325, R327, R331, R334, R335). A cell with a bad CRC counts CRC_ERRS and frees its place at once.
In a chain, an OBJECT cell in time is kept and counts its samples ACCEPTED, a late one counts them ACCEPTED and
DISCARDED and NTK_LATE_CELLS; a SUM cell in time keeps the sums of feeds with SUM_IN or with neither flag, and those
of feeds with SUM_OUT alone count DISCARDED. ROLL_CALL gains the member's record and goes on, or comes back as
ROLL_REPLY from the last member; at the head a list that passes makes it MEMBER, one that fails gives FAIL and
ROLLCALL_FAIL. EPOCH_REPORT reaches the head's epoch, is kept for one that the head has not opened yet, or goes
upstream; EPOCH_DECISION defers, waits, expires or commits the epoch. A refused JOIN sets JOIN_REFUSED and answers
LEAVE with the reason; an accepted one opens the epoch of the join. LEAVE at a member starts its part of the epoch; a
member silent for 64 control frames is removed. Concluded: under conditions on the state and the operands alone exec
answers a next state, for objectCell, sumCell, rollCall, rollReply, epochReport, epochDecision, ntkJoin, ntkLeave,
memberRemoval. -/
def Obligations.ChainCellsAndRecordsAct : Prop :=
  let clips (x : Cell) : Nat := ((channelsOf x).map (fun k => ((x.words.getD k.1 []).filter (fun w => decide (2 ^ 27 ≤ w.natAbs))).length)).sum
  (∀ (n : Fin 2) x, Moves (.objectCell n x) (fun s => s.ntkReady n.val ∧ x.crcOk = false)
    (fun s => (s.count (ntkReg Reg.NTK_Pn_CRC_ERRS n.val) 1).cellIn n.val)) ∧
  (∀ (n : Fin 2) x, Moves (.sumCell n x) (fun s => s.ntkReady n.val ∧ x.crcOk = false)
    (fun s => (s.count (ntkReg Reg.NTK_Pn_CRC_ERRS n.val) 1).cellIn n.val)) ∧
  (∀ (n : Fin 2) x, Leads (.objectCell n x)
    (fun s => s.ntkReady n.val ∧ x.crcOk ∧ s.chainRuns ∧ s.chain.ring = false ∧ s.msc < x.block + s.chain.hold + 16)
    (fun s t => t.led = (s.addLed (chainLedger n.val)
      { acc := 16 * (channelsOf x).length, clip := clips x }).led ∧
      t.chain.objs.map Prod.fst = s.chain.objs.map Prod.fst ++ (channelsOf x).map (fun k => (x.block, k.2)))) ∧
  (∀ (n : Fin 2) x, Moves (.objectCell n x)
    (fun s => s.ntkReady n.val ∧ x.crcOk ∧ s.chainRuns ∧ s.chain.ring = false ∧ x.block + s.chain.hold + 16 ≤ s.msc ∧ channelsOf x ≠ [])
    (fun s => (((s.forwardCell n.val x .object).cellIn n.val).addLed (chainLedger n.val)
      { acc := 16 * (channelsOf x).length, dis := 16 * (channelsOf x).length, clip := clips x }).count Reg.NTK_LATE_CELLS 1)) ∧
  (∀ (n : Fin 2) x, Leads (.sumCell n x)
    (fun s => s.ntkReady n.val ∧ x.crcOk ∧ s.chainRuns ∧ s.msc < x.block + s.chain.hold + 64)
    (fun s t => t.led = (s.addLed (chainLedger n.val)
      { acc := 16 * (channelsOf x).length,
        dis := 16 * ((channelsOf x).filter (fun k => s.sumFlags k.2 == (false, true))).length, clip := clips x }).led ∧
      t.chain.sums.map Prod.fst = s.chain.sums.map Prod.fst ++
        ((channelsOf x).filter (fun k => s.sumFlags k.2 != (false, true))).map (fun k => (x.block, k.2)))) ∧
  (∀ (n : Fin 2) recs, Moves (.rollCall n recs)
    (fun s => n = 0 ∧ s.ntkReady 0 ∧ s.chain.head = false ∧ s.chain.st ≠ .alone ∧ s.chain.st ≠ .joining)
    (fun s =>
      let s1 := s.setChain { s.chain with place := recs.length }
      if s.ntkReady 1 then s1.sendOn [1] (.rollCall (recs ++ [s.rollRecord])) else s1.sendOn [0] (.rollReply (recs ++ [s.rollRecord])))) ∧
  (∀ (n : Fin 2) recs hops, Moves (.rollReply n recs hops) (fun s => s.ntkReady n.val ∧ s.chain.head ∧ s.chain.calling)
    (fun s =>
      let r : Roll := { ring := s.chain.ring, fs := s.fs, recs := recs, hops := hops }
      (s.rollOutcome r 0).sendOn [1] (.rollReply r.assigned.recs))) ∧
  (∀ (s : State) (r : Roll) (i : Nat), r.assigned.fail = 0 →
    (s.rollOutcome r i).chain.st = .member ∧ (s.rollOutcome r i).chain.position = (r.assigned.recs.getD i default).position) ∧
  (∀ (s : State) (r : Roll) (i : Nat), r.assigned.fail ≠ 0 →
    (s.rollOutcome r i).chain.fail = r.assigned.fail ∧ (s.rollOutcome r i).chain.st = s.chain.st ∧
    bitOf ((s.rollOutcome r i).reg Reg.NTK_EVT) 1 = true) ∧
  (∀ (n : Fin 2) id p st e, Moves (.epochReport n id p st)
    (fun s => s.ntkReady n.val ∧ s.chain.head ∧ s.chainEpoch id = some e ∧ e.st ≠ .open_)
    (fun s => (s.heard p).setEpoch
      { e with reports := e.reports.filter (fun r => r.1 != p) ++ [(p, st)], defective := e.defective || st == .defective })) ∧
  (∀ (n : Fin 2) id p st, Moves (.epochReport n id p st) (fun s => s.ntkReady n.val ∧ s.chain.head ∧ s.chainEpoch id = none)
    (fun s => (s.heard p).setChain { (s.heard p).chain with
      early := (s.heard p).chain.early.filter (fun r => !(r.1 == id && r.2.1 == p)) ++ [(id, p, st)] })) ∧
  (∀ (n : Fin 2) id p st, Moves (.epochReport n id p st) (fun s => s.ntkReady n.val ∧ s.chain.head = false)
    (fun s => s.passOn n.val 0 (.epochReport id p st))) ∧
  (∀ (n : Fin 2) id (m : DWord) e, Moves (.epochDecision n id m .commit)
    (fun s => s.ntkReady n.val ∧ s.chain.head = false ∧ (s.passOn n.val 1 (.epochDecision id (s.mscOf m) .commit)).chainEpoch id = some e ∧
      (e.st = .sealed ∨ e.st = .waiting) ∧ e.expiring = false ∧ (s.passOn n.val 1 (.epochDecision id (s.mscOf m) .commit)).msc + 128 < s.mscOf m)
    (fun s => (s.passOn n.val 1 (.epochDecision id (s.mscOf m) .commit)).commitEpoch { e with m := s.mscOf m } e.adjusted)) ∧
  (∀ (n : Fin 2) id (m : DWord) e, Moves (.epochDecision n id m .expire)
    (fun s => s.ntkReady n.val ∧ s.chain.head = false ∧ (s.passOn n.val 1 (.epochDecision id (s.mscOf m) .expire)).chainEpoch id = some e ∧
      (e.st = .sealed ∨ e.st = .waiting) ∧ e.expiring = false)
    (fun s => (s.passOn n.val 1 (.epochDecision id (s.mscOf m) .expire)).expire e)) ∧
  (∀ (n : Fin 2) id (m : DWord) e, Moves (.epochDecision n id m .defer)
    (fun s => s.ntkReady n.val ∧ s.chain.head = false ∧ (s.passOn n.val 1 (.epochDecision id (s.mscOf m) .defer)).chainEpoch id = some e ∧
      (e.st = .sealed ∨ e.st = .waiting) ∧ e.expiring = false ∧ e.m ≠ s.mscOf m)
    (fun s =>
      let s1 := s.passOn n.val 1 (.epochDecision id (s.mscOf m) .defer)
      (s1.setEpoch { s1.later e (s.mscOf m) with st := .sealed, deferrals := e.deferrals + 1, adjusted := true }).both Reg.TT_DEFERRALS Reg.TT_EVT 2)) ∧
  (∀ (n : Fin 2) id (m : DWord) e, Moves (.epochDecision n id m .wait)
    (fun s => s.ntkReady n.val ∧ s.chain.head = false ∧ (s.passOn n.val 1 (.epochDecision id (s.mscOf m) .wait)).chainEpoch id = some e ∧
      e.st = .sealed ∧ e.expiring = false)
    (fun s =>
      let s1 := s.passOn n.val 1 (.epochDecision id (s.mscOf m) .wait)
      (s1.setEpoch { s1.later e (s.mscOf m) with st := .waiting, adjusted := true }).evt Reg.TT_EVT 4)) ∧
  (∀ (n : Fin 2) rec place hops, Moves (.ntkJoin n rec place hops)
    (fun s => s.ntkReady n.val ∧ s.chain.st ≠ .alone ∧ s.chain.head ∧
      ({ ring := s.chain.ring, fs := s.fs, recs := (s.chain.members.map (fun m => m.entry)).take place ++ [rec] ++
          (s.chain.members.map (fun m => m.entry)).drop place, hops := hops } : Roll).assigned.fail = 6)
    (fun s => ((s.setChain { s.chain with fail := 6 }).sendOn [n.val] (.leave 255 6)).evt Reg.NTK_EVT 5)) ∧
  (∀ (n : Fin 2) rec place hops, Moves (.ntkJoin n rec place hops)
    (fun s => s.ntkReady n.val ∧ s.chain.st ≠ .alone ∧ s.chain.head ∧
      (let a := ({ ring := s.chain.ring, fs := s.fs, recs := (s.chain.members.map (fun m => m.entry)).take place ++ [rec] ++
          (s.chain.members.map (fun m => m.entry)).drop place, hops := hops } : Roll).assigned
       a.fail = 0 ∧ a.recs.any (fun m => decide (m.verMax < 0x11)) = false ∧ (a.recs.getD place rec) = rec))
    (fun s => (s.openChange rec true place hops (partsOf (rec.position :: ntkPositions s)) .open_).sendOn [0, 1] (.join rec))) ∧
  (∀ (n : Fin 2) p reason m, Moves (.ntkLeave n p reason)
    (fun s => s.ntkReady n.val ∧ n = 0 ∧ s.chain.st = .member ∧ s.chain.head = false ∧ p ≠ 0 ∧
      s.chain.members.find? (fun m => m.entry.position == p) = some m)
    (fun s => (s.passOn 0 1 (.leave p reason)).openChange m.entry false
      ((s.chain.members.findIdx? (fun x => x.entry.position == p)).getD 0) s.chain.hops 0 .sealed)) ∧
  (∀ p, Moves (.memberRemoval p)
    (fun s => s.chain.head ∧ s.chain.members.any (fun m => m.entry.position == p && decide (64 ≤ m.silent)))
    (fun s => s.startLeave p false))

/-- Refresh, retraining, replays and scrubbing act on a DRAM that answers (R386, R395, R396, R397, R398, R399, R400,
R401). While DRAM answers: an interval whose refreshes are all issued adds no debt, one that is not adds one up to 4;
MR4 reporting a doubled rate doubles the channel's debts, with a catch-up where one is above 4, and 32 ms of the
normal rate halve them, rounded up; a retrain is due, runs its 64 slices as pauses, and ends with new settings, or
with TRAIN_MARGIN_LOST, its failure counted and the retry that follows; a write-CRC alert replays with a pause, the
third failed replay poisons the writes and retrains the channel; SCRUB counts a corrected error and takes an
uncorrectable one as R400 says, a DRAM failure where a margin is lost or the limit is passed. The activation windows
clear, and a neighbour refresh sets its row's count to 0. The SRAM scrubber counts corrected words and acts on
uncorrectable ones. Concluded: under conditions on the state and the operands alone exec answers a next state, for
refreshInterval, mr4Read, refreshRateReturn, activationWindowReset, neighbourRefresh, retrainDue, retrainSlice,
retrainEnd, retrainRetry, alertNPulse, dramScrub, sramScrub. -/
def Obligations.MemoryMaintenanceActs : Prop :=
  (∀ n : Fin 4, Moves (.refreshInterval n true 0) (fun s => s.dramUp ∧ (s.subChan n.val).debt ≤ 4)
    (fun s => s.setSub n.val { s.subChan n.val with debt := (s.subChan n.val).debt })) ∧
  (∀ n : Fin 4, Moves (.refreshInterval n false 0) (fun s => s.dramUp ∧ (s.subChan n.val).debt < 4)
    (fun s => s.setSub n.val { s.subChan n.val with debt := (s.subChan n.val).debt + 1 })) ∧
  (∀ (n : Fin 4) k, Moves (.refreshInterval n true k) (fun s => s.dramUp ∧ 4 < (s.subChan n.val).debt ∧ 0 < k ∧ k ≤ (s.subChan n.val).debt - 4)
    (fun s => (s.setSub n.val { s.subChan n.val with debt := (s.subChan n.val).debt - k }).pause (k * s.trfc))) ∧
  (∀ c : Fin 2, Moves (.mr4Read c true) (fun s => s.dramUp ∧ (s.dramChan c.val).x2 = false ∧
      2 * (s.subChan (2 * c.val)).debt ≤ 4 ∧ 2 * (s.subChan (2 * c.val + 1)).debt ≤ 4 ∧ s.memory.sub.length = 4)
    (fun s => ((s.setDramChan c.val { s.dramChan c.val with
      hot := true, x2 := true, coolFrom := if (s.dramChan c.val).hot then s.samples else (s.dramChan c.val).coolFrom }).mapDebt c.val (fun d => 2 * d)).evt Reg.MEM_EVT 5)) ∧
  (∀ c : Fin 2, Moves (.mr4Read c false) (fun s => s.dramUp) (fun s => s.setDramChan c.val { s.dramChan c.val with
      hot := false, coolFrom := if (s.dramChan c.val).hot then s.samples else (s.dramChan c.val).coolFrom })) ∧
  (∀ c : Fin 2, Moves (.refreshRateReturn c) (fun s => (s.dramChan c.val).x2 ∧ (s.dramChan c.val).hot = false ∧ s.passed (s.dramChan c.val).coolFrom 32000)
    (fun s => (s.setDramChan c.val { s.dramChan c.val with x2 := false }).mapDebt c.val (fun d => (d + 1) / 2))) ∧
  (Moves .activationWindowReset (fun _ => True)
    (fun s => s.setMemory { s.memory with sub := s.memory.sub.map (fun v => { v with tracker := [] }) })) ∧
  (∀ (n : Fin 4) bank row, Moves (.neighbourRefresh n bank row) (fun _ => True)
    (fun s => (s.setSub n.val { s.subChan n.val with
      tracker := ((bank, row), 0) :: (((s.subChan n.val).tracker.filter (fun p => p.1.1 == bank && p.1 != (bank, row))).take 15 ++
        (s.subChan n.val).tracker.filter (fun p => p.1.1 != bank)) }).both Reg.MEM_NEIGHBOUR_REFRESHES Reg.MEM_EVT 6)) ∧
  (∀ c : Fin 2, Moves (.retrainDue c) (fun s => s.chanUp c.val ∧ bitOf (s.reg Reg.MEM_CFG) 1 ∧ (s.dramChan c.val).retrain = none ∧
      (s.passed (s.dramChan c.val).trainedAt (max 10 (fieldOf (s.reg Reg.MEM_CFG) 8 8) * 1000000) ∨ 2560 < (s.pwr.temp - (s.dramChan c.val).trainTemp).natAbs))
    (fun s => s.setDramChan c.val { s.dramChan c.val with retrain := some 0, forced := false, retries := 0 })) ∧
  (∀ (c : Fin 2) ns k, Moves (.retrainSlice c ns) (fun s => s.chanUp c.val ∧ (s.dramChan c.val).retrain = some k ∧ k < 64)
    (fun s => (s.setDramChan c.val { s.dramChan c.val with retrain := some (k + 1) }).pause ns)) ∧
  (∀ c : Fin 2, Moves (.retrainEnd c true) (fun s => s.chanUp c.val ∧ (s.dramChan c.val).retrain = some 64)
    (fun s => (s.count Reg.MEM_RETRAINS 1).setDramChan c.val { s.dramChan c.val with
      retrain := none, marginLost := false, forced := false, retries := 0, trainedAt := s.samples, trainTemp := s.pwr.temp })) ∧
  (∀ c : Fin 2, Moves (.retrainEnd c false) (fun s => s.chanUp c.val ∧ (s.dramChan c.val).retrain = some 64 ∧ (s.dramChan c.val).forced = false)
    (fun s => ((s.count Reg.MEM_RETRAINS 1).setDramChan c.val { s.dramChan c.val with
      retrain := none, marginLost := true, forced := false, trainedAt := s.samples, trainTemp := s.pwr.temp }).both Reg.MEM_RETRAIN_FAILS Reg.MEM_EVT 4)) ∧
  (∀ c : Fin 2, Leads (.retrainEnd c false) (fun s => s.chanUp c.val ∧ (s.dramChan c.val).retrain = some 64 ∧ (s.dramChan c.val).forced)
    (fun _ t => t.memory.failed = true)) ∧
  (∀ c : Fin 2, Moves (.retrainRetry c)
    (fun s => s.chanUp c.val ∧ (s.dramChan c.val).marginLost ∧ (s.dramChan c.val).retrain = none ∧ (s.dramChan c.val).retries < 8 ∧
      s.passed (s.dramChan c.val).trainedAt 1000000)
    (fun s => s.setDramChan c.val { s.dramChan c.val with retrain := some 0, forced := false, retries := (s.dramChan c.val).retries + 1 })) ∧
  (∀ n : Fin 4, Moves (.alertNPulse n false 0) (fun s => s.chanUp (n.val / 2))
    (fun s => ((s.both Reg.MEM_CRC_REPLAYS Reg.MEM_EVT 3).setSub n.val { s.subChan n.val with fails := 0 }).pause 500)) ∧
  (∀ n : Fin 4, Leads (.alertNPulse n true 0) (fun s => s.chanUp (n.val / 2) ∧ (s.subChan n.val).fails = 2 ∧ n.val / 2 < s.memory.chan.length)
    (fun s t => (∀ b ∈ (s.subChan n.val).retry, b ∈ t.memory.poison) ∧ (t.dramChan (n.val / 2)).retrain = some 0 ∧ (t.dramChan (n.val / 2)).forced)) ∧
  (∀ a, Moves (.dramScrub a .corrected) (fun s => bitOf (s.reg Reg.MEM_CFG) 0 ∧ s.dramUp ∧ a < s.dramCap ∧ s.poisoned a 1 = false)
    (fun s => s.both Reg.MEM_DRAM_CE Reg.MEM_EVT 0)) ∧
  (∀ a, Moves (.dramScrub a .uncorrectable) (fun s => bitOf (s.reg Reg.MEM_CFG) 0 ∧ s.dramUp ∧ a < s.dramCap) (fun s => s.dramUe a)) ∧
  (∀ (s : State) a, (s.dramUe a).memory.ueAddr = a ∧ ((s.dramChan (s.chanOf a)).marginLost → (s.dramUe a).memory.failed = true)) ∧
  (∀ u r, Moves (.sramScrub (u :: r)) (fun _ => True)
    (fun s => sramScrub r (if u.uncorrectable then (s.both Reg.MEM_SRAM_UE Reg.MEM_EVT 2).sramEffect u else s.count Reg.MEM_SRAM_CE 1)))

/-- The MSC starts and ends, and the mode changes at its boundary (R57, R409, R410, R411, R412, R413, R419, R421, R422,
R423, R464). With MEDIA_CFG written, a good active time base and N − ORIGIN a multiple of 128, the MSC becomes valid
at N − ORIGIN, the default ORIGIN being N rounded down to 128, with FREE_OK the one that the attic stored at the same
RATE; a change of RATE ends it at a boundary, MSC and ORIGIN 0 and MEDIA_CFG to be written anew. In its turn of step 2
and at or after its boundary, a waiting MODE_SET changes between running modes, begins the entry to STANDBY, leaves
STANDBY or enters DORMANT; the entry boundary enters STANDBY; a reason for FALLBACK enters it; the automatic start
enters SHOW; HOST_WAIT's end arms it while queue 0 has not been enabled. A change between running modes ends FREEZE
and clears the reasons and completes its command; entry to STANDBY leaves the mode STANDBY. Concluded: under
conditions on the state and the operands alone exec answers a next state, for mscValidate, mscInvalidate, modeChange,
standbyEntry, standbyExit, dormantEntry, fallbackEntry, autoStart, hostWaitExpiry. -/
def Obligations.ModesChange : Prop :=
  (Moves .mscValidate
    (fun s => s.valid = false ∧ s.pwr.mode.awake ∧ s.clock.media.cfgWritten ∧ s.tbGood ∧ (s.mediaCount - (s.originAt s.mediaCount).1) % 128 = 0)
    (fun s =>
      let o := s.originAt s.mediaCount
      let b := s.mediaCount - o.1
      let s1 := s.setMedia { s.clock.media with
        valid := true, msc := b, origin := o.1, originWritten := none, seedOrigin := none, rejected := s.clock.media.rejected || o.2, starting := true,
        step := none, slewLeft := 0, holding := false, timerOn := false, returned := s.clock.media.outMute.target == 0 }
      let s3 := (({ s1 with led := { s1.led with pend := [] }, boundary := true, tail := false } : State).serialStart true b).flowsStart b
      if s3.runs then s3.pipeStart b else s3)) ∧
  (∀ (s : State) n, s.clock.media.originWritten = none → s.clock.media.seedOrigin = none → s.originAt n = (n / 128 * 128, false)) ∧
  (∀ (s : State) n o, s.clock.media.originWritten = none → s.clock.media.seedOrigin = some (o, s.clock.media.rate96) → s.mediaBit 9 → o ≤ n →
    s.originAt n = (o, false)) ∧
  (∀ (s : State) n o, s.clock.media.originWritten = some o → o ≤ n → s.originAt n = (o, false)) ∧
  (∀ (s : State) n o, s.clock.media.originWritten = some o → n < o → s.originAt n = (n / 128 * 128, true)) ∧
  (Leads .mscInvalidate (fun s => s.valid ∧ s.clock.media.rateChange ∧ s.modeTurn)
    (fun _ t => t.valid = false ∧ t.msc = 0 ∧ t.clock.media.origin = 0 ∧ t.clock.media.step = none ∧ t.clock.media.cfgWritten = false ∧ t.boundary = false)) ∧
  (∀ w, Moves .modeChange
    (fun s => s.pwr.auto = none ∧ s.waitDue = some w ∧ s.pwr.mode ≠ .standby ∧ s.clock.media.rateChange = false ∧ w.target.runs)
    (fun s => watched (fun s => ((s.setPwr { s.pwr with wait := none }).enterRunning w.target (some w.cmd) w.adj).modeDone) s)) ∧
  (∀ w, Moves .modeChange
    (fun s => s.pwr.auto = none ∧ s.waitDue = some w ∧ s.pwr.mode ≠ .standby ∧ s.clock.media.rateChange = false ∧ w.target = .standby)
    (fun s => watched (fun s => ((s.setPwr { s.pwr with wait := none }).beginStandby (some (w.cmd, w.adj)) false).modeDone) s)) ∧
  (∀ (s : State) m c adj, (s.enterRunning m c adj).pwr.mode = m ∧ (s.enterRunning m c adj).pwr.freeze = false ∧
    (s.enterRunning m c adj).pwr.fbWdog = false ∧ (s.enterRunning m c adj).pwr.fbTherm = false) ∧
  (∀ (s : State) c th, (s.enterStandby c th).pwr.mode = .standby ∧ (s.enterStandby c th).pwr.entering = none) ∧
  (∀ e, Moves .standbyEntry
    (fun s => s.pwr.entering = some e ∧ s.modeTurn ∧ e.at_ ≤ s.msc ∧ s.fallbackDue s.msc = false ∧ s.clock.media.rateChange = false)
    (fun s => watched (fun s => (s.enterStandby e.cmd e.thermal).modeDone) s)) ∧
  (∀ w, Moves .standbyExit (fun s => s.waitDue = some w ∧ s.pwr.mode = .standby ∧ w.target ≠ .dormant)
    (fun s => watched (fun s => ((s.setPwr { s.pwr with wait := none }).exitStandby w.target w.cmd w.adj).modeDone) s)) ∧
  (∀ w, Moves .dormantEntry (fun s => s.waitDue = some w ∧ w.target = .dormant)
    (fun s => watched (fun s => ((({ s with tail := false } : State).setPwr { s.pwr with wait := none }).boundaryEnd s.msc).enterDormant w.cmd w.adj) s)) ∧
  (∀ (s : State) c adj, (s.enterDormant c adj).valid = false ∧ (s.enterDormant c adj).pwr.attic.msc = s.msc ∧
    (s.enterDormant c adj).pwr.attic.origin = s.clock.media.origin ∧ (s.enterDormant c adj).pwr.mode = .dormant ∧
    (s.enterDormant c adj).pwr.dormantReady = true ∧ (s.enterDormant c adj).pwr.wakeN = true) ∧
  (Moves .fallbackEntry (fun s => s.fallbackDue s.msc ∧ (s.valid = false ∨ s.modeTurn)) (fun s => watched (fun s => s.enterFallback.modeDone) s)) ∧
  (Moves .autoStart (fun s => s.modeTurn ∧ s.autoDue s.msc ∧ s.fallbackDue s.msc = false ∧ s.clock.media.rateChange = false)
    (fun s => watched (fun s => (s.enterRunning .show_ none false).modeDone) s)) ∧
  (Moves .hostWaitExpiry (fun s => s.pwr.mode = .setup ∧ s.pwr.straps.bootMode = 2 ∧ s.pwr.hostSeen = false ∧
      s.passed s.pwr.setupAt (imgNat (listByte s.pwr.image) 24 2 * 1000000))
    (fun s => s.setPwr { s.pwr with autoArmed := true }))

/-- Thermal steps, comparators, wakes, fuses, the SMBus target and the TAP act (R414, R415, R416, R417, R427, R457, R458).
A measurement of the main domain shows in PWR_TEMP and counts toward each step; a step is reached at the third in a
row at its threshold and reported once, the 105 °C step counts a reduction in a running mode, the 115 °C step of a
running mode asks for STANDBY at the next control-frame boundary; it clears at the third in a row below its clearing
point. A 105 °C step that stands in SHOW or SERVICE through the measurements of its delay is an emergency. A
comparator's firing is shown, and reported while the main domain runs; in DORMANT an enabled one wakes: its cause is
recorded and WAKE_N pulled low; the attic starts BOOT itself with power and RESET_N present. Fuse commands with their
key in SETUP start a burn, whose end programs the fuse or sets ERR. The SMBus target answers its five codes and NACKs
a write and another code; the alert response releases SMB_ALERT_N. The TAP's instructions act as IEEE 1149.1 has them.
Concluded: under conditions on the state and the operands alone exec answers a next state, for temperatureMeasure,
thermalStep, thermalEmergency, comparatorFire, wake, atticSelfBoot, fuseBurnKeyHash, fuseRollbackAdvance, fuseBurnEnd,
smbusReadId, smbusReadStatus, smbusReadTemperature, smbusReadWakeCause, smbusReadBoot, smbusWrite, smbusUnknownRead,
alertResponse, jtagBypass, jtagIdcode, jtagSamplePreload, jtagExtest, jtagHighz, jtagClamp, jtagTrst. -/
def Obligations.TemperatureAndAtticAct : Prop :=
  (∀ t, Moves (.temperatureMeasure t) (fun s => s.mainUp) (fun s => watched (fun s => s.setPwr { s.pwr with
    temp := t, tempMax := max s.pwr.tempMax t,
    hot := s.pwr.hot.zipIdx.map (fun p => if thermAt p.2 ≤ t then p.1 + 1 else 0),
    cold := s.pwr.cold.zipIdx.map (fun p => if t < thermClear p.2 then p.1 + 1 else 0),
    hotFor := if s.pwr.stepOn.getD 1 false && s.wdogMode then s.pwr.hotFor + 1 else 0 }) s)) ∧
  (Moves (.thermalStep 0) (fun s => s.pwr.stepOn.getD 0 false = false ∧ 3 ≤ s.pwr.hot.getD 0 0)
    (fun s => watched (fun s => (s.setPwr { s.pwr with stepOn := s.pwr.stepOn.set 0 true }).evt Reg.PWR_EVT 0) s)) ∧
  (Moves (.thermalStep 1) (fun s => s.pwr.stepOn.getD 1 false = false ∧ 3 ≤ s.pwr.hot.getD 1 0 ∧ s.runs)
    (fun s => watched (fun s => ((s.setPwr { s.pwr with stepOn := s.pwr.stepOn.set 1 true }).evt Reg.PWR_EVT 1).count Reg.PWR_THERM_REDUCTIONS 1) s)) ∧
  (Leads (.thermalStep 2) (fun s => s.pwr.stepOn.getD 2 false = false ∧ 3 ≤ s.pwr.hot.getD 2 0 ∧ s.runs ∧ s.valid)
    (fun s t => t.pwr.auto = some (s.nextMul 128) ∧ t.pwr.mode = s.pwr.mode ∧ t.pwr.stepOn = s.pwr.stepOn.set 2 true)) ∧
  (∀ k : Fin 3, Moves (.thermalStep k) (fun s => s.pwr.stepOn.getD k.val false ∧ k.val < 2 ∧ 3 ≤ s.pwr.cold.getD k.val 0)
    (fun s => watched (fun s => s.setPwr { s.pwr with stepOn := s.pwr.stepOn.set k.val false }) s)) ∧
  (Moves .thermalEmergency (fun s => s.pwr.stepOn.getD 1 false ∧ s.wdogMode ∧ fieldOf (s.reg Reg.PWR_CFG) 8 8 ≠ 0 ∧
      1000 * fieldOf (s.reg Reg.PWR_CFG) 8 8 ≤ s.pwr.hotFor)
    (fun s => s.setPwr { s.pwr with pendTherm := true })) ∧
  (∀ k : Fin 4, Moves (.comparatorFire k) (fun s => s.pwr.atticUp ∧ k.val ≠ 3 ∧ s.mainUp)
    (fun s => (s.setAttic { s.pwr.attic with cmp := s.pwr.attic.cmp.set k.val (bitOf s.pwr.attic.cfg (8 + k.val)) }).evt Reg.PWR_EVT 5)) ∧
  (Moves (.comparatorFire 3) (fun s => s.pwr.atticUp ∧ s.pwr.attic.wakeSec ≤ s.pwr.attic.tod / second16 ∧ s.mainUp = false)
    (fun s => s.setAttic { s.pwr.attic with cmp := s.pwr.attic.cmp.set 3 true })) ∧
  (∀ src : Fin 5, Moves (.wake src) (fun s => s.pwr.mode = .dormant ∧ bitOf s.pwr.attic.cfg src.val ∧ s.pwr.woken = false)
    (fun s => s.setPwr { s.pwr with attic := { s.pwr.attic with cause := 2 ^ src.val }, woken := true, wakeN := false })) ∧
  (∀ x, Moves (.atticSelfBoot x) (fun s => s.supplied ∧ s.pwr.mode = .dormant ∧ s.pwr.woken ∧ s.pwr.resetN)
    (fun s => watched (fun s => s.beginBoot x) s)) ∧
  (Moves (.fuseBurnKeyHash 0xA5) (fun s => s.pwr.mode = .setup ∧ s.pwr.fuses.busy = none ∧ s.pwr.fuses.keyBlank)
    (fun s => s.setFuses { s.pwr.fuses with busy := some 1, keyHash := s.fuseData })) ∧
  (Moves (.fuseRollbackAdvance 0xA5) (fun s => s.pwr.mode = .setup ∧ s.pwr.fuses.busy = none ∧ s.pwr.fuses.rollback < 64)
    (fun s => s.setFuses { s.pwr.fuses with busy := some 2 })) ∧
  (Moves (.fuseBurnEnd true) (fun s => s.pwr.fuses.busy = some 1) (fun s => s.setFuses { s.pwr.fuses with busy := none, keyBlank := false })) ∧
  (Moves (.fuseBurnEnd true) (fun s => s.pwr.fuses.busy = some 2)
    (fun s => s.setFuses { s.pwr.fuses with busy := none, rollback := s.pwr.fuses.rollback + 1 })) ∧
  (∀ op, Moves (.fuseBurnEnd false) (fun s => s.pwr.fuses.busy = some op) (fun s => s.setFuses { s.pwr.fuses with busy := none, err := true })) ∧
  (Moves .smbusReadId (fun s => s.smbUp) (fun s => s.setPwr { s.pwr with smb := some smbId })) ∧
  (Moves .smbusReadStatus (fun s => s.smbUp) (fun s => s.setPwr { s.pwr with smb := some [s.smbStatus] })) ∧
  (Moves .smbusReadTemperature (fun s => s.smbUp ∧ s.pwr.mode ≠ .dormant)
    (fun s => s.setPwr { s.pwr with smb := some (leBytes 2 (toField 16 s.pwr.temp)) })) ∧
  (Moves .smbusReadTemperature (fun s => s.smbUp ∧ s.pwr.mode = .dormant)
    (fun s => s.draw.2.setPwr { s.draw.2.pwr with smb := some (leBytes 2 (toField 16 s.draw.1)) })) ∧
  (Moves .smbusReadWakeCause (fun s => s.smbUp) (fun s => s.setPwr { s.pwr with smb := some [BitVec.ofNat 8 s.pwr.attic.cause] })) ∧
  (Moves .smbusReadBoot (fun s => s.smbUp)
    (fun s => s.setPwr { s.pwr with smb := some (leBytes 2 (s.pwr.bootStage + 16 * s.pwr.bootCause + 256 * s.pwr.resetCause)) })) ∧
  (∀ b, Moves (.smbusWrite b) (fun _ => True) (fun s => s.setPwr { s.pwr with smb := none })) ∧
  (∀ b, Moves (.smbusUnknownRead b) (fun _ => 5 ≤ b.toNat) (fun s => s.setPwr { s.pwr with smb := none })) ∧
  (∀ b, Moves (.alertResponse b) (fun s => s.smbUp ∧ s.pwr.alertN = false)
    (fun s => s.setPwr { s.pwr with alertN := !b, smb := some [0x98] })) ∧
  (let live (s : State) : Prop := s.pwr.mode ≠ .dormant ∧ s.pwr.jtag.held = false
   (∀ b, Moves (.jtagBypass b) live
     (fun s => s.setJtag { s.pwr.jtag with op := .bypass, bypass := b, tdo := [s.pwr.jtag.op == .bypass && s.pwr.jtag.bypass] })) ∧
   Moves .jtagIdcode live (fun s => s.setJtag { s.pwr.jtag with op := .idcode, tdo := wordBits 0x264104B5 }) ∧
   (∀ p l, Moves (.jtagSamplePreload p l) live (fun s => s.setJtag { s.pwr.jtag with op := .sample, tdo := p, latch := l })) ∧
   (∀ p l, Moves (.jtagExtest p l) live (fun s => s.setJtag { s.pwr.jtag with op := .extest, tdo := p, latch := l })) ∧
   Moves .jtagHighz live (fun s => s.setJtag { s.pwr.jtag with op := .highz }) ∧
   Moves .jtagClamp live (fun s => s.setJtag { s.pwr.jtag with op := .clamp }) ∧
   Moves (.jtagTrst true) (fun _ => True) (fun s => s.setJtag { s.pwr.jtag with held := true, op := .idcode, bypass := false }) ∧
   Moves (.jtagTrst false) (fun _ => True) (fun s => s.setJtag { s.pwr.jtag with held := false }))

/-- Resets hold the main domain, and BOOT runs its stages (R65, R92, R394, R414, R423, R426, R428, R429, R430, R451). A
reset of the main domain puts it in RESET with its cause recorded, keeps the attic, and keeps the RWS field
SYS_SCRATCH for RESET_N, a soft reset and the crystal's fault and clears it when the rails rise; RESET_N's release
with power starts BOOT with the straps sampled. BOOT's stages follow each other: copy A that verifies, else copy B,
becomes the image, with neither BOOT is held with NO_IMAGE or FLASH_ERROR; trained DRAM goes on, untrained is
DRAM_TRAIN with DRAM failed; a verified safe shelf becomes active, another leaves none active, SAFE_FAIL and
BOOT_DEGRADED; the PROF_SEL shelf loads into slot 0; the last stage enters SETUP, and factory mode stays in BOOT.
Concluded: under conditions on the state and the operands alone exec answers a next state, for xtalFault, xtalReturn,
resetNAssert, softReset, mainRailDrop, mainRailReturn, vddAtticDrop, vddAtticRise, vddIo33Loss, vddIo33Return,
resetRelease, bootStageEnd. -/
def Obligations.ResetsAndBootAct : Prop :=
  let up (f : State → State) : State → State := watched f
  let scratch := Reg.SYS_SCRATCH
  (∀ (s : State) keep n, (s.resetMain keep n).pwr.mode = .reset ∧ (s.resetMain keep n).pwr.resetCause = n ∧
    (s.resetMain keep n).pwr.attic = s.pwr.attic ∧ (s.resetMain keep n).valid = false ∧ (s.resetMain keep n).host.mem = s.host.mem) ∧
  (∀ (s : State) n, (s.resetMain true n).reg scratch = s.reg scratch ∧ (s.resetMain false n).reg scratch = 0) ∧
  (Moves .xtalFault (fun s => s.pwr.mode ≠ .dormant ∧ s.pwr.xtalFault = false)
    (up (fun s => (s.resetMain true 4).setPwr { (s.resetMain true 4).pwr with xtalFault := true }))) ∧
  (Moves .xtalReturn (fun _ => True) (up (fun s => s.setPwr { s.pwr with xtalFault := false }))) ∧
  (Moves .resetNAssert (fun s => s.pwr.mode ≠ .dormant)
    (up (fun s => (s.resetMain true 2).setPwr { (s.resetMain true 2).pwr with resetN := false }))) ∧
  (Moves (.softReset 0xB0 true) (fun s => s.pwr.mode.awake) (up (fun s => s.resetMain true 3))) ∧
  (∀ key on, Leads (.softReset key on) (fun s => (key ≠ 0xB0 ∨ on = false) ∧ s.pwr.alertN = true) (fun s t => t = s)) ∧
  (Moves .mainRailDrop (fun s => s.pwr.mode ≠ .dormant)
    (up (fun s => (s.resetMain false s.pwr.resetCause).setPwr { (s.resetMain false s.pwr.resetCause).pwr with railsUp := false }))) ∧
  (Moves .mainRailReturn (fun s => s.pwr.railsUp = false ∧ s.pwr.mode ≠ .dormant)
    (fun s => s.setPwr { s.pwr with railsUp := true, resetCause := 1 })) ∧
  (Moves .vddAtticDrop (fun _ => True) (up (fun s =>
    (s.resetMain false s.pwr.resetCause).setPwr { (s.resetMain false s.pwr.resetCause).pwr with atticUp := false, attic := {} }))) ∧
  (Moves .vddAtticRise (fun s => s.pwr.atticUp = false)
    (up (fun s => (s.resetMain false 0).setPwr { (s.resetMain false 0).pwr with atticUp := true, attic := {} }))) ∧
  (Moves .vddIo33Loss (fun _ => True) (fun s => s.setPwr { s.pwr with io33 := false })) ∧
  (Moves .vddIo33Return (fun _ => True) (fun s => s.setPwr { s.pwr with io33 := true })) ∧
  (∀ x, Moves (.resetRelease x) (fun s => s.supplied ∧ s.pwr.mode = .reset) (up (fun s =>
    s.setPwr { s.pwr with mode := .boot, straps := x, resetN := true, wakeN := true, woken := false, bootStage := 0 }))) ∧
  (∀ x k, k = 0 ∨ k = 1 ∨ k = 3 → Moves (.bootStageEnd x) (fun s => s.pwr.mode = .boot ∧ s.pwr.bootHeld = false ∧ s.pwr.bootStage = k)
    (up (fun s => s.setPwr { s.pwr with bootStage := k + 1 }))) ∧
  (let at_ (s : State) (k : Nat) : Prop := s.pwr.mode = .boot ∧ s.pwr.bootHeld = false ∧ s.pwr.bootStage = k
   let image (b : List Byte) (second : Bool) (s : State) : State :=
     (s.setPwr { s.pwr with image := b, imageB := second, bootStage := 3 }).setMemory
       { s.memory with config := imgNat (listByte b) 22 1, speed := imgNat (listByte b) 23 1 }
   (∀ x b, Moves (.bootStageEnd x) (fun s => at_ s 2 ∧ x.copyA = some b ∧ s.bootCopyOk x.copyA x.sigA) (up (image b false))) ∧
   (∀ x b, Moves (.bootStageEnd x)
     (fun s => at_ s 2 ∧ s.bootCopyOk x.copyA x.sigA = false ∧ x.copyB = some b ∧ s.bootCopyOk x.copyB x.sigB) (up (image b true))) ∧
   (∀ x, Moves (.bootStageEnd x)
     (fun s => at_ s 2 ∧ s.bootCopyOk x.copyA x.sigA = false ∧ s.bootCopyOk x.copyB x.sigB = false)
     (up (fun s => { s.setPwr { s.pwr with bootCause := if x.copyA.isNone ∧ x.copyB.isNone then 2 else 1, bootHeld := true } with
       host := { s.host with linkUp := false } }))) ∧
   (∀ x, Moves (.bootStageEnd x) (fun s => at_ s 4 ∧ x.trained)
     (up (fun s => (s.setPwr { s.pwr with bootStage := 5 }).setMemory { s.memory with
      trained := true, chan := s.memory.chan.map (fun v => { v with trainedAt := s.samples, trainTemp := s.pwr.temp }) }))) ∧
   (∀ x, Moves (.bootStageEnd x) (fun s => at_ s 4 ∧ x.trained = false)
     (up (fun s => ((((s.setPwr { s.pwr with bootStage := 5 }).setMemory { s.memory with failed := true }).evt Reg.MEM_EVT 8)).bootFail 3))) ∧
   (∀ x, Leads (.bootStageEnd x)
     (fun s => at_ s 5 ∧ s.verifyImage 8 (listByte (shelfBytes x.shelf)) x.shelf.length = 0xFF) (fun _ t => t.active = 8)) ∧
   (∀ x, Leads (.bootStageEnd x)
     (fun s => at_ s 5 ∧ s.verifyImage 8 (listByte (shelfBytes x.shelf)) x.shelf.length ≠ 0xFF)
     (fun _ t => t.active = 15 ∧ t.pwr.bootCause = 5)) ∧
   (∀ x, Moves (.bootStageEnd x) (fun s => at_ s 6) (up (bootProf x))) ∧
   (∀ x, Moves (.bootStageEnd x) (fun s => at_ s 7) (up (bootEnd x))) ∧
   (∀ x (s : State), s.pwr.straps.bootMode = 3 → bootEnd x s = s))

/-- A sample period moves the MSC by one; a block boundary works its slots, sends the block frames and ends (R14, R18,
R34, R220, R463). With no boundary pending, SAMPLE_PERIOD_START in an awake mode counts the period, advances each time
base by XTAL_25M's time as its correction has it, and the watchdog, and, with a valid MSC, begins the next period,
whose MSC is one more than the last; a boundary is pending exactly from periods at multiples of 16. BLOCK_BOUNDARY
works the slots of a running pipeline, or what is due in STANDBY, then sends the block frames, and ends the boundary
unless bells, stream or mode changes of step 2 are still due. Concluded: under conditions on the state and the
operands alone exec answers a next state, for samplePeriodStart, blockBoundary. -/
def Obligations.TimeDrivesThePipeline : Prop :=
  (∀ x, Moves (.samplePeriodStart x) (fun s => s.boundary = false ∧ s.tail = false ∧ s.pwr.atticUp = false ∧ s.pwr.mode.awake ∧ s.valid = false)
    (fun s => (({ s with samples := s.samples + 1 } : State).advanceTime x.xtal).wdogTick)) ∧
  (∀ x, Moves (.samplePeriodStart x)
    (fun s => s.boundary = false ∧ s.tail = false ∧ s.pwr.atticUp = false ∧ s.pwr.mode.awake ∧ s.clock.media.valid ∧ s.clock.media.starting = false)
    (fun s => ((({ s with samples := s.samples + 1 } : State).advanceTime x.xtal).wdogTick).periodAt (s.msc + 1) false x)) ∧
  (∀ x, Moves (.samplePeriodStart x)
    (fun s => s.boundary = false ∧ s.tail = false ∧ s.pwr.atticUp = false ∧ s.pwr.mode.awake ∧ s.clock.media.valid ∧ s.clock.media.starting)
    (fun s => ((({ s with samples := s.samples + 1 } : State).advanceTime x.xtal).wdogTick).periodAt s.msc true x)) ∧
  (∀ (s : State) n xtal, n < s.clock.tb.length → (s.advanceTime xtal).tb n = (s.tb n).advance (s.correction n) xtal) ∧
  (∀ (b : TimeBase) corr xtal, b.st ≠ .disabled → (b.advance corr xtal).tod =
    min (b.tod + (xtal * ((million16 : Int) + corr).toNat + b.frac) / million16) (2 ^ 48 * second16 - 1)) ∧
  (∀ (s : State) n first x, (s.periodAt n first x).boundary = (!first && n % 16 == 0)) ∧
  (∀ x, Moves (.blockBoundary x)
    (fun s => s.boundary ∧ s.valid ∧ s.piping ∧ ({ (s.pipeBoundary s.msc x).framesSend s.msc with boundary := false } : State).tailDue s.msc = false)
    (fun s => watched (fun s => ({ (s.pipeBoundary s.msc x).framesSend s.msc with boundary := false } : State).boundaryEnd s.msc) s)) ∧
  (∀ x, Moves (.blockBoundary x)
    (fun s => s.boundary ∧ s.valid ∧ s.piping = false ∧
      ({ (s.stillBoundary s.msc).framesSend s.msc with boundary := false } : State).tailDue s.msc = false)
    (fun s => watched (fun s => ({ (s.stillBoundary s.msc).framesSend s.msc with boundary := false } : State).boundaryEnd s.msc) s)) ∧
  (∀ x, Moves (.blockBoundary x)
    (fun s => s.boundary ∧ s.valid ∧ s.piping ∧ ({ (s.pipeBoundary s.msc x).framesSend s.msc with boundary := false } : State).tailDue s.msc)
    (fun s => watched (fun s => { (s.pipeBoundary s.msc x).framesSend s.msc with boundary := false, tail := true }) s))

/-- At its check boundary an epoch is cancelled, commits, is deferred by a control frame, or is to expire; then it is
final (R79, R81, R84, R86, R87, R98, R331, R464). A DEFECTIVE epoch, and one that would switch to the slot that is
active, is cancelled with BAD_PARAM; one whose switch may not start yet waits; one that is staged and that nothing
holds back commits; one that is not is deferred by 128 samples with TT_EVT.DEFERRED, or is marked to expire once it
was deferred DEADLINE times. Expiry, cancellation and commit are final: the epoch leaves the timetable, its command
completes, and its final state is kept under its identifier. EPOCH_EXPIRE ends an epoch to expire with EXPIRED;
EPOCH_MEMBER_STAGED stages a part whose evaluation is paid for, path sets in the order of sealing, and whose filter
taps fit; EPOCH_SPLIT aborts a chain epoch for which no decision came. Concluded: under conditions on the state and
the operands alone exec answers a next state, for epochExpire, epochSplit, epochMemberStaged. -/
def Obligations.EpochChecksDecide : Prop :=
  (∀ (s : State) e, e.defective → s.checkEpoch e = s.endEpoch e 5 stBadParam) ∧
  (∀ (s : State) e, e.safe = false → e.members.any (fun m => m.switch.any (fun w => w.target == s.active)) →
    s.checkEpoch e = s.endEpoch e 5 stBadParam) ∧
  (let fit (s : State) (e : Epoch) : Prop := e.defective = false ∧ s.noDram = false ∧ e.safe = false ∧ e.chain = false ∧
     e.members.any (fun m => m.switch.any (fun w => w.target == s.active)) = false
   (∀ (s : State) e, fit s e → s.switchMayStart e → s.allStaged e → s.heldBack e = false → s.checkEpoch e = s.commitEpoch e e.adjusted) ∧
   (∀ (s : State) e, fit s e → s.switchMayStart e = false → e.st ≠ .waiting →
     let e1 := { s.later e (e.m + 128) with st := .waiting, adjusted := true }
     s.checkEpoch e = ((s.setEpoch e1).fadeAll e1).evt Reg.TT_EVT 4) ∧
   (∀ (s : State) e, fit s e → s.switchMayStart e → (s.allStaged e = false ∨ s.heldBack e) → e.deferrals < e.deadline →
     let e1 := { s.later e (e.m + 128) with st := .sealed, deferrals := e.deferrals + 1, adjusted := true }
     s.checkEpoch e = ((s.setEpoch e1).fadeAll e1).both Reg.TT_DEFERRALS Reg.TT_EVT 2) ∧
   (∀ (s : State) e, fit s e → s.switchMayStart e → (s.allStaged e = false ∨ s.heldBack e) → e.deadline ≤ e.deferrals →
     s.checkEpoch e = s.setEpoch { e with st := .sealed, expiring := true })) ∧
  (∀ (s : State) e code, e.own = false → e.safe = false → (s.finalise e code).epochs = s.epochs.filter (fun d => d.order != e.order) ∧
    tget (s.finalise e code).finals e.id.toNat = some code) ∧
  (∀ id e, Moves (.epochExpire id) (fun s => s.pickEpoch id (fun e => e.expiring) = some e)
    (fun s => (s.both Reg.TT_EXPIRED Reg.TT_EVT 3).endEpoch e 4 stExpired)) ∧
  (∀ id e, Moves (.epochSplit id)
    (fun s => s.pickEpoch id (fun e => e.chain && e.undecided && !s.ntk.chain.head && (e.m == 0 || decide (e.m ≤ s.msc + 128))) = some e)
    (fun s => (s.endEpoch e 5 stAborted).both Reg.NTK_EPOCH_SPLITS Reg.NTK_EVT 4)) ∧
  (∀ id k e m m1 s1, Moves (.epochMemberStaged id k)
    (fun s => s.stageWork.pickEpoch id (fun e => e.undecided && (match e.members[k]? with
        | some m => !m.staged
        | none => false)) = some e ∧ e.members[k]? = some m ∧
      (m.geo = false ∨ (s.stageWork.stagePaid e m ∧
        s.stageWork.epochs.any (fun d => d.undecided && decide (d.order < e.order) && d.members.any (fun n => n.geo && !n.staged)) = false)) ∧
      s.stageWork.reserve m = some (m1, s1))
    (fun _ => s1.setEpoch { e with members := e.members.set k { m1 with staged := true } }))

/-- A bell whose acting point has come rings: its action acts, or is held, or is skipped, and it moves to its next ring or
retires (R71, R72, R76, R78, R264). BELL_RING of a due bell: a NOTIFY bell sets TT_EVT.BELL and posts its record; a
TASK bell posts its mask when it can and is held otherwise; a DMA bell rings its channel's doorbell; an SDAC bell
strobes its channels; each counts TT_BELLS_RUNG when it acts. What cannot act in the mode, or at all, counts
TT_BELLS_SKIPPED with TT_EVT.BELL_SKIPPED. After a ring a bell with rings left stands at its next point, unless it was
cancelled before that point; another is retired. Concluded: under conditions on the state and the operands alone exec
answers a next state, for bellRing. -/
def Obligations.BellsRingAndHold : Prop :=
  (∀ st id b, Moves (.bellRing st id) (fun s => s.bellOf st id = some b ∧ s.bellTurn st id b ∧ s.bellSkips st b)
    (watched (fun s => ((s.both Reg.TT_BELLS_SKIPPED Reg.TT_EVT 1).bellOver st id false).modeDone))) ∧
  (∀ st id b, Moves (.bellRing st id) (fun s => s.bellOf st id = some b ∧ s.bellTurn st id b ∧ s.bellSkips st b = false ∧ b.kind = 0)
    (watched (fun s => ((s.bellNotify st id b).bellOver st id true).modeDone))) ∧
  (∀ st id b, Moves (.bellRing st id)
    (fun s => s.bellOf st id = some b ∧ s.bellTurn st id b ∧ s.bellSkips st b = false ∧ b.kind = 1 ∧ s.canPost b.task b.mask)
    (watched (fun s => ((s.applyPost b.task b.mask).bellOver st id true).modeDone))) ∧
  (∀ st id b, Moves (.bellRing st id)
    (fun s => s.bellOf st id = some b ∧ s.bellTurn st id b ∧ s.bellSkips st b = false ∧ b.kind = 1 ∧ s.canPost b.task b.mask = false)
    (watched (fun s => (s.hold (.bell st id) b.task b.mask).modeDone))) ∧
  (∀ st id b, Moves (.bellRing st id) (fun s => s.bellOf st id = some b ∧ s.bellTurn st id b ∧ s.bellSkips st b = false ∧ b.kind = 2)
    (watched (fun s => ((dmaDoorbell b.chan s).bellOver st id true).modeDone))) ∧
  (∀ st id b, Moves (.bellRing st id) (fun s => s.bellOf st id = some b ∧ s.bellTurn st id b ∧ s.bellSkips st b = false ∧ 2 < b.kind)
    (watched (fun s => ((s.strobeMask b.chan).bellOver st id true).modeDone))) ∧
  (∀ (s : State) id b acted, tget s.bells id = some b → tget (s.bellOver false id acted).bells id = some (b.after acted)) ∧
  (∀ (b : Bell) acted, b.period ≠ 0 → (b.count = 0 ∨ b.ring + 1 < b.count) →
    (b.after acted).armed = (b.armed && b.stop.all (fun x => decide (b.point (b.ring + 1) ≤ x))) ∧ (b.after acted).ring = b.ring + 1 ∧ (b.after acted).next = b.point (b.ring + 1)) ∧
  (∀ (b : Bell) acted, (b.period = 0 ∨ (b.count ≠ 0 ∧ b.count ≤ b.ring + 1)) → (b.after acted).armed = false)

/-- Geometry evaluation, prune holds, crossfades, fades, probe and supervision windows end as their time comes (R100,
R118, R121, R131, R159, R174, R190, R194, R201). The frame whose evaluation time is over is evaluated; a prune hold
whose frames are over is released; a jump crossfade ends with its outgoing set, a shelf crossfade with the old shelf's
sets, its slot VERIFIED again and TT_EVT.XFADE_DONE; a locker whose ENABLE 0 ramp ended no longer renders; the taps of
a filter that faded out return to the pool; a fade-out that ended is held; a window of 4,096 samples is judged; a
probe of no path shows an empty capture. Concluded: under conditions on the state and the operands alone exec answers
a next state, for geometryEvaluationDeadline, pruneHoldEnd, jumpCrossfadeEnd, xfadeDone, lockerDisable,
firCrossfadeEnd, alignFadeOutEnd, pilotWindowEnd, probeCapture. -/
def Obligations.GeometryAndFadesEnd : Prop :=
  (∀ x fr rest, Moves (.geometryEvaluationDeadline x) (fun s => s.geo.frozen = fr :: rest ∧ s.piping ∧ fr.frame + 16 ≤ s.msc) (fun s => s.evaluateGeo x)) ∧
  (∀ l k sp, Leads (.pruneHoldEnd l k sp) (fun _ => True) (fun s t =>
    t.geo.holds.map Prod.fst = s.geo.holds.map Prod.fst ∧ ∀ h ∈ t.geo.holds, h.1 = (l, k, sp) → h.2 = 0 ∨ s.msc < h.2)) ∧
  (∀ k l f j, Moves (.jumpCrossfadeEnd k) (fun s => tget s.lockers k = some l ∧ l.jump = some (f, j) ∧ f + j + 32 ≤ s.msc ∧ s.boundary = false)
    (fun s => s.setLocker k { l with jump := none, sets := l.sets.filter (fun t => !t.jumpOut) })) ∧
  (∀ x rest o, Leads .xfadeDone
    (fun s => s.xfades = x :: rest ∧ x.m + x.len + 32 ≤ s.msc ∧ s.boundary = false ∧ x.old = some o ∧ o < s.shelves.length ∧ (s.shelves.getD o {}).st = .fading)
    (fun s t => t.xfades = rest ∧ (t.shelves.getD o {}).st = .verified ∧ bitOf (t.reg Reg.TT_EVT) 5 = true ∧ t.active = s.active)) ∧
  (∀ k l, Moves (.lockerDisable k) (fun s => tget s.lockers k = some l ∧ l.live ∧ l.cfg.enable = false ∧ l.gain.busy = false)
    (fun s => s.setLocker k { l.quieten with live := false, releasing := true })) ∧
  (∀ f old w, Moves (.firCrossfadeEnd f) (fun s => (s.feed f).firOld = some (old, w) ∧ w.busy = false)
    (fun s => { s.setFeed f { s.feed f with firOld := none } with firUsed := s.firUsed - old.length })) ∧
  (∀ f (x : Fade), Leads (.alignFadeOutEnd f)
    (fun s => x ∈ (s.feed f).fades ∧ x.rise = none ∧ x.fall + fadeLen s.clock.media.rate96 + 64 ≤ s.msc)
    (fun s t => { x with held := true } ∈ (t.feed f).fades ∧ (t.feed f).fades.length = (s.feed f).fades.length ∧
      t = s.setFeed f { s.feed f with fades := (t.feed f).fades })) ∧
  (∀ f, Moves (.pilotWindowEnd f) (fun s => (s.feed f).pilot.supEn ∧ 4096 ≤ (s.feed f).win.length)
    (fun s => (s.setFeed f (superviseWindow f (s.feed f) s.fs).1).fxs (superviseWindow f (s.feed f) s.fs).2)) ∧
  (∀ m, Moves .probeCapture
    (fun s => s.path.probeFrom = some m ∧ s.piping ∧ m ≤ s.msc ∧ s.boundary = false ∧
      (s.locker (fieldOf (s.reg Reg.PTH_PROBE_SEL) 0 10)).sets = [])
    (fun s => ({ s with path := { s.path with probeFrom := none } } : State).probeRegs 0 0 0 1 0))

/-- INBOX, dispatch, cut-off, held posts, removal and capture frames act (R126, R237, R239, R263, R264, R265, R267, R268,
R271). A written INBOX makes a WAITING task READY in its list, after a task of the same cycle that R266 puts first; a
dispatch gives the first entry of the highest priority to an idle desk, consumes the flags it waits for, and the desk
starts at its entry with the task's boxes, once a desk of a lower number of its group has picked; a READY task at its
cut-off leaves its list, counts MISSED and its block is substituted; a WAITING one counts MISSED too; a held post that
fits is applied and its source goes on, one that may no longer act is skipped and counted; a task whose crossfade
ended is removed. A capture frame is written to the ring and counted. Concluded: under conditions on the state and the
operands alone exec answers a next state, for inboxWritten, taskDispatch, taskCutoff, heldPostApply, taskRemoval,
captureFrameWritten. -/
def Obligations.TasksRunAndEnd : Prop :=
  (∀ t k b xs, Moves (.inboxWritten t) (fun s => s.task t = some k ∧ k.inboxDue = some (b, xs) ∧ k.st = .waiting ∧
      s.tasks.tasks.all (fun p => !(s.sameCycle k p.2) || decide (p.2.cfg.ip < k.cfg.ip) || (p.2.cfg.ip == k.cfg.ip && decide (t ≤ p.1))))
    (fun s =>
      let s1 := (s.desksOf k.cfg).foldl (fun s d =>
        if (s.desk d).st = .lent then s else s.setDesk d ((s.desk d).putBox k.cfg.layout k.cfg.inbox xs)) s
      (s1.setTask t { k with inboxDue := none, st := .ready }).joinList (s.listKey k.cfg) t)) ∧
  (∀ t k u, Moves (.inboxWritten t) (fun s => s.task t = some k ∧ k.inboxDue.isSome ∧ k.st = .waiting ∧ u.2.cfg.ip ∈ [4, 3, 2, 1] ∧
      s.tasks.tasks.filter (fun p => s.sameCycle k p.2 &&
        (decide (k.cfg.ip < p.2.cfg.ip) || (p.2.cfg.ip == k.cfg.ip && decide (p.1 < t)))) = [u])
    (fun s => (s.inboxOne u.1).inboxOne t)) ∧
  (∀ (d : Fin 16) t k, Leads (.taskDispatch d)
    (fun s => d.val < s.desks.length ∧
      ((List.range d.val).all (fun j => (s.desk j).group != (s.desk d.val).group || (s.desk j).st != .idle || !(s.desk j).enable)) ∧
      (s.desk d.val).st = .idle ∧ (s.desk d.val).enable ∧ s.dispatching ∧ s.pickTask d.val = some t ∧ s.task t = some k)
    (fun s u => (u.desk d.val).st = .running ∧ (u.desk d.val).task = some t ∧ (u.desk d.val).pc = k.cfg.entry ∧ (u.desk d.val).cycles = 0 ∧
      u.tasks.consumed = s.tasks.consumed + popcount (k.pending &&& k.cfg.wait))) ∧
  (∀ d : Fin 16, Moves (.taskDispatch d)
    (fun s =>
      ((List.range d.val).all (fun j => (s.desk j).group != (s.desk d.val).group || (s.desk j).st != .idle || !(s.desk j).enable)) ∧
      (s.desk d.val).st = .idle ∧ (s.desk d.val).enable ∧ s.dispatching ∧ s.pickTask d.val = none) id) ∧
  (∀ (d : Fin 16) j, Moves (.taskDispatch d)
    (fun s => (s.desk d.val).st = .idle ∧ (s.desk d.val).enable ∧
      (List.range d.val).filter (fun j => (s.desk j).group == (s.desk d.val).group) = [j])
    (fun s => (s.dispatchOne j).dispatchOne d.val)) ∧
  (∀ t k b, Moves (.taskCutoff t) (fun s => s.task t = some k ∧ k.released = some b ∧ k.st = .ready)
    (fun s => (((s.leaveList (s.listKey k.cfg) t).setTask t { k with st := .waiting }).missed).substitute t)) ∧
  (∀ t k b, Moves (.taskCutoff t) (fun s => s.task t = some k ∧ k.released = some b ∧ k.st = .waiting)
    (fun s => (s.missed).substitute t)) ∧
  (∀ t k b d, Moves (.taskCutoff t)
    (fun s => s.task t = some k ∧ k.released = some b ∧ k.st = .running ∧ s.runner t = some d ∧ (s.desk d).st ≠ .halted)
    (fun s => ((((s.count (dskReg Reg.DSK_Dn_STOPS d) 1).evt Reg.DSK_DESK_EVT 2)).stopRun t).substitute t)) ∧
  (∀ (s : State) t k, s.task t = some k → s.tasksStill = false → ∃ k1, (s.substitute t).task t = some k1 ∧
    k1.dry = word (min (k.dry.toNat + 1) 0xFFFFFFFF) ∧ k1.released = none ∧ k1.output = none ∧ k1.inboxDue = none) ∧
  (∀ h, Moves .heldPostApply (fun s => s.tasks.held.find? (fun h => s.heldSkips h || s.heldMayApply h) = some h ∧ s.heldSkips h)
    (fun s => (({ s with tasks := { s.tasks with held := s.tasks.held.erase h } } : State).both Reg.TT_BELLS_SKIPPED Reg.TT_EVT 1).releasePoster h.src false)) ∧
  (∀ h, Moves .heldPostApply (fun s => s.tasks.held.find? (fun h => s.heldSkips h || s.heldMayApply h) = some h ∧ s.heldSkips h = false)
    (fun s => (({ s with tasks := { s.tasks with held := s.tasks.held.erase h } } : State).applyPost h.task h.mask).releasePoster h.src true)) ∧
  (∀ t k, Moves (.taskRemoval t) (fun s => s.task t = some k ∧ k.gone) (fun s => s.finishTask t)) ∧
  (∀ xs, Leads (.captureFrameWritten false)
    (fun s => s.capture.st = 2 ∧ s.capture.frameAt (s.capture.start + s.capture.frames) = some xs ∧ s.capture.frames < s.capture.size ∧
      s.capture.cmd = none ∧ s.capture.stopAt = none ∧ s.capture.oneShot = false)
    (fun s t => t.capture.frames = s.capture.frames + 1 ∧
      t.dram = (s.dramWrite (s.capture.buffer + s.capture.frames % s.capture.size * (4 * s.capture.taps.length))
        (xs.map (fun x => leBytes 4 (toField 32 x))).flatten).dram))

/-- Flash slots are examined in order, and a copy or a verification of a shelf ends with its state and its status (R91,
R96, R97). A flash slot is examined once those below it are: erased it is EMPTY, with a valid image VERIFIED,
otherwise FAILED. When a load's copy ends, the slot is VERIFIED for a valid image and FAILED otherwise, and the
command completes OK, MEM_ERROR or BAD_PARAM. When a verification ends, a VERIFIED slot that fails becomes FAILED and
spoils the epochs that switch to it, a FAILED slot that passes becomes VERIFIED, and the ACTIVE shelf keeps its state
and reports. Concluded: under conditions on the state and the operands alone exec answers a next state, for
flashSlotExamined, shelfLoadCopyEnd, shelfVerifyEnd. -/
def Obligations.ShelfSlotsAreJudged : Prop :=
  (∀ k image, Leads (.flashSlotExamined k image)
    (fun s => k < s.shelves.length ∧ (s.slot k).examine ∧ (List.range k).any (fun i => (s.slot i).examine) = false ∧ (s.slot k).jobs = [])
    (fun s t => (t.slot k).examine = false ∧ (t.slot k).st = if erased (listByte image) then .empty
      else if s.verifyImage k (listByte image) image.length = 0xFF then .verified else .failed)) ∧
  (∀ k x j rest, Moves (.shelfLoadCopyEnd k x) (fun s => (s.slot k).jobs = j :: rest ∧ j.load ∧ s.jobWaits k j = false)
    (fun s => shelfCopied k x j (s.setSlot k { s.slot k with jobs := rest }))) ∧
  (∀ (s : State) k x j, k < 8 → x.err → ∃ r, shelfCopied k x j s =
    ((if k < 4 then s.dramWrite (slotBase k) x.bytes else s).settleSlot k false (listByte x.bytes)).complete j.cmd stMemError r) ∧
  (∀ k x j rest, Moves (.shelfVerifyEnd k x) (fun s => (s.slot k).jobs = j :: rest ∧ j.load = false ∧ s.jobWaits k j = false)
    (fun s => shelfVerified k x j (s.setSlot k { s.slot k with jobs := rest }))) ∧
  (∀ (s : State) k x j, (s.slot k).st = .verified → x.err → ∃ r, shelfVerified k x j s =
    ((s.slotState k .failed).spoilEpochs k).complete j.cmd stMemError r) ∧
  (∀ (s : State) k x j, (s.slot k).st = .active → x.err → ∃ r, shelfVerified k x j s = (s.evt Reg.TT_EVT 6).complete j.cmd stMemError r) ∧
  (∀ (s : State) k x j, (s.slot k).st = .failed → x.err = false → s.verifyCode k x = 0xFF → ∃ r, shelfVerified k x j s =
    (s.slotState k .verified).complete j.cmd stOk r)

/-- Override and mute changes plan their ramps and report; strobes, clamps and limits of the service DAC act (R220, R221,
R222, R223, R226, R227, R228). A change of the effective override state starts the crossfade over L to full weight, or
back to none, counts SPK_OVR_COUNT when it is asserted and sets its event; MUTE_N likewise with its own ramp; force
bits change SPK_OVR_CMD alone. A falling edge on SDAC_LOAD_N strobes the channels that SDAC_CFG names; a range change
clamps until its 20 µs end, when code and range act together; an output that begins to limit is shown, counted and
reported. Concluded: under conditions on the state and the operands alone exec answers a next state, for
overrideNChange, muteNChange, forceOvrWrite, forceMuteWrite, sdacLoadNFall, sdacRangeClampEnd, sdacCurrentLimit,
sdacCurrentLimitEnd. -/
def Obligations.OverrideMuteAndSdacAct : Prop :=
  (Moves .overrideNChange (fun s => s.ovr.ovrEff ∧ s.ovr.ovrOn = false)
    (fun s => (({ s with ovr := { s.ovr with
        ovrOn := true,
        k0 := if ovrFading (ovrAt s.ovr s.msc) s.msc then s.nextMul 16 else rampStartAt s.msc,
        wNext := planRamp s.ovr.wNext (if ovrFading (ovrAt s.ovr s.msc) s.msc then s.nextMul 16 else rampStartAt s.msc, 2 ^ 22, s.ovrLen) } } : State).count
      Reg.SPK_OVR_COUNT 1).evt Reg.SPK_OVR_EVT 0)) ∧
  (Moves .overrideNChange (fun s => s.ovr.ovrEff = false ∧ s.ovr.ovrOn)
    (fun s => ({ s with ovr := { s.ovr with
        ovrOn := false,
        k0 := if ovrFading (ovrAt s.ovr s.msc) s.msc then s.nextMul 16 else rampStartAt s.msc,
        wNext := planRamp s.ovr.wNext (if ovrFading (ovrAt s.ovr s.msc) s.msc then s.nextMul 16 else rampStartAt s.msc, 0, s.ovrLen) } } : State).evt
      Reg.SPK_OVR_EVT 1)) ∧
  (Moves .overrideNChange (fun s => s.ovr.ovrEff = s.ovr.ovrOn) id) ∧
  (Moves .muteNChange (fun s => s.ovr.muteEff ∧ s.ovr.muteOn = false)
    (fun s => (({ s with ovr := { s.ovr with muteOn := true, mnNext := planRamp s.ovr.mnNext (rampStartAt s.msc, 0, rampLen s.fs (min 2000 (fieldOf (s.reg Reg.SPK_MUTE_CFG) 1 11))) } } : State).count
      Reg.SPK_MUTE_COUNT 1).evt Reg.SPK_OVR_EVT 2)) ∧
  (Moves .muteNChange (fun s => s.ovr.muteEff = false ∧ s.ovr.muteOn)
    (fun s => ({ s with ovr := { s.ovr with muteOn := false, mnNext := planRamp s.ovr.mnNext (rampStartAt s.msc, 2 ^ 27, rampLen s.fs (min 2000 (fieldOf (s.reg Reg.SPK_MUTE_CFG) 1 11))) } } : State).evt Reg.SPK_OVR_EVT 3)) ∧
  (∀ on, Leads (.forceOvrWrite on) (fun s => s.pwr.mode.awake) (fun s t => t = s.setReg Reg.SPK_OVR_CMD (t.reg Reg.SPK_OVR_CMD) ∧
    bitOf (t.reg Reg.SPK_OVR_CMD) 0 = on)) ∧
  (∀ on, Leads (.forceMuteWrite on) (fun s => s.pwr.mode.awake ∧ (s.reg Reg.SPK_OVR_CMD).toNat < 4)
    (fun s t => t = s.setReg Reg.SPK_OVR_CMD (t.reg Reg.SPK_OVR_CMD) ∧
    bitOf (t.reg Reg.SPK_OVR_CMD) 1 = on)) ∧
  (Moves .sdacLoadNFall (fun s => s.pwr.mode.awake) (fun s => s.strobeMask (fieldOf (s.reg Reg.SDAC_CFG) 0 8))) ∧
  (∀ c : SdacCh, c.stream = false → c.pending = none → c.holdRange ≠ c.range →
    (sdacStrobe c).clamped = true ∧ (sdacStrobe c).code = c.code ∧ (sdacStrobe c).range = c.range ∧
    (sdacUnclamp (sdacStrobe c)).code = c.holdCode ∧ (sdacUnclamp (sdacStrobe c)).range = c.holdRange ∧
    (sdacUnclamp (sdacStrobe c)).clamped = false) ∧
  (∀ k : Fin 8, Moves (.sdacRangeClampEnd k) (fun _ => True) (fun s => s.setSdac k.val (sdacUnclamp (s.sdacCh k.val)))) ∧
  (∀ k : Fin 8, Moves (.sdacCurrentLimit k) (fun s => (s.sdacCh k.val).ilim = false)
    (fun s => (((s.setSdac k.val { s.sdacCh k.val with ilim := true }).orReg Reg.SDAC_ILIM (2 ^ k.val)).count Reg.SDAC_ILIM_EVENTS 1).evt
      Reg.SDAC_EVT 0)) ∧
  (∀ k : Fin 8, Moves (.sdacCurrentLimitEnd k) (fun _ => True) (fun s => s.setSdac k.val { s.sdacCh k.val with ilim := false }))

/-- A step is exec of the command at the front of the queue, on the queue's rest (R34, R73). For every command c and state
s whose queue is c followed by rest, step s is exec c of s with the queue rest. -/
def Obligations.StepRunsFront : Prop :=
  ∀ (c : Instr) (s : State) (rest : List Instr), s.pending = c :: rest → step s = exec c { s with pending := rest }

/-- On an empty queue the block idles (the model's choice, assumption 2) (R14). With no command waiting, a step answers
the same state, because every effect of time is a row of the command table. -/
def Obligations.StepIdles : Prop := ∀ s : State, s.pending = [] → step s = .next s

/-- What reset leaves (R343, R409, R430). After reset the mode is RESET, the MSC is not valid, the sixteen queues are
DISABLED, no epoch, bell, locker, task or flow exists, no command waits, and a register reads its reset value. -/
def Obligations.ResetLeaves : Prop :=
  State.reset.pwr.mode = .reset ∧ State.reset.valid = false ∧ State.reset.host.queues.length = 16 ∧
  State.reset.host.queues.all (fun q => q.st == .disabled) = true ∧ State.reset.epochs = [] ∧ State.reset.bells = [] ∧
  State.reset.lockers = [] ∧ State.reset.tasks.tasks = [] ∧ State.reset.net.rx = [] ∧ State.reset.net.tx = [] ∧ State.reset.pending = [] ∧
  State.reset.reg Reg.TT_EVT_EN = 0xBE#32 ∧ State.reset.reg Reg.SYS_EVT_EN = 0x1#32 ∧ State.reset.reg Reg.TT_EVT = 0#32

/-- Reset's memories are in canonical form and its ledgers balance (R30). State.sound holds at State.reset. -/
def Obligations.ResetIsSound : Prop := State.reset.sound

/-- Every step keeps every ledger balanced and every memory in canonical form (R30, R31, R32, R33). For every state whose
ledgers all satisfy ACCEPTED + SYNTHESIZED = DELIVERED + DISCARDED + IN_FLIGHT and whose memories are in canonical
form, if step answers a next state then that state's ledgers and memories are so too. -/
def Obligations.StepKeepsSound : Prop := ∀ s t : State, s.sound → step s = .next t → t.sound

/-- No command changes the queue of waiting commands (R34). For every command and state, if exec answers a next state, the
queue of waiting commands is as before. -/
def Obligations.ExecLeavesQueue : Prop := ∀ (i : Instr) (s t : State), exec i s = .next t → t.pending = s.pending

/-- A byte written to host memory or DRAM reads back, every other byte reads as before (R347, R360, R387, R395). For
memories in canonical form: after a write of bytes from address a, the byte at a + i reads the i-th byte written,
every address outside the written bytes reads as before, and the memory is again in canonical form; a write to DRAM
leaves host memory alone and the other way round. -/
def Obligations.MemoriesReadBack : Prop :=
  (∀ (s : State) (a : Nat) (bs : List Byte) (c : Nat), Memory.wf s.dram = true →
    memGet (s.dramWrite a bs).dram c = if a ≤ c ∧ c < a + bs.length then bs.getD (c - a) 0 else memGet s.dram c) ∧
  (∀ (s : State) (a : Nat) (bs : List Byte) (c : Nat), Memory.wf s.host.mem = true →
    memGet (s.hostWrite a bs).host.mem c = if a ≤ c ∧ c < a + bs.length then bs.getD (c - a) 0 else memGet s.host.mem c) ∧
  (∀ (s : State) (a : Nat) (bs : List Byte), Memory.wf s.dram = true →
    Memory.wf (s.dramWrite a bs).dram = true ∧ (s.dramWrite a bs).host = s.host) ∧
  (∀ (s : State) (a : Nat) (bs : List Byte), Memory.wf s.host.mem = true →
    Memory.wf (s.hostWrite a bs).host.mem = true ∧ (s.hostWrite a bs).dram = s.dram)

/-- A hardware event sets its bit and clears none, and touches registers, the host interface and the ledgers alone (R441,
R8, R360). For every event register (which no chain of reports counts in) and bit, reporting the event sets the bit
and leaves every other set bit of every such register set; reporting changes nothing but registers, the host interface
and the ledgers, and a bit that is already set posts nothing and raises nothing. -/
def Obligations.EventsSetTheirBit : Prop :=
  (∀ (s : State) off k, noCounter off → k < 32 → bitOf ((s.evt off k).reg off) k = true) ∧
  (∀ (s : State) off k o j, noCounter o → bitOf (s.reg o) j = true → bitOf ((s.evt off k).reg o) j = true) ∧
  (∀ (s : State) off k, bitOf (s.reg off) k = true → s.evt off k = s.orReg off (2 ^ k)) ∧
  (∀ (s : State) off k, Side s (s.evt off k))

/-- A statistics counter adds, and stays at 0xFFFF_FFFF with its sticky bit set (R8). A counter that does not reach
0xFFFF_FFFF gains n and nothing else changes; one at 0xFFFF_FFFF stays there; reaching or staying there sets its
sticky bit in its STAT_SAT register; with the sticky bit set it reports nothing more. -/
def Obligations.CountersSaturate : Prop :=
  (∀ (s : State) off n, 0 < n → (s.reg off).toNat + n < 0xFFFFFFFF → s.count off n = s.setReg off (word ((s.reg off).toNat + n))) ∧
  (∀ (s : State) off n, noCounter off → s.reg off = 0xFFFFFFFF#32 → (s.count off n).reg off = 0xFFFFFFFF#32) ∧
  (∀ (s : State) off n so b e eb, 0 < n → 0xFFFFFFFF ≤ (s.reg off).toNat + n → satOf off = some (so, b, e, eb) → noCounter so → b < 32 →
    bitOf ((s.count off n).reg so) b = true) ∧
  (∀ (s : State) off n so b e eb, satOf off = some (so, b, e, eb) → so ≠ off → 0 < n → bitOf (s.reg so) b = true →
    s.count off n = s.setReg off (word (min ((s.reg off).toNat + n) 0xFFFFFFFF)))
end

