-- ==== Sys2Proof/Laws/Claims.lean ====
section
/-!
SUPPORT. How a claim about a host command follows from the meaning of that command.
-/
namespace Sys2Proof.Machine

/-- Taking a command changes the queues, the free slots and the order of fetching alone. -/
theorem State.admitEntry_host {s s1 : State} {op : Byte} {e : Submission} {c : CmdRef} (h : s.admitEntry op e = some (c, s1)) :
    ∃ q f o, s1 = { s with host := { s.host with queues := q, freeSlots := f, fetchOrder := o } } := by
  unfold State.admitEntry at h
  dsimp only at h
  split at h
  · split at h
    · cases h
      exact ⟨_, _, _, rfl⟩
    · cases h
  · split at h
    · split at h
      · cases h
        exact ⟨_, _, _, rfl⟩
      · cases h
    · cases h

/-- A presentation MSC that is not 0 is none of the model's 0. -/
theorem State.mscOf_ne {s : State} {p : DWord} (h : p ≠ 0) : s.mscOf p ≠ 0 := by
  unfold State.mscOf
  rw [if_neg h]
  have : p.toNat ≠ 0 := fun e => h (BitVec.eq_of_toNat_eq e)
  omega

@[simp] theorem State.mscOf_zero (s : State) : s.mscOf 0#64 = 0 := rfl

theorem State.queue_setQueue_any (s : State) (q : Nat) (v : Queue) (j : Nat) :
    (s.setQueue q v).queue j = if q = j ∧ j < s.host.queues.length then v else s.queue j := by
  unfold State.queue State.setQueue
  simp only [List.getD_eq_getElem?_getD, List.getElem?_set]
  by_cases h : q = j
  · subst h
    by_cases h2 : q < s.host.queues.length <;> simp [h2]
  · simp [h]

theorem State.queue_st_setQueue {s : State} {q : Nat} {v : Queue} (h : v.st = (s.queue q).st) (j : Nat) :
    ((s.setQueue q v).queue j).st = (s.queue j).st := by
  rw [State.queue_setQueue_any]
  split
  · next hq => rw [← hq.1]; exact h
  · rfl

/-- What taking a command takes: a slot where it is fetched now, and no queue's state. -/
theorem State.admitEntry_slots {s s1 : State} {op : Byte} {e : Submission} {c : CmdRef} (h : s.admitEntry op e = some (c, s1)) :
    s1.host.freeSlots = s.host.freeSlots - (if (s.queue e.queue.val).fetched = [] then 1 else 0) ∧
      ∀ q, (s1.queue q).st = (s.queue q).st := by
  unfold State.admitEntry at h
  dsimp only at h
  split at h
  · next hf =>
    split at h
    · cases h
      refine ⟨by simp [hf, State.take, State.setQueue], fun q => ?_⟩
      refine Eq.trans (State.queue_st_setQueue (by rfl) q) ?_
      exact State.queue_st_setQueue (s := s) (q := e.queue.val)
        (v := { s.queue e.queue.val with out := _, total := (s.queue e.queue.val).total + 1 }) rfl q
    · cases h
  · next hf =>
    split at h
    · split at h
      · cases h
        exact ⟨by simp [hf, State.setQueue], fun q => State.queue_st_setQueue (by rfl) q⟩
      · cases h
    · cases h

/-- A host command acts by the effect of its meaning on the state once it is taken. -/
theorem Acts.taken {i : Instr} {op : Byte} {e : Submission} {k : CmdRef → State → State} {hyp : CmdRef → State → Prop}
    {eff : CmdRef → State → State} (hk : ∀ s, exec i s = .next (hostCommand op e k s))
    (h : ∀ s c s1, s.admitEntry op e = some (c, s1) → hyp c s → k c s1 = eff c s1) : Acts i op e hyp eff := by
  intro s hr hs
  rw [hk]
  unfold hostCommand
  cases ha : s.admitEntry op e with
  | none => simp [State.ready, ha] at hr
  | some p =>
    obtain ⟨c, s1⟩ := p
    simp only [State.ready, ha, Bool.and_eq_true, Bool.not_eq_true', Option.isNone_iff_eq_none] at hr
    simp only [State.refOf, ha] at hs
    simp only [hr.1, hr.2, h s c s1 ha hs, State.refOf, State.taken, ha]
    rfl

/-- A host command acts by the effect of its meaning. -/
theorem Acts.of {i : Instr} {op : Byte} {e : Submission} {k : CmdRef → State → State} {hyp : CmdRef → State → Prop}
    {eff : CmdRef → State → State} (hk : ∀ s, exec i s = .next (hostCommand op e k s)) (h : ∀ c s, hyp c s → k c s = eff c s)
    (hh : ∀ c s q f o, hyp c s → hyp c { s with host := { s.host with queues := q, freeSlots := f, fetchOrder := o } } := by
      exact fun _ _ _ _ _ x => x) :
    Acts i op e hyp eff := Acts.taken hk (fun s c s1 ha hs => h c s1 (by
  obtain ⟨q, f, o, he⟩ := State.admitEntry_host ha
  rw [he]
  exact hh c s q f o hs))

/-- Each host command is `hostCommand` of some meaning. -/
theorem hostOf_exec {i : Instr} {op : Byte} {e : Submission} (h : hostOf i = some (op, e)) :
    ∃ k, ∀ s, exec i s = .next (hostCommand op e k s) := by
  cases i <;> simp only [hostOf, Option.some.injEq, Prod.mk.injEq, reduceCtorEq] at h <;> obtain ⟨rfl, rfl⟩ := h <;>
    exact ⟨_, fun s => rfl⟩

/-- The claim of a guarded effect whose guard does not hold. -/
theorem guardCmd_false {bad : Bool} {st : Byte} {c : CmdRef} {k : State → State} {s : State} (h : bad = false) :
    guardCmd bad st c k s = k s := by
  rw [h]
  rfl

theorem guardCmd_true {bad : Bool} {st : Byte} {c : CmdRef} {k : State → State} {s : State} (h : bad = true) :
    guardCmd bad st c k s = s.complete c st 0 := by
  rw [h]
  rfl

end Sys2Proof.Machine
end

