-- ==== Sys2Proof/Laws/Desk.lean ====
section
/-!
SUPPORT. How a claim about a desk instruction follows from the effect of its row.
-/
namespace Sys2Proof.Machine

/-- A run under its limit goes on. -/
theorem State.runLimit_under {s : State} {d : Nat} (h : s.underLimit d = true) : s.runLimit d = s := by
  unfold State.runLimit State.underLimit at *
  dsimp only at *
  rw [if_neg]
  rintro ⟨h1, h2, h3⟩
  simp only [Bool.or_eq_true, Option.isNone_iff_eq_none, beq_iff_eq, decide_eq_true_eq] at h
  obtain (h | h) | h := h
  · simp [h] at h1
  · exact h2 h
  · omega

/-- A run that has had its limit faults. -/
theorem State.runLimit_over {s : State} {d : Nat} (h : s.underLimit d = false) : s.runLimit d = s.deskFault d fRunaway := by
  unfold State.runLimit State.underLimit at *
  dsimp only at *
  rw [if_pos]
  simp only [Bool.or_eq_false_iff, beq_eq_false_iff_ne, decide_eq_false_iff_not, Nat.not_lt] at h
  refine ⟨?_, h.1.2, h.2⟩
  cases e : (s.desk d).task with
  | none => simp [e] at h
  | some _ => rfl

/-- A desk that takes an instruction runs it, with no XFER in the way. -/
theorem State.deskInstr_of_takes {s : State} {d op : Nat} {w : DeskBits} {r : DeskRow} (hr : deskRow op = some r)
    (h : s.deskTakes d r w) :
    s.deskInstr d op w = State.runLimit
      (match deskOp (s.spillSize d) op w (s.desk d) with
       | .ok k1 m => (s.count (dskReg Reg.DSK_Dn_SAT d) m).deskNext d ((s.desk d).after op r w k1 0)
       | .jump k1 e => s.setDesk d ((s.desk d).after op r w k1 e)
       | .fault c => s.deskFault d c
       | .halt =>
         (match ((s.desk d).after op r w (s.desk d) 0).advance with
          | some k1 => s.haltAt d k1
          | none => s.deskFault d fAddress)
       | .retire => (s.setDesk d ((s.desk d).after op r w (s.desk d) 0)).retireTask d
       | .signal t m => s.deskSignal d ((s.desk d).after op r w (s.desk d) 0) t m
       | .xfer x => s.deskNext d { (s.desk d).after op r w (s.desk d) 0 with xfer := some x }
       | .stall => s.setDesk d { s.desk d with xferWait := true }
       | .repeat_ n =>
         (match ((s.desk d).after op r w (s.desk d) 0).advance with
          | none => s.deskFault d fAddress
          | some k1 =>
            if n = 0 then s.deskNext d k1
            else if s.brkHit d k1.pc then s.haltAt d { k1 with rep := some n }
            else deskExec 1 d (k1.fetchAt k1.pc).1 (k1.fetchAt k1.pc).2 (s.setDesk d { k1 with rep := some n }))) d := by
  obtain ⟨h1, h2, h3, h4, h5, h6, h7, h8, h9⟩ := h
  have hx : s.xferSome d = s := by unfold State.xferSome; rw [h6]
  have hw : s.xferWaited d = s := by unfold State.xferWaited; simp [h7]
  have hb : ¬ (s.brkHit d (s.desk d).pc = true ∧ ¬ (s.desk d).passBrk = true) := by
    intro hh
    obtain h3 | h3 := h3
    · simp [h3] at hh
    · exact hh.2 h3
  unfold State.deskInstr
  dsimp only
  rw [if_pos ⟨h1, by simp [h2]⟩, if_neg hb]
  unfold State.deskIssue
  simp only [Option.isNone_eq_false_iff.2 h9, Bool.false_eq_true, ↓reduceIte]
  unfold deskExec
  simp only [hr, h4, h5, hx, hw, h8, Bool.false_eq_true, ↓reduceIte]
  rfl

/-- A computing instruction acts as its row's effect says. -/
theorem Computes.of {mk : Fin 16 → DeskBits → Instr} {op : Nat} {hyp : DeskBits → Desk → Prop} {f : DeskBits → Desk → Desk × Nat}
    (he : ∀ d w s, exec (mk d w) s = .next (s.deskInstr d.val op w))
    (h : ∀ n w k, hyp w k → deskOp n op w k = .ok (f w k).1 (f w k).2) : Computes mk op hyp f := by
  intro d w s r k2 hr ht hh ha hl
  rw [he, State.deskInstr_of_takes hr ht, h _ _ _ hh]
  simp only [State.deskNext, ha, State.runLimit_under hl]

theorem Steers.of {mk : Fin 16 → DeskBits → Instr} {op : Nat} {hyp : Nat → DeskBits → State → Prop}
    {eff : Nat → DeskBits → DeskRow → State → State}
    (he : ∀ d w s, exec (mk d w) s = .next (s.deskInstr d.val op w))
    (h : ∀ d w s r, deskRow op = some r → s.deskTakes d r w → hyp d w s → s.deskInstr d op w = (eff d w r s).runLimit d) :
    Steers mk op hyp eff := by
  intro d w s r hr ht hh hl
  rw [he, h _ _ _ _ hr ht hh, State.runLimit_under hl]

end Sys2Proof.Machine
end

