-- ==== Sys2Proof/Laws/Memory.lean ====
section
/-!
SUPPORT. Sorted tables and byte memories: what is read after a write, and that every write keeps the
canonical form.
-/
namespace Sys2Proof.Machine

/-! ### Tables -/

@[simp] theorem tget_nil {α : Type} (k : Nat) : tget ([] : Tbl α) k = none := rfl

@[simp] theorem tget_tset {α : Type} (t : Tbl α) (k : Nat) (v : α) (j : Nat) :
    tget (tset t k v) j = if k = j then some v else tget t j := by
  induction t with
  | nil => simp [tset, tget]
  | cons p r ih =>
    obtain ⟨i, u⟩ := p
    simp only [tset]
    split
    · simp only [tget]
    · split
      · next h => subst h; simp only [tget]; split <;> rfl
      · next h1 h2 =>
        simp only [tget, ih]
        split
        · next h => subst h; rw [if_neg h2]
        · rfl

theorem tget_tset_same {α : Type} (t : Tbl α) (k : Nat) (v : α) : tget (tset t k v) k = some v := by simp

theorem tget_tset_other {α : Type} (t : Tbl α) {k j : Nat} (v : α) (h : k ≠ j) : tget (tset t k v) j = tget t j := by simp [h]

/-- The entries of a table after a write: the new one, or one that was there. -/
theorem mem_tset {α : Type} {t : Tbl α} {k : Nat} {v : α} {p : Nat × α} (h : p ∈ tset t k v) : p = (k, v) ∨ p ∈ t := by
  induction t with
  | nil => simp [tset] at h; exact .inl h
  | cons q r ih =>
    obtain ⟨i, u⟩ := q
    simp only [tset] at h
    split at h
    · rcases List.mem_cons.mp h with h | h
      · exact .inl h
      · exact .inr h
    · split at h
      · rcases List.mem_cons.mp h with h | h
        · exact .inl h
        · exact .inr (List.mem_cons_of_mem _ h)
      · rcases List.mem_cons.mp h with h | h
        · exact .inr (by rw [h]; exact List.mem_cons_self ..)
        · rcases ih h with h | h
          · exact .inl h
          · exact .inr (List.mem_cons_of_mem _ h)

theorem mem_of_tget {α : Type} {t : Tbl α} {k : Nat} {v : α} (h : tget t k = some v) : (k, v) ∈ t := by
  induction t with
  | nil => simp at h
  | cons q r ih =>
    obtain ⟨i, u⟩ := q
    simp only [tget] at h
    split at h
    · next e => cases e; cases h; exact List.mem_cons_self ..
    · exact List.mem_cons_of_mem _ (ih h)

/-! ### The canonical form -/

/-- Every address of a memory is above `a`. -/
def above (a : Nat) (m : Mem) : Prop := ∀ p ∈ m, a < p.1

theorem Memory.wf_cons {a : Nat} {b : Byte} {r : Mem} :
    Memory.wf ((a, b) :: r) = true ↔ b ≠ 0 ∧ above a r ∧ Memory.wf r = true := by
  induction r generalizing a b with
  | nil => simp [Memory.wf, above]
  | cons q r ih =>
    obtain ⟨c, d⟩ := q
    rw [Memory.wf]
    simp only [Bool.and_eq_true, bne_iff_ne, ne_eq, List.head?_cons, Option.all_some, decide_eq_true_eq, ih, above,
      List.forall_mem_cons]
    constructor
    · rintro ⟨h1, h2, h3, h4, h5⟩
      exact ⟨h1, ⟨h2, fun p hp => Nat.lt_trans h2 (h4 p hp)⟩, h3, h4, h5⟩
    · rintro ⟨h1, ⟨h2, -⟩, h3, h4, h5⟩
      exact ⟨h1, h2, h3, h4, h5⟩

theorem above_tset {a k : Nat} {v : Byte} {m : Mem} (h : above a m) (hk : a < k) : above a (tset m k v) := by
  intro p hp
  rcases mem_tset hp with rfl | hp
  · exact hk
  · exact h p hp

theorem mem_tdel {α : Type} {t : Tbl α} {k : Nat} {p : Nat × α} (h : p ∈ tdel t k) : p ∈ t := by
  induction t with
  | nil => exact h
  | cons q r ih =>
    obtain ⟨i, u⟩ := q
    simp only [tdel] at h
    split at h
    · exact List.mem_cons_of_mem _ h
    · rcases List.mem_cons.mp h with h | h
      · exact h ▸ List.mem_cons_self ..
      · exact List.mem_cons_of_mem _ (ih h)

theorem Memory.wf_tset {m : Mem} (h : Memory.wf m = true) (k : Nat) {v : Byte} (hv : v ≠ 0) : Memory.wf (tset m k v) = true := by
  induction m with
  | nil => exact Memory.wf_cons.mpr ⟨hv, (fun p hp => nomatch hp), rfl⟩
  | cons q r ih =>
    obtain ⟨i, u⟩ := q
    obtain ⟨h1, h2, h3⟩ := Memory.wf_cons.mp h
    simp only [tset]
    split
    · next hk => exact Memory.wf_cons.mpr ⟨hv, List.forall_mem_cons.mpr ⟨hk, fun p hp => Nat.lt_trans hk (h2 p hp)⟩, h⟩
    · split
      · next hk => subst hk; exact Memory.wf_cons.mpr ⟨hv, h2, h3⟩
      · next hk1 hk2 => exact Memory.wf_cons.mpr ⟨h1, above_tset h2 (by omega), ih h3⟩

theorem Memory.wf_tdel {m : Mem} (h : Memory.wf m = true) (k : Nat) : Memory.wf (tdel m k) = true := by
  induction m with
  | nil => exact h
  | cons q r ih =>
    obtain ⟨i, u⟩ := q
    obtain ⟨h1, h2, h3⟩ := Memory.wf_cons.mp h
    simp only [tdel]
    split
    · exact h3
    · exact Memory.wf_cons.mpr ⟨h1, fun p hp => h2 p (mem_tdel hp), ih h3⟩

/-- A write of one byte keeps the canonical form. -/
theorem Memory.wf_memSet {m : Mem} (h : Memory.wf m = true) (a : Nat) (b : Byte) : Memory.wf (memSet m a b) = true := by
  unfold memSet
  split
  · exact Memory.wf_tdel h a
  · next hb => exact Memory.wf_tset h a hb

/-- A write keeps the canonical form. -/
theorem Memory.wf_memWrite {m : Mem} (h : Memory.wf m = true) (a : Nat) (bs : List Byte) : Memory.wf (memWrite m a bs) = true := by
  induction bs generalizing m a with
  | nil => exact h
  | cons b bs ih => exact ih (Memory.wf_memSet h a b) (a + 1)

/-! ### Reading after a write -/

theorem tget_above {a k : Nat} {m : Mem} (h : above a m) (hk : k ≤ a) : tget m k = none := by
  induction m with
  | nil => rfl
  | cons q r ih =>
    obtain ⟨i, u⟩ := q
    have hi : a < i := h (i, u) (List.mem_cons_self ..)
    simp only [tget]
    rw [if_neg (by omega)]
    exact ih (fun p hp => h p (List.mem_cons_of_mem _ hp))

theorem tget_tdel {m : Mem} (h : Memory.wf m = true) (k j : Nat) : tget (tdel m k) j = if k = j then none else tget m j := by
  induction m with
  | nil => simp [tdel]
  | cons q r ih =>
    obtain ⟨i, u⟩ := q
    obtain ⟨h1, h2, h3⟩ := Memory.wf_cons.mp h
    simp only [tdel]
    split
    · next hi =>
      subst hi
      split
      · next hj => subst hj; exact tget_above h2 (Nat.le_refl _)
      · next hj => simp only [tget, if_neg hj]
    · next hi =>
      simp only [tget, ih h3]
      split
      · next hj => subst hj; rw [if_neg (Ne.symm hi)]
      · rfl

/-- A byte reads as written, every other as before. -/
theorem memGet_memSet {m : Mem} (h : Memory.wf m = true) (a : Nat) (b : Byte) (c : Nat) :
    memGet (memSet m a b) c = if a = c then b else memGet m c := by
  unfold memGet memSet
  split
  · next hb => subst hb; rw [tget_tdel h]; split <;> rfl
  · rw [tget_tset]; split <;> rfl

/-- The bytes written read as written, every other byte as before. -/
theorem memGet_memWrite {m : Mem} (h : Memory.wf m = true) (a : Nat) (bs : List Byte) (c : Nat) :
    memGet (memWrite m a bs) c = if a ≤ c ∧ c < a + bs.length then bs.getD (c - a) 0 else memGet m c := by
  induction bs generalizing m a with
  | nil => simp only [memWrite, List.length_nil]; rw [if_neg (by omega)]
  | cons b bs ih =>
    rw [memWrite, ih (Memory.wf_memSet h a b), memGet_memSet h]
    simp only [List.length_cons]
    by_cases h0 : a = c
    · subst h0
      rw [if_neg (by omega), if_pos rfl, if_pos (by omega), Nat.sub_self]
      rfl
    · by_cases h1 : a + 1 ≤ c ∧ c < a + 1 + bs.length
      · rw [if_pos h1, if_pos (by omega)]
        have : c - a = (c - (a + 1)) + 1 := by omega
        rw [this, List.getD_cons_succ]
      · rw [if_neg h1, if_neg h0, if_neg (by omega)]

end Sys2Proof.Machine
end

