-- ==== Sys2Proof/Laws/State.lean ====
section
/-!
SUPPORT. What each update of the state leaves alone: one lemma per field per update, so that no later proof unfolds a record
update; and what reading gives after writing.
-/
namespace Sys2Proof.Machine

variable (s : State)

/-! ### setReg -/

@[simp] theorem State.setReg_pending (off : Nat) (v : Word) : (s.setReg off v).pending = s.pending := rfl
@[simp] theorem State.setReg_rlatch (off : Nat) (v : Word) : (s.setReg off v).rlatch = s.rlatch := rfl
@[simp] theorem State.setReg_wlatch (off : Nat) (v : Word) : (s.setReg off v).wlatch = s.wlatch := rfl
@[simp] theorem State.setReg_host (off : Nat) (v : Word) : (s.setReg off v).host = s.host := rfl
@[simp] theorem State.setReg_led (off : Nat) (v : Word) : (s.setReg off v).led = s.led := rfl
@[simp] theorem State.setReg_timed (off : Nat) (v : Word) : (s.setReg off v).timed = s.timed := rfl
@[simp] theorem State.setReg_clock (off : Nat) (v : Word) : (s.setReg off v).clock = s.clock := rfl
@[simp] theorem State.setReg_bells (off : Nat) (v : Word) : (s.setReg off v).bells = s.bells := rfl
@[simp] theorem State.setReg_cues (off : Nat) (v : Word) : (s.setReg off v).cues = s.cues := rfl
@[simp] theorem State.setReg_epochs (off : Nat) (v : Word) : (s.setReg off v).epochs = s.epochs := rfl
@[simp] theorem State.setReg_finals (off : Nat) (v : Word) : (s.setReg off v).finals = s.finals := rfl
@[simp] theorem State.setReg_epochSeq (off : Nat) (v : Word) : (s.setReg off v).epochSeq = s.epochSeq := rfl
@[simp] theorem State.setReg_sched (off : Nat) (v : Word) : (s.setReg off v).sched = s.sched := rfl
@[simp] theorem State.setReg_shelves (off : Nat) (v : Word) : (s.setReg off v).shelves = s.shelves := rfl
@[simp] theorem State.setReg_active (off : Nat) (v : Word) : (s.setReg off v).active = s.active := rfl
@[simp] theorem State.setReg_xfades (off : Nat) (v : Word) : (s.setReg off v).xfades = s.xfades := rfl
@[simp] theorem State.setReg_dram (off : Nat) (v : Word) : (s.setReg off v).dram = s.dram := rfl
@[simp] theorem State.setReg_lockers (off : Nat) (v : Word) : (s.setReg off v).lockers = s.lockers := rfl
@[simp] theorem State.setReg_capture (off : Nat) (v : Word) : (s.setReg off v).capture = s.capture := rfl
@[simp] theorem State.setReg_replay (off : Nat) (v : Word) : (s.setReg off v).replay = s.replay := rfl
@[simp] theorem State.setReg_geo (off : Nat) (v : Word) : (s.setReg off v).geo = s.geo := rfl
@[simp] theorem State.setReg_path (off : Nat) (v : Word) : (s.setReg off v).path = s.path := rfl
@[simp] theorem State.setReg_matrix (off : Nat) (v : Word) : (s.setReg off v).matrix = s.matrix := rfl
@[simp] theorem State.setReg_auxs (off : Nat) (v : Word) : (s.setReg off v).auxs = s.auxs := rfl
@[simp] theorem State.setReg_feeds (off : Nat) (v : Word) : (s.setReg off v).feeds = s.feeds := rfl
@[simp] theorem State.setReg_stage (off : Nat) (v : Word) : (s.setReg off v).stage = s.stage := rfl
@[simp] theorem State.setReg_firUsed (off : Nat) (v : Word) : (s.setReg off v).firUsed = s.firUsed := rfl
@[simp] theorem State.setReg_routes (off : Nat) (v : Word) : (s.setReg off v).routes = s.routes := rfl
@[simp] theorem State.setReg_ovr (off : Nat) (v : Word) : (s.setReg off v).ovr = s.ovr := rfl
@[simp] theorem State.setReg_corr (off : Nat) (v : Word) : (s.setReg off v).corr = s.corr := rfl
@[simp] theorem State.setReg_sdac (off : Nat) (v : Word) : (s.setReg off v).sdac = s.sdac := rfl
@[simp] theorem State.setReg_sdacWait (off : Nat) (v : Word) : (s.setReg off v).sdacWait = s.sdacWait := rfl
@[simp] theorem State.setReg_desks (off : Nat) (v : Word) : (s.setReg off v).desks = s.desks := rfl
@[simp] theorem State.setReg_tasks (off : Nat) (v : Word) : (s.setReg off v).tasks = s.tasks := rfl
@[simp] theorem State.setReg_groups (off : Nat) (v : Word) : (s.setReg off v).groups = s.groups := rfl
@[simp] theorem State.setReg_ports (off : Nat) (v : Word) : (s.setReg off v).ports = s.ports := rfl
@[simp] theorem State.setReg_net (off : Nat) (v : Word) : (s.setReg off v).net = s.net := rfl
@[simp] theorem State.setReg_ntk (off : Nat) (v : Word) : (s.setReg off v).ntk = s.ntk := rfl
@[simp] theorem State.setReg_dma (off : Nat) (v : Word) : (s.setReg off v).dma = s.dma := rfl
@[simp] theorem State.setReg_memory (off : Nat) (v : Word) : (s.setReg off v).memory = s.memory := rfl
@[simp] theorem State.setReg_pwr (off : Nat) (v : Word) : (s.setReg off v).pwr = s.pwr := rfl
@[simp] theorem State.setReg_pipe (off : Nat) (v : Word) : (s.setReg off v).pipe = s.pipe := rfl
@[simp] theorem State.setReg_boundary (off : Nat) (v : Word) : (s.setReg off v).boundary = s.boundary := rfl
@[simp] theorem State.setReg_tail (off : Nat) (v : Word) : (s.setReg off v).tail = s.tail := rfl
@[simp] theorem State.setReg_samples (off : Nat) (v : Word) : (s.setReg off v).samples = s.samples := rfl
@[simp] theorem State.setReg_free (off : Nat) (v : Word) : (s.setReg off v).free = s.free := rfl

/-! ### setQueue -/

@[simp] theorem State.setQueue_pending (q : Nat) (v : Queue) : (s.setQueue q v).pending = s.pending := rfl
@[simp] theorem State.setQueue_regs (q : Nat) (v : Queue) : (s.setQueue q v).regs = s.regs := rfl
@[simp] theorem State.setQueue_rlatch (q : Nat) (v : Queue) : (s.setQueue q v).rlatch = s.rlatch := rfl
@[simp] theorem State.setQueue_wlatch (q : Nat) (v : Queue) : (s.setQueue q v).wlatch = s.wlatch := rfl
@[simp] theorem State.setQueue_led (q : Nat) (v : Queue) : (s.setQueue q v).led = s.led := rfl
@[simp] theorem State.setQueue_timed (q : Nat) (v : Queue) : (s.setQueue q v).timed = s.timed := rfl
@[simp] theorem State.setQueue_clock (q : Nat) (v : Queue) : (s.setQueue q v).clock = s.clock := rfl
@[simp] theorem State.setQueue_bells (q : Nat) (v : Queue) : (s.setQueue q v).bells = s.bells := rfl
@[simp] theorem State.setQueue_cues (q : Nat) (v : Queue) : (s.setQueue q v).cues = s.cues := rfl
@[simp] theorem State.setQueue_epochs (q : Nat) (v : Queue) : (s.setQueue q v).epochs = s.epochs := rfl
@[simp] theorem State.setQueue_finals (q : Nat) (v : Queue) : (s.setQueue q v).finals = s.finals := rfl
@[simp] theorem State.setQueue_epochSeq (q : Nat) (v : Queue) : (s.setQueue q v).epochSeq = s.epochSeq := rfl
@[simp] theorem State.setQueue_sched (q : Nat) (v : Queue) : (s.setQueue q v).sched = s.sched := rfl
@[simp] theorem State.setQueue_shelves (q : Nat) (v : Queue) : (s.setQueue q v).shelves = s.shelves := rfl
@[simp] theorem State.setQueue_active (q : Nat) (v : Queue) : (s.setQueue q v).active = s.active := rfl
@[simp] theorem State.setQueue_xfades (q : Nat) (v : Queue) : (s.setQueue q v).xfades = s.xfades := rfl
@[simp] theorem State.setQueue_dram (q : Nat) (v : Queue) : (s.setQueue q v).dram = s.dram := rfl
@[simp] theorem State.setQueue_lockers (q : Nat) (v : Queue) : (s.setQueue q v).lockers = s.lockers := rfl
@[simp] theorem State.setQueue_capture (q : Nat) (v : Queue) : (s.setQueue q v).capture = s.capture := rfl
@[simp] theorem State.setQueue_replay (q : Nat) (v : Queue) : (s.setQueue q v).replay = s.replay := rfl
@[simp] theorem State.setQueue_geo (q : Nat) (v : Queue) : (s.setQueue q v).geo = s.geo := rfl
@[simp] theorem State.setQueue_path (q : Nat) (v : Queue) : (s.setQueue q v).path = s.path := rfl
@[simp] theorem State.setQueue_matrix (q : Nat) (v : Queue) : (s.setQueue q v).matrix = s.matrix := rfl
@[simp] theorem State.setQueue_auxs (q : Nat) (v : Queue) : (s.setQueue q v).auxs = s.auxs := rfl
@[simp] theorem State.setQueue_feeds (q : Nat) (v : Queue) : (s.setQueue q v).feeds = s.feeds := rfl
@[simp] theorem State.setQueue_stage (q : Nat) (v : Queue) : (s.setQueue q v).stage = s.stage := rfl
@[simp] theorem State.setQueue_firUsed (q : Nat) (v : Queue) : (s.setQueue q v).firUsed = s.firUsed := rfl
@[simp] theorem State.setQueue_routes (q : Nat) (v : Queue) : (s.setQueue q v).routes = s.routes := rfl
@[simp] theorem State.setQueue_ovr (q : Nat) (v : Queue) : (s.setQueue q v).ovr = s.ovr := rfl
@[simp] theorem State.setQueue_corr (q : Nat) (v : Queue) : (s.setQueue q v).corr = s.corr := rfl
@[simp] theorem State.setQueue_sdac (q : Nat) (v : Queue) : (s.setQueue q v).sdac = s.sdac := rfl
@[simp] theorem State.setQueue_sdacWait (q : Nat) (v : Queue) : (s.setQueue q v).sdacWait = s.sdacWait := rfl
@[simp] theorem State.setQueue_desks (q : Nat) (v : Queue) : (s.setQueue q v).desks = s.desks := rfl
@[simp] theorem State.setQueue_tasks (q : Nat) (v : Queue) : (s.setQueue q v).tasks = s.tasks := rfl
@[simp] theorem State.setQueue_groups (q : Nat) (v : Queue) : (s.setQueue q v).groups = s.groups := rfl
@[simp] theorem State.setQueue_ports (q : Nat) (v : Queue) : (s.setQueue q v).ports = s.ports := rfl
@[simp] theorem State.setQueue_net (q : Nat) (v : Queue) : (s.setQueue q v).net = s.net := rfl
@[simp] theorem State.setQueue_ntk (q : Nat) (v : Queue) : (s.setQueue q v).ntk = s.ntk := rfl
@[simp] theorem State.setQueue_dma (q : Nat) (v : Queue) : (s.setQueue q v).dma = s.dma := rfl
@[simp] theorem State.setQueue_memory (q : Nat) (v : Queue) : (s.setQueue q v).memory = s.memory := rfl
@[simp] theorem State.setQueue_pwr (q : Nat) (v : Queue) : (s.setQueue q v).pwr = s.pwr := rfl
@[simp] theorem State.setQueue_pipe (q : Nat) (v : Queue) : (s.setQueue q v).pipe = s.pipe := rfl
@[simp] theorem State.setQueue_boundary (q : Nat) (v : Queue) : (s.setQueue q v).boundary = s.boundary := rfl
@[simp] theorem State.setQueue_tail (q : Nat) (v : Queue) : (s.setQueue q v).tail = s.tail := rfl
@[simp] theorem State.setQueue_samples (q : Nat) (v : Queue) : (s.setQueue q v).samples = s.samples := rfl
@[simp] theorem State.setQueue_free (q : Nat) (v : Queue) : (s.setQueue q v).free = s.free := rfl

/-! ### setLocker -/

@[simp] theorem State.setLocker_pending (i : Nat) (l : Locker) : (s.setLocker i l).pending = s.pending := rfl
@[simp] theorem State.setLocker_regs (i : Nat) (l : Locker) : (s.setLocker i l).regs = s.regs := rfl
@[simp] theorem State.setLocker_rlatch (i : Nat) (l : Locker) : (s.setLocker i l).rlatch = s.rlatch := rfl
@[simp] theorem State.setLocker_wlatch (i : Nat) (l : Locker) : (s.setLocker i l).wlatch = s.wlatch := rfl
@[simp] theorem State.setLocker_host (i : Nat) (l : Locker) : (s.setLocker i l).host = s.host := rfl
@[simp] theorem State.setLocker_led (i : Nat) (l : Locker) : (s.setLocker i l).led = s.led := rfl
@[simp] theorem State.setLocker_timed (i : Nat) (l : Locker) : (s.setLocker i l).timed = s.timed := rfl
@[simp] theorem State.setLocker_clock (i : Nat) (l : Locker) : (s.setLocker i l).clock = s.clock := rfl
@[simp] theorem State.setLocker_bells (i : Nat) (l : Locker) : (s.setLocker i l).bells = s.bells := rfl
@[simp] theorem State.setLocker_cues (i : Nat) (l : Locker) : (s.setLocker i l).cues = s.cues := rfl
@[simp] theorem State.setLocker_epochs (i : Nat) (l : Locker) : (s.setLocker i l).epochs = s.epochs := rfl
@[simp] theorem State.setLocker_finals (i : Nat) (l : Locker) : (s.setLocker i l).finals = s.finals := rfl
@[simp] theorem State.setLocker_epochSeq (i : Nat) (l : Locker) : (s.setLocker i l).epochSeq = s.epochSeq := rfl
@[simp] theorem State.setLocker_sched (i : Nat) (l : Locker) : (s.setLocker i l).sched = s.sched := rfl
@[simp] theorem State.setLocker_shelves (i : Nat) (l : Locker) : (s.setLocker i l).shelves = s.shelves := rfl
@[simp] theorem State.setLocker_active (i : Nat) (l : Locker) : (s.setLocker i l).active = s.active := rfl
@[simp] theorem State.setLocker_xfades (i : Nat) (l : Locker) : (s.setLocker i l).xfades = s.xfades := rfl
@[simp] theorem State.setLocker_dram (i : Nat) (l : Locker) : (s.setLocker i l).dram = s.dram := rfl
@[simp] theorem State.setLocker_capture (i : Nat) (l : Locker) : (s.setLocker i l).capture = s.capture := rfl
@[simp] theorem State.setLocker_replay (i : Nat) (l : Locker) : (s.setLocker i l).replay = s.replay := rfl
@[simp] theorem State.setLocker_geo (i : Nat) (l : Locker) : (s.setLocker i l).geo = s.geo := rfl
@[simp] theorem State.setLocker_path (i : Nat) (l : Locker) : (s.setLocker i l).path = s.path := rfl
@[simp] theorem State.setLocker_matrix (i : Nat) (l : Locker) : (s.setLocker i l).matrix = s.matrix := rfl
@[simp] theorem State.setLocker_auxs (i : Nat) (l : Locker) : (s.setLocker i l).auxs = s.auxs := rfl
@[simp] theorem State.setLocker_feeds (i : Nat) (l : Locker) : (s.setLocker i l).feeds = s.feeds := rfl
@[simp] theorem State.setLocker_stage (i : Nat) (l : Locker) : (s.setLocker i l).stage = s.stage := rfl
@[simp] theorem State.setLocker_firUsed (i : Nat) (l : Locker) : (s.setLocker i l).firUsed = s.firUsed := rfl
@[simp] theorem State.setLocker_routes (i : Nat) (l : Locker) : (s.setLocker i l).routes = s.routes := rfl
@[simp] theorem State.setLocker_ovr (i : Nat) (l : Locker) : (s.setLocker i l).ovr = s.ovr := rfl
@[simp] theorem State.setLocker_corr (i : Nat) (l : Locker) : (s.setLocker i l).corr = s.corr := rfl
@[simp] theorem State.setLocker_sdac (i : Nat) (l : Locker) : (s.setLocker i l).sdac = s.sdac := rfl
@[simp] theorem State.setLocker_sdacWait (i : Nat) (l : Locker) : (s.setLocker i l).sdacWait = s.sdacWait := rfl
@[simp] theorem State.setLocker_desks (i : Nat) (l : Locker) : (s.setLocker i l).desks = s.desks := rfl
@[simp] theorem State.setLocker_tasks (i : Nat) (l : Locker) : (s.setLocker i l).tasks = s.tasks := rfl
@[simp] theorem State.setLocker_groups (i : Nat) (l : Locker) : (s.setLocker i l).groups = s.groups := rfl
@[simp] theorem State.setLocker_ports (i : Nat) (l : Locker) : (s.setLocker i l).ports = s.ports := rfl
@[simp] theorem State.setLocker_net (i : Nat) (l : Locker) : (s.setLocker i l).net = s.net := rfl
@[simp] theorem State.setLocker_ntk (i : Nat) (l : Locker) : (s.setLocker i l).ntk = s.ntk := rfl
@[simp] theorem State.setLocker_dma (i : Nat) (l : Locker) : (s.setLocker i l).dma = s.dma := rfl
@[simp] theorem State.setLocker_memory (i : Nat) (l : Locker) : (s.setLocker i l).memory = s.memory := rfl
@[simp] theorem State.setLocker_pwr (i : Nat) (l : Locker) : (s.setLocker i l).pwr = s.pwr := rfl
@[simp] theorem State.setLocker_pipe (i : Nat) (l : Locker) : (s.setLocker i l).pipe = s.pipe := rfl
@[simp] theorem State.setLocker_boundary (i : Nat) (l : Locker) : (s.setLocker i l).boundary = s.boundary := rfl
@[simp] theorem State.setLocker_tail (i : Nat) (l : Locker) : (s.setLocker i l).tail = s.tail := rfl
@[simp] theorem State.setLocker_samples (i : Nat) (l : Locker) : (s.setLocker i l).samples = s.samples := rfl
@[simp] theorem State.setLocker_free (i : Nat) (l : Locker) : (s.setLocker i l).free = s.free := rfl

/-! ### setFeed -/

@[simp] theorem State.setFeed_pending (f : Nat) (v : Feed) : (s.setFeed f v).pending = s.pending := rfl
@[simp] theorem State.setFeed_regs (f : Nat) (v : Feed) : (s.setFeed f v).regs = s.regs := rfl
@[simp] theorem State.setFeed_rlatch (f : Nat) (v : Feed) : (s.setFeed f v).rlatch = s.rlatch := rfl
@[simp] theorem State.setFeed_wlatch (f : Nat) (v : Feed) : (s.setFeed f v).wlatch = s.wlatch := rfl
@[simp] theorem State.setFeed_host (f : Nat) (v : Feed) : (s.setFeed f v).host = s.host := rfl
@[simp] theorem State.setFeed_led (f : Nat) (v : Feed) : (s.setFeed f v).led = s.led := rfl
@[simp] theorem State.setFeed_timed (f : Nat) (v : Feed) : (s.setFeed f v).timed = s.timed := rfl
@[simp] theorem State.setFeed_clock (f : Nat) (v : Feed) : (s.setFeed f v).clock = s.clock := rfl
@[simp] theorem State.setFeed_bells (f : Nat) (v : Feed) : (s.setFeed f v).bells = s.bells := rfl
@[simp] theorem State.setFeed_cues (f : Nat) (v : Feed) : (s.setFeed f v).cues = s.cues := rfl
@[simp] theorem State.setFeed_epochs (f : Nat) (v : Feed) : (s.setFeed f v).epochs = s.epochs := rfl
@[simp] theorem State.setFeed_finals (f : Nat) (v : Feed) : (s.setFeed f v).finals = s.finals := rfl
@[simp] theorem State.setFeed_epochSeq (f : Nat) (v : Feed) : (s.setFeed f v).epochSeq = s.epochSeq := rfl
@[simp] theorem State.setFeed_sched (f : Nat) (v : Feed) : (s.setFeed f v).sched = s.sched := rfl
@[simp] theorem State.setFeed_shelves (f : Nat) (v : Feed) : (s.setFeed f v).shelves = s.shelves := rfl
@[simp] theorem State.setFeed_active (f : Nat) (v : Feed) : (s.setFeed f v).active = s.active := rfl
@[simp] theorem State.setFeed_xfades (f : Nat) (v : Feed) : (s.setFeed f v).xfades = s.xfades := rfl
@[simp] theorem State.setFeed_dram (f : Nat) (v : Feed) : (s.setFeed f v).dram = s.dram := rfl
@[simp] theorem State.setFeed_lockers (f : Nat) (v : Feed) : (s.setFeed f v).lockers = s.lockers := rfl
@[simp] theorem State.setFeed_capture (f : Nat) (v : Feed) : (s.setFeed f v).capture = s.capture := rfl
@[simp] theorem State.setFeed_replay (f : Nat) (v : Feed) : (s.setFeed f v).replay = s.replay := rfl
@[simp] theorem State.setFeed_geo (f : Nat) (v : Feed) : (s.setFeed f v).geo = s.geo := rfl
@[simp] theorem State.setFeed_path (f : Nat) (v : Feed) : (s.setFeed f v).path = s.path := rfl
@[simp] theorem State.setFeed_matrix (f : Nat) (v : Feed) : (s.setFeed f v).matrix = s.matrix := rfl
@[simp] theorem State.setFeed_auxs (f : Nat) (v : Feed) : (s.setFeed f v).auxs = s.auxs := rfl
@[simp] theorem State.setFeed_stage (f : Nat) (v : Feed) : (s.setFeed f v).stage = s.stage := rfl
@[simp] theorem State.setFeed_firUsed (f : Nat) (v : Feed) : (s.setFeed f v).firUsed = s.firUsed := rfl
@[simp] theorem State.setFeed_routes (f : Nat) (v : Feed) : (s.setFeed f v).routes = s.routes := rfl
@[simp] theorem State.setFeed_ovr (f : Nat) (v : Feed) : (s.setFeed f v).ovr = s.ovr := rfl
@[simp] theorem State.setFeed_corr (f : Nat) (v : Feed) : (s.setFeed f v).corr = s.corr := rfl
@[simp] theorem State.setFeed_sdac (f : Nat) (v : Feed) : (s.setFeed f v).sdac = s.sdac := rfl
@[simp] theorem State.setFeed_sdacWait (f : Nat) (v : Feed) : (s.setFeed f v).sdacWait = s.sdacWait := rfl
@[simp] theorem State.setFeed_desks (f : Nat) (v : Feed) : (s.setFeed f v).desks = s.desks := rfl
@[simp] theorem State.setFeed_tasks (f : Nat) (v : Feed) : (s.setFeed f v).tasks = s.tasks := rfl
@[simp] theorem State.setFeed_groups (f : Nat) (v : Feed) : (s.setFeed f v).groups = s.groups := rfl
@[simp] theorem State.setFeed_ports (f : Nat) (v : Feed) : (s.setFeed f v).ports = s.ports := rfl
@[simp] theorem State.setFeed_net (f : Nat) (v : Feed) : (s.setFeed f v).net = s.net := rfl
@[simp] theorem State.setFeed_ntk (f : Nat) (v : Feed) : (s.setFeed f v).ntk = s.ntk := rfl
@[simp] theorem State.setFeed_dma (f : Nat) (v : Feed) : (s.setFeed f v).dma = s.dma := rfl
@[simp] theorem State.setFeed_memory (f : Nat) (v : Feed) : (s.setFeed f v).memory = s.memory := rfl
@[simp] theorem State.setFeed_pwr (f : Nat) (v : Feed) : (s.setFeed f v).pwr = s.pwr := rfl
@[simp] theorem State.setFeed_pipe (f : Nat) (v : Feed) : (s.setFeed f v).pipe = s.pipe := rfl
@[simp] theorem State.setFeed_boundary (f : Nat) (v : Feed) : (s.setFeed f v).boundary = s.boundary := rfl
@[simp] theorem State.setFeed_tail (f : Nat) (v : Feed) : (s.setFeed f v).tail = s.tail := rfl
@[simp] theorem State.setFeed_samples (f : Nat) (v : Feed) : (s.setFeed f v).samples = s.samples := rfl
@[simp] theorem State.setFeed_free (f : Nat) (v : Feed) : (s.setFeed f v).free = s.free := rfl

/-! ### setPwr -/

@[simp] theorem State.setPwr_pending (p : PwrSt) : (s.setPwr p).pending = s.pending := rfl
@[simp] theorem State.setPwr_regs (p : PwrSt) : (s.setPwr p).regs = s.regs := rfl
@[simp] theorem State.setPwr_rlatch (p : PwrSt) : (s.setPwr p).rlatch = s.rlatch := rfl
@[simp] theorem State.setPwr_wlatch (p : PwrSt) : (s.setPwr p).wlatch = s.wlatch := rfl
@[simp] theorem State.setPwr_host (p : PwrSt) : (s.setPwr p).host = s.host := rfl
@[simp] theorem State.setPwr_led (p : PwrSt) : (s.setPwr p).led = s.led := rfl
@[simp] theorem State.setPwr_timed (p : PwrSt) : (s.setPwr p).timed = s.timed := rfl
@[simp] theorem State.setPwr_clock (p : PwrSt) : (s.setPwr p).clock = s.clock := rfl
@[simp] theorem State.setPwr_bells (p : PwrSt) : (s.setPwr p).bells = s.bells := rfl
@[simp] theorem State.setPwr_cues (p : PwrSt) : (s.setPwr p).cues = s.cues := rfl
@[simp] theorem State.setPwr_epochs (p : PwrSt) : (s.setPwr p).epochs = s.epochs := rfl
@[simp] theorem State.setPwr_finals (p : PwrSt) : (s.setPwr p).finals = s.finals := rfl
@[simp] theorem State.setPwr_epochSeq (p : PwrSt) : (s.setPwr p).epochSeq = s.epochSeq := rfl
@[simp] theorem State.setPwr_sched (p : PwrSt) : (s.setPwr p).sched = s.sched := rfl
@[simp] theorem State.setPwr_shelves (p : PwrSt) : (s.setPwr p).shelves = s.shelves := rfl
@[simp] theorem State.setPwr_active (p : PwrSt) : (s.setPwr p).active = s.active := rfl
@[simp] theorem State.setPwr_xfades (p : PwrSt) : (s.setPwr p).xfades = s.xfades := rfl
@[simp] theorem State.setPwr_dram (p : PwrSt) : (s.setPwr p).dram = s.dram := rfl
@[simp] theorem State.setPwr_lockers (p : PwrSt) : (s.setPwr p).lockers = s.lockers := rfl
@[simp] theorem State.setPwr_capture (p : PwrSt) : (s.setPwr p).capture = s.capture := rfl
@[simp] theorem State.setPwr_replay (p : PwrSt) : (s.setPwr p).replay = s.replay := rfl
@[simp] theorem State.setPwr_geo (p : PwrSt) : (s.setPwr p).geo = s.geo := rfl
@[simp] theorem State.setPwr_path (p : PwrSt) : (s.setPwr p).path = s.path := rfl
@[simp] theorem State.setPwr_matrix (p : PwrSt) : (s.setPwr p).matrix = s.matrix := rfl
@[simp] theorem State.setPwr_auxs (p : PwrSt) : (s.setPwr p).auxs = s.auxs := rfl
@[simp] theorem State.setPwr_feeds (p : PwrSt) : (s.setPwr p).feeds = s.feeds := rfl
@[simp] theorem State.setPwr_stage (p : PwrSt) : (s.setPwr p).stage = s.stage := rfl
@[simp] theorem State.setPwr_firUsed (p : PwrSt) : (s.setPwr p).firUsed = s.firUsed := rfl
@[simp] theorem State.setPwr_routes (p : PwrSt) : (s.setPwr p).routes = s.routes := rfl
@[simp] theorem State.setPwr_ovr (p : PwrSt) : (s.setPwr p).ovr = s.ovr := rfl
@[simp] theorem State.setPwr_corr (p : PwrSt) : (s.setPwr p).corr = s.corr := rfl
@[simp] theorem State.setPwr_sdac (p : PwrSt) : (s.setPwr p).sdac = s.sdac := rfl
@[simp] theorem State.setPwr_sdacWait (p : PwrSt) : (s.setPwr p).sdacWait = s.sdacWait := rfl
@[simp] theorem State.setPwr_desks (p : PwrSt) : (s.setPwr p).desks = s.desks := rfl
@[simp] theorem State.setPwr_tasks (p : PwrSt) : (s.setPwr p).tasks = s.tasks := rfl
@[simp] theorem State.setPwr_groups (p : PwrSt) : (s.setPwr p).groups = s.groups := rfl
@[simp] theorem State.setPwr_ports (p : PwrSt) : (s.setPwr p).ports = s.ports := rfl
@[simp] theorem State.setPwr_net (p : PwrSt) : (s.setPwr p).net = s.net := rfl
@[simp] theorem State.setPwr_ntk (p : PwrSt) : (s.setPwr p).ntk = s.ntk := rfl
@[simp] theorem State.setPwr_dma (p : PwrSt) : (s.setPwr p).dma = s.dma := rfl
@[simp] theorem State.setPwr_memory (p : PwrSt) : (s.setPwr p).memory = s.memory := rfl
@[simp] theorem State.setPwr_pipe (p : PwrSt) : (s.setPwr p).pipe = s.pipe := rfl
@[simp] theorem State.setPwr_boundary (p : PwrSt) : (s.setPwr p).boundary = s.boundary := rfl
@[simp] theorem State.setPwr_tail (p : PwrSt) : (s.setPwr p).tail = s.tail := rfl
@[simp] theorem State.setPwr_samples (p : PwrSt) : (s.setPwr p).samples = s.samples := rfl
@[simp] theorem State.setPwr_free (p : PwrSt) : (s.setPwr p).free = s.free := rfl

/-! ### setMemory -/

@[simp] theorem State.setMemory_pending (m : MemSt) : (s.setMemory m).pending = s.pending := rfl
@[simp] theorem State.setMemory_regs (m : MemSt) : (s.setMemory m).regs = s.regs := rfl
@[simp] theorem State.setMemory_rlatch (m : MemSt) : (s.setMemory m).rlatch = s.rlatch := rfl
@[simp] theorem State.setMemory_wlatch (m : MemSt) : (s.setMemory m).wlatch = s.wlatch := rfl
@[simp] theorem State.setMemory_host (m : MemSt) : (s.setMemory m).host = s.host := rfl
@[simp] theorem State.setMemory_led (m : MemSt) : (s.setMemory m).led = s.led := rfl
@[simp] theorem State.setMemory_timed (m : MemSt) : (s.setMemory m).timed = s.timed := rfl
@[simp] theorem State.setMemory_clock (m : MemSt) : (s.setMemory m).clock = s.clock := rfl
@[simp] theorem State.setMemory_bells (m : MemSt) : (s.setMemory m).bells = s.bells := rfl
@[simp] theorem State.setMemory_cues (m : MemSt) : (s.setMemory m).cues = s.cues := rfl
@[simp] theorem State.setMemory_epochs (m : MemSt) : (s.setMemory m).epochs = s.epochs := rfl
@[simp] theorem State.setMemory_finals (m : MemSt) : (s.setMemory m).finals = s.finals := rfl
@[simp] theorem State.setMemory_epochSeq (m : MemSt) : (s.setMemory m).epochSeq = s.epochSeq := rfl
@[simp] theorem State.setMemory_sched (m : MemSt) : (s.setMemory m).sched = s.sched := rfl
@[simp] theorem State.setMemory_shelves (m : MemSt) : (s.setMemory m).shelves = s.shelves := rfl
@[simp] theorem State.setMemory_active (m : MemSt) : (s.setMemory m).active = s.active := rfl
@[simp] theorem State.setMemory_xfades (m : MemSt) : (s.setMemory m).xfades = s.xfades := rfl
@[simp] theorem State.setMemory_dram (m : MemSt) : (s.setMemory m).dram = s.dram := rfl
@[simp] theorem State.setMemory_lockers (m : MemSt) : (s.setMemory m).lockers = s.lockers := rfl
@[simp] theorem State.setMemory_capture (m : MemSt) : (s.setMemory m).capture = s.capture := rfl
@[simp] theorem State.setMemory_replay (m : MemSt) : (s.setMemory m).replay = s.replay := rfl
@[simp] theorem State.setMemory_geo (m : MemSt) : (s.setMemory m).geo = s.geo := rfl
@[simp] theorem State.setMemory_path (m : MemSt) : (s.setMemory m).path = s.path := rfl
@[simp] theorem State.setMemory_matrix (m : MemSt) : (s.setMemory m).matrix = s.matrix := rfl
@[simp] theorem State.setMemory_auxs (m : MemSt) : (s.setMemory m).auxs = s.auxs := rfl
@[simp] theorem State.setMemory_feeds (m : MemSt) : (s.setMemory m).feeds = s.feeds := rfl
@[simp] theorem State.setMemory_stage (m : MemSt) : (s.setMemory m).stage = s.stage := rfl
@[simp] theorem State.setMemory_firUsed (m : MemSt) : (s.setMemory m).firUsed = s.firUsed := rfl
@[simp] theorem State.setMemory_routes (m : MemSt) : (s.setMemory m).routes = s.routes := rfl
@[simp] theorem State.setMemory_ovr (m : MemSt) : (s.setMemory m).ovr = s.ovr := rfl
@[simp] theorem State.setMemory_corr (m : MemSt) : (s.setMemory m).corr = s.corr := rfl
@[simp] theorem State.setMemory_sdac (m : MemSt) : (s.setMemory m).sdac = s.sdac := rfl
@[simp] theorem State.setMemory_sdacWait (m : MemSt) : (s.setMemory m).sdacWait = s.sdacWait := rfl
@[simp] theorem State.setMemory_desks (m : MemSt) : (s.setMemory m).desks = s.desks := rfl
@[simp] theorem State.setMemory_tasks (m : MemSt) : (s.setMemory m).tasks = s.tasks := rfl
@[simp] theorem State.setMemory_groups (m : MemSt) : (s.setMemory m).groups = s.groups := rfl
@[simp] theorem State.setMemory_ports (m : MemSt) : (s.setMemory m).ports = s.ports := rfl
@[simp] theorem State.setMemory_net (m : MemSt) : (s.setMemory m).net = s.net := rfl
@[simp] theorem State.setMemory_ntk (m : MemSt) : (s.setMemory m).ntk = s.ntk := rfl
@[simp] theorem State.setMemory_dma (m : MemSt) : (s.setMemory m).dma = s.dma := rfl
@[simp] theorem State.setMemory_pwr (m : MemSt) : (s.setMemory m).pwr = s.pwr := rfl
@[simp] theorem State.setMemory_pipe (m : MemSt) : (s.setMemory m).pipe = s.pipe := rfl
@[simp] theorem State.setMemory_boundary (m : MemSt) : (s.setMemory m).boundary = s.boundary := rfl
@[simp] theorem State.setMemory_tail (m : MemSt) : (s.setMemory m).tail = s.tail := rfl
@[simp] theorem State.setMemory_samples (m : MemSt) : (s.setMemory m).samples = s.samples := rfl
@[simp] theorem State.setMemory_free (m : MemSt) : (s.setMemory m).free = s.free := rfl

/-! ### setDesk -/

@[simp] theorem State.setDesk_pending (d : Nat) (k : Desk) : (s.setDesk d k).pending = s.pending := rfl
@[simp] theorem State.setDesk_regs (d : Nat) (k : Desk) : (s.setDesk d k).regs = s.regs := rfl
@[simp] theorem State.setDesk_rlatch (d : Nat) (k : Desk) : (s.setDesk d k).rlatch = s.rlatch := rfl
@[simp] theorem State.setDesk_wlatch (d : Nat) (k : Desk) : (s.setDesk d k).wlatch = s.wlatch := rfl
@[simp] theorem State.setDesk_host (d : Nat) (k : Desk) : (s.setDesk d k).host = s.host := rfl
@[simp] theorem State.setDesk_led (d : Nat) (k : Desk) : (s.setDesk d k).led = s.led := rfl
@[simp] theorem State.setDesk_timed (d : Nat) (k : Desk) : (s.setDesk d k).timed = s.timed := rfl
@[simp] theorem State.setDesk_clock (d : Nat) (k : Desk) : (s.setDesk d k).clock = s.clock := rfl
@[simp] theorem State.setDesk_bells (d : Nat) (k : Desk) : (s.setDesk d k).bells = s.bells := rfl
@[simp] theorem State.setDesk_cues (d : Nat) (k : Desk) : (s.setDesk d k).cues = s.cues := rfl
@[simp] theorem State.setDesk_epochs (d : Nat) (k : Desk) : (s.setDesk d k).epochs = s.epochs := rfl
@[simp] theorem State.setDesk_finals (d : Nat) (k : Desk) : (s.setDesk d k).finals = s.finals := rfl
@[simp] theorem State.setDesk_epochSeq (d : Nat) (k : Desk) : (s.setDesk d k).epochSeq = s.epochSeq := rfl
@[simp] theorem State.setDesk_sched (d : Nat) (k : Desk) : (s.setDesk d k).sched = s.sched := rfl
@[simp] theorem State.setDesk_shelves (d : Nat) (k : Desk) : (s.setDesk d k).shelves = s.shelves := rfl
@[simp] theorem State.setDesk_active (d : Nat) (k : Desk) : (s.setDesk d k).active = s.active := rfl
@[simp] theorem State.setDesk_xfades (d : Nat) (k : Desk) : (s.setDesk d k).xfades = s.xfades := rfl
@[simp] theorem State.setDesk_dram (d : Nat) (k : Desk) : (s.setDesk d k).dram = s.dram := rfl
@[simp] theorem State.setDesk_lockers (d : Nat) (k : Desk) : (s.setDesk d k).lockers = s.lockers := rfl
@[simp] theorem State.setDesk_capture (d : Nat) (k : Desk) : (s.setDesk d k).capture = s.capture := rfl
@[simp] theorem State.setDesk_replay (d : Nat) (k : Desk) : (s.setDesk d k).replay = s.replay := rfl
@[simp] theorem State.setDesk_geo (d : Nat) (k : Desk) : (s.setDesk d k).geo = s.geo := rfl
@[simp] theorem State.setDesk_path (d : Nat) (k : Desk) : (s.setDesk d k).path = s.path := rfl
@[simp] theorem State.setDesk_matrix (d : Nat) (k : Desk) : (s.setDesk d k).matrix = s.matrix := rfl
@[simp] theorem State.setDesk_auxs (d : Nat) (k : Desk) : (s.setDesk d k).auxs = s.auxs := rfl
@[simp] theorem State.setDesk_feeds (d : Nat) (k : Desk) : (s.setDesk d k).feeds = s.feeds := rfl
@[simp] theorem State.setDesk_stage (d : Nat) (k : Desk) : (s.setDesk d k).stage = s.stage := rfl
@[simp] theorem State.setDesk_firUsed (d : Nat) (k : Desk) : (s.setDesk d k).firUsed = s.firUsed := rfl
@[simp] theorem State.setDesk_routes (d : Nat) (k : Desk) : (s.setDesk d k).routes = s.routes := rfl
@[simp] theorem State.setDesk_ovr (d : Nat) (k : Desk) : (s.setDesk d k).ovr = s.ovr := rfl
@[simp] theorem State.setDesk_corr (d : Nat) (k : Desk) : (s.setDesk d k).corr = s.corr := rfl
@[simp] theorem State.setDesk_sdac (d : Nat) (k : Desk) : (s.setDesk d k).sdac = s.sdac := rfl
@[simp] theorem State.setDesk_sdacWait (d : Nat) (k : Desk) : (s.setDesk d k).sdacWait = s.sdacWait := rfl
@[simp] theorem State.setDesk_tasks (d : Nat) (k : Desk) : (s.setDesk d k).tasks = s.tasks := rfl
@[simp] theorem State.setDesk_groups (d : Nat) (k : Desk) : (s.setDesk d k).groups = s.groups := rfl
@[simp] theorem State.setDesk_ports (d : Nat) (k : Desk) : (s.setDesk d k).ports = s.ports := rfl
@[simp] theorem State.setDesk_net (d : Nat) (k : Desk) : (s.setDesk d k).net = s.net := rfl
@[simp] theorem State.setDesk_ntk (d : Nat) (k : Desk) : (s.setDesk d k).ntk = s.ntk := rfl
@[simp] theorem State.setDesk_dma (d : Nat) (k : Desk) : (s.setDesk d k).dma = s.dma := rfl
@[simp] theorem State.setDesk_memory (d : Nat) (k : Desk) : (s.setDesk d k).memory = s.memory := rfl
@[simp] theorem State.setDesk_pwr (d : Nat) (k : Desk) : (s.setDesk d k).pwr = s.pwr := rfl
@[simp] theorem State.setDesk_pipe (d : Nat) (k : Desk) : (s.setDesk d k).pipe = s.pipe := rfl
@[simp] theorem State.setDesk_boundary (d : Nat) (k : Desk) : (s.setDesk d k).boundary = s.boundary := rfl
@[simp] theorem State.setDesk_tail (d : Nat) (k : Desk) : (s.setDesk d k).tail = s.tail := rfl
@[simp] theorem State.setDesk_samples (d : Nat) (k : Desk) : (s.setDesk d k).samples = s.samples := rfl
@[simp] theorem State.setDesk_free (d : Nat) (k : Desk) : (s.setDesk d k).free = s.free := rfl

/-! ### setTask -/

@[simp] theorem State.setTask_pending (t : Nat) (k : Task) : (s.setTask t k).pending = s.pending := rfl
@[simp] theorem State.setTask_regs (t : Nat) (k : Task) : (s.setTask t k).regs = s.regs := rfl
@[simp] theorem State.setTask_rlatch (t : Nat) (k : Task) : (s.setTask t k).rlatch = s.rlatch := rfl
@[simp] theorem State.setTask_wlatch (t : Nat) (k : Task) : (s.setTask t k).wlatch = s.wlatch := rfl
@[simp] theorem State.setTask_host (t : Nat) (k : Task) : (s.setTask t k).host = s.host := rfl
@[simp] theorem State.setTask_led (t : Nat) (k : Task) : (s.setTask t k).led = s.led := rfl
@[simp] theorem State.setTask_timed (t : Nat) (k : Task) : (s.setTask t k).timed = s.timed := rfl
@[simp] theorem State.setTask_clock (t : Nat) (k : Task) : (s.setTask t k).clock = s.clock := rfl
@[simp] theorem State.setTask_bells (t : Nat) (k : Task) : (s.setTask t k).bells = s.bells := rfl
@[simp] theorem State.setTask_cues (t : Nat) (k : Task) : (s.setTask t k).cues = s.cues := rfl
@[simp] theorem State.setTask_epochs (t : Nat) (k : Task) : (s.setTask t k).epochs = s.epochs := rfl
@[simp] theorem State.setTask_finals (t : Nat) (k : Task) : (s.setTask t k).finals = s.finals := rfl
@[simp] theorem State.setTask_epochSeq (t : Nat) (k : Task) : (s.setTask t k).epochSeq = s.epochSeq := rfl
@[simp] theorem State.setTask_sched (t : Nat) (k : Task) : (s.setTask t k).sched = s.sched := rfl
@[simp] theorem State.setTask_shelves (t : Nat) (k : Task) : (s.setTask t k).shelves = s.shelves := rfl
@[simp] theorem State.setTask_active (t : Nat) (k : Task) : (s.setTask t k).active = s.active := rfl
@[simp] theorem State.setTask_xfades (t : Nat) (k : Task) : (s.setTask t k).xfades = s.xfades := rfl
@[simp] theorem State.setTask_dram (t : Nat) (k : Task) : (s.setTask t k).dram = s.dram := rfl
@[simp] theorem State.setTask_lockers (t : Nat) (k : Task) : (s.setTask t k).lockers = s.lockers := rfl
@[simp] theorem State.setTask_capture (t : Nat) (k : Task) : (s.setTask t k).capture = s.capture := rfl
@[simp] theorem State.setTask_replay (t : Nat) (k : Task) : (s.setTask t k).replay = s.replay := rfl
@[simp] theorem State.setTask_geo (t : Nat) (k : Task) : (s.setTask t k).geo = s.geo := rfl
@[simp] theorem State.setTask_path (t : Nat) (k : Task) : (s.setTask t k).path = s.path := rfl
@[simp] theorem State.setTask_matrix (t : Nat) (k : Task) : (s.setTask t k).matrix = s.matrix := rfl
@[simp] theorem State.setTask_auxs (t : Nat) (k : Task) : (s.setTask t k).auxs = s.auxs := rfl
@[simp] theorem State.setTask_feeds (t : Nat) (k : Task) : (s.setTask t k).feeds = s.feeds := rfl
@[simp] theorem State.setTask_stage (t : Nat) (k : Task) : (s.setTask t k).stage = s.stage := rfl
@[simp] theorem State.setTask_firUsed (t : Nat) (k : Task) : (s.setTask t k).firUsed = s.firUsed := rfl
@[simp] theorem State.setTask_routes (t : Nat) (k : Task) : (s.setTask t k).routes = s.routes := rfl
@[simp] theorem State.setTask_ovr (t : Nat) (k : Task) : (s.setTask t k).ovr = s.ovr := rfl
@[simp] theorem State.setTask_corr (t : Nat) (k : Task) : (s.setTask t k).corr = s.corr := rfl
@[simp] theorem State.setTask_sdac (t : Nat) (k : Task) : (s.setTask t k).sdac = s.sdac := rfl
@[simp] theorem State.setTask_sdacWait (t : Nat) (k : Task) : (s.setTask t k).sdacWait = s.sdacWait := rfl
@[simp] theorem State.setTask_desks (t : Nat) (k : Task) : (s.setTask t k).desks = s.desks := rfl
@[simp] theorem State.setTask_groups (t : Nat) (k : Task) : (s.setTask t k).groups = s.groups := rfl
@[simp] theorem State.setTask_ports (t : Nat) (k : Task) : (s.setTask t k).ports = s.ports := rfl
@[simp] theorem State.setTask_net (t : Nat) (k : Task) : (s.setTask t k).net = s.net := rfl
@[simp] theorem State.setTask_ntk (t : Nat) (k : Task) : (s.setTask t k).ntk = s.ntk := rfl
@[simp] theorem State.setTask_dma (t : Nat) (k : Task) : (s.setTask t k).dma = s.dma := rfl
@[simp] theorem State.setTask_memory (t : Nat) (k : Task) : (s.setTask t k).memory = s.memory := rfl
@[simp] theorem State.setTask_pwr (t : Nat) (k : Task) : (s.setTask t k).pwr = s.pwr := rfl
@[simp] theorem State.setTask_pipe (t : Nat) (k : Task) : (s.setTask t k).pipe = s.pipe := rfl
@[simp] theorem State.setTask_boundary (t : Nat) (k : Task) : (s.setTask t k).boundary = s.boundary := rfl
@[simp] theorem State.setTask_tail (t : Nat) (k : Task) : (s.setTask t k).tail = s.tail := rfl
@[simp] theorem State.setTask_samples (t : Nat) (k : Task) : (s.setTask t k).samples = s.samples := rfl
@[simp] theorem State.setTask_free (t : Nat) (k : Task) : (s.setTask t k).free = s.free := rfl

/-! ### setDch -/

@[simp] theorem State.setDch_pending (c : Nat) (k : DmaChan) : (s.setDch c k).pending = s.pending := rfl
@[simp] theorem State.setDch_regs (c : Nat) (k : DmaChan) : (s.setDch c k).regs = s.regs := rfl
@[simp] theorem State.setDch_rlatch (c : Nat) (k : DmaChan) : (s.setDch c k).rlatch = s.rlatch := rfl
@[simp] theorem State.setDch_wlatch (c : Nat) (k : DmaChan) : (s.setDch c k).wlatch = s.wlatch := rfl
@[simp] theorem State.setDch_host (c : Nat) (k : DmaChan) : (s.setDch c k).host = s.host := rfl
@[simp] theorem State.setDch_led (c : Nat) (k : DmaChan) : (s.setDch c k).led = s.led := rfl
@[simp] theorem State.setDch_timed (c : Nat) (k : DmaChan) : (s.setDch c k).timed = s.timed := rfl
@[simp] theorem State.setDch_clock (c : Nat) (k : DmaChan) : (s.setDch c k).clock = s.clock := rfl
@[simp] theorem State.setDch_bells (c : Nat) (k : DmaChan) : (s.setDch c k).bells = s.bells := rfl
@[simp] theorem State.setDch_cues (c : Nat) (k : DmaChan) : (s.setDch c k).cues = s.cues := rfl
@[simp] theorem State.setDch_epochs (c : Nat) (k : DmaChan) : (s.setDch c k).epochs = s.epochs := rfl
@[simp] theorem State.setDch_finals (c : Nat) (k : DmaChan) : (s.setDch c k).finals = s.finals := rfl
@[simp] theorem State.setDch_epochSeq (c : Nat) (k : DmaChan) : (s.setDch c k).epochSeq = s.epochSeq := rfl
@[simp] theorem State.setDch_sched (c : Nat) (k : DmaChan) : (s.setDch c k).sched = s.sched := rfl
@[simp] theorem State.setDch_shelves (c : Nat) (k : DmaChan) : (s.setDch c k).shelves = s.shelves := rfl
@[simp] theorem State.setDch_active (c : Nat) (k : DmaChan) : (s.setDch c k).active = s.active := rfl
@[simp] theorem State.setDch_xfades (c : Nat) (k : DmaChan) : (s.setDch c k).xfades = s.xfades := rfl
@[simp] theorem State.setDch_dram (c : Nat) (k : DmaChan) : (s.setDch c k).dram = s.dram := rfl
@[simp] theorem State.setDch_lockers (c : Nat) (k : DmaChan) : (s.setDch c k).lockers = s.lockers := rfl
@[simp] theorem State.setDch_capture (c : Nat) (k : DmaChan) : (s.setDch c k).capture = s.capture := rfl
@[simp] theorem State.setDch_replay (c : Nat) (k : DmaChan) : (s.setDch c k).replay = s.replay := rfl
@[simp] theorem State.setDch_geo (c : Nat) (k : DmaChan) : (s.setDch c k).geo = s.geo := rfl
@[simp] theorem State.setDch_path (c : Nat) (k : DmaChan) : (s.setDch c k).path = s.path := rfl
@[simp] theorem State.setDch_matrix (c : Nat) (k : DmaChan) : (s.setDch c k).matrix = s.matrix := rfl
@[simp] theorem State.setDch_auxs (c : Nat) (k : DmaChan) : (s.setDch c k).auxs = s.auxs := rfl
@[simp] theorem State.setDch_feeds (c : Nat) (k : DmaChan) : (s.setDch c k).feeds = s.feeds := rfl
@[simp] theorem State.setDch_stage (c : Nat) (k : DmaChan) : (s.setDch c k).stage = s.stage := rfl
@[simp] theorem State.setDch_firUsed (c : Nat) (k : DmaChan) : (s.setDch c k).firUsed = s.firUsed := rfl
@[simp] theorem State.setDch_routes (c : Nat) (k : DmaChan) : (s.setDch c k).routes = s.routes := rfl
@[simp] theorem State.setDch_ovr (c : Nat) (k : DmaChan) : (s.setDch c k).ovr = s.ovr := rfl
@[simp] theorem State.setDch_corr (c : Nat) (k : DmaChan) : (s.setDch c k).corr = s.corr := rfl
@[simp] theorem State.setDch_sdac (c : Nat) (k : DmaChan) : (s.setDch c k).sdac = s.sdac := rfl
@[simp] theorem State.setDch_sdacWait (c : Nat) (k : DmaChan) : (s.setDch c k).sdacWait = s.sdacWait := rfl
@[simp] theorem State.setDch_desks (c : Nat) (k : DmaChan) : (s.setDch c k).desks = s.desks := rfl
@[simp] theorem State.setDch_tasks (c : Nat) (k : DmaChan) : (s.setDch c k).tasks = s.tasks := rfl
@[simp] theorem State.setDch_groups (c : Nat) (k : DmaChan) : (s.setDch c k).groups = s.groups := rfl
@[simp] theorem State.setDch_ports (c : Nat) (k : DmaChan) : (s.setDch c k).ports = s.ports := rfl
@[simp] theorem State.setDch_net (c : Nat) (k : DmaChan) : (s.setDch c k).net = s.net := rfl
@[simp] theorem State.setDch_ntk (c : Nat) (k : DmaChan) : (s.setDch c k).ntk = s.ntk := rfl
@[simp] theorem State.setDch_memory (c : Nat) (k : DmaChan) : (s.setDch c k).memory = s.memory := rfl
@[simp] theorem State.setDch_pwr (c : Nat) (k : DmaChan) : (s.setDch c k).pwr = s.pwr := rfl
@[simp] theorem State.setDch_pipe (c : Nat) (k : DmaChan) : (s.setDch c k).pipe = s.pipe := rfl
@[simp] theorem State.setDch_boundary (c : Nat) (k : DmaChan) : (s.setDch c k).boundary = s.boundary := rfl
@[simp] theorem State.setDch_tail (c : Nat) (k : DmaChan) : (s.setDch c k).tail = s.tail := rfl
@[simp] theorem State.setDch_samples (c : Nat) (k : DmaChan) : (s.setDch c k).samples = s.samples := rfl
@[simp] theorem State.setDch_free (c : Nat) (k : DmaChan) : (s.setDch c k).free = s.free := rfl

/-! ### setChain -/

@[simp] theorem State.setChain_pending (c : ChainSt) : (s.setChain c).pending = s.pending := rfl
@[simp] theorem State.setChain_regs (c : ChainSt) : (s.setChain c).regs = s.regs := rfl
@[simp] theorem State.setChain_rlatch (c : ChainSt) : (s.setChain c).rlatch = s.rlatch := rfl
@[simp] theorem State.setChain_wlatch (c : ChainSt) : (s.setChain c).wlatch = s.wlatch := rfl
@[simp] theorem State.setChain_host (c : ChainSt) : (s.setChain c).host = s.host := rfl
@[simp] theorem State.setChain_led (c : ChainSt) : (s.setChain c).led = s.led := rfl
@[simp] theorem State.setChain_timed (c : ChainSt) : (s.setChain c).timed = s.timed := rfl
@[simp] theorem State.setChain_clock (c : ChainSt) : (s.setChain c).clock = s.clock := rfl
@[simp] theorem State.setChain_bells (c : ChainSt) : (s.setChain c).bells = s.bells := rfl
@[simp] theorem State.setChain_cues (c : ChainSt) : (s.setChain c).cues = s.cues := rfl
@[simp] theorem State.setChain_epochs (c : ChainSt) : (s.setChain c).epochs = s.epochs := rfl
@[simp] theorem State.setChain_finals (c : ChainSt) : (s.setChain c).finals = s.finals := rfl
@[simp] theorem State.setChain_epochSeq (c : ChainSt) : (s.setChain c).epochSeq = s.epochSeq := rfl
@[simp] theorem State.setChain_sched (c : ChainSt) : (s.setChain c).sched = s.sched := rfl
@[simp] theorem State.setChain_shelves (c : ChainSt) : (s.setChain c).shelves = s.shelves := rfl
@[simp] theorem State.setChain_active (c : ChainSt) : (s.setChain c).active = s.active := rfl
@[simp] theorem State.setChain_xfades (c : ChainSt) : (s.setChain c).xfades = s.xfades := rfl
@[simp] theorem State.setChain_dram (c : ChainSt) : (s.setChain c).dram = s.dram := rfl
@[simp] theorem State.setChain_lockers (c : ChainSt) : (s.setChain c).lockers = s.lockers := rfl
@[simp] theorem State.setChain_capture (c : ChainSt) : (s.setChain c).capture = s.capture := rfl
@[simp] theorem State.setChain_replay (c : ChainSt) : (s.setChain c).replay = s.replay := rfl
@[simp] theorem State.setChain_geo (c : ChainSt) : (s.setChain c).geo = s.geo := rfl
@[simp] theorem State.setChain_path (c : ChainSt) : (s.setChain c).path = s.path := rfl
@[simp] theorem State.setChain_matrix (c : ChainSt) : (s.setChain c).matrix = s.matrix := rfl
@[simp] theorem State.setChain_auxs (c : ChainSt) : (s.setChain c).auxs = s.auxs := rfl
@[simp] theorem State.setChain_feeds (c : ChainSt) : (s.setChain c).feeds = s.feeds := rfl
@[simp] theorem State.setChain_stage (c : ChainSt) : (s.setChain c).stage = s.stage := rfl
@[simp] theorem State.setChain_firUsed (c : ChainSt) : (s.setChain c).firUsed = s.firUsed := rfl
@[simp] theorem State.setChain_routes (c : ChainSt) : (s.setChain c).routes = s.routes := rfl
@[simp] theorem State.setChain_ovr (c : ChainSt) : (s.setChain c).ovr = s.ovr := rfl
@[simp] theorem State.setChain_corr (c : ChainSt) : (s.setChain c).corr = s.corr := rfl
@[simp] theorem State.setChain_sdac (c : ChainSt) : (s.setChain c).sdac = s.sdac := rfl
@[simp] theorem State.setChain_sdacWait (c : ChainSt) : (s.setChain c).sdacWait = s.sdacWait := rfl
@[simp] theorem State.setChain_desks (c : ChainSt) : (s.setChain c).desks = s.desks := rfl
@[simp] theorem State.setChain_tasks (c : ChainSt) : (s.setChain c).tasks = s.tasks := rfl
@[simp] theorem State.setChain_groups (c : ChainSt) : (s.setChain c).groups = s.groups := rfl
@[simp] theorem State.setChain_ports (c : ChainSt) : (s.setChain c).ports = s.ports := rfl
@[simp] theorem State.setChain_net (c : ChainSt) : (s.setChain c).net = s.net := rfl
@[simp] theorem State.setChain_dma (c : ChainSt) : (s.setChain c).dma = s.dma := rfl
@[simp] theorem State.setChain_memory (c : ChainSt) : (s.setChain c).memory = s.memory := rfl
@[simp] theorem State.setChain_pwr (c : ChainSt) : (s.setChain c).pwr = s.pwr := rfl
@[simp] theorem State.setChain_pipe (c : ChainSt) : (s.setChain c).pipe = s.pipe := rfl
@[simp] theorem State.setChain_boundary (c : ChainSt) : (s.setChain c).boundary = s.boundary := rfl
@[simp] theorem State.setChain_tail (c : ChainSt) : (s.setChain c).tail = s.tail := rfl
@[simp] theorem State.setChain_samples (c : ChainSt) : (s.setChain c).samples = s.samples := rfl
@[simp] theorem State.setChain_free (c : ChainSt) : (s.setChain c).free = s.free := rfl

/-! ### setNtkPort -/

@[simp] theorem State.setNtkPort_pending (n : Nat) (p : NtkPort) : (s.setNtkPort n p).pending = s.pending := rfl
@[simp] theorem State.setNtkPort_regs (n : Nat) (p : NtkPort) : (s.setNtkPort n p).regs = s.regs := rfl
@[simp] theorem State.setNtkPort_rlatch (n : Nat) (p : NtkPort) : (s.setNtkPort n p).rlatch = s.rlatch := rfl
@[simp] theorem State.setNtkPort_wlatch (n : Nat) (p : NtkPort) : (s.setNtkPort n p).wlatch = s.wlatch := rfl
@[simp] theorem State.setNtkPort_host (n : Nat) (p : NtkPort) : (s.setNtkPort n p).host = s.host := rfl
@[simp] theorem State.setNtkPort_led (n : Nat) (p : NtkPort) : (s.setNtkPort n p).led = s.led := rfl
@[simp] theorem State.setNtkPort_timed (n : Nat) (p : NtkPort) : (s.setNtkPort n p).timed = s.timed := rfl
@[simp] theorem State.setNtkPort_clock (n : Nat) (p : NtkPort) : (s.setNtkPort n p).clock = s.clock := rfl
@[simp] theorem State.setNtkPort_bells (n : Nat) (p : NtkPort) : (s.setNtkPort n p).bells = s.bells := rfl
@[simp] theorem State.setNtkPort_cues (n : Nat) (p : NtkPort) : (s.setNtkPort n p).cues = s.cues := rfl
@[simp] theorem State.setNtkPort_epochs (n : Nat) (p : NtkPort) : (s.setNtkPort n p).epochs = s.epochs := rfl
@[simp] theorem State.setNtkPort_finals (n : Nat) (p : NtkPort) : (s.setNtkPort n p).finals = s.finals := rfl
@[simp] theorem State.setNtkPort_epochSeq (n : Nat) (p : NtkPort) : (s.setNtkPort n p).epochSeq = s.epochSeq := rfl
@[simp] theorem State.setNtkPort_sched (n : Nat) (p : NtkPort) : (s.setNtkPort n p).sched = s.sched := rfl
@[simp] theorem State.setNtkPort_shelves (n : Nat) (p : NtkPort) : (s.setNtkPort n p).shelves = s.shelves := rfl
@[simp] theorem State.setNtkPort_active (n : Nat) (p : NtkPort) : (s.setNtkPort n p).active = s.active := rfl
@[simp] theorem State.setNtkPort_xfades (n : Nat) (p : NtkPort) : (s.setNtkPort n p).xfades = s.xfades := rfl
@[simp] theorem State.setNtkPort_dram (n : Nat) (p : NtkPort) : (s.setNtkPort n p).dram = s.dram := rfl
@[simp] theorem State.setNtkPort_lockers (n : Nat) (p : NtkPort) : (s.setNtkPort n p).lockers = s.lockers := rfl
@[simp] theorem State.setNtkPort_capture (n : Nat) (p : NtkPort) : (s.setNtkPort n p).capture = s.capture := rfl
@[simp] theorem State.setNtkPort_replay (n : Nat) (p : NtkPort) : (s.setNtkPort n p).replay = s.replay := rfl
@[simp] theorem State.setNtkPort_geo (n : Nat) (p : NtkPort) : (s.setNtkPort n p).geo = s.geo := rfl
@[simp] theorem State.setNtkPort_path (n : Nat) (p : NtkPort) : (s.setNtkPort n p).path = s.path := rfl
@[simp] theorem State.setNtkPort_matrix (n : Nat) (p : NtkPort) : (s.setNtkPort n p).matrix = s.matrix := rfl
@[simp] theorem State.setNtkPort_auxs (n : Nat) (p : NtkPort) : (s.setNtkPort n p).auxs = s.auxs := rfl
@[simp] theorem State.setNtkPort_feeds (n : Nat) (p : NtkPort) : (s.setNtkPort n p).feeds = s.feeds := rfl
@[simp] theorem State.setNtkPort_stage (n : Nat) (p : NtkPort) : (s.setNtkPort n p).stage = s.stage := rfl
@[simp] theorem State.setNtkPort_firUsed (n : Nat) (p : NtkPort) : (s.setNtkPort n p).firUsed = s.firUsed := rfl
@[simp] theorem State.setNtkPort_routes (n : Nat) (p : NtkPort) : (s.setNtkPort n p).routes = s.routes := rfl
@[simp] theorem State.setNtkPort_ovr (n : Nat) (p : NtkPort) : (s.setNtkPort n p).ovr = s.ovr := rfl
@[simp] theorem State.setNtkPort_corr (n : Nat) (p : NtkPort) : (s.setNtkPort n p).corr = s.corr := rfl
@[simp] theorem State.setNtkPort_sdac (n : Nat) (p : NtkPort) : (s.setNtkPort n p).sdac = s.sdac := rfl
@[simp] theorem State.setNtkPort_sdacWait (n : Nat) (p : NtkPort) : (s.setNtkPort n p).sdacWait = s.sdacWait := rfl
@[simp] theorem State.setNtkPort_desks (n : Nat) (p : NtkPort) : (s.setNtkPort n p).desks = s.desks := rfl
@[simp] theorem State.setNtkPort_tasks (n : Nat) (p : NtkPort) : (s.setNtkPort n p).tasks = s.tasks := rfl
@[simp] theorem State.setNtkPort_groups (n : Nat) (p : NtkPort) : (s.setNtkPort n p).groups = s.groups := rfl
@[simp] theorem State.setNtkPort_ports (n : Nat) (p : NtkPort) : (s.setNtkPort n p).ports = s.ports := rfl
@[simp] theorem State.setNtkPort_net (n : Nat) (p : NtkPort) : (s.setNtkPort n p).net = s.net := rfl
@[simp] theorem State.setNtkPort_dma (n : Nat) (p : NtkPort) : (s.setNtkPort n p).dma = s.dma := rfl
@[simp] theorem State.setNtkPort_memory (n : Nat) (p : NtkPort) : (s.setNtkPort n p).memory = s.memory := rfl
@[simp] theorem State.setNtkPort_pwr (n : Nat) (p : NtkPort) : (s.setNtkPort n p).pwr = s.pwr := rfl
@[simp] theorem State.setNtkPort_pipe (n : Nat) (p : NtkPort) : (s.setNtkPort n p).pipe = s.pipe := rfl
@[simp] theorem State.setNtkPort_boundary (n : Nat) (p : NtkPort) : (s.setNtkPort n p).boundary = s.boundary := rfl
@[simp] theorem State.setNtkPort_tail (n : Nat) (p : NtkPort) : (s.setNtkPort n p).tail = s.tail := rfl
@[simp] theorem State.setNtkPort_samples (n : Nat) (p : NtkPort) : (s.setNtkPort n p).samples = s.samples := rfl
@[simp] theorem State.setNtkPort_free (n : Nat) (p : NtkPort) : (s.setNtkPort n p).free = s.free := rfl

/-! ### setTb -/

@[simp] theorem State.setTb_pending (n : Nat) (t : TimeBase) : (s.setTb n t).pending = s.pending := rfl
@[simp] theorem State.setTb_regs (n : Nat) (t : TimeBase) : (s.setTb n t).regs = s.regs := rfl
@[simp] theorem State.setTb_rlatch (n : Nat) (t : TimeBase) : (s.setTb n t).rlatch = s.rlatch := rfl
@[simp] theorem State.setTb_wlatch (n : Nat) (t : TimeBase) : (s.setTb n t).wlatch = s.wlatch := rfl
@[simp] theorem State.setTb_host (n : Nat) (t : TimeBase) : (s.setTb n t).host = s.host := rfl
@[simp] theorem State.setTb_led (n : Nat) (t : TimeBase) : (s.setTb n t).led = s.led := rfl
@[simp] theorem State.setTb_timed (n : Nat) (t : TimeBase) : (s.setTb n t).timed = s.timed := rfl
@[simp] theorem State.setTb_bells (n : Nat) (t : TimeBase) : (s.setTb n t).bells = s.bells := rfl
@[simp] theorem State.setTb_cues (n : Nat) (t : TimeBase) : (s.setTb n t).cues = s.cues := rfl
@[simp] theorem State.setTb_epochs (n : Nat) (t : TimeBase) : (s.setTb n t).epochs = s.epochs := rfl
@[simp] theorem State.setTb_finals (n : Nat) (t : TimeBase) : (s.setTb n t).finals = s.finals := rfl
@[simp] theorem State.setTb_epochSeq (n : Nat) (t : TimeBase) : (s.setTb n t).epochSeq = s.epochSeq := rfl
@[simp] theorem State.setTb_sched (n : Nat) (t : TimeBase) : (s.setTb n t).sched = s.sched := rfl
@[simp] theorem State.setTb_shelves (n : Nat) (t : TimeBase) : (s.setTb n t).shelves = s.shelves := rfl
@[simp] theorem State.setTb_active (n : Nat) (t : TimeBase) : (s.setTb n t).active = s.active := rfl
@[simp] theorem State.setTb_xfades (n : Nat) (t : TimeBase) : (s.setTb n t).xfades = s.xfades := rfl
@[simp] theorem State.setTb_dram (n : Nat) (t : TimeBase) : (s.setTb n t).dram = s.dram := rfl
@[simp] theorem State.setTb_lockers (n : Nat) (t : TimeBase) : (s.setTb n t).lockers = s.lockers := rfl
@[simp] theorem State.setTb_capture (n : Nat) (t : TimeBase) : (s.setTb n t).capture = s.capture := rfl
@[simp] theorem State.setTb_replay (n : Nat) (t : TimeBase) : (s.setTb n t).replay = s.replay := rfl
@[simp] theorem State.setTb_geo (n : Nat) (t : TimeBase) : (s.setTb n t).geo = s.geo := rfl
@[simp] theorem State.setTb_path (n : Nat) (t : TimeBase) : (s.setTb n t).path = s.path := rfl
@[simp] theorem State.setTb_matrix (n : Nat) (t : TimeBase) : (s.setTb n t).matrix = s.matrix := rfl
@[simp] theorem State.setTb_auxs (n : Nat) (t : TimeBase) : (s.setTb n t).auxs = s.auxs := rfl
@[simp] theorem State.setTb_feeds (n : Nat) (t : TimeBase) : (s.setTb n t).feeds = s.feeds := rfl
@[simp] theorem State.setTb_stage (n : Nat) (t : TimeBase) : (s.setTb n t).stage = s.stage := rfl
@[simp] theorem State.setTb_firUsed (n : Nat) (t : TimeBase) : (s.setTb n t).firUsed = s.firUsed := rfl
@[simp] theorem State.setTb_routes (n : Nat) (t : TimeBase) : (s.setTb n t).routes = s.routes := rfl
@[simp] theorem State.setTb_ovr (n : Nat) (t : TimeBase) : (s.setTb n t).ovr = s.ovr := rfl
@[simp] theorem State.setTb_corr (n : Nat) (t : TimeBase) : (s.setTb n t).corr = s.corr := rfl
@[simp] theorem State.setTb_sdac (n : Nat) (t : TimeBase) : (s.setTb n t).sdac = s.sdac := rfl
@[simp] theorem State.setTb_sdacWait (n : Nat) (t : TimeBase) : (s.setTb n t).sdacWait = s.sdacWait := rfl
@[simp] theorem State.setTb_desks (n : Nat) (t : TimeBase) : (s.setTb n t).desks = s.desks := rfl
@[simp] theorem State.setTb_tasks (n : Nat) (t : TimeBase) : (s.setTb n t).tasks = s.tasks := rfl
@[simp] theorem State.setTb_groups (n : Nat) (t : TimeBase) : (s.setTb n t).groups = s.groups := rfl
@[simp] theorem State.setTb_ports (n : Nat) (t : TimeBase) : (s.setTb n t).ports = s.ports := rfl
@[simp] theorem State.setTb_net (n : Nat) (t : TimeBase) : (s.setTb n t).net = s.net := rfl
@[simp] theorem State.setTb_ntk (n : Nat) (t : TimeBase) : (s.setTb n t).ntk = s.ntk := rfl
@[simp] theorem State.setTb_dma (n : Nat) (t : TimeBase) : (s.setTb n t).dma = s.dma := rfl
@[simp] theorem State.setTb_memory (n : Nat) (t : TimeBase) : (s.setTb n t).memory = s.memory := rfl
@[simp] theorem State.setTb_pwr (n : Nat) (t : TimeBase) : (s.setTb n t).pwr = s.pwr := rfl
@[simp] theorem State.setTb_pipe (n : Nat) (t : TimeBase) : (s.setTb n t).pipe = s.pipe := rfl
@[simp] theorem State.setTb_boundary (n : Nat) (t : TimeBase) : (s.setTb n t).boundary = s.boundary := rfl
@[simp] theorem State.setTb_tail (n : Nat) (t : TimeBase) : (s.setTb n t).tail = s.tail := rfl
@[simp] theorem State.setTb_samples (n : Nat) (t : TimeBase) : (s.setTb n t).samples = s.samples := rfl
@[simp] theorem State.setTb_free (n : Nat) (t : TimeBase) : (s.setTb n t).free = s.free := rfl

/-! ### setMedia -/

@[simp] theorem State.setMedia_pending (m : MediaClock) : (s.setMedia m).pending = s.pending := rfl
@[simp] theorem State.setMedia_regs (m : MediaClock) : (s.setMedia m).regs = s.regs := rfl
@[simp] theorem State.setMedia_rlatch (m : MediaClock) : (s.setMedia m).rlatch = s.rlatch := rfl
@[simp] theorem State.setMedia_wlatch (m : MediaClock) : (s.setMedia m).wlatch = s.wlatch := rfl
@[simp] theorem State.setMedia_host (m : MediaClock) : (s.setMedia m).host = s.host := rfl
@[simp] theorem State.setMedia_led (m : MediaClock) : (s.setMedia m).led = s.led := rfl
@[simp] theorem State.setMedia_timed (m : MediaClock) : (s.setMedia m).timed = s.timed := rfl
@[simp] theorem State.setMedia_bells (m : MediaClock) : (s.setMedia m).bells = s.bells := rfl
@[simp] theorem State.setMedia_cues (m : MediaClock) : (s.setMedia m).cues = s.cues := rfl
@[simp] theorem State.setMedia_epochs (m : MediaClock) : (s.setMedia m).epochs = s.epochs := rfl
@[simp] theorem State.setMedia_finals (m : MediaClock) : (s.setMedia m).finals = s.finals := rfl
@[simp] theorem State.setMedia_epochSeq (m : MediaClock) : (s.setMedia m).epochSeq = s.epochSeq := rfl
@[simp] theorem State.setMedia_sched (m : MediaClock) : (s.setMedia m).sched = s.sched := rfl
@[simp] theorem State.setMedia_shelves (m : MediaClock) : (s.setMedia m).shelves = s.shelves := rfl
@[simp] theorem State.setMedia_active (m : MediaClock) : (s.setMedia m).active = s.active := rfl
@[simp] theorem State.setMedia_xfades (m : MediaClock) : (s.setMedia m).xfades = s.xfades := rfl
@[simp] theorem State.setMedia_dram (m : MediaClock) : (s.setMedia m).dram = s.dram := rfl
@[simp] theorem State.setMedia_lockers (m : MediaClock) : (s.setMedia m).lockers = s.lockers := rfl
@[simp] theorem State.setMedia_capture (m : MediaClock) : (s.setMedia m).capture = s.capture := rfl
@[simp] theorem State.setMedia_replay (m : MediaClock) : (s.setMedia m).replay = s.replay := rfl
@[simp] theorem State.setMedia_geo (m : MediaClock) : (s.setMedia m).geo = s.geo := rfl
@[simp] theorem State.setMedia_path (m : MediaClock) : (s.setMedia m).path = s.path := rfl
@[simp] theorem State.setMedia_matrix (m : MediaClock) : (s.setMedia m).matrix = s.matrix := rfl
@[simp] theorem State.setMedia_auxs (m : MediaClock) : (s.setMedia m).auxs = s.auxs := rfl
@[simp] theorem State.setMedia_feeds (m : MediaClock) : (s.setMedia m).feeds = s.feeds := rfl
@[simp] theorem State.setMedia_stage (m : MediaClock) : (s.setMedia m).stage = s.stage := rfl
@[simp] theorem State.setMedia_firUsed (m : MediaClock) : (s.setMedia m).firUsed = s.firUsed := rfl
@[simp] theorem State.setMedia_routes (m : MediaClock) : (s.setMedia m).routes = s.routes := rfl
@[simp] theorem State.setMedia_ovr (m : MediaClock) : (s.setMedia m).ovr = s.ovr := rfl
@[simp] theorem State.setMedia_corr (m : MediaClock) : (s.setMedia m).corr = s.corr := rfl
@[simp] theorem State.setMedia_sdac (m : MediaClock) : (s.setMedia m).sdac = s.sdac := rfl
@[simp] theorem State.setMedia_sdacWait (m : MediaClock) : (s.setMedia m).sdacWait = s.sdacWait := rfl
@[simp] theorem State.setMedia_desks (m : MediaClock) : (s.setMedia m).desks = s.desks := rfl
@[simp] theorem State.setMedia_tasks (m : MediaClock) : (s.setMedia m).tasks = s.tasks := rfl
@[simp] theorem State.setMedia_groups (m : MediaClock) : (s.setMedia m).groups = s.groups := rfl
@[simp] theorem State.setMedia_ports (m : MediaClock) : (s.setMedia m).ports = s.ports := rfl
@[simp] theorem State.setMedia_net (m : MediaClock) : (s.setMedia m).net = s.net := rfl
@[simp] theorem State.setMedia_ntk (m : MediaClock) : (s.setMedia m).ntk = s.ntk := rfl
@[simp] theorem State.setMedia_dma (m : MediaClock) : (s.setMedia m).dma = s.dma := rfl
@[simp] theorem State.setMedia_memory (m : MediaClock) : (s.setMedia m).memory = s.memory := rfl
@[simp] theorem State.setMedia_pwr (m : MediaClock) : (s.setMedia m).pwr = s.pwr := rfl
@[simp] theorem State.setMedia_pipe (m : MediaClock) : (s.setMedia m).pipe = s.pipe := rfl
@[simp] theorem State.setMedia_boundary (m : MediaClock) : (s.setMedia m).boundary = s.boundary := rfl
@[simp] theorem State.setMedia_tail (m : MediaClock) : (s.setMedia m).tail = s.tail := rfl
@[simp] theorem State.setMedia_samples (m : MediaClock) : (s.setMedia m).samples = s.samples := rfl
@[simp] theorem State.setMedia_free (m : MediaClock) : (s.setMedia m).free = s.free := rfl

/-! ### setEpoch -/

@[simp] theorem State.setEpoch_pending (e : Epoch) : (s.setEpoch e).pending = s.pending := rfl
@[simp] theorem State.setEpoch_regs (e : Epoch) : (s.setEpoch e).regs = s.regs := rfl
@[simp] theorem State.setEpoch_rlatch (e : Epoch) : (s.setEpoch e).rlatch = s.rlatch := rfl
@[simp] theorem State.setEpoch_wlatch (e : Epoch) : (s.setEpoch e).wlatch = s.wlatch := rfl
@[simp] theorem State.setEpoch_host (e : Epoch) : (s.setEpoch e).host = s.host := rfl
@[simp] theorem State.setEpoch_led (e : Epoch) : (s.setEpoch e).led = s.led := rfl
@[simp] theorem State.setEpoch_timed (e : Epoch) : (s.setEpoch e).timed = s.timed := rfl
@[simp] theorem State.setEpoch_clock (e : Epoch) : (s.setEpoch e).clock = s.clock := rfl
@[simp] theorem State.setEpoch_bells (e : Epoch) : (s.setEpoch e).bells = s.bells := rfl
@[simp] theorem State.setEpoch_cues (e : Epoch) : (s.setEpoch e).cues = s.cues := rfl
@[simp] theorem State.setEpoch_finals (e : Epoch) : (s.setEpoch e).finals = s.finals := rfl
@[simp] theorem State.setEpoch_epochSeq (e : Epoch) : (s.setEpoch e).epochSeq = s.epochSeq := rfl
@[simp] theorem State.setEpoch_sched (e : Epoch) : (s.setEpoch e).sched = s.sched := rfl
@[simp] theorem State.setEpoch_shelves (e : Epoch) : (s.setEpoch e).shelves = s.shelves := rfl
@[simp] theorem State.setEpoch_active (e : Epoch) : (s.setEpoch e).active = s.active := rfl
@[simp] theorem State.setEpoch_xfades (e : Epoch) : (s.setEpoch e).xfades = s.xfades := rfl
@[simp] theorem State.setEpoch_dram (e : Epoch) : (s.setEpoch e).dram = s.dram := rfl
@[simp] theorem State.setEpoch_lockers (e : Epoch) : (s.setEpoch e).lockers = s.lockers := rfl
@[simp] theorem State.setEpoch_capture (e : Epoch) : (s.setEpoch e).capture = s.capture := rfl
@[simp] theorem State.setEpoch_replay (e : Epoch) : (s.setEpoch e).replay = s.replay := rfl
@[simp] theorem State.setEpoch_geo (e : Epoch) : (s.setEpoch e).geo = s.geo := rfl
@[simp] theorem State.setEpoch_path (e : Epoch) : (s.setEpoch e).path = s.path := rfl
@[simp] theorem State.setEpoch_matrix (e : Epoch) : (s.setEpoch e).matrix = s.matrix := rfl
@[simp] theorem State.setEpoch_auxs (e : Epoch) : (s.setEpoch e).auxs = s.auxs := rfl
@[simp] theorem State.setEpoch_feeds (e : Epoch) : (s.setEpoch e).feeds = s.feeds := rfl
@[simp] theorem State.setEpoch_stage (e : Epoch) : (s.setEpoch e).stage = s.stage := rfl
@[simp] theorem State.setEpoch_firUsed (e : Epoch) : (s.setEpoch e).firUsed = s.firUsed := rfl
@[simp] theorem State.setEpoch_routes (e : Epoch) : (s.setEpoch e).routes = s.routes := rfl
@[simp] theorem State.setEpoch_ovr (e : Epoch) : (s.setEpoch e).ovr = s.ovr := rfl
@[simp] theorem State.setEpoch_corr (e : Epoch) : (s.setEpoch e).corr = s.corr := rfl
@[simp] theorem State.setEpoch_sdac (e : Epoch) : (s.setEpoch e).sdac = s.sdac := rfl
@[simp] theorem State.setEpoch_sdacWait (e : Epoch) : (s.setEpoch e).sdacWait = s.sdacWait := rfl
@[simp] theorem State.setEpoch_desks (e : Epoch) : (s.setEpoch e).desks = s.desks := rfl
@[simp] theorem State.setEpoch_tasks (e : Epoch) : (s.setEpoch e).tasks = s.tasks := rfl
@[simp] theorem State.setEpoch_groups (e : Epoch) : (s.setEpoch e).groups = s.groups := rfl
@[simp] theorem State.setEpoch_ports (e : Epoch) : (s.setEpoch e).ports = s.ports := rfl
@[simp] theorem State.setEpoch_net (e : Epoch) : (s.setEpoch e).net = s.net := rfl
@[simp] theorem State.setEpoch_ntk (e : Epoch) : (s.setEpoch e).ntk = s.ntk := rfl
@[simp] theorem State.setEpoch_dma (e : Epoch) : (s.setEpoch e).dma = s.dma := rfl
@[simp] theorem State.setEpoch_memory (e : Epoch) : (s.setEpoch e).memory = s.memory := rfl
@[simp] theorem State.setEpoch_pwr (e : Epoch) : (s.setEpoch e).pwr = s.pwr := rfl
@[simp] theorem State.setEpoch_pipe (e : Epoch) : (s.setEpoch e).pipe = s.pipe := rfl
@[simp] theorem State.setEpoch_boundary (e : Epoch) : (s.setEpoch e).boundary = s.boundary := rfl
@[simp] theorem State.setEpoch_tail (e : Epoch) : (s.setEpoch e).tail = s.tail := rfl
@[simp] theorem State.setEpoch_samples (e : Epoch) : (s.setEpoch e).samples = s.samples := rfl
@[simp] theorem State.setEpoch_free (e : Epoch) : (s.setEpoch e).free = s.free := rfl

/-! ### setSlot -/

@[simp] theorem State.setSlot_pending (k : Nat) (v : ShelfSlot) : (s.setSlot k v).pending = s.pending := rfl
@[simp] theorem State.setSlot_regs (k : Nat) (v : ShelfSlot) : (s.setSlot k v).regs = s.regs := rfl
@[simp] theorem State.setSlot_rlatch (k : Nat) (v : ShelfSlot) : (s.setSlot k v).rlatch = s.rlatch := rfl
@[simp] theorem State.setSlot_wlatch (k : Nat) (v : ShelfSlot) : (s.setSlot k v).wlatch = s.wlatch := rfl
@[simp] theorem State.setSlot_host (k : Nat) (v : ShelfSlot) : (s.setSlot k v).host = s.host := rfl
@[simp] theorem State.setSlot_led (k : Nat) (v : ShelfSlot) : (s.setSlot k v).led = s.led := rfl
@[simp] theorem State.setSlot_timed (k : Nat) (v : ShelfSlot) : (s.setSlot k v).timed = s.timed := rfl
@[simp] theorem State.setSlot_clock (k : Nat) (v : ShelfSlot) : (s.setSlot k v).clock = s.clock := rfl
@[simp] theorem State.setSlot_bells (k : Nat) (v : ShelfSlot) : (s.setSlot k v).bells = s.bells := rfl
@[simp] theorem State.setSlot_cues (k : Nat) (v : ShelfSlot) : (s.setSlot k v).cues = s.cues := rfl
@[simp] theorem State.setSlot_epochs (k : Nat) (v : ShelfSlot) : (s.setSlot k v).epochs = s.epochs := rfl
@[simp] theorem State.setSlot_finals (k : Nat) (v : ShelfSlot) : (s.setSlot k v).finals = s.finals := rfl
@[simp] theorem State.setSlot_epochSeq (k : Nat) (v : ShelfSlot) : (s.setSlot k v).epochSeq = s.epochSeq := rfl
@[simp] theorem State.setSlot_sched (k : Nat) (v : ShelfSlot) : (s.setSlot k v).sched = s.sched := rfl
@[simp] theorem State.setSlot_active (k : Nat) (v : ShelfSlot) : (s.setSlot k v).active = s.active := rfl
@[simp] theorem State.setSlot_xfades (k : Nat) (v : ShelfSlot) : (s.setSlot k v).xfades = s.xfades := rfl
@[simp] theorem State.setSlot_dram (k : Nat) (v : ShelfSlot) : (s.setSlot k v).dram = s.dram := rfl
@[simp] theorem State.setSlot_lockers (k : Nat) (v : ShelfSlot) : (s.setSlot k v).lockers = s.lockers := rfl
@[simp] theorem State.setSlot_capture (k : Nat) (v : ShelfSlot) : (s.setSlot k v).capture = s.capture := rfl
@[simp] theorem State.setSlot_replay (k : Nat) (v : ShelfSlot) : (s.setSlot k v).replay = s.replay := rfl
@[simp] theorem State.setSlot_geo (k : Nat) (v : ShelfSlot) : (s.setSlot k v).geo = s.geo := rfl
@[simp] theorem State.setSlot_path (k : Nat) (v : ShelfSlot) : (s.setSlot k v).path = s.path := rfl
@[simp] theorem State.setSlot_matrix (k : Nat) (v : ShelfSlot) : (s.setSlot k v).matrix = s.matrix := rfl
@[simp] theorem State.setSlot_auxs (k : Nat) (v : ShelfSlot) : (s.setSlot k v).auxs = s.auxs := rfl
@[simp] theorem State.setSlot_feeds (k : Nat) (v : ShelfSlot) : (s.setSlot k v).feeds = s.feeds := rfl
@[simp] theorem State.setSlot_stage (k : Nat) (v : ShelfSlot) : (s.setSlot k v).stage = s.stage := rfl
@[simp] theorem State.setSlot_firUsed (k : Nat) (v : ShelfSlot) : (s.setSlot k v).firUsed = s.firUsed := rfl
@[simp] theorem State.setSlot_routes (k : Nat) (v : ShelfSlot) : (s.setSlot k v).routes = s.routes := rfl
@[simp] theorem State.setSlot_ovr (k : Nat) (v : ShelfSlot) : (s.setSlot k v).ovr = s.ovr := rfl
@[simp] theorem State.setSlot_corr (k : Nat) (v : ShelfSlot) : (s.setSlot k v).corr = s.corr := rfl
@[simp] theorem State.setSlot_sdac (k : Nat) (v : ShelfSlot) : (s.setSlot k v).sdac = s.sdac := rfl
@[simp] theorem State.setSlot_sdacWait (k : Nat) (v : ShelfSlot) : (s.setSlot k v).sdacWait = s.sdacWait := rfl
@[simp] theorem State.setSlot_desks (k : Nat) (v : ShelfSlot) : (s.setSlot k v).desks = s.desks := rfl
@[simp] theorem State.setSlot_tasks (k : Nat) (v : ShelfSlot) : (s.setSlot k v).tasks = s.tasks := rfl
@[simp] theorem State.setSlot_groups (k : Nat) (v : ShelfSlot) : (s.setSlot k v).groups = s.groups := rfl
@[simp] theorem State.setSlot_ports (k : Nat) (v : ShelfSlot) : (s.setSlot k v).ports = s.ports := rfl
@[simp] theorem State.setSlot_net (k : Nat) (v : ShelfSlot) : (s.setSlot k v).net = s.net := rfl
@[simp] theorem State.setSlot_ntk (k : Nat) (v : ShelfSlot) : (s.setSlot k v).ntk = s.ntk := rfl
@[simp] theorem State.setSlot_dma (k : Nat) (v : ShelfSlot) : (s.setSlot k v).dma = s.dma := rfl
@[simp] theorem State.setSlot_memory (k : Nat) (v : ShelfSlot) : (s.setSlot k v).memory = s.memory := rfl
@[simp] theorem State.setSlot_pwr (k : Nat) (v : ShelfSlot) : (s.setSlot k v).pwr = s.pwr := rfl
@[simp] theorem State.setSlot_pipe (k : Nat) (v : ShelfSlot) : (s.setSlot k v).pipe = s.pipe := rfl
@[simp] theorem State.setSlot_boundary (k : Nat) (v : ShelfSlot) : (s.setSlot k v).boundary = s.boundary := rfl
@[simp] theorem State.setSlot_tail (k : Nat) (v : ShelfSlot) : (s.setSlot k v).tail = s.tail := rfl
@[simp] theorem State.setSlot_samples (k : Nat) (v : ShelfSlot) : (s.setSlot k v).samples = s.samples := rfl
@[simp] theorem State.setSlot_free (k : Nat) (v : ShelfSlot) : (s.setSlot k v).free = s.free := rfl

/-! ### setNetPort -/

@[simp] theorem State.setNetPort_pending (n : Nat) (v : NetPort) : (s.setNetPort n v).pending = s.pending := rfl
@[simp] theorem State.setNetPort_regs (n : Nat) (v : NetPort) : (s.setNetPort n v).regs = s.regs := rfl
@[simp] theorem State.setNetPort_rlatch (n : Nat) (v : NetPort) : (s.setNetPort n v).rlatch = s.rlatch := rfl
@[simp] theorem State.setNetPort_wlatch (n : Nat) (v : NetPort) : (s.setNetPort n v).wlatch = s.wlatch := rfl
@[simp] theorem State.setNetPort_host (n : Nat) (v : NetPort) : (s.setNetPort n v).host = s.host := rfl
@[simp] theorem State.setNetPort_led (n : Nat) (v : NetPort) : (s.setNetPort n v).led = s.led := rfl
@[simp] theorem State.setNetPort_timed (n : Nat) (v : NetPort) : (s.setNetPort n v).timed = s.timed := rfl
@[simp] theorem State.setNetPort_clock (n : Nat) (v : NetPort) : (s.setNetPort n v).clock = s.clock := rfl
@[simp] theorem State.setNetPort_bells (n : Nat) (v : NetPort) : (s.setNetPort n v).bells = s.bells := rfl
@[simp] theorem State.setNetPort_cues (n : Nat) (v : NetPort) : (s.setNetPort n v).cues = s.cues := rfl
@[simp] theorem State.setNetPort_epochs (n : Nat) (v : NetPort) : (s.setNetPort n v).epochs = s.epochs := rfl
@[simp] theorem State.setNetPort_finals (n : Nat) (v : NetPort) : (s.setNetPort n v).finals = s.finals := rfl
@[simp] theorem State.setNetPort_epochSeq (n : Nat) (v : NetPort) : (s.setNetPort n v).epochSeq = s.epochSeq := rfl
@[simp] theorem State.setNetPort_sched (n : Nat) (v : NetPort) : (s.setNetPort n v).sched = s.sched := rfl
@[simp] theorem State.setNetPort_shelves (n : Nat) (v : NetPort) : (s.setNetPort n v).shelves = s.shelves := rfl
@[simp] theorem State.setNetPort_active (n : Nat) (v : NetPort) : (s.setNetPort n v).active = s.active := rfl
@[simp] theorem State.setNetPort_xfades (n : Nat) (v : NetPort) : (s.setNetPort n v).xfades = s.xfades := rfl
@[simp] theorem State.setNetPort_dram (n : Nat) (v : NetPort) : (s.setNetPort n v).dram = s.dram := rfl
@[simp] theorem State.setNetPort_lockers (n : Nat) (v : NetPort) : (s.setNetPort n v).lockers = s.lockers := rfl
@[simp] theorem State.setNetPort_capture (n : Nat) (v : NetPort) : (s.setNetPort n v).capture = s.capture := rfl
@[simp] theorem State.setNetPort_replay (n : Nat) (v : NetPort) : (s.setNetPort n v).replay = s.replay := rfl
@[simp] theorem State.setNetPort_geo (n : Nat) (v : NetPort) : (s.setNetPort n v).geo = s.geo := rfl
@[simp] theorem State.setNetPort_path (n : Nat) (v : NetPort) : (s.setNetPort n v).path = s.path := rfl
@[simp] theorem State.setNetPort_matrix (n : Nat) (v : NetPort) : (s.setNetPort n v).matrix = s.matrix := rfl
@[simp] theorem State.setNetPort_auxs (n : Nat) (v : NetPort) : (s.setNetPort n v).auxs = s.auxs := rfl
@[simp] theorem State.setNetPort_feeds (n : Nat) (v : NetPort) : (s.setNetPort n v).feeds = s.feeds := rfl
@[simp] theorem State.setNetPort_stage (n : Nat) (v : NetPort) : (s.setNetPort n v).stage = s.stage := rfl
@[simp] theorem State.setNetPort_firUsed (n : Nat) (v : NetPort) : (s.setNetPort n v).firUsed = s.firUsed := rfl
@[simp] theorem State.setNetPort_routes (n : Nat) (v : NetPort) : (s.setNetPort n v).routes = s.routes := rfl
@[simp] theorem State.setNetPort_ovr (n : Nat) (v : NetPort) : (s.setNetPort n v).ovr = s.ovr := rfl
@[simp] theorem State.setNetPort_corr (n : Nat) (v : NetPort) : (s.setNetPort n v).corr = s.corr := rfl
@[simp] theorem State.setNetPort_sdac (n : Nat) (v : NetPort) : (s.setNetPort n v).sdac = s.sdac := rfl
@[simp] theorem State.setNetPort_sdacWait (n : Nat) (v : NetPort) : (s.setNetPort n v).sdacWait = s.sdacWait := rfl
@[simp] theorem State.setNetPort_desks (n : Nat) (v : NetPort) : (s.setNetPort n v).desks = s.desks := rfl
@[simp] theorem State.setNetPort_tasks (n : Nat) (v : NetPort) : (s.setNetPort n v).tasks = s.tasks := rfl
@[simp] theorem State.setNetPort_groups (n : Nat) (v : NetPort) : (s.setNetPort n v).groups = s.groups := rfl
@[simp] theorem State.setNetPort_ports (n : Nat) (v : NetPort) : (s.setNetPort n v).ports = s.ports := rfl
@[simp] theorem State.setNetPort_ntk (n : Nat) (v : NetPort) : (s.setNetPort n v).ntk = s.ntk := rfl
@[simp] theorem State.setNetPort_dma (n : Nat) (v : NetPort) : (s.setNetPort n v).dma = s.dma := rfl
@[simp] theorem State.setNetPort_memory (n : Nat) (v : NetPort) : (s.setNetPort n v).memory = s.memory := rfl
@[simp] theorem State.setNetPort_pwr (n : Nat) (v : NetPort) : (s.setNetPort n v).pwr = s.pwr := rfl
@[simp] theorem State.setNetPort_pipe (n : Nat) (v : NetPort) : (s.setNetPort n v).pipe = s.pipe := rfl
@[simp] theorem State.setNetPort_boundary (n : Nat) (v : NetPort) : (s.setNetPort n v).boundary = s.boundary := rfl
@[simp] theorem State.setNetPort_tail (n : Nat) (v : NetPort) : (s.setNetPort n v).tail = s.tail := rfl
@[simp] theorem State.setNetPort_samples (n : Nat) (v : NetPort) : (s.setNetPort n v).samples = s.samples := rfl
@[simp] theorem State.setNetPort_free (n : Nat) (v : NetPort) : (s.setNetPort n v).free = s.free := rfl

/-! ### setSdac -/

@[simp] theorem State.setSdac_pending (k : Nat) (c : SdacCh) : (s.setSdac k c).pending = s.pending := rfl
@[simp] theorem State.setSdac_regs (k : Nat) (c : SdacCh) : (s.setSdac k c).regs = s.regs := rfl
@[simp] theorem State.setSdac_rlatch (k : Nat) (c : SdacCh) : (s.setSdac k c).rlatch = s.rlatch := rfl
@[simp] theorem State.setSdac_wlatch (k : Nat) (c : SdacCh) : (s.setSdac k c).wlatch = s.wlatch := rfl
@[simp] theorem State.setSdac_host (k : Nat) (c : SdacCh) : (s.setSdac k c).host = s.host := rfl
@[simp] theorem State.setSdac_led (k : Nat) (c : SdacCh) : (s.setSdac k c).led = s.led := rfl
@[simp] theorem State.setSdac_timed (k : Nat) (c : SdacCh) : (s.setSdac k c).timed = s.timed := rfl
@[simp] theorem State.setSdac_clock (k : Nat) (c : SdacCh) : (s.setSdac k c).clock = s.clock := rfl
@[simp] theorem State.setSdac_bells (k : Nat) (c : SdacCh) : (s.setSdac k c).bells = s.bells := rfl
@[simp] theorem State.setSdac_cues (k : Nat) (c : SdacCh) : (s.setSdac k c).cues = s.cues := rfl
@[simp] theorem State.setSdac_epochs (k : Nat) (c : SdacCh) : (s.setSdac k c).epochs = s.epochs := rfl
@[simp] theorem State.setSdac_finals (k : Nat) (c : SdacCh) : (s.setSdac k c).finals = s.finals := rfl
@[simp] theorem State.setSdac_epochSeq (k : Nat) (c : SdacCh) : (s.setSdac k c).epochSeq = s.epochSeq := rfl
@[simp] theorem State.setSdac_sched (k : Nat) (c : SdacCh) : (s.setSdac k c).sched = s.sched := rfl
@[simp] theorem State.setSdac_shelves (k : Nat) (c : SdacCh) : (s.setSdac k c).shelves = s.shelves := rfl
@[simp] theorem State.setSdac_active (k : Nat) (c : SdacCh) : (s.setSdac k c).active = s.active := rfl
@[simp] theorem State.setSdac_xfades (k : Nat) (c : SdacCh) : (s.setSdac k c).xfades = s.xfades := rfl
@[simp] theorem State.setSdac_dram (k : Nat) (c : SdacCh) : (s.setSdac k c).dram = s.dram := rfl
@[simp] theorem State.setSdac_lockers (k : Nat) (c : SdacCh) : (s.setSdac k c).lockers = s.lockers := rfl
@[simp] theorem State.setSdac_capture (k : Nat) (c : SdacCh) : (s.setSdac k c).capture = s.capture := rfl
@[simp] theorem State.setSdac_replay (k : Nat) (c : SdacCh) : (s.setSdac k c).replay = s.replay := rfl
@[simp] theorem State.setSdac_geo (k : Nat) (c : SdacCh) : (s.setSdac k c).geo = s.geo := rfl
@[simp] theorem State.setSdac_path (k : Nat) (c : SdacCh) : (s.setSdac k c).path = s.path := rfl
@[simp] theorem State.setSdac_matrix (k : Nat) (c : SdacCh) : (s.setSdac k c).matrix = s.matrix := rfl
@[simp] theorem State.setSdac_auxs (k : Nat) (c : SdacCh) : (s.setSdac k c).auxs = s.auxs := rfl
@[simp] theorem State.setSdac_feeds (k : Nat) (c : SdacCh) : (s.setSdac k c).feeds = s.feeds := rfl
@[simp] theorem State.setSdac_stage (k : Nat) (c : SdacCh) : (s.setSdac k c).stage = s.stage := rfl
@[simp] theorem State.setSdac_firUsed (k : Nat) (c : SdacCh) : (s.setSdac k c).firUsed = s.firUsed := rfl
@[simp] theorem State.setSdac_routes (k : Nat) (c : SdacCh) : (s.setSdac k c).routes = s.routes := rfl
@[simp] theorem State.setSdac_ovr (k : Nat) (c : SdacCh) : (s.setSdac k c).ovr = s.ovr := rfl
@[simp] theorem State.setSdac_corr (k : Nat) (c : SdacCh) : (s.setSdac k c).corr = s.corr := rfl
@[simp] theorem State.setSdac_sdacWait (k : Nat) (c : SdacCh) : (s.setSdac k c).sdacWait = s.sdacWait := rfl
@[simp] theorem State.setSdac_desks (k : Nat) (c : SdacCh) : (s.setSdac k c).desks = s.desks := rfl
@[simp] theorem State.setSdac_tasks (k : Nat) (c : SdacCh) : (s.setSdac k c).tasks = s.tasks := rfl
@[simp] theorem State.setSdac_groups (k : Nat) (c : SdacCh) : (s.setSdac k c).groups = s.groups := rfl
@[simp] theorem State.setSdac_ports (k : Nat) (c : SdacCh) : (s.setSdac k c).ports = s.ports := rfl
@[simp] theorem State.setSdac_net (k : Nat) (c : SdacCh) : (s.setSdac k c).net = s.net := rfl
@[simp] theorem State.setSdac_ntk (k : Nat) (c : SdacCh) : (s.setSdac k c).ntk = s.ntk := rfl
@[simp] theorem State.setSdac_dma (k : Nat) (c : SdacCh) : (s.setSdac k c).dma = s.dma := rfl
@[simp] theorem State.setSdac_memory (k : Nat) (c : SdacCh) : (s.setSdac k c).memory = s.memory := rfl
@[simp] theorem State.setSdac_pwr (k : Nat) (c : SdacCh) : (s.setSdac k c).pwr = s.pwr := rfl
@[simp] theorem State.setSdac_pipe (k : Nat) (c : SdacCh) : (s.setSdac k c).pipe = s.pipe := rfl
@[simp] theorem State.setSdac_boundary (k : Nat) (c : SdacCh) : (s.setSdac k c).boundary = s.boundary := rfl
@[simp] theorem State.setSdac_tail (k : Nat) (c : SdacCh) : (s.setSdac k c).tail = s.tail := rfl
@[simp] theorem State.setSdac_samples (k : Nat) (c : SdacCh) : (s.setSdac k c).samples = s.samples := rfl
@[simp] theorem State.setSdac_free (k : Nat) (c : SdacCh) : (s.setSdac k c).free = s.free := rfl

/-! ### setGroup -/

@[simp] theorem State.setGroup_pending (g : Nat) (v : Group) : (s.setGroup g v).pending = s.pending := rfl
@[simp] theorem State.setGroup_regs (g : Nat) (v : Group) : (s.setGroup g v).regs = s.regs := rfl
@[simp] theorem State.setGroup_rlatch (g : Nat) (v : Group) : (s.setGroup g v).rlatch = s.rlatch := rfl
@[simp] theorem State.setGroup_wlatch (g : Nat) (v : Group) : (s.setGroup g v).wlatch = s.wlatch := rfl
@[simp] theorem State.setGroup_host (g : Nat) (v : Group) : (s.setGroup g v).host = s.host := rfl
@[simp] theorem State.setGroup_led (g : Nat) (v : Group) : (s.setGroup g v).led = s.led := rfl
@[simp] theorem State.setGroup_timed (g : Nat) (v : Group) : (s.setGroup g v).timed = s.timed := rfl
@[simp] theorem State.setGroup_clock (g : Nat) (v : Group) : (s.setGroup g v).clock = s.clock := rfl
@[simp] theorem State.setGroup_bells (g : Nat) (v : Group) : (s.setGroup g v).bells = s.bells := rfl
@[simp] theorem State.setGroup_cues (g : Nat) (v : Group) : (s.setGroup g v).cues = s.cues := rfl
@[simp] theorem State.setGroup_epochs (g : Nat) (v : Group) : (s.setGroup g v).epochs = s.epochs := rfl
@[simp] theorem State.setGroup_finals (g : Nat) (v : Group) : (s.setGroup g v).finals = s.finals := rfl
@[simp] theorem State.setGroup_epochSeq (g : Nat) (v : Group) : (s.setGroup g v).epochSeq = s.epochSeq := rfl
@[simp] theorem State.setGroup_sched (g : Nat) (v : Group) : (s.setGroup g v).sched = s.sched := rfl
@[simp] theorem State.setGroup_shelves (g : Nat) (v : Group) : (s.setGroup g v).shelves = s.shelves := rfl
@[simp] theorem State.setGroup_active (g : Nat) (v : Group) : (s.setGroup g v).active = s.active := rfl
@[simp] theorem State.setGroup_xfades (g : Nat) (v : Group) : (s.setGroup g v).xfades = s.xfades := rfl
@[simp] theorem State.setGroup_dram (g : Nat) (v : Group) : (s.setGroup g v).dram = s.dram := rfl
@[simp] theorem State.setGroup_lockers (g : Nat) (v : Group) : (s.setGroup g v).lockers = s.lockers := rfl
@[simp] theorem State.setGroup_capture (g : Nat) (v : Group) : (s.setGroup g v).capture = s.capture := rfl
@[simp] theorem State.setGroup_replay (g : Nat) (v : Group) : (s.setGroup g v).replay = s.replay := rfl
@[simp] theorem State.setGroup_geo (g : Nat) (v : Group) : (s.setGroup g v).geo = s.geo := rfl
@[simp] theorem State.setGroup_path (g : Nat) (v : Group) : (s.setGroup g v).path = s.path := rfl
@[simp] theorem State.setGroup_matrix (g : Nat) (v : Group) : (s.setGroup g v).matrix = s.matrix := rfl
@[simp] theorem State.setGroup_auxs (g : Nat) (v : Group) : (s.setGroup g v).auxs = s.auxs := rfl
@[simp] theorem State.setGroup_feeds (g : Nat) (v : Group) : (s.setGroup g v).feeds = s.feeds := rfl
@[simp] theorem State.setGroup_stage (g : Nat) (v : Group) : (s.setGroup g v).stage = s.stage := rfl
@[simp] theorem State.setGroup_firUsed (g : Nat) (v : Group) : (s.setGroup g v).firUsed = s.firUsed := rfl
@[simp] theorem State.setGroup_routes (g : Nat) (v : Group) : (s.setGroup g v).routes = s.routes := rfl
@[simp] theorem State.setGroup_ovr (g : Nat) (v : Group) : (s.setGroup g v).ovr = s.ovr := rfl
@[simp] theorem State.setGroup_corr (g : Nat) (v : Group) : (s.setGroup g v).corr = s.corr := rfl
@[simp] theorem State.setGroup_sdac (g : Nat) (v : Group) : (s.setGroup g v).sdac = s.sdac := rfl
@[simp] theorem State.setGroup_sdacWait (g : Nat) (v : Group) : (s.setGroup g v).sdacWait = s.sdacWait := rfl
@[simp] theorem State.setGroup_desks (g : Nat) (v : Group) : (s.setGroup g v).desks = s.desks := rfl
@[simp] theorem State.setGroup_tasks (g : Nat) (v : Group) : (s.setGroup g v).tasks = s.tasks := rfl
@[simp] theorem State.setGroup_ports (g : Nat) (v : Group) : (s.setGroup g v).ports = s.ports := rfl
@[simp] theorem State.setGroup_net (g : Nat) (v : Group) : (s.setGroup g v).net = s.net := rfl
@[simp] theorem State.setGroup_ntk (g : Nat) (v : Group) : (s.setGroup g v).ntk = s.ntk := rfl
@[simp] theorem State.setGroup_dma (g : Nat) (v : Group) : (s.setGroup g v).dma = s.dma := rfl
@[simp] theorem State.setGroup_memory (g : Nat) (v : Group) : (s.setGroup g v).memory = s.memory := rfl
@[simp] theorem State.setGroup_pwr (g : Nat) (v : Group) : (s.setGroup g v).pwr = s.pwr := rfl
@[simp] theorem State.setGroup_pipe (g : Nat) (v : Group) : (s.setGroup g v).pipe = s.pipe := rfl
@[simp] theorem State.setGroup_boundary (g : Nat) (v : Group) : (s.setGroup g v).boundary = s.boundary := rfl
@[simp] theorem State.setGroup_tail (g : Nat) (v : Group) : (s.setGroup g v).tail = s.tail := rfl
@[simp] theorem State.setGroup_samples (g : Nat) (v : Group) : (s.setGroup g v).samples = s.samples := rfl
@[simp] theorem State.setGroup_free (g : Nat) (v : Group) : (s.setGroup g v).free = s.free := rfl

/-! ### setPort -/

@[simp] theorem State.setPort_pending (p : Nat) (v : Port) : (s.setPort p v).pending = s.pending := rfl
@[simp] theorem State.setPort_regs (p : Nat) (v : Port) : (s.setPort p v).regs = s.regs := rfl
@[simp] theorem State.setPort_rlatch (p : Nat) (v : Port) : (s.setPort p v).rlatch = s.rlatch := rfl
@[simp] theorem State.setPort_wlatch (p : Nat) (v : Port) : (s.setPort p v).wlatch = s.wlatch := rfl
@[simp] theorem State.setPort_host (p : Nat) (v : Port) : (s.setPort p v).host = s.host := rfl
@[simp] theorem State.setPort_led (p : Nat) (v : Port) : (s.setPort p v).led = s.led := rfl
@[simp] theorem State.setPort_timed (p : Nat) (v : Port) : (s.setPort p v).timed = s.timed := rfl
@[simp] theorem State.setPort_clock (p : Nat) (v : Port) : (s.setPort p v).clock = s.clock := rfl
@[simp] theorem State.setPort_bells (p : Nat) (v : Port) : (s.setPort p v).bells = s.bells := rfl
@[simp] theorem State.setPort_cues (p : Nat) (v : Port) : (s.setPort p v).cues = s.cues := rfl
@[simp] theorem State.setPort_epochs (p : Nat) (v : Port) : (s.setPort p v).epochs = s.epochs := rfl
@[simp] theorem State.setPort_finals (p : Nat) (v : Port) : (s.setPort p v).finals = s.finals := rfl
@[simp] theorem State.setPort_epochSeq (p : Nat) (v : Port) : (s.setPort p v).epochSeq = s.epochSeq := rfl
@[simp] theorem State.setPort_sched (p : Nat) (v : Port) : (s.setPort p v).sched = s.sched := rfl
@[simp] theorem State.setPort_shelves (p : Nat) (v : Port) : (s.setPort p v).shelves = s.shelves := rfl
@[simp] theorem State.setPort_active (p : Nat) (v : Port) : (s.setPort p v).active = s.active := rfl
@[simp] theorem State.setPort_xfades (p : Nat) (v : Port) : (s.setPort p v).xfades = s.xfades := rfl
@[simp] theorem State.setPort_dram (p : Nat) (v : Port) : (s.setPort p v).dram = s.dram := rfl
@[simp] theorem State.setPort_lockers (p : Nat) (v : Port) : (s.setPort p v).lockers = s.lockers := rfl
@[simp] theorem State.setPort_capture (p : Nat) (v : Port) : (s.setPort p v).capture = s.capture := rfl
@[simp] theorem State.setPort_replay (p : Nat) (v : Port) : (s.setPort p v).replay = s.replay := rfl
@[simp] theorem State.setPort_geo (p : Nat) (v : Port) : (s.setPort p v).geo = s.geo := rfl
@[simp] theorem State.setPort_path (p : Nat) (v : Port) : (s.setPort p v).path = s.path := rfl
@[simp] theorem State.setPort_matrix (p : Nat) (v : Port) : (s.setPort p v).matrix = s.matrix := rfl
@[simp] theorem State.setPort_auxs (p : Nat) (v : Port) : (s.setPort p v).auxs = s.auxs := rfl
@[simp] theorem State.setPort_feeds (p : Nat) (v : Port) : (s.setPort p v).feeds = s.feeds := rfl
@[simp] theorem State.setPort_stage (p : Nat) (v : Port) : (s.setPort p v).stage = s.stage := rfl
@[simp] theorem State.setPort_firUsed (p : Nat) (v : Port) : (s.setPort p v).firUsed = s.firUsed := rfl
@[simp] theorem State.setPort_routes (p : Nat) (v : Port) : (s.setPort p v).routes = s.routes := rfl
@[simp] theorem State.setPort_ovr (p : Nat) (v : Port) : (s.setPort p v).ovr = s.ovr := rfl
@[simp] theorem State.setPort_corr (p : Nat) (v : Port) : (s.setPort p v).corr = s.corr := rfl
@[simp] theorem State.setPort_sdac (p : Nat) (v : Port) : (s.setPort p v).sdac = s.sdac := rfl
@[simp] theorem State.setPort_sdacWait (p : Nat) (v : Port) : (s.setPort p v).sdacWait = s.sdacWait := rfl
@[simp] theorem State.setPort_desks (p : Nat) (v : Port) : (s.setPort p v).desks = s.desks := rfl
@[simp] theorem State.setPort_tasks (p : Nat) (v : Port) : (s.setPort p v).tasks = s.tasks := rfl
@[simp] theorem State.setPort_groups (p : Nat) (v : Port) : (s.setPort p v).groups = s.groups := rfl
@[simp] theorem State.setPort_net (p : Nat) (v : Port) : (s.setPort p v).net = s.net := rfl
@[simp] theorem State.setPort_ntk (p : Nat) (v : Port) : (s.setPort p v).ntk = s.ntk := rfl
@[simp] theorem State.setPort_dma (p : Nat) (v : Port) : (s.setPort p v).dma = s.dma := rfl
@[simp] theorem State.setPort_memory (p : Nat) (v : Port) : (s.setPort p v).memory = s.memory := rfl
@[simp] theorem State.setPort_pwr (p : Nat) (v : Port) : (s.setPort p v).pwr = s.pwr := rfl
@[simp] theorem State.setPort_pipe (p : Nat) (v : Port) : (s.setPort p v).pipe = s.pipe := rfl
@[simp] theorem State.setPort_boundary (p : Nat) (v : Port) : (s.setPort p v).boundary = s.boundary := rfl
@[simp] theorem State.setPort_tail (p : Nat) (v : Port) : (s.setPort p v).tail = s.tail := rfl
@[simp] theorem State.setPort_samples (p : Nat) (v : Port) : (s.setPort p v).samples = s.samples := rfl
@[simp] theorem State.setPort_free (p : Nat) (v : Port) : (s.setPort p v).free = s.free := rfl

/-! ### hostWrite -/

@[simp] theorem State.hostWrite_pending (addr : Nat) (bs : List Byte) : (s.hostWrite addr bs).pending = s.pending := rfl
@[simp] theorem State.hostWrite_regs (addr : Nat) (bs : List Byte) : (s.hostWrite addr bs).regs = s.regs := rfl
@[simp] theorem State.hostWrite_rlatch (addr : Nat) (bs : List Byte) : (s.hostWrite addr bs).rlatch = s.rlatch := rfl
@[simp] theorem State.hostWrite_wlatch (addr : Nat) (bs : List Byte) : (s.hostWrite addr bs).wlatch = s.wlatch := rfl
@[simp] theorem State.hostWrite_led (addr : Nat) (bs : List Byte) : (s.hostWrite addr bs).led = s.led := rfl
@[simp] theorem State.hostWrite_timed (addr : Nat) (bs : List Byte) : (s.hostWrite addr bs).timed = s.timed := rfl
@[simp] theorem State.hostWrite_clock (addr : Nat) (bs : List Byte) : (s.hostWrite addr bs).clock = s.clock := rfl
@[simp] theorem State.hostWrite_bells (addr : Nat) (bs : List Byte) : (s.hostWrite addr bs).bells = s.bells := rfl
@[simp] theorem State.hostWrite_cues (addr : Nat) (bs : List Byte) : (s.hostWrite addr bs).cues = s.cues := rfl
@[simp] theorem State.hostWrite_epochs (addr : Nat) (bs : List Byte) : (s.hostWrite addr bs).epochs = s.epochs := rfl
@[simp] theorem State.hostWrite_finals (addr : Nat) (bs : List Byte) : (s.hostWrite addr bs).finals = s.finals := rfl
@[simp] theorem State.hostWrite_epochSeq (addr : Nat) (bs : List Byte) : (s.hostWrite addr bs).epochSeq = s.epochSeq := rfl
@[simp] theorem State.hostWrite_sched (addr : Nat) (bs : List Byte) : (s.hostWrite addr bs).sched = s.sched := rfl
@[simp] theorem State.hostWrite_shelves (addr : Nat) (bs : List Byte) : (s.hostWrite addr bs).shelves = s.shelves := rfl
@[simp] theorem State.hostWrite_active (addr : Nat) (bs : List Byte) : (s.hostWrite addr bs).active = s.active := rfl
@[simp] theorem State.hostWrite_xfades (addr : Nat) (bs : List Byte) : (s.hostWrite addr bs).xfades = s.xfades := rfl
@[simp] theorem State.hostWrite_dram (addr : Nat) (bs : List Byte) : (s.hostWrite addr bs).dram = s.dram := rfl
@[simp] theorem State.hostWrite_lockers (addr : Nat) (bs : List Byte) : (s.hostWrite addr bs).lockers = s.lockers := rfl
@[simp] theorem State.hostWrite_capture (addr : Nat) (bs : List Byte) : (s.hostWrite addr bs).capture = s.capture := rfl
@[simp] theorem State.hostWrite_replay (addr : Nat) (bs : List Byte) : (s.hostWrite addr bs).replay = s.replay := rfl
@[simp] theorem State.hostWrite_geo (addr : Nat) (bs : List Byte) : (s.hostWrite addr bs).geo = s.geo := rfl
@[simp] theorem State.hostWrite_path (addr : Nat) (bs : List Byte) : (s.hostWrite addr bs).path = s.path := rfl
@[simp] theorem State.hostWrite_matrix (addr : Nat) (bs : List Byte) : (s.hostWrite addr bs).matrix = s.matrix := rfl
@[simp] theorem State.hostWrite_auxs (addr : Nat) (bs : List Byte) : (s.hostWrite addr bs).auxs = s.auxs := rfl
@[simp] theorem State.hostWrite_feeds (addr : Nat) (bs : List Byte) : (s.hostWrite addr bs).feeds = s.feeds := rfl
@[simp] theorem State.hostWrite_stage (addr : Nat) (bs : List Byte) : (s.hostWrite addr bs).stage = s.stage := rfl
@[simp] theorem State.hostWrite_firUsed (addr : Nat) (bs : List Byte) : (s.hostWrite addr bs).firUsed = s.firUsed := rfl
@[simp] theorem State.hostWrite_routes (addr : Nat) (bs : List Byte) : (s.hostWrite addr bs).routes = s.routes := rfl
@[simp] theorem State.hostWrite_ovr (addr : Nat) (bs : List Byte) : (s.hostWrite addr bs).ovr = s.ovr := rfl
@[simp] theorem State.hostWrite_corr (addr : Nat) (bs : List Byte) : (s.hostWrite addr bs).corr = s.corr := rfl
@[simp] theorem State.hostWrite_sdac (addr : Nat) (bs : List Byte) : (s.hostWrite addr bs).sdac = s.sdac := rfl
@[simp] theorem State.hostWrite_sdacWait (addr : Nat) (bs : List Byte) : (s.hostWrite addr bs).sdacWait = s.sdacWait := rfl
@[simp] theorem State.hostWrite_desks (addr : Nat) (bs : List Byte) : (s.hostWrite addr bs).desks = s.desks := rfl
@[simp] theorem State.hostWrite_tasks (addr : Nat) (bs : List Byte) : (s.hostWrite addr bs).tasks = s.tasks := rfl
@[simp] theorem State.hostWrite_groups (addr : Nat) (bs : List Byte) : (s.hostWrite addr bs).groups = s.groups := rfl
@[simp] theorem State.hostWrite_ports (addr : Nat) (bs : List Byte) : (s.hostWrite addr bs).ports = s.ports := rfl
@[simp] theorem State.hostWrite_net (addr : Nat) (bs : List Byte) : (s.hostWrite addr bs).net = s.net := rfl
@[simp] theorem State.hostWrite_ntk (addr : Nat) (bs : List Byte) : (s.hostWrite addr bs).ntk = s.ntk := rfl
@[simp] theorem State.hostWrite_dma (addr : Nat) (bs : List Byte) : (s.hostWrite addr bs).dma = s.dma := rfl
@[simp] theorem State.hostWrite_memory (addr : Nat) (bs : List Byte) : (s.hostWrite addr bs).memory = s.memory := rfl
@[simp] theorem State.hostWrite_pwr (addr : Nat) (bs : List Byte) : (s.hostWrite addr bs).pwr = s.pwr := rfl
@[simp] theorem State.hostWrite_pipe (addr : Nat) (bs : List Byte) : (s.hostWrite addr bs).pipe = s.pipe := rfl
@[simp] theorem State.hostWrite_boundary (addr : Nat) (bs : List Byte) : (s.hostWrite addr bs).boundary = s.boundary := rfl
@[simp] theorem State.hostWrite_tail (addr : Nat) (bs : List Byte) : (s.hostWrite addr bs).tail = s.tail := rfl
@[simp] theorem State.hostWrite_samples (addr : Nat) (bs : List Byte) : (s.hostWrite addr bs).samples = s.samples := rfl
@[simp] theorem State.hostWrite_free (addr : Nat) (bs : List Byte) : (s.hostWrite addr bs).free = s.free := rfl

/-! ### setCloak -/

@[simp] theorem State.setCloak_pending (p : Nat) (k : Cloak) : (s.setCloak p k).pending = s.pending := rfl
@[simp] theorem State.setCloak_regs (p : Nat) (k : Cloak) : (s.setCloak p k).regs = s.regs := rfl
@[simp] theorem State.setCloak_rlatch (p : Nat) (k : Cloak) : (s.setCloak p k).rlatch = s.rlatch := rfl
@[simp] theorem State.setCloak_wlatch (p : Nat) (k : Cloak) : (s.setCloak p k).wlatch = s.wlatch := rfl
@[simp] theorem State.setCloak_host (p : Nat) (k : Cloak) : (s.setCloak p k).host = s.host := rfl
@[simp] theorem State.setCloak_led (p : Nat) (k : Cloak) : (s.setCloak p k).led = s.led := rfl
@[simp] theorem State.setCloak_timed (p : Nat) (k : Cloak) : (s.setCloak p k).timed = s.timed := rfl
@[simp] theorem State.setCloak_bells (p : Nat) (k : Cloak) : (s.setCloak p k).bells = s.bells := rfl
@[simp] theorem State.setCloak_cues (p : Nat) (k : Cloak) : (s.setCloak p k).cues = s.cues := rfl
@[simp] theorem State.setCloak_epochs (p : Nat) (k : Cloak) : (s.setCloak p k).epochs = s.epochs := rfl
@[simp] theorem State.setCloak_finals (p : Nat) (k : Cloak) : (s.setCloak p k).finals = s.finals := rfl
@[simp] theorem State.setCloak_epochSeq (p : Nat) (k : Cloak) : (s.setCloak p k).epochSeq = s.epochSeq := rfl
@[simp] theorem State.setCloak_sched (p : Nat) (k : Cloak) : (s.setCloak p k).sched = s.sched := rfl
@[simp] theorem State.setCloak_shelves (p : Nat) (k : Cloak) : (s.setCloak p k).shelves = s.shelves := rfl
@[simp] theorem State.setCloak_active (p : Nat) (k : Cloak) : (s.setCloak p k).active = s.active := rfl
@[simp] theorem State.setCloak_xfades (p : Nat) (k : Cloak) : (s.setCloak p k).xfades = s.xfades := rfl
@[simp] theorem State.setCloak_dram (p : Nat) (k : Cloak) : (s.setCloak p k).dram = s.dram := rfl
@[simp] theorem State.setCloak_lockers (p : Nat) (k : Cloak) : (s.setCloak p k).lockers = s.lockers := rfl
@[simp] theorem State.setCloak_capture (p : Nat) (k : Cloak) : (s.setCloak p k).capture = s.capture := rfl
@[simp] theorem State.setCloak_replay (p : Nat) (k : Cloak) : (s.setCloak p k).replay = s.replay := rfl
@[simp] theorem State.setCloak_geo (p : Nat) (k : Cloak) : (s.setCloak p k).geo = s.geo := rfl
@[simp] theorem State.setCloak_path (p : Nat) (k : Cloak) : (s.setCloak p k).path = s.path := rfl
@[simp] theorem State.setCloak_matrix (p : Nat) (k : Cloak) : (s.setCloak p k).matrix = s.matrix := rfl
@[simp] theorem State.setCloak_auxs (p : Nat) (k : Cloak) : (s.setCloak p k).auxs = s.auxs := rfl
@[simp] theorem State.setCloak_feeds (p : Nat) (k : Cloak) : (s.setCloak p k).feeds = s.feeds := rfl
@[simp] theorem State.setCloak_stage (p : Nat) (k : Cloak) : (s.setCloak p k).stage = s.stage := rfl
@[simp] theorem State.setCloak_firUsed (p : Nat) (k : Cloak) : (s.setCloak p k).firUsed = s.firUsed := rfl
@[simp] theorem State.setCloak_routes (p : Nat) (k : Cloak) : (s.setCloak p k).routes = s.routes := rfl
@[simp] theorem State.setCloak_ovr (p : Nat) (k : Cloak) : (s.setCloak p k).ovr = s.ovr := rfl
@[simp] theorem State.setCloak_corr (p : Nat) (k : Cloak) : (s.setCloak p k).corr = s.corr := rfl
@[simp] theorem State.setCloak_sdac (p : Nat) (k : Cloak) : (s.setCloak p k).sdac = s.sdac := rfl
@[simp] theorem State.setCloak_sdacWait (p : Nat) (k : Cloak) : (s.setCloak p k).sdacWait = s.sdacWait := rfl
@[simp] theorem State.setCloak_desks (p : Nat) (k : Cloak) : (s.setCloak p k).desks = s.desks := rfl
@[simp] theorem State.setCloak_tasks (p : Nat) (k : Cloak) : (s.setCloak p k).tasks = s.tasks := rfl
@[simp] theorem State.setCloak_groups (p : Nat) (k : Cloak) : (s.setCloak p k).groups = s.groups := rfl
@[simp] theorem State.setCloak_ports (p : Nat) (k : Cloak) : (s.setCloak p k).ports = s.ports := rfl
@[simp] theorem State.setCloak_net (p : Nat) (k : Cloak) : (s.setCloak p k).net = s.net := rfl
@[simp] theorem State.setCloak_ntk (p : Nat) (k : Cloak) : (s.setCloak p k).ntk = s.ntk := rfl
@[simp] theorem State.setCloak_dma (p : Nat) (k : Cloak) : (s.setCloak p k).dma = s.dma := rfl
@[simp] theorem State.setCloak_memory (p : Nat) (k : Cloak) : (s.setCloak p k).memory = s.memory := rfl
@[simp] theorem State.setCloak_pwr (p : Nat) (k : Cloak) : (s.setCloak p k).pwr = s.pwr := rfl
@[simp] theorem State.setCloak_pipe (p : Nat) (k : Cloak) : (s.setCloak p k).pipe = s.pipe := rfl
@[simp] theorem State.setCloak_boundary (p : Nat) (k : Cloak) : (s.setCloak p k).boundary = s.boundary := rfl
@[simp] theorem State.setCloak_tail (p : Nat) (k : Cloak) : (s.setCloak p k).tail = s.tail := rfl
@[simp] theorem State.setCloak_samples (p : Nat) (k : Cloak) : (s.setCloak p k).samples = s.samples := rfl
@[simp] theorem State.setCloak_free (p : Nat) (k : Cloak) : (s.setCloak p k).free = s.free := rfl

/-! ### addLed -/

@[simp] theorem State.addLed_pending (i : Nat) (d : LedDelta) : (s.addLed i d).pending = s.pending := rfl
@[simp] theorem State.addLed_regs (i : Nat) (d : LedDelta) : (s.addLed i d).regs = s.regs := rfl
@[simp] theorem State.addLed_rlatch (i : Nat) (d : LedDelta) : (s.addLed i d).rlatch = s.rlatch := rfl
@[simp] theorem State.addLed_wlatch (i : Nat) (d : LedDelta) : (s.addLed i d).wlatch = s.wlatch := rfl
@[simp] theorem State.addLed_host (i : Nat) (d : LedDelta) : (s.addLed i d).host = s.host := rfl
@[simp] theorem State.addLed_timed (i : Nat) (d : LedDelta) : (s.addLed i d).timed = s.timed := rfl
@[simp] theorem State.addLed_clock (i : Nat) (d : LedDelta) : (s.addLed i d).clock = s.clock := rfl
@[simp] theorem State.addLed_bells (i : Nat) (d : LedDelta) : (s.addLed i d).bells = s.bells := rfl
@[simp] theorem State.addLed_cues (i : Nat) (d : LedDelta) : (s.addLed i d).cues = s.cues := rfl
@[simp] theorem State.addLed_epochs (i : Nat) (d : LedDelta) : (s.addLed i d).epochs = s.epochs := rfl
@[simp] theorem State.addLed_finals (i : Nat) (d : LedDelta) : (s.addLed i d).finals = s.finals := rfl
@[simp] theorem State.addLed_epochSeq (i : Nat) (d : LedDelta) : (s.addLed i d).epochSeq = s.epochSeq := rfl
@[simp] theorem State.addLed_sched (i : Nat) (d : LedDelta) : (s.addLed i d).sched = s.sched := rfl
@[simp] theorem State.addLed_shelves (i : Nat) (d : LedDelta) : (s.addLed i d).shelves = s.shelves := rfl
@[simp] theorem State.addLed_active (i : Nat) (d : LedDelta) : (s.addLed i d).active = s.active := rfl
@[simp] theorem State.addLed_xfades (i : Nat) (d : LedDelta) : (s.addLed i d).xfades = s.xfades := rfl
@[simp] theorem State.addLed_dram (i : Nat) (d : LedDelta) : (s.addLed i d).dram = s.dram := rfl
@[simp] theorem State.addLed_lockers (i : Nat) (d : LedDelta) : (s.addLed i d).lockers = s.lockers := rfl
@[simp] theorem State.addLed_capture (i : Nat) (d : LedDelta) : (s.addLed i d).capture = s.capture := rfl
@[simp] theorem State.addLed_replay (i : Nat) (d : LedDelta) : (s.addLed i d).replay = s.replay := rfl
@[simp] theorem State.addLed_geo (i : Nat) (d : LedDelta) : (s.addLed i d).geo = s.geo := rfl
@[simp] theorem State.addLed_path (i : Nat) (d : LedDelta) : (s.addLed i d).path = s.path := rfl
@[simp] theorem State.addLed_matrix (i : Nat) (d : LedDelta) : (s.addLed i d).matrix = s.matrix := rfl
@[simp] theorem State.addLed_auxs (i : Nat) (d : LedDelta) : (s.addLed i d).auxs = s.auxs := rfl
@[simp] theorem State.addLed_feeds (i : Nat) (d : LedDelta) : (s.addLed i d).feeds = s.feeds := rfl
@[simp] theorem State.addLed_stage (i : Nat) (d : LedDelta) : (s.addLed i d).stage = s.stage := rfl
@[simp] theorem State.addLed_firUsed (i : Nat) (d : LedDelta) : (s.addLed i d).firUsed = s.firUsed := rfl
@[simp] theorem State.addLed_routes (i : Nat) (d : LedDelta) : (s.addLed i d).routes = s.routes := rfl
@[simp] theorem State.addLed_ovr (i : Nat) (d : LedDelta) : (s.addLed i d).ovr = s.ovr := rfl
@[simp] theorem State.addLed_corr (i : Nat) (d : LedDelta) : (s.addLed i d).corr = s.corr := rfl
@[simp] theorem State.addLed_sdac (i : Nat) (d : LedDelta) : (s.addLed i d).sdac = s.sdac := rfl
@[simp] theorem State.addLed_sdacWait (i : Nat) (d : LedDelta) : (s.addLed i d).sdacWait = s.sdacWait := rfl
@[simp] theorem State.addLed_desks (i : Nat) (d : LedDelta) : (s.addLed i d).desks = s.desks := rfl
@[simp] theorem State.addLed_tasks (i : Nat) (d : LedDelta) : (s.addLed i d).tasks = s.tasks := rfl
@[simp] theorem State.addLed_groups (i : Nat) (d : LedDelta) : (s.addLed i d).groups = s.groups := rfl
@[simp] theorem State.addLed_ports (i : Nat) (d : LedDelta) : (s.addLed i d).ports = s.ports := rfl
@[simp] theorem State.addLed_net (i : Nat) (d : LedDelta) : (s.addLed i d).net = s.net := rfl
@[simp] theorem State.addLed_ntk (i : Nat) (d : LedDelta) : (s.addLed i d).ntk = s.ntk := rfl
@[simp] theorem State.addLed_dma (i : Nat) (d : LedDelta) : (s.addLed i d).dma = s.dma := rfl
@[simp] theorem State.addLed_memory (i : Nat) (d : LedDelta) : (s.addLed i d).memory = s.memory := rfl
@[simp] theorem State.addLed_pwr (i : Nat) (d : LedDelta) : (s.addLed i d).pwr = s.pwr := rfl
@[simp] theorem State.addLed_pipe (i : Nat) (d : LedDelta) : (s.addLed i d).pipe = s.pipe := rfl
@[simp] theorem State.addLed_boundary (i : Nat) (d : LedDelta) : (s.addLed i d).boundary = s.boundary := rfl
@[simp] theorem State.addLed_tail (i : Nat) (d : LedDelta) : (s.addLed i d).tail = s.tail := rfl
@[simp] theorem State.addLed_samples (i : Nat) (d : LedDelta) : (s.addLed i d).samples = s.samples := rfl
@[simp] theorem State.addLed_free (i : Nat) (d : LedDelta) : (s.addLed i d).free = s.free := rfl

/-! ### pushReady -/

@[simp] theorem State.pushReady_pending (q : Nat) (x : ReadyItem) : (s.pushReady q x).pending = s.pending := rfl
@[simp] theorem State.pushReady_regs (q : Nat) (x : ReadyItem) : (s.pushReady q x).regs = s.regs := rfl
@[simp] theorem State.pushReady_rlatch (q : Nat) (x : ReadyItem) : (s.pushReady q x).rlatch = s.rlatch := rfl
@[simp] theorem State.pushReady_wlatch (q : Nat) (x : ReadyItem) : (s.pushReady q x).wlatch = s.wlatch := rfl
@[simp] theorem State.pushReady_led (q : Nat) (x : ReadyItem) : (s.pushReady q x).led = s.led := rfl
@[simp] theorem State.pushReady_timed (q : Nat) (x : ReadyItem) : (s.pushReady q x).timed = s.timed := rfl
@[simp] theorem State.pushReady_clock (q : Nat) (x : ReadyItem) : (s.pushReady q x).clock = s.clock := rfl
@[simp] theorem State.pushReady_bells (q : Nat) (x : ReadyItem) : (s.pushReady q x).bells = s.bells := rfl
@[simp] theorem State.pushReady_cues (q : Nat) (x : ReadyItem) : (s.pushReady q x).cues = s.cues := rfl
@[simp] theorem State.pushReady_epochs (q : Nat) (x : ReadyItem) : (s.pushReady q x).epochs = s.epochs := rfl
@[simp] theorem State.pushReady_finals (q : Nat) (x : ReadyItem) : (s.pushReady q x).finals = s.finals := rfl
@[simp] theorem State.pushReady_epochSeq (q : Nat) (x : ReadyItem) : (s.pushReady q x).epochSeq = s.epochSeq := rfl
@[simp] theorem State.pushReady_sched (q : Nat) (x : ReadyItem) : (s.pushReady q x).sched = s.sched := rfl
@[simp] theorem State.pushReady_shelves (q : Nat) (x : ReadyItem) : (s.pushReady q x).shelves = s.shelves := rfl
@[simp] theorem State.pushReady_active (q : Nat) (x : ReadyItem) : (s.pushReady q x).active = s.active := rfl
@[simp] theorem State.pushReady_xfades (q : Nat) (x : ReadyItem) : (s.pushReady q x).xfades = s.xfades := rfl
@[simp] theorem State.pushReady_dram (q : Nat) (x : ReadyItem) : (s.pushReady q x).dram = s.dram := rfl
@[simp] theorem State.pushReady_lockers (q : Nat) (x : ReadyItem) : (s.pushReady q x).lockers = s.lockers := rfl
@[simp] theorem State.pushReady_capture (q : Nat) (x : ReadyItem) : (s.pushReady q x).capture = s.capture := rfl
@[simp] theorem State.pushReady_replay (q : Nat) (x : ReadyItem) : (s.pushReady q x).replay = s.replay := rfl
@[simp] theorem State.pushReady_geo (q : Nat) (x : ReadyItem) : (s.pushReady q x).geo = s.geo := rfl
@[simp] theorem State.pushReady_path (q : Nat) (x : ReadyItem) : (s.pushReady q x).path = s.path := rfl
@[simp] theorem State.pushReady_matrix (q : Nat) (x : ReadyItem) : (s.pushReady q x).matrix = s.matrix := rfl
@[simp] theorem State.pushReady_auxs (q : Nat) (x : ReadyItem) : (s.pushReady q x).auxs = s.auxs := rfl
@[simp] theorem State.pushReady_feeds (q : Nat) (x : ReadyItem) : (s.pushReady q x).feeds = s.feeds := rfl
@[simp] theorem State.pushReady_stage (q : Nat) (x : ReadyItem) : (s.pushReady q x).stage = s.stage := rfl
@[simp] theorem State.pushReady_firUsed (q : Nat) (x : ReadyItem) : (s.pushReady q x).firUsed = s.firUsed := rfl
@[simp] theorem State.pushReady_routes (q : Nat) (x : ReadyItem) : (s.pushReady q x).routes = s.routes := rfl
@[simp] theorem State.pushReady_ovr (q : Nat) (x : ReadyItem) : (s.pushReady q x).ovr = s.ovr := rfl
@[simp] theorem State.pushReady_corr (q : Nat) (x : ReadyItem) : (s.pushReady q x).corr = s.corr := rfl
@[simp] theorem State.pushReady_sdac (q : Nat) (x : ReadyItem) : (s.pushReady q x).sdac = s.sdac := rfl
@[simp] theorem State.pushReady_sdacWait (q : Nat) (x : ReadyItem) : (s.pushReady q x).sdacWait = s.sdacWait := rfl
@[simp] theorem State.pushReady_desks (q : Nat) (x : ReadyItem) : (s.pushReady q x).desks = s.desks := rfl
@[simp] theorem State.pushReady_tasks (q : Nat) (x : ReadyItem) : (s.pushReady q x).tasks = s.tasks := rfl
@[simp] theorem State.pushReady_groups (q : Nat) (x : ReadyItem) : (s.pushReady q x).groups = s.groups := rfl
@[simp] theorem State.pushReady_ports (q : Nat) (x : ReadyItem) : (s.pushReady q x).ports = s.ports := rfl
@[simp] theorem State.pushReady_net (q : Nat) (x : ReadyItem) : (s.pushReady q x).net = s.net := rfl
@[simp] theorem State.pushReady_ntk (q : Nat) (x : ReadyItem) : (s.pushReady q x).ntk = s.ntk := rfl
@[simp] theorem State.pushReady_dma (q : Nat) (x : ReadyItem) : (s.pushReady q x).dma = s.dma := rfl
@[simp] theorem State.pushReady_memory (q : Nat) (x : ReadyItem) : (s.pushReady q x).memory = s.memory := rfl
@[simp] theorem State.pushReady_pwr (q : Nat) (x : ReadyItem) : (s.pushReady q x).pwr = s.pwr := rfl
@[simp] theorem State.pushReady_pipe (q : Nat) (x : ReadyItem) : (s.pushReady q x).pipe = s.pipe := rfl
@[simp] theorem State.pushReady_boundary (q : Nat) (x : ReadyItem) : (s.pushReady q x).boundary = s.boundary := rfl
@[simp] theorem State.pushReady_tail (q : Nat) (x : ReadyItem) : (s.pushReady q x).tail = s.tail := rfl
@[simp] theorem State.pushReady_samples (q : Nat) (x : ReadyItem) : (s.pushReady q x).samples = s.samples := rfl
@[simp] theorem State.pushReady_free (q : Nat) (x : ReadyItem) : (s.pushReady q x).free = s.free := rfl

/-! ### watched -/

@[simp] theorem watched_pending (k : State → State) : (watched k s).pending = (k s).pending := by unfold watched; dsimp only; split <;> rfl
@[simp] theorem watched_regs (k : State → State) : (watched k s).regs = (k s).regs := by unfold watched; dsimp only; split <;> rfl
@[simp] theorem watched_rlatch (k : State → State) : (watched k s).rlatch = (k s).rlatch := by unfold watched; dsimp only; split <;> rfl
@[simp] theorem watched_wlatch (k : State → State) : (watched k s).wlatch = (k s).wlatch := by unfold watched; dsimp only; split <;> rfl
@[simp] theorem watched_host (k : State → State) : (watched k s).host = (k s).host := by unfold watched; dsimp only; split <;> rfl
@[simp] theorem watched_led (k : State → State) : (watched k s).led = (k s).led := by unfold watched; dsimp only; split <;> rfl
@[simp] theorem watched_timed (k : State → State) : (watched k s).timed = (k s).timed := by unfold watched; dsimp only; split <;> rfl
@[simp] theorem watched_clock (k : State → State) : (watched k s).clock = (k s).clock := by unfold watched; dsimp only; split <;> rfl
@[simp] theorem watched_bells (k : State → State) : (watched k s).bells = (k s).bells := by unfold watched; dsimp only; split <;> rfl
@[simp] theorem watched_cues (k : State → State) : (watched k s).cues = (k s).cues := by unfold watched; dsimp only; split <;> rfl
@[simp] theorem watched_epochs (k : State → State) : (watched k s).epochs = (k s).epochs := by unfold watched; dsimp only; split <;> rfl
@[simp] theorem watched_finals (k : State → State) : (watched k s).finals = (k s).finals := by unfold watched; dsimp only; split <;> rfl
@[simp] theorem watched_epochSeq (k : State → State) : (watched k s).epochSeq = (k s).epochSeq := by unfold watched; dsimp only; split <;> rfl
@[simp] theorem watched_sched (k : State → State) : (watched k s).sched = (k s).sched := by unfold watched; dsimp only; split <;> rfl
@[simp] theorem watched_shelves (k : State → State) : (watched k s).shelves = (k s).shelves := by unfold watched; dsimp only; split <;> rfl
@[simp] theorem watched_active (k : State → State) : (watched k s).active = (k s).active := by unfold watched; dsimp only; split <;> rfl
@[simp] theorem watched_xfades (k : State → State) : (watched k s).xfades = (k s).xfades := by unfold watched; dsimp only; split <;> rfl
@[simp] theorem watched_dram (k : State → State) : (watched k s).dram = (k s).dram := by unfold watched; dsimp only; split <;> rfl
@[simp] theorem watched_lockers (k : State → State) : (watched k s).lockers = (k s).lockers := by unfold watched; dsimp only; split <;> rfl
@[simp] theorem watched_capture (k : State → State) : (watched k s).capture = (k s).capture := by unfold watched; dsimp only; split <;> rfl
@[simp] theorem watched_replay (k : State → State) : (watched k s).replay = (k s).replay := by unfold watched; dsimp only; split <;> rfl
@[simp] theorem watched_geo (k : State → State) : (watched k s).geo = (k s).geo := by unfold watched; dsimp only; split <;> rfl
@[simp] theorem watched_path (k : State → State) : (watched k s).path = (k s).path := by unfold watched; dsimp only; split <;> rfl
@[simp] theorem watched_matrix (k : State → State) : (watched k s).matrix = (k s).matrix := by unfold watched; dsimp only; split <;> rfl
@[simp] theorem watched_auxs (k : State → State) : (watched k s).auxs = (k s).auxs := by unfold watched; dsimp only; split <;> rfl
@[simp] theorem watched_feeds (k : State → State) : (watched k s).feeds = (k s).feeds := by unfold watched; dsimp only; split <;> rfl
@[simp] theorem watched_stage (k : State → State) : (watched k s).stage = (k s).stage := by unfold watched; dsimp only; split <;> rfl
@[simp] theorem watched_firUsed (k : State → State) : (watched k s).firUsed = (k s).firUsed := by unfold watched; dsimp only; split <;> rfl
@[simp] theorem watched_routes (k : State → State) : (watched k s).routes = (k s).routes := by unfold watched; dsimp only; split <;> rfl
@[simp] theorem watched_ovr (k : State → State) : (watched k s).ovr = (k s).ovr := by unfold watched; dsimp only; split <;> rfl
@[simp] theorem watched_corr (k : State → State) : (watched k s).corr = (k s).corr := by unfold watched; dsimp only; split <;> rfl
@[simp] theorem watched_sdac (k : State → State) : (watched k s).sdac = (k s).sdac := by unfold watched; dsimp only; split <;> rfl
@[simp] theorem watched_sdacWait (k : State → State) : (watched k s).sdacWait = (k s).sdacWait := by unfold watched; dsimp only; split <;> rfl
@[simp] theorem watched_desks (k : State → State) : (watched k s).desks = (k s).desks := by unfold watched; dsimp only; split <;> rfl
@[simp] theorem watched_tasks (k : State → State) : (watched k s).tasks = (k s).tasks := by unfold watched; dsimp only; split <;> rfl
@[simp] theorem watched_groups (k : State → State) : (watched k s).groups = (k s).groups := by unfold watched; dsimp only; split <;> rfl
@[simp] theorem watched_ports (k : State → State) : (watched k s).ports = (k s).ports := by unfold watched; dsimp only; split <;> rfl
@[simp] theorem watched_net (k : State → State) : (watched k s).net = (k s).net := by unfold watched; dsimp only; split <;> rfl
@[simp] theorem watched_ntk (k : State → State) : (watched k s).ntk = (k s).ntk := by unfold watched; dsimp only; split <;> rfl
@[simp] theorem watched_dma (k : State → State) : (watched k s).dma = (k s).dma := by unfold watched; dsimp only; split <;> rfl
@[simp] theorem watched_memory (k : State → State) : (watched k s).memory = (k s).memory := by unfold watched; dsimp only; split <;> rfl
@[simp] theorem watched_pipe (k : State → State) : (watched k s).pipe = (k s).pipe := by unfold watched; dsimp only; split <;> rfl
@[simp] theorem watched_boundary (k : State → State) : (watched k s).boundary = (k s).boundary := by unfold watched; dsimp only; split <;> rfl
@[simp] theorem watched_tail (k : State → State) : (watched k s).tail = (k s).tail := by unfold watched; dsimp only; split <;> rfl
@[simp] theorem watched_samples (k : State → State) : (watched k s).samples = (k s).samples := by unfold watched; dsimp only; split <;> rfl
@[simp] theorem watched_free (k : State → State) : (watched k s).free = (k s).free := by unfold watched; dsimp only; split <;> rfl

@[simp] theorem watched_reg (k : State → State) (off : Nat) : (watched k s).reg off = (k s).reg off := by simp [State.reg]
@[simp] theorem watched_mode (k : State → State) : (watched k s).pwr.mode = (k s).pwr.mode := by
  unfold watched; dsimp only; split <;> rfl

/-! ### Reading after writing -/

@[simp] theorem State.reg_setReg (off : Nat) (v : Word) (o : Nat) : (s.setReg off v).reg o = if off = o then v else s.reg o := by
  unfold State.reg State.setReg
  simp only [tget_tset]
  split <;> rfl

@[simp] theorem State.locker_setLocker (i : Nat) (l : Locker) (j : Nat) :
    (s.setLocker i l).locker j = if i = j then l else s.locker j := by
  unfold State.locker State.setLocker
  simp only [tget_tset]
  split <;> rfl

@[simp] theorem State.feed_setFeed (i : Nat) (l : Feed) (j : Nat) : (s.setFeed i l).feed j = if i = j then l else s.feed j := by
  unfold State.feed State.setFeed
  simp only [tget_tset]
  split <;> rfl

@[simp] theorem State.task_setTask (t : Nat) (k : Task) (u : Nat) : (s.setTask t k).task u = if t = u then some k else s.task u := by
  unfold State.task State.setTask
  simp only [tget_tset]

/-- A list entry after a replacement. -/
theorem getD_set {α : Type} (l : List α) (i j : Nat) (v d : α) (h : i < l.length) : (l.set i v).getD j d = if i = j then v else l.getD j d := by
  simp only [List.getD_eq_getElem?_getD, List.getElem?_set]
  split
  · next e => subst e; simp [h]
  · rfl

theorem State.queue_setQueue (q : Nat) (v : Queue) (r : Nat) (h : q < s.host.queues.length) :
    (s.setQueue q v).queue r = if q = r then v else s.queue r := getD_set _ _ _ _ _ h

theorem State.dch_setDch (c : Nat) (k : DmaChan) (d : Nat) (h : c < s.dma.length) :
    (s.setDch c k).dch d = if c = d then k else s.dch d := getD_set _ _ _ _ _ h

theorem State.desk_setDesk (d : Nat) (k : Desk) (e : Nat) (h : d < s.desks.length) :
    (s.setDesk d k).desk e = if d = e then k else s.desk e := getD_set _ _ _ _ _ h

theorem State.slot_setSlot (k : Nat) (v : ShelfSlot) (j : Nat) (h : k < s.shelves.length) :
    (s.setSlot k v).slot j = if k = j then v else s.slot j := getD_set _ _ _ _ _ h

/-- A register write from outside acts in the modes that take it. -/
theorem barWrite_awake {k : State → State} {s : State} (h : s.pwr.mode.awake = true) : barWrite k s = k s := by
  unfold barWrite
  rw [if_pos h]

end Sys2Proof.Machine
end

