-- ==== Sys2Proof/Laws/Events.lean ====
section
/-!
SUPPORT. What reporting does: an event, a count or a completion touches registers, the host interface and the ledgers and
nothing else (`Side`), and it clears no event bit.
-/
namespace Sys2Proof.Machine

theorem Side.refl (s : State) : Side s s := ⟨s.regs, s.host, s.led, rfl⟩

theorem Side.trans {s t u : State} (h : Side s t) (g : Side t u) : Side s u := by
  obtain ⟨r, a, l, rfl⟩ := h
  obtain ⟨r', a', l', rfl⟩ := g
  exact ⟨r', a', l', rfl⟩

theorem Side.foldl {α : Type} {f : State → α → State} (hf : ∀ u x, Side u (f u x)) (l : List α) (s : State) : Side s (l.foldl f s) := by
  induction l generalizing s with
  | nil => exact Side.refl s
  | cons x xs ih => exact (hf s x).trans (ih (f s x))

theorem State.setReg_side (s : State) (off : Nat) (v : Word) : Side s (s.setReg off v) := ⟨_, _, _, rfl⟩
theorem State.orReg_side (s : State) (off m : Nat) : Side s (s.orReg off m) := ⟨_, _, _, rfl⟩
theorem State.setQueue_side (s : State) (q : Nat) (v : Queue) : Side s (s.setQueue q v) := ⟨_, _, _, rfl⟩
theorem State.pushReady_side (s : State) (q : Nat) (x : ReadyItem) : Side s (s.pushReady q x) := ⟨_, _, _, rfl⟩
theorem State.addLed_side (s : State) (i : Nat) (d : LedDelta) : Side s (s.addLed i d) := ⟨_, _, _, rfl⟩
theorem State.hostWrite_side (s : State) (a : Nat) (bs : List Byte) : Side s (s.hostWrite a bs) := ⟨_, _, _, rfl⟩

theorem State.raiseVec_side (s : State) (v : Nat) : Side s (s.raiseVec v) := by
  unfold State.raiseVec
  dsimp only
  split
  · exact ⟨_, _, _, rfl⟩
  · exact Side.refl s

theorem applyFxF_side (n : Nat) (s : State) (f : Fx) : Side s (applyFxF n s f) := by
  induction n generalizing s f with
  | zero => exact Side.refl s
  | succ n ih =>
    unfold applyFxF
    dsimp only
    split
    · exact s.addLed_side _ _
    · split
      · exact Side.refl s
      · exact (s.orReg_side _ _).trans (ih _ _)
    · split
      · exact Side.refl s
      · split
        · split
          · exact (s.setReg_side _ _).trans (ih _ _)
          · exact s.setReg_side _ _
        · exact s.setReg_side _ _
    · split
      · exact s.orReg_side _ _
      · split
        · exact s.orReg_side _ _
        · split
          · split
            · exact ((s.orReg_side _ _).trans (Side.foldl ih _ _)).trans (State.raiseVec_side _ _)
            · exact (s.orReg_side _ _).trans (Side.foldl ih _ _)
          · exact s.orReg_side _ _
    · split
      · exact ih _ _
      · split
        · exact s.pushReady_side _ _
        · exact (Side.trans ⟨_, _, _, rfl⟩ (ih _ _)).trans (ih _ _)

theorem State.fx_side (s : State) (f : Fx) : Side s (s.fx f) := applyFxF_side 10 s f
theorem State.fxs_side (s : State) (l : List Fx) : Side s (s.fxs l) := Side.foldl State.fx_side l s
theorem State.count_side (s : State) (off n : Nat) : Side s (s.count off n) := s.fx_side _
theorem State.evt_side (s : State) (off bit : Nat) : Side s (s.evt off bit) := s.fx_side _
theorem State.both_side (s : State) (off evt bit : Nat) : Side s (s.both off evt bit) := (s.count_side off 1).trans (State.evt_side _ evt bit)

theorem State.freeSlot_side (s : State) (c : CmdRef) : Side s (s.freeSlot c) := by
  unfold State.freeSlot
  dsimp only
  split
  · exact ⟨_, _, _, rfl⟩
  · exact Side.refl s

theorem State.dropCompletion_side (s : State) (c : CmdRef) : Side s (s.dropCompletion c) :=
  (s.freeSlot_side c).trans (State.count_side _ _ _)

theorem State.complete_side (s : State) (c : CmdRef) (st : Byte) (r : Nat) : Side s (s.complete c st r) := by
  unfold State.complete
  dsimp only
  split
  · exact s.dropCompletion_side c
  · exact s.pushReady_side _ _

theorem State.completeMany_side (s : State) (l : List CmdRef) (st : Byte) (r : Nat) : Side s (s.completeMany l st r) :=
  Side.foldl (fun u c => u.complete_side c st r) l s

theorem State.refuseEntry_side (s : State) (c : CmdRef) (i : Nat) (st : Byte) : Side s (s.refuseEntry c i st) := by
  unfold State.refuseEntry
  split
  · exact (s.both_side _ _ _).trans (State.complete_side _ _ _ _)
  · exact s.complete_side _ _ _

theorem settleF_side (n q : Nat) (s : State) : Side s (settleF n q s) := by
  induction n generalizing s with
  | zero => exact Side.refl s
  | succ n ih =>
    unfold settleF
    split
    · exact Side.refl s
    · split
      · exact Side.refl s
      · split
        · exact Side.refl s
        · split
          · exact Side.refl s
          · exact ((s.setQueue_side _ _).trans (State.refuseEntry_side _ _ _ _)).trans (ih _)

theorem State.settle_side (s : State) (q : Nat) : Side s (s.settle q) := settleF_side 16 q s

/-! ### Event bits stay -/

theorem bitOf_or {a b : Word} {k : Nat} (h : bitOf a k = true) : bitOf (a ||| b) k = true := by
  unfold bitOf at *
  simp [h]

/-- The report itself counts in another register. -/
def Fx.spares (off : Nat) : Fx → Prop
  | .count o _ => o ≠ off
  | _ => True

/-- A chain of reports clears no bit of a register in which it counts nothing. -/
theorem applyFxF_keepsBit {off k : Nat} (ho : noCounter off) (n : Nat) (s : State) (f : Fx) (hf : f.spares off)
    (h : bitOf (s.reg off) k = true) : bitOf ((applyFxF n s f).reg off) k = true := by
  induction n generalizing s f with
  | zero => exact h
  | succ n ih =>
    have orR : ∀ (u : State) (o m : Nat), bitOf (u.reg off) k = true → bitOf ((u.orReg o m).reg off) k = true := by
      intro u o m hu
      unfold State.orReg
      rw [State.reg_setReg]
      split
      · next e => subst e; exact bitOf_or hu
      · exact hu
    have ray : ∀ (u : State) (v : Nat), (u.raiseVec v).reg off = u.reg off := by
      intro u v
      unfold State.raiseVec
      dsimp only
      split <;> rfl
    unfold applyFxF
    dsimp only
    split
    · exact h
    · split
      · exact h
      · exact ih _ _ trivial (orR _ _ _ h)
    · next o m =>
      have hs : ∀ v, bitOf ((s.setReg o v).reg off) k = true := by
        intro v
        rw [State.reg_setReg, if_neg hf]
        exact h
      split
      · exact h
      · split
        · split
          · exact ih _ _ trivial (hs _)
          · exact hs _
        · exact hs _
    · next o b =>
      split
      · exact orR _ _ _ h
      · split
        · exact orR _ _ _ h
        · have fold : ∀ (l : List Fx) (u : State), (∀ x ∈ l, x.spares off) → bitOf (u.reg off) k = true →
              bitOf ((l.foldl (applyFxF n) u).reg off) k = true := by
            intro l
            induction l with
            | nil => exact fun u _ hu => hu
            | cons x xs ihl => exact fun u hx hu => ihl _ (fun y hy => hx y (by simp [hy])) (ih u x (hx x (by simp)) hu)
          have ha : ∀ x ∈ (armed o b).1, x.spares off := by
            intro x hx
            unfold armed at hx
            split at hx
            · simp at hx
            · simp only [List.mem_singleton] at hx
              subst hx
              trivial
          split
          · split
            · rw [ray]
              exact fold _ _ ha (orR _ _ _ h)
            · exact fold _ _ ha (orR _ _ _ h)
          · exact orR _ _ _ h
    · split
      · exact ih _ _ (Ne.symm ho.1) h
      · split
        · exact h
        · exact ih _ _ trivial (ih _ _ (Ne.symm ho.2) h)

/-- A report of an event sets its bit before anything that follows from it. -/
theorem applyFxF_evt_bit {off k : Nat} (ho : noCounter off) (hk : k < 32) (n : Nat) (s : State) :
    bitOf ((applyFxF (n + 1) s (.evt off k)).reg off) k = true := by
  have h1 : bitOf ((s.orReg off (2 ^ k)).reg off) k = true := by
    unfold State.orReg
    rw [State.reg_setReg, if_pos rfl]
    unfold bitOf word
    rw [BitVec.getLsbD_or, BitVec.getLsbD_ofNat]
    simp [hk, Nat.testBit_two_pow_self]
  have ray : ∀ (u : State) (v : Nat), (u.raiseVec v).reg off = u.reg off := by
    intro u v
    unfold State.raiseVec
    dsimp only
    split <;> rfl
  have fold : ∀ (l : List Fx) (u : State), (∀ x ∈ l, x.spares off) → bitOf (u.reg off) k = true →
      bitOf ((l.foldl (applyFxF n) u).reg off) k = true := by
    intro l
    induction l with
    | nil => exact fun u _ hu => hu
    | cons x xs ihl => exact fun u hx hu => ihl _ (fun y hy => hx y (by simp [hy])) (applyFxF_keepsBit ho n u x (hx x (by simp)) hu)
  have ha : ∀ x ∈ (armed off k).1, x.spares off := by
    intro x hx
    unfold armed at hx
    split at hx
    · simp at hx
    · simp only [List.mem_singleton] at hx
      subst hx
      trivial
  unfold applyFxF
  dsimp only
  split
  · exact h1
  · split
    · exact h1
    · split
      · split
        · rw [ray]
          exact fold _ _ ha h1
        · exact fold _ _ ha h1
      · exact h1

end Sys2Proof.Machine
end

