-- ==== Sys2Proof/Laws/Keeps.lean ====
section
/-!
SUPPORT. What no operation changes: the queue of waiting commands; and what every operation keeps: the
canonical form of the memories and the balance of the ledgers (`State.sound`). `Keeps s t` says it of two
states; every operation of the model has a lemma of this form, named `<operation>_keeps`.
-/
namespace Sys2Proof.Machine

/-- `t` comes from `s` by operations that leave the queue alone and keep `State.sound`. -/
structure Keeps (s t : State) : Prop where
  pending : t.pending = s.pending
  sound   : s.sound → t.sound

theorem Keeps.refl (s : State) : Keeps s s := ⟨rfl, id⟩

theorem Keeps.trans {s t u : State} (h : Keeps s t) (g : Keeps t u) : Keeps s u :=
  ⟨g.pending.trans h.pending, fun x => g.sound (h.sound x)⟩

/-- A state that differs in other fields only. -/
theorem Keeps.of_eq {s b t : State} (hp : t.pending = b.pending) (hm : t.host.mem = b.host.mem) (hd : t.dram = b.dram)
    (hf : t.memory.fallback = b.memory.fallback) (hl : t.led.tab = b.led.tab) (h : Keeps s b) : Keeps s t := by
  refine h.trans ⟨hp, fun x => ?_⟩
  obtain ⟨⟨h1, h2, h3⟩, h4⟩ := x
  refine ⟨⟨?_, ?_, ?_⟩, ?_⟩
  · rw [hm]; exact h1
  · rw [hd]; exact h2
  · rw [hf]; exact h3
  · unfold State.ledgersBalance; rw [hl]; exact h4

/-- A record update whose queue is that of `b`. -/
theorem Keeps.record {s b : State} {regs rlatch wlatch host led timed clock bells cues epochs finals epochSeq sched shelves active
    xfades dram lockers capture replay geo path matrix auxs feeds stage firUsed routes ovr corr sdac sdacWait desks tasks groups
    ports net ntk dma memory pwr pipe boundary tail samples free}
    (hm : host.mem = b.host.mem) (hd : dram = b.dram) (hf : memory.fallback = b.memory.fallback) (hl : led.tab = b.led.tab)
    (h : Keeps s b) :
    Keeps s (State.mk b.pending regs rlatch wlatch host led timed clock bells cues epochs finals epochSeq sched shelves active
      xfades dram lockers capture replay geo path matrix auxs feeds stage firUsed routes ovr corr sdac sdacWait desks tasks groups
      ports net ntk dma memory pwr pipe boundary tail samples free) :=
  Keeps.of_eq (b := b) rfl hm hd hf hl h

theorem Keeps.ite {s a b : State} {c : Prop} [Decidable c] (h1 : c → Keeps s a) (h2 : ¬c → Keeps s b) :
    Keeps s (if c then a else b) := by
  split
  · next h => exact h1 h
  · next h => exact h2 h

theorem Keeps.foldl {α : Type} {s b : State} {f : State → α → State} {l : List α} (hf : ∀ u x, Keeps s u → Keeps s (f u x))
    (h : Keeps s b) : Keeps s (l.foldl f b) := by
  induction l generalizing b with
  | nil => exact h
  | cons x xs ih => exact ih (hf b x h)

theorem Keeps.foldlFst {α β : Type} {s : State} {b : State × β} {f : State × β → α → State × β} {l : List α}
    (hf : ∀ u x, Keeps s u.1 → Keeps s (f u x).1) (h : Keeps s b.1) : Keeps s (l.foldl f b).1 := by
  induction l generalizing b with
  | nil => exact h
  | cons x xs ih => exact ih (hf b x h)

theorem Keeps.foldlSnd {α β : Type} {s : State} {b : β × State} {f : β × State → α → β × State} {l : List α}
    (hf : ∀ u x, Keeps s u.2 → Keeps s (f u x).2) (h : Keeps s b.2) : Keeps s (l.foldl f b).2 := by
  induction l generalizing b with
  | nil => exact h
  | cons x xs ih => exact ih (hf b x h)

theorem Keeps.idS {s t : State} (h : Keeps s t) : Keeps s (id t) := h

theorem Keeps.snd {α : Type} {s t : State} {p : α × State} {x : α} (e : p = (x, t)) (h : Keeps s p.2) : Keeps s t := by
  rw [e] at h; exact h

theorem Keeps.fst {α : Type} {s t : State} {p : State × α} {x : α} (e : p = (t, x)) (h : Keeps s p.1) : Keeps s t := by
  rw [e] at h; exact h

end Sys2Proof.Machine
end

