-- ==== Sys2Proof/Laws/KeepsOps.lean ====
section
/-!
SUPPORT. Operations of Ops, GeoUnit, DmaCore, Sched, Clock, Chain, Memory, Ptp, Sdac leave the queue alone and keep `State.sound` (`Keeps`).
-/
namespace Sys2Proof.Machine

/-! ### Ops -/

theorem State.addLed_keeps {s0 : State} {s} {i} {d} (h : Keeps s0 s) : Keeps s0 (State.addLed s i d) := by
  unfold State.addLed
  repeat' first
    | extract_lets +onlyGivenNames x
    | with_reducible exact h
    | with_reducible refine Keeps.record rfl rfl rfl rfl ?_

theorem State.addTimed_keeps {s0 : State} {s} {c} {at_} {adj} {a} (h : Keeps s0 s) : Keeps s0 (State.addTimed s c at_ adj a) := by
  unfold State.addTimed
  repeat' first
    | extract_lets +onlyGivenNames x
    | with_reducible exact h
    | with_reducible refine Keeps.record rfl rfl rfl rfl ?_

theorem State.setReg_keeps {s0 : State} {s} {off} {v} (h : Keeps s0 s) : Keeps s0 (State.setReg s off v) := by
  unfold State.setReg
  repeat' first
    | extract_lets +onlyGivenNames x
    | with_reducible exact h
    | with_reducible refine Keeps.record rfl rfl rfl rfl ?_

theorem State.orReg_keeps {s0 : State} {s} {off} {m} (h : Keeps s0 s) : Keeps s0 (State.orReg s off m) := by
  unfold State.orReg
  repeat' first
    | extract_lets +onlyGivenNames x
    | with_reducible exact h
    | with_reducible apply State.setReg_keeps

theorem State.raiseVec_keeps {s0 : State} {s} {v} (h : Keeps s0 s) : Keeps s0 (State.raiseVec s v) := by
  unfold State.raiseVec
  repeat' first
    | extract_lets +onlyGivenNames x
    | with_reducible exact h
    | with_reducible refine Keeps.ite (fun _ => ?_) (fun _ => ?_)
    | with_reducible refine Keeps.record rfl rfl rfl rfl ?_

theorem State.pushReady_keeps {s0 : State} {s} {q} {x} (h : Keeps s0 s) : Keeps s0 (State.pushReady s q x) := by
  unfold State.pushReady
  repeat' first
    | extract_lets +onlyGivenNames x
    | with_reducible exact h
    | with_reducible refine Keeps.record rfl rfl rfl rfl ?_

theorem applyFxF_keeps {s0 b : State} {n : Nat} {fx : Fx} (h : Keeps s0 b) : Keeps s0 (applyFxF n b fx) := by
  induction n generalizing b fx with
  | zero => exact h
  | succ n ih =>
    unfold applyFxF
    repeat' first
      | (extract_lets +onlyGivenNames x; refine (fun hx => ?_) (?_ : Keeps s0 x); clear_value x; rotate_left; subst x)
      | extract_lets +onlyGivenNames x
      | with_reducible exact h
      | with_reducible apply ih
      | with_reducible apply State.addLed_keeps
      | with_reducible apply State.orReg_keeps
      | with_reducible apply State.setReg_keeps
      | with_reducible apply State.raiseVec_keeps
      | with_reducible apply State.pushReady_keeps
      | with_reducible refine Keeps.ite (fun _ => ?_) (fun _ => ?_)
      | with_reducible refine Keeps.foldl (fun _ _ _ => ?_) ?_
      | with_reducible assumption
      | split
      | with_reducible refine Keeps.record rfl rfl rfl rfl ?_

theorem State.fx_keeps {s0 : State} {s} {f} (h : Keeps s0 s) : Keeps s0 (State.fx s f) := by
  unfold State.fx
  repeat' first
    | extract_lets +onlyGivenNames x
    | with_reducible exact h
    | with_reducible apply applyFxF_keeps

theorem State.fxs_keeps {s0 : State} {s} {l} (h : Keeps s0 s) : Keeps s0 (State.fxs s l) := by
  unfold State.fxs
  repeat' first
    | extract_lets +onlyGivenNames x
    | with_reducible exact h
    | with_reducible apply State.fx_keeps
    | with_reducible refine Keeps.foldl (fun _ _ _ => ?_) ?_
    | with_reducible assumption

theorem State.arm_keeps {s0 : State} {s} {off} {bit} (h : Keeps s0 s) : Keeps s0 (State.arm s off bit) := by
  unfold State.arm
  repeat' first
    | (extract_lets +onlyGivenNames x; refine (fun hx => ?_) (?_ : Keeps s0 x); clear_value x; rotate_left; subst x)
    | extract_lets +onlyGivenNames x
    | with_reducible exact h
    | with_reducible apply State.fxs_keeps
    | with_reducible apply State.raiseVec_keeps
    | with_reducible assumption
    | split

theorem State.evt_keeps {s0 : State} {s} {off} {bit} (h : Keeps s0 s) : Keeps s0 (State.evt s off bit) := by
  unfold State.evt
  repeat' first
    | extract_lets +onlyGivenNames x
    | with_reducible exact h
    | with_reducible apply State.fx_keeps

theorem State.count_keeps {s0 : State} {s} {off} {n} (h : Keeps s0 s) : Keeps s0 (State.count s off n) := by
  unfold State.count
  repeat' first
    | extract_lets +onlyGivenNames x
    | with_reducible exact h
    | with_reducible apply State.fx_keeps

theorem State.both_keeps {s0 : State} {s} {off} {evt} {bit} (h : Keeps s0 s) : Keeps s0 (State.both s off evt bit) := by
  unfold State.both
  repeat' first
    | extract_lets +onlyGivenNames x
    | with_reducible exact h
    | with_reducible apply State.evt_keeps
    | with_reducible apply State.count_keeps

theorem State.setQueue_keeps {s0 : State} {s} {q} {v} (h : Keeps s0 s) : Keeps s0 (State.setQueue s q v) := by
  unfold State.setQueue
  repeat' first
    | extract_lets +onlyGivenNames x
    | with_reducible exact h
    | with_reducible refine Keeps.record rfl rfl rfl rfl ?_

theorem State.freeSlot_keeps {s0 : State} {s} {c} (h : Keeps s0 s) : Keeps s0 (State.freeSlot s c) := by
  unfold State.freeSlot
  repeat' first
    | (extract_lets +onlyGivenNames x; refine (fun hx => ?_) (?_ : Keeps s0 x); clear_value x; rotate_left; subst x)
    | extract_lets +onlyGivenNames x
    | with_reducible exact h
    | with_reducible apply State.setQueue_keeps
    | with_reducible refine Keeps.ite (fun _ => ?_) (fun _ => ?_)
    | with_reducible assumption
    | with_reducible refine Keeps.record rfl rfl rfl rfl ?_

theorem State.dropCompletion_keeps {s0 : State} {s} {c} (h : Keeps s0 s) : Keeps s0 (State.dropCompletion s c) := by
  unfold State.dropCompletion
  repeat' first
    | extract_lets +onlyGivenNames x
    | with_reducible exact h
    | with_reducible apply State.count_keeps
    | with_reducible apply State.freeSlot_keeps

theorem State.complete_keeps {s0 : State} {s} {c} {status} {result} (h : Keeps s0 s) : Keeps s0 (State.complete s c status result) := by
  unfold State.complete
  repeat' first
    | extract_lets +onlyGivenNames x
    | with_reducible exact h
    | with_reducible apply State.dropCompletion_keeps
    | with_reducible apply State.pushReady_keeps
    | with_reducible refine Keeps.ite (fun _ => ?_) (fun _ => ?_)

theorem State.completeMany_keeps {s0 : State} {s} {cs} {status} {result} (h : Keeps s0 s) : Keeps s0 (State.completeMany s cs status result) := by
  unfold State.completeMany
  repeat' first
    | extract_lets +onlyGivenNames x
    | with_reducible exact h
    | with_reducible apply State.complete_keeps
    | with_reducible refine Keeps.foldl (fun _ _ _ => ?_) ?_
    | with_reducible assumption

theorem State.dramWrite_keeps {s0 s : State} {addr : Nat} {bs : List Byte} (h : Keeps s0 s) : Keeps s0 (s.dramWrite addr bs) :=
  h.trans ⟨rfl, fun x => ⟨⟨x.1.1, Memory.wf_memWrite x.1.2.1 addr bs, x.1.2.2⟩, x.2⟩⟩

theorem State.draw_keeps {s0 : State} {s} (h : Keeps s0 s) : Keeps s0 (State.draw s).2 := by
  unfold State.draw
  repeat' first
    | extract_lets +onlyGivenNames x
    | with_reducible exact h
    | with_reducible refine Keeps.record rfl rfl rfl rfl ?_

theorem State.hostWrite_keeps {s0 s : State} {addr : Nat} {bs : List Byte} (h : Keeps s0 s) : Keeps s0 (s.hostWrite addr bs) :=
  h.trans ⟨rfl, fun x => ⟨⟨Memory.wf_memWrite x.1.1 addr bs, x.1.2⟩, x.2⟩⟩

theorem State.schedule_keeps {s0 : State} {s} {st} {key} {at_} {c} (h : Keeps s0 s) : Keeps s0 (State.schedule s st key at_ c) := by
  unfold State.schedule
  repeat' first
    | extract_lets +onlyGivenNames x
    | with_reducible exact h
    | with_reducible refine Keeps.record rfl rfl rfl rfl ?_

theorem State.setEpoch_keeps {s0 : State} {s} {e} (h : Keeps s0 s) : Keeps s0 (State.setEpoch s e) := by
  unfold State.setEpoch
  repeat' first
    | extract_lets +onlyGivenNames x
    | with_reducible exact h
    | with_reducible refine Keeps.record rfl rfl rfl rfl ?_

theorem State.tally_keeps {s0 : State} {s} {i} {d} (h : Keeps s0 s) : Keeps s0 (State.tally s i d) := by
  unfold State.tally
  repeat' first
    | extract_lets +onlyGivenNames x
    | with_reducible exact h
    | with_reducible apply State.addLed_keeps
    | with_reducible refine Keeps.ite (fun _ => ?_) (fun _ => ?_)

theorem barWrite_keeps {s0 s : State} {k : State → State} (hk : Keeps s0 (k s)) (h : Keeps s0 s) : Keeps s0 (barWrite k s) := by
  unfold barWrite
  split
  · exact hk
  · exact h

theorem watched_keeps {s0 s : State} {k : State → State} (hk : Keeps s0 (k s)) : Keeps s0 (watched k s) := by
  unfold watched
  dsimp only
  split
  · exact hk
  · exact Keeps.record rfl rfl rfl rfl hk

/-! ### GeoUnit -/

theorem State.stageOne_keeps {s0 : State} {s} {q} (h : Keeps s0 s) : Keeps s0 (State.stageOne s q) := by
  unfold State.stageOne
  repeat' first
    | (extract_lets +onlyGivenNames x; refine (fun hx => ?_) (?_ : Keeps s0 x); clear_value x; rotate_left; subst x)
    | extract_lets +onlyGivenNames x
    | with_reducible exact h
    | with_reducible apply State.setEpoch_keeps
    | with_reducible assumption
    | split
    | with_reducible refine Keeps.record rfl rfl rfl rfl ?_

theorem State.stageWork_keeps {s0 : State} {s} (h : Keeps s0 s) : Keeps s0 (State.stageWork s) := by
  unfold State.stageWork
  repeat' first
    | extract_lets +onlyGivenNames x
    | with_reducible exact h
    | with_reducible apply State.stageOne_keeps
    | with_reducible refine Keeps.foldl (fun _ _ _ => ?_) ?_
    | with_reducible assumption

theorem State.evaluateGeo_keeps {s0 : State} {b} {x} (h : Keeps s0 b) : Keeps s0 (State.evaluateGeo b x) := by
  unfold State.evaluateGeo
  repeat' first
    | (extract_lets +onlyGivenNames x; refine (fun hx => ?_) (?_ : Keeps s0 x); clear_value x; rotate_left; subst x)
    | extract_lets +onlyGivenNames x
    | with_reducible exact h
    | with_reducible apply State.stageWork_keeps
    | with_reducible apply State.draw_keeps
    | with_reducible apply State.fxs_keeps
    | with_reducible assumption
    | split
    | with_reducible refine Keeps.record rfl rfl rfl rfl ?_

theorem State.freezeGeo_keeps {s0 : State} {s} {f} (h : Keeps s0 s) : Keeps s0 (State.freezeGeo s f) := by
  unfold State.freezeGeo
  repeat' first
    | extract_lets +onlyGivenNames x
    | with_reducible exact h
    | with_reducible apply State.fxs_keeps
    | with_reducible refine Keeps.record rfl rfl rfl rfl ?_

theorem State.handOver_keeps {s0 : State} {s} (h : Keeps s0 s) : Keeps s0 (State.handOver s) := by
  unfold State.handOver
  repeat' first
    | extract_lets +onlyGivenNames x
    | with_reducible exact h
    | with_reducible apply State.fxs_keeps
    | split
    | with_reducible refine Keeps.record rfl rfl rfl rfl ?_

theorem State.probeRegs_keeps {s0 : State} {s} {d} {g} {t} {st} {p} (h : Keeps s0 s) : Keeps s0 (State.probeRegs s d g t st p) := by
  unfold State.probeRegs
  repeat' first
    | (extract_lets +onlyGivenNames x; refine (fun hx => ?_) (?_ : Keeps s0 x); clear_value x; rotate_left; subst x)
    | extract_lets +onlyGivenNames x
    | with_reducible exact h
    | with_reducible apply State.setReg_keeps
    | with_reducible assumption

theorem State.setLocker_keeps {s0 : State} {s} {i} {l} (h : Keeps s0 s) : Keeps s0 (State.setLocker s i l) := by
  unfold State.setLocker
  repeat' first
    | extract_lets +onlyGivenNames x
    | with_reducible exact h
    | with_reducible refine Keeps.record rfl rfl rfl rfl ?_

/-! ### DmaCore -/

theorem State.setDch_keeps {s0 : State} {s} {c} {k} (h : Keeps s0 s) : Keeps s0 (State.setDch s c k) := by
  unfold State.setDch
  repeat' first
    | extract_lets +onlyGivenNames x
    | with_reducible exact h
    | with_reducible refine Keeps.record rfl rfl rfl rfl ?_

theorem State.dmaAbortSample_keeps {s0 : State} {s} {c} (h : Keeps s0 s) : Keeps s0 (State.dmaAbortSample s c) := by
  unfold State.dmaAbortSample
  repeat' first
    | (extract_lets +onlyGivenNames x; refine (fun hx => ?_) (?_ : Keeps s0 x); clear_value x; rotate_left; subst x)
    | extract_lets +onlyGivenNames x
    | with_reducible exact h
    | with_reducible apply State.setDch_keeps
    | with_reducible refine Keeps.ite (fun _ => ?_) (fun _ => ?_)
    | with_reducible assumption
    | with_reducible refine Keeps.record rfl rfl rfl rfl ?_

theorem State.dmaAbortAll_keeps {s0 : State} {s} (h : Keeps s0 s) : Keeps s0 (State.dmaAbortAll s) := by
  unfold State.dmaAbortAll
  repeat' first
    | extract_lets +onlyGivenNames x
    | with_reducible exact h
    | with_reducible apply State.dmaAbortSample_keeps
    | with_reducible refine Keeps.foldl (fun _ _ _ => ?_) ?_
    | with_reducible assumption

theorem State.dmaStopped_keeps {s0 : State} {s} {c} {k} {written} (h : Keeps s0 s) : Keeps s0 (State.dmaStopped s c k written) := by
  unfold State.dmaStopped
  repeat' first
    | (extract_lets +onlyGivenNames x; refine (fun hx => ?_) (?_ : Keeps s0 x); clear_value x; rotate_left; subst x)
    | extract_lets +onlyGivenNames x
    | with_reducible exact h
    | with_reducible apply State.completeMany_keeps
    | with_reducible apply State.setDch_keeps
    | with_reducible apply State.evt_keeps
    | with_reducible assumption

theorem State.dmaAtEnd_keeps {s0 : State} {s} {c} (h : Keeps s0 s) : Keeps s0 (State.dmaAtEnd s c) := by
  unfold State.dmaAtEnd
  repeat' first
    | extract_lets +onlyGivenNames x
    | with_reducible exact h
    | with_reducible apply State.dmaStopped_keeps

theorem State.dmaFault_keeps {s0 : State} {s} {c} {code} (h : Keeps s0 s) : Keeps s0 (State.dmaFault s c code) := by
  unfold State.dmaFault
  repeat' first
    | extract_lets +onlyGivenNames x
    | with_reducible exact h
    | with_reducible apply State.dmaStopped_keeps
    | with_reducible apply State.count_keeps

theorem State.dmaStartNow_keeps {s0 : State} {s} {cmd} {adj} {c} {addr} {space} (h : Keeps s0 s) : Keeps s0 (State.dmaStartNow s cmd adj c addr space) := by
  unfold State.dmaStartNow
  repeat' first
    | extract_lets +onlyGivenNames x
    | with_reducible exact h
    | with_reducible apply State.complete_keeps
    | with_reducible apply State.setDch_keeps
    | with_reducible refine Keeps.ite (fun _ => ?_) (fun _ => ?_)

theorem dmaCtlAbort_keeps {s0 : State} {c} {s} (h : Keeps s0 s) : Keeps s0 (dmaCtlAbort c s) := by
  unfold dmaCtlAbort
  repeat' first
    | extract_lets +onlyGivenNames x
    | with_reducible exact h
    | with_reducible apply State.dmaAbortSample_keeps
    | with_reducible refine Keeps.ite (fun _ => ?_) (fun _ => ?_)

theorem dmaDoorbell_keeps {s0 : State} {c} {s} (h : Keeps s0 s) : Keeps s0 (dmaDoorbell c s) := by
  unfold dmaDoorbell
  repeat' first
    | extract_lets +onlyGivenNames x
    | with_reducible exact h
    | with_reducible apply State.setDch_keeps
    | with_reducible refine Keeps.ite (fun _ => ?_) (fun _ => ?_)
    | split

theorem dmaModeWrite_keeps {s0 : State} {v} {s} (h : Keeps s0 s) : Keeps s0 (dmaModeWrite v s) := by
  unfold dmaModeWrite
  repeat' first
    | extract_lets +onlyGivenNames x
    | with_reducible exact h
    | with_reducible apply State.evt_keeps
    | with_reducible apply State.setReg_keeps
    | with_reducible refine Keeps.ite (fun _ => ?_) (fun _ => ?_)

theorem dmaNextPc_keeps {s0 : State} {c} {v} {same} {s} (h : Keeps s0 s) : Keeps s0 (dmaNextPc c v same s) := by
  unfold dmaNextPc
  repeat' first
    | (extract_lets +onlyGivenNames x; refine (fun hx => ?_) (?_ : Keeps s0 x); clear_value x; rotate_left; subst x)
    | extract_lets +onlyGivenNames x
    | with_reducible exact h
    | with_reducible apply State.setDch_keeps
    | with_reducible apply State.both_keeps
    | with_reducible refine Keeps.ite (fun _ => ?_) (fun _ => ?_)
    | with_reducible assumption

/-! ### Sched -/

theorem State.setTask_keeps {s0 : State} {s} {t} {k} (h : Keeps s0 s) : Keeps s0 (State.setTask s t k) := by
  unfold State.setTask
  repeat' first
    | extract_lets +onlyGivenNames x
    | with_reducible exact h
    | with_reducible refine Keeps.record rfl rfl rfl rfl ?_

theorem State.joinList_keeps {s0 : State} {s} {key} {t} (h : Keeps s0 s) : Keeps s0 (State.joinList s key t) := by
  unfold State.joinList
  repeat' first
    | extract_lets +onlyGivenNames x
    | with_reducible exact h
    | with_reducible refine Keeps.record rfl rfl rfl rfl ?_

theorem State.applyPost_keeps {s0 : State} {s} {t} {mask} (h : Keeps s0 s) : Keeps s0 (State.applyPost s t mask) := by
  unfold State.applyPost
  repeat' first
    | (extract_lets +onlyGivenNames x; refine (fun hx => ?_) (?_ : Keeps s0 x); clear_value x; rotate_left; subst x)
    | extract_lets +onlyGivenNames x
    | with_reducible exact h
    | with_reducible apply State.setTask_keeps
    | with_reducible apply State.joinList_keeps
    | with_reducible refine Keeps.ite (fun _ => ?_) (fun _ => ?_)
    | with_reducible assumption
    | split
    | with_reducible refine Keeps.record rfl rfl rfl rfl ?_

theorem State.bellOver_keeps {s0 : State} {s} {stream} {id} {acted} (h : Keeps s0 s) : Keeps s0 (State.bellOver s stream id acted) := by
  unfold State.bellOver
  repeat' first
    | (extract_lets +onlyGivenNames x; refine (fun hx => ?_) (?_ : Keeps s0 x); clear_value x; rotate_left; subst x)
    | extract_lets +onlyGivenNames x
    | with_reducible exact h
    | with_reducible apply State.count_keeps
    | with_reducible refine Keeps.ite (fun _ => ?_) (fun _ => ?_)
    | with_reducible assumption
    | split
    | with_reducible refine Keeps.record rfl rfl rfl rfl ?_

theorem State.substitute_keeps {s0 : State} {s} {t} (h : Keeps s0 s) : Keeps s0 (State.substitute s t) := by
  unfold State.substitute
  repeat' first
    | (extract_lets +onlyGivenNames x; refine (fun hx => ?_) (?_ : Keeps s0 x); clear_value x; rotate_left; subst x)
    | extract_lets +onlyGivenNames x
    | with_reducible exact h
    | with_reducible apply State.setTask_keeps
    | with_reducible apply State.both_keeps
    | with_reducible apply State.evt_keeps
    | with_reducible apply State.count_keeps
    | with_reducible refine Keeps.ite (fun _ => ?_) (fun _ => ?_)
    | with_reducible assumption
    | split

theorem State.setDesk_keeps {s0 : State} {s} {d} {k} (h : Keeps s0 s) : Keeps s0 (State.setDesk s d k) := by
  unfold State.setDesk
  repeat' first
    | extract_lets +onlyGivenNames x
    | with_reducible exact h
    | with_reducible refine Keeps.record rfl rfl rfl rfl ?_

theorem State.dropSignal_keeps {s0 : State} {s} {d} (h : Keeps s0 s) : Keeps s0 (State.dropSignal s d) := by
  unfold State.dropSignal
  repeat' first
    | extract_lets +onlyGivenNames x
    | with_reducible exact h
    | with_reducible refine Keeps.record rfl rfl rfl rfl ?_

theorem State.runEnds_keeps {s0 : State} {s} {t} (h : Keeps s0 s) : Keeps s0 (State.runEnds s t) := by
  unfold State.runEnds
  repeat' first
    | extract_lets +onlyGivenNames x
    | with_reducible exact h
    | with_reducible apply State.joinList_keeps
    | with_reducible apply State.setTask_keeps
    | with_reducible refine Keeps.ite (fun _ => ?_) (fun _ => ?_)
    | split

theorem State.stopRun_keeps {s0 : State} {s} {t} (h : Keeps s0 s) : Keeps s0 (State.stopRun s t) := by
  unfold State.stopRun
  repeat' first
    | (extract_lets +onlyGivenNames x; refine (fun hx => ?_) (?_ : Keeps s0 x); clear_value x; rotate_left; subst x)
    | extract_lets +onlyGivenNames x
    | with_reducible exact h
    | with_reducible apply State.dropSignal_keeps
    | with_reducible apply State.runEnds_keeps
    | with_reducible apply State.setDesk_keeps
    | with_reducible assumption
    | split

theorem State.leaveList_keeps {s0 : State} {s} {key} {t} (h : Keeps s0 s) : Keeps s0 (State.leaveList s key t) := by
  unfold State.leaveList
  repeat' first
    | extract_lets +onlyGivenNames x
    | with_reducible exact h
    | with_reducible refine Keeps.record rfl rfl rfl rfl ?_

theorem State.missed_keeps {s0 : State} {s} (h : Keeps s0 s) : Keeps s0 (State.missed s) := by
  unfold State.missed
  repeat' first
    | extract_lets +onlyGivenNames x
    | with_reducible exact h
    | with_reducible apply State.count_keeps
    | with_reducible refine Keeps.ite (fun _ => ?_) (fun _ => ?_)

theorem State.cutoff_keeps {s0 : State} {s} {t} (h : Keeps s0 s) : Keeps s0 (State.cutoff s t) := by
  unfold State.cutoff
  repeat' first
    | (extract_lets +onlyGivenNames x; refine (fun hx => ?_) (?_ : Keeps s0 x); clear_value x; rotate_left; subst x)
    | extract_lets +onlyGivenNames x
    | with_reducible exact h
    | with_reducible apply State.evt_keeps
    | with_reducible apply State.count_keeps
    | with_reducible apply State.substitute_keeps
    | with_reducible apply State.setDesk_keeps
    | with_reducible apply State.stopRun_keeps
    | with_reducible apply State.setTask_keeps
    | with_reducible apply State.leaveList_keeps
    | with_reducible apply State.missed_keeps
    | with_reducible refine Keeps.ite (fun _ => ?_) (fun _ => ?_)
    | with_reducible assumption
    | split

theorem State.deskFault_keeps {s0 : State} {s} {d} {code} (h : Keeps s0 s) : Keeps s0 (State.deskFault s d code) := by
  unfold State.deskFault
  repeat' first
    | (extract_lets +onlyGivenNames x; refine (fun hx => ?_) (?_ : Keeps s0 x); clear_value x; rotate_left; subst x)
    | extract_lets +onlyGivenNames x
    | with_reducible exact h
    | with_reducible apply State.setDesk_keeps
    | with_reducible apply State.dropSignal_keeps
    | with_reducible apply State.evt_keeps
    | with_reducible apply State.count_keeps
    | with_reducible apply State.runEnds_keeps
    | with_reducible apply State.substitute_keeps
    | with_reducible refine Keeps.ite (fun _ => ?_) (fun _ => ?_)
    | with_reducible assumption
    | split

theorem State.dispatchOne_keeps {s0 : State} {s} {d} (h : Keeps s0 s) : Keeps s0 (State.dispatchOne s d) := by
  unfold State.dispatchOne
  repeat' first
    | (extract_lets +onlyGivenNames x; refine (fun hx => ?_) (?_ : Keeps s0 x); clear_value x; rotate_left; subst x)
    | (extract_lets +onlyGivenNames x; refine (fun hx => ?_) (?_ : Keeps s0 x.2); clear_value x; rotate_left; subst x)
    | extract_lets +onlyGivenNames x
    | with_reducible exact h
    | with_reducible apply State.draw_keeps
    | with_reducible apply State.setTask_keeps
    | with_reducible apply State.leaveList_keeps
    | with_reducible apply State.count_keeps
    | with_reducible apply State.setDesk_keeps
    | with_reducible refine Keeps.ite (fun _ => ?_) (fun _ => ?_)
    | with_reducible assumption
    | split
    | with_reducible refine Keeps.record rfl rfl rfl rfl ?_

theorem State.dispatch_keeps {s0 : State} {s} {d} (h : Keeps s0 s) : Keeps s0 (State.dispatch s d) := by
  unfold State.dispatch
  repeat' first
    | extract_lets +onlyGivenNames x
    | with_reducible exact h
    | with_reducible apply State.dispatchOne_keeps
    | with_reducible refine Keeps.ite (fun _ => ?_) (fun _ => ?_)
    | with_reducible refine Keeps.foldl (fun _ _ _ => ?_) ?_
    | with_reducible assumption

theorem State.runLimit_keeps {s0 : State} {s} {d} (h : Keeps s0 s) : Keeps s0 (State.runLimit s d) := by
  unfold State.runLimit
  repeat' first
    | extract_lets +onlyGivenNames x
    | with_reducible exact h
    | with_reducible apply State.deskFault_keeps
    | with_reducible refine Keeps.ite (fun _ => ?_) (fun _ => ?_)

theorem State.signalOver_keeps {s0 : State} {s} {d} (h : Keeps s0 s) : Keeps s0 (State.signalOver s d) := by
  unfold State.signalOver
  repeat' first
    | (extract_lets +onlyGivenNames x; refine (fun hx => ?_) (?_ : Keeps s0 x.2); clear_value x; rotate_left; subst x)
    | extract_lets +onlyGivenNames x
    | with_reducible exact h
    | with_reducible apply State.draw_keeps
    | with_reducible apply State.runLimit_keeps
    | with_reducible apply State.setDesk_keeps
    | with_reducible apply State.deskFault_keeps
    | with_reducible assumption
    | split

theorem State.releasePoster_keeps {s0 : State} {s} {src} {applied} (h : Keeps s0 s) : Keeps s0 (State.releasePoster s src applied) := by
  unfold State.releasePoster
  repeat' first
    | (extract_lets +onlyGivenNames x; refine (fun hx => ?_) (?_ : Keeps s0 x); clear_value x; rotate_left; subst x)
    | extract_lets +onlyGivenNames x
    | with_reducible exact h
    | with_reducible apply State.setQueue_keeps
    | with_reducible apply State.complete_keeps
    | with_reducible apply State.setDch_keeps
    | with_reducible apply State.signalOver_keeps
    | with_reducible apply State.bellOver_keeps
    | with_reducible refine Keeps.ite (fun _ => ?_) (fun _ => ?_)
    | with_reducible assumption
    | split

theorem settleHeld_keeps {s0 s : State} {t : Nat} {l : List HeldPost} (h : Keeps s0 s) : Keeps s0 (settleHeld t l s) := by
  induction l generalizing s with
  | nil => exact h
  | cons p l ih =>
    unfold settleHeld
    repeat' first
      | (extract_lets +onlyGivenNames x; refine (fun hx => ?_) (?_ : Keeps s0 x); clear_value x; rotate_left; subst x)
      | extract_lets +onlyGivenNames x
      | with_reducible exact h
      | with_reducible apply ih
      | with_reducible apply State.releasePoster_keeps
      | with_reducible apply State.applyPost_keeps
      | with_reducible refine Keeps.ite (fun _ => ?_) (fun _ => ?_)
      | with_reducible assumption
      | with_reducible refine Keeps.record rfl rfl rfl rfl ?_

theorem State.removeTask_keeps {s0 : State} {s} {t} (h : Keeps s0 s) : Keeps s0 (State.removeTask s t).2 := by
  unfold State.removeTask
  repeat' first
    | (extract_lets +onlyGivenNames x; refine (fun hx => ?_) (?_ : Keeps s0 x); clear_value x; rotate_left; subst x)
    | extract_lets +onlyGivenNames x
    | with_reducible exact h
    | with_reducible apply settleHeld_keeps
    | with_reducible apply State.stopRun_keeps
    | with_reducible apply State.setTask_keeps
    | with_reducible apply State.leaveList_keeps
    | with_reducible refine Keeps.ite (fun _ => ?_) (fun _ => ?_)
    | with_reducible assumption
    | split
    | with_reducible refine Keeps.record rfl rfl rfl rfl ?_

theorem State.forgetTask_keeps {s0 : State} {s} {t} (h : Keeps s0 s) : Keeps s0 (State.forgetTask s t) := by
  unfold State.forgetTask
  repeat' first
    | extract_lets +onlyGivenNames x
    | with_reducible exact h
    | with_reducible refine Keeps.record rfl rfl rfl rfl ?_

theorem State.finishTask_keeps {s0 : State} {s} {t} (h : Keeps s0 s) : Keeps s0 (State.finishTask s t) := by
  unfold State.finishTask
  repeat' first
    | (extract_lets +onlyGivenNames x; refine (fun hx => ?_) (?_ : Keeps s0 x.2); clear_value x; rotate_left; subst x)
    | extract_lets +onlyGivenNames x
    | with_reducible exact h
    | with_reducible apply State.removeTask_keeps
    | with_reducible apply State.forgetTask_keeps
    | with_reducible apply State.complete_keeps
    | with_reducible refine Keeps.foldl (fun _ _ _ => ?_) ?_
    | with_reducible assumption

theorem State.hold_keeps {s0 : State} {s} {src} {t} {mask} (h : Keeps s0 s) : Keeps s0 (State.hold s src t mask) := by
  unfold State.hold
  repeat' first
    | extract_lets +onlyGivenNames x
    | with_reducible exact h
    | with_reducible apply State.both_keeps
    | with_reducible refine Keeps.record rfl rfl rfl rfl ?_

theorem State.inboxOne_keeps {s0 : State} {s} {t} (h : Keeps s0 s) : Keeps s0 (State.inboxOne s t) := by
  unfold State.inboxOne
  repeat' first
    | (extract_lets +onlyGivenNames x; refine (fun hx => ?_) (?_ : Keeps s0 x); clear_value x; rotate_left; subst x)
    | extract_lets +onlyGivenNames x
    | with_reducible exact h
    | with_reducible apply State.setDesk_keeps
    | with_reducible apply State.joinList_keeps
    | with_reducible apply State.setTask_keeps
    | with_reducible refine Keeps.ite (fun _ => ?_) (fun _ => ?_)
    | with_reducible refine Keeps.foldl (fun _ _ _ => ?_) ?_
    | with_reducible assumption
    | split

theorem State.inboxWritten_keeps {s0 : State} {s} {t} (h : Keeps s0 s) : Keeps s0 (State.inboxWritten s t) := by
  unfold State.inboxWritten
  repeat' first
    | extract_lets +onlyGivenNames x
    | with_reducible exact h
    | with_reducible apply State.inboxOne_keeps
    | with_reducible refine Keeps.ite (fun _ => ?_) (fun _ => ?_)
    | with_reducible refine Keeps.foldl (fun _ _ _ => ?_) ?_
    | with_reducible assumption
    | split

theorem State.release_keeps {s0 : State} {s} {t} {n} {input} (h : Keeps s0 s) : Keeps s0 (State.release s t n input) := by
  unfold State.release
  repeat' first
    | extract_lets +onlyGivenNames x
    | with_reducible exact h
    | with_reducible apply State.setTask_keeps
    | with_reducible refine Keeps.ite (fun _ => ?_) (fun _ => ?_)
    | split

theorem State.retireTask_keeps {s0 : State} {s} {d} (h : Keeps s0 s) : Keeps s0 (State.retireTask s d) := by
  unfold State.retireTask
  repeat' first
    | (extract_lets +onlyGivenNames x; refine (fun hx => ?_) (?_ : Keeps s0 x); clear_value x; rotate_left; subst x)
    | extract_lets +onlyGivenNames x
    | with_reducible exact h
    | with_reducible apply State.setDesk_keeps
    | with_reducible apply State.runEnds_keeps
    | with_reducible apply State.setTask_keeps
    | with_reducible refine Keeps.ite (fun _ => ?_) (fun _ => ?_)
    | with_reducible assumption
    | split
    | with_reducible refine Keeps.record rfl rfl rfl rfl ?_

theorem State.slotEnd_keeps {s0 : State} {s} {t} (h : Keeps s0 s) : Keeps s0 (State.slotEnd s t) := by
  unfold State.slotEnd
  repeat' first
    | (extract_lets +onlyGivenNames x; refine (fun hx => ?_) (?_ : Keeps s0 x); clear_value x; rotate_left; subst x)
    | extract_lets +onlyGivenNames x
    | with_reducible exact h
    | with_reducible apply State.cutoff_keeps
    | with_reducible apply State.setTask_keeps
    | with_reducible assumption
    | split

theorem heldPostApply_keeps {s0 : State} {s} (h : Keeps s0 s) : Keeps s0 (heldPostApply s) := by
  unfold heldPostApply
  repeat' first
    | (extract_lets +onlyGivenNames x; refine (fun hx => ?_) (?_ : Keeps s0 x); clear_value x; rotate_left; subst x)
    | extract_lets +onlyGivenNames x
    | with_reducible exact h
    | with_reducible apply State.releasePoster_keeps
    | with_reducible apply State.both_keeps
    | with_reducible apply State.applyPost_keeps
    | with_reducible refine Keeps.ite (fun _ => ?_) (fun _ => ?_)
    | with_reducible assumption
    | split
    | with_reducible refine Keeps.record rfl rfl rfl rfl ?_

theorem runaway_keeps {s0 : State} {d} {s} (h : Keeps s0 s) : Keeps s0 (runaway d s) := by
  unfold runaway
  repeat' first
    | extract_lets +onlyGivenNames x
    | with_reducible exact h
    | with_reducible apply State.deskFault_keeps
    | with_reducible apply State.setDesk_keeps
    | with_reducible refine Keeps.ite (fun _ => ?_) (fun _ => ?_)

/-! ### Clock -/

theorem State.advanceTime_keeps {s0 : State} {s} {xtal} (h : Keeps s0 s) : Keeps s0 (State.advanceTime s xtal) := by
  unfold State.advanceTime
  repeat' first
    | extract_lets +onlyGivenNames x
    | with_reducible exact h
    | with_reducible refine Keeps.record rfl rfl rfl rfl ?_

theorem State.setMedia_keeps {s0 : State} {s} {m} (h : Keeps s0 s) : Keeps s0 (State.setMedia s m) := by
  unfold State.setMedia
  repeat' first
    | extract_lets +onlyGivenNames x
    | with_reducible exact h
    | with_reducible refine Keeps.record rfl rfl rfl rfl ?_

theorem State.checkHold_keeps {s0 : State} {s} (h : Keeps s0 s) : Keeps s0 (State.checkHold s) := by
  unfold State.checkHold
  repeat' first
    | extract_lets +onlyGivenNames x
    | with_reducible exact h
    | with_reducible apply State.setMedia_keeps
    | with_reducible refine Keeps.ite (fun _ => ?_) (fun _ => ?_)

theorem State.setTb_keeps {s0 : State} {s} {n} {t} (h : Keeps s0 s) : Keeps s0 (State.setTb s n t) := by
  unfold State.setTb
  repeat' first
    | extract_lets +onlyGivenNames x
    | with_reducible exact h
    | with_reducible refine Keeps.record rfl rfl rfl rfl ?_

theorem State.loseTb_keeps {s0 : State} {s} {n} (h : Keeps s0 s) : Keeps s0 (State.loseTb s n) := by
  unfold State.loseTb
  repeat' first
    | (extract_lets +onlyGivenNames x; refine (fun hx => ?_) (?_ : Keeps s0 x); clear_value x; rotate_left; subst x)
    | extract_lets +onlyGivenNames x
    | with_reducible exact h
    | with_reducible apply State.evt_keeps
    | with_reducible apply State.count_keeps
    | with_reducible apply State.setTb_keeps
    | with_reducible apply State.setMedia_keeps
    | with_reducible apply State.checkHold_keeps
    | with_reducible refine Keeps.ite (fun _ => ?_) (fun _ => ?_)
    | with_reducible assumption

theorem State.dropSource_keeps {s0 : State} {s} {n} (h : Keeps s0 s) : Keeps s0 (State.dropSource s n) := by
  unfold State.dropSource
  repeat' first
    | extract_lets +onlyGivenNames x
    | with_reducible exact h
    | with_reducible apply State.loseTb_keeps
    | with_reducible refine Keeps.ite (fun _ => ?_) (fun _ => ?_)

theorem State.sendStep_keeps {s0 : State} {s} {k} {b} (h : Keeps s0 s) : Keeps s0 (State.sendStep s k b) := by
  unfold State.sendStep
  repeat' first
    | extract_lets +onlyGivenNames x
    | with_reducible exact h
    | with_reducible refine Keeps.ite (fun _ => ?_) (fun _ => ?_)
    | with_reducible refine Keeps.record rfl rfl rfl rfl ?_

theorem State.unmuteOut_keeps {s0 : State} {s} (h : Keeps s0 s) : Keeps s0 (State.unmuteOut s) := by
  unfold State.unmuteOut
  repeat' first
    | extract_lets +onlyGivenNames x
    | with_reducible exact h
    | with_reducible apply State.setMedia_keeps

theorem State.measureMedia_keeps {s0 : State} {s} (h : Keeps s0 s) : Keeps s0 (State.measureMedia s) := by
  unfold State.measureMedia
  repeat' first
    | (extract_lets +onlyGivenNames x; refine (fun hx => ?_) (?_ : Keeps s0 x); clear_value x; rotate_left; subst x)
    | extract_lets +onlyGivenNames x
    | with_reducible exact h
    | with_reducible apply State.setMedia_keeps
    | with_reducible apply State.sendStep_keeps
    | with_reducible apply State.unmuteOut_keeps
    | with_reducible refine Keeps.ite (fun _ => ?_) (fun _ => ?_)
    | with_reducible assumption

theorem State.measureTb_keeps {s0 : State} {s} {n} {off} (h : Keeps s0 s) : Keeps s0 (State.measureTb s n off) := by
  unfold State.measureTb
  repeat' first
    | extract_lets +onlyGivenNames x
    | with_reducible exact h
    | with_reducible apply State.setTb_keeps
    | with_reducible refine Keeps.ite (fun _ => ?_) (fun _ => ?_)

theorem State.mediaTick_keeps {s0 : State} {s} (h : Keeps s0 s) : Keeps s0 (State.mediaTick s) := by
  unfold State.mediaTick
  repeat' first
    | extract_lets +onlyGivenNames x
    | with_reducible exact h
    | with_reducible apply State.setMedia_keeps

theorem State.ppsCheck_keeps {s0 : State} {s} (h : Keeps s0 s) : Keeps s0 (State.ppsCheck s) := by
  unfold State.ppsCheck
  repeat' first
    | extract_lets +onlyGivenNames x
    | with_reducible exact h
    | with_reducible refine Keeps.ite (fun _ => ?_) (fun _ => ?_)
    | with_reducible refine Keeps.record rfl rfl rfl rfl ?_

theorem State.setSec_keeps {s0 : State} {s} {n} {sec} (h : Keeps s0 s) : Keeps s0 (State.setSec s n sec) := by
  unfold State.setSec
  repeat' first
    | extract_lets +onlyGivenNames x
    | with_reducible exact h
    | with_reducible apply State.setTb_keeps
    | with_reducible refine Keeps.ite (fun _ => ?_) (fun _ => ?_)

theorem State.stepOrigin_keeps {s0 : State} {s} {k} {r} (h : Keeps s0 s) : Keeps s0 (State.stepOrigin s k r) := by
  unfold State.stepOrigin
  repeat' first
    | (extract_lets +onlyGivenNames x; refine (fun hx => ?_) (?_ : Keeps s0 x); clear_value x; rotate_left; subst x)
    | extract_lets +onlyGivenNames x
    | with_reducible exact h
    | with_reducible apply State.setMedia_keeps
    | with_reducible apply State.evt_keeps
    | with_reducible apply State.count_keeps
    | with_reducible apply State.setReg_keeps
    | with_reducible apply State.unmuteOut_keeps
    | with_reducible refine Keeps.ite (fun _ => ?_) (fun _ => ?_)
    | with_reducible assumption

theorem atticClk_keeps {s0 : State} {on} {s} (h : Keeps s0 s) : Keeps s0 (atticClk on s) := by
  unfold atticClk
  repeat' first
    | extract_lets +onlyGivenNames x
    | with_reducible exact h
    | with_reducible refine Keeps.record rfl rfl rfl rfl ?_

theorem atticTimeReload_keeps {s0 : State} {s} (h : Keeps s0 s) : Keeps s0 (atticTimeReload s) := by
  unfold atticTimeReload
  repeat' first
    | extract_lets +onlyGivenNames x
    | with_reducible exact h
    | with_reducible refine Keeps.ite (fun _ => ?_) (fun _ => ?_)
    | with_reducible refine Keeps.record rfl rfl rfl rfl ?_

theorem forceMedia_keeps {s0 : State} {secondary} {s} (h : Keeps s0 s) : Keeps s0 (forceMedia secondary s) := by
  unfold forceMedia
  repeat' first
    | extract_lets +onlyGivenNames x
    | with_reducible exact h
    | with_reducible apply State.setMedia_keeps

theorem holdoverExpiry_keeps {s0 : State} {s} (h : Keeps s0 s) : Keeps s0 (holdoverExpiry s) := by
  unfold holdoverExpiry
  repeat' first
    | extract_lets +onlyGivenNames x
    | with_reducible exact h
    | with_reducible apply State.evt_keeps
    | with_reducible apply State.setMedia_keeps
    | with_reducible refine Keeps.ite (fun _ => ?_) (fun _ => ?_)

theorem mediaChangeover_keeps {s0 : State} {s} (h : Keeps s0 s) : Keeps s0 (mediaChangeover s) := by
  unfold mediaChangeover
  repeat' first
    | (extract_lets +onlyGivenNames x; refine (fun hx => ?_) (?_ : Keeps s0 x); clear_value x; rotate_left; subst x)
    | extract_lets +onlyGivenNames x
    | with_reducible exact h
    | with_reducible apply State.setMedia_keeps
    | with_reducible apply State.evt_keeps
    | with_reducible apply State.checkHold_keeps
    | with_reducible refine Keeps.ite (fun _ => ?_) (fun _ => ?_)
    | with_reducible assumption
    | split

theorem ppsInPulse_keeps {s0 : State} {s} (h : Keeps s0 s) : Keeps s0 (ppsInPulse s) := by
  unfold ppsInPulse
  repeat' first
    | extract_lets +onlyGivenNames x
    | with_reducible exact h
    | with_reducible apply State.measureTb_keeps
    | split

theorem ppsWidthEnd_keeps {s0 : State} {s} (h : Keeps s0 s) : Keeps s0 (ppsWidthEnd s) := by
  unfold ppsWidthEnd
  repeat' first
    | extract_lets +onlyGivenNames x
    | with_reducible exact h
    | with_reducible refine Keeps.ite (fun _ => ?_) (fun _ => ?_)
    | with_reducible refine Keeps.record rfl rfl rfl rfl ?_

theorem revertTimeout_keeps {s0 : State} {s} (h : Keeps s0 s) : Keeps s0 (revertTimeout s) := by
  unfold revertTimeout
  repeat' first
    | extract_lets +onlyGivenNames x
    | with_reducible exact h
    | with_reducible apply State.setMedia_keeps
    | with_reducible refine Keeps.ite (fun _ => ?_) (fun _ => ?_)

theorem slewEnd_keeps {s0 : State} {s} (h : Keeps s0 s) : Keeps s0 (slewEnd s) := by
  unfold slewEnd
  repeat' first
    | extract_lets +onlyGivenNames x
    | with_reducible exact h
    | with_reducible apply State.setMedia_keeps
    | with_reducible refine Keeps.ite (fun _ => ?_) (fun _ => ?_)

theorem sourceLost_keeps {s0 : State} {n} {s} (h : Keeps s0 s) : Keeps s0 (sourceLost n s) := by
  unfold sourceLost
  repeat' first
    | extract_lets +onlyGivenNames x
    | with_reducible exact h
    | with_reducible apply State.dropSource_keeps
    | with_reducible refine Keeps.ite (fun _ => ?_) (fun _ => ?_)

theorem timeBaseLocked_keeps {s0 : State} {n} {s} (h : Keeps s0 s) : Keeps s0 (timeBaseLocked n s) := by
  unfold timeBaseLocked
  repeat' first
    | (extract_lets +onlyGivenNames x; refine (fun hx => ?_) (?_ : Keeps s0 x); clear_value x; rotate_left; subst x)
    | extract_lets +onlyGivenNames x
    | with_reducible exact h
    | with_reducible apply State.evt_keeps
    | with_reducible apply State.setMedia_keeps
    | with_reducible apply State.setTb_keeps
    | with_reducible apply State.checkHold_keeps
    | with_reducible refine Keeps.ite (fun _ => ?_) (fun _ => ?_)
    | with_reducible assumption

theorem timeBaseUnlock_keeps {s0 : State} {n} {s} (h : Keeps s0 s) : Keeps s0 (timeBaseUnlock n s) := by
  unfold timeBaseUnlock
  repeat' first
    | (extract_lets +onlyGivenNames x; refine (fun hx => ?_) (?_ : Keeps s0 x); clear_value x; rotate_left; subst x)
    | extract_lets +onlyGivenNames x
    | with_reducible exact h
    | with_reducible apply State.setTb_keeps
    | with_reducible apply State.checkHold_keeps
    | with_reducible refine Keeps.ite (fun _ => ?_) (fun _ => ?_)
    | with_reducible assumption

theorem tmbOriginWrite_keeps {s0 : State} {v} {s} (h : Keeps s0 s) : Keeps s0 (tmbOriginWrite v s) := by
  unfold tmbOriginWrite
  repeat' first
    | extract_lets +onlyGivenNames x
    | with_reducible exact h
    | with_reducible apply State.setMedia_keeps
    | with_reducible refine Keeps.ite (fun _ => ?_) (fun _ => ?_)

theorem tmbSnapGo_keeps {s0 : State} {s} (h : Keeps s0 s) : Keeps s0 (tmbSnapGo s) := by
  unfold tmbSnapGo
  repeat' first
    | extract_lets +onlyGivenNames x
    | with_reducible exact h
    | with_reducible refine Keeps.record rfl rfl rfl rfl ?_

theorem tmbTbCfgWrite_keeps {s0 : State} {n} {v} {s} (h : Keeps s0 s) : Keeps s0 (tmbTbCfgWrite n v s) := by
  unfold tmbTbCfgWrite
  repeat' first
    | (extract_lets +onlyGivenNames x; refine (fun hx => ?_) (?_ : Keeps s0 x); clear_value x; rotate_left; subst x)
    | extract_lets +onlyGivenNames x
    | with_reducible exact h
    | with_reducible apply State.setReg_keeps
    | with_reducible apply State.setTb_keeps
    | with_reducible apply State.evt_keeps
    | with_reducible apply State.checkHold_keeps
    | with_reducible refine Keeps.ite (fun _ => ?_) (fun _ => ?_)
    | with_reducible assumption

theorem wholeSecond_keeps {s0 : State} {n} {s} (h : Keeps s0 s) : Keeps s0 (wholeSecond n s) := by
  unfold wholeSecond
  repeat' first
    | (extract_lets +onlyGivenNames x; refine (fun hx => ?_) (?_ : Keeps s0 x); clear_value x; rotate_left; subst x)
    | extract_lets +onlyGivenNames x
    | with_reducible exact h
    | with_reducible apply State.setTb_keeps
    | with_reducible refine Keeps.ite (fun _ => ?_) (fun _ => ?_)
    | with_reducible assumption
    | with_reducible refine Keeps.record rfl rfl rfl rfl ?_

/-! ### Chain -/

theorem State.setChain_keeps {s0 : State} {s} {c} (h : Keeps s0 s) : Keeps s0 (State.setChain s c) := by
  unfold State.setChain
  repeat' first
    | extract_lets +onlyGivenNames x
    | with_reducible exact h
    | with_reducible refine Keeps.record rfl rfl rfl rfl ?_

theorem State.setNtkPort_keeps {s0 : State} {s} {n} {p} (h : Keeps s0 s) : Keeps s0 (State.setNtkPort s n p) := by
  unfold State.setNtkPort
  repeat' first
    | extract_lets +onlyGivenNames x
    | with_reducible exact h
    | with_reducible refine Keeps.record rfl rfl rfl rfl ?_

theorem State.releaseCopy_keeps {s0 : State} {s} {b} (h : Keeps s0 s) : Keeps s0 (State.releaseCopy s b) := by
  unfold State.releaseCopy
  repeat' first
    | extract_lets +onlyGivenNames x
    | with_reducible exact h
    | with_reducible apply State.setChain_keeps
    | with_reducible apply State.setNtkPort_keeps
    | with_reducible refine Keeps.ite (fun _ => ?_) (fun _ => ?_)
    | split

theorem State.chainDiscard_keeps {s0 : State} {s} (h : Keeps s0 s) : Keeps s0 (State.chainDiscard s) := by
  unfold State.chainDiscard
  repeat' first
    | (extract_lets +onlyGivenNames x; refine (fun hx => ?_) (?_ : Keeps s0 x); clear_value x; rotate_left; subst x)
    | extract_lets +onlyGivenNames x
    | with_reducible exact h
    | with_reducible apply State.addLed_keeps
    | with_reducible apply State.releaseCopy_keeps
    | with_reducible apply State.setChain_keeps
    | with_reducible refine Keeps.foldl (fun _ _ _ => ?_) ?_
    | with_reducible assumption

theorem State.chainAlone_keeps {s0 : State} {s} (h : Keeps s0 s) : Keeps s0 (State.chainAlone s) := by
  unfold State.chainAlone
  repeat' first
    | (extract_lets +onlyGivenNames x; refine (fun hx => ?_) (?_ : Keeps s0 x); clear_value x; rotate_left; subst x)
    | extract_lets +onlyGivenNames x
    | with_reducible exact h
    | with_reducible apply State.chainDiscard_keeps
    | with_reducible apply State.setChain_keeps
    | with_reducible assumption

theorem State.chainDone_keeps {s0 : State} {s} {st} {res} (h : Keeps s0 s) : Keeps s0 (State.chainDone s st res) := by
  unfold State.chainDone
  repeat' first
    | extract_lets +onlyGivenNames x
    | with_reducible exact h
    | with_reducible apply State.complete_keeps
    | with_reducible apply State.setChain_keeps
    | split

theorem State.chainUnled_keeps {s0 : State} {s} (h : Keeps s0 s) : Keeps s0 (State.chainUnled s) := by
  unfold State.chainUnled
  repeat' first
    | extract_lets +onlyGivenNames x
    | with_reducible exact h
    | with_reducible apply State.dropSource_keeps
    | split

theorem State.settleChain_keeps {s0 : State} {s} (h : Keeps s0 s) : Keeps s0 (State.settleChain s) := by
  unfold State.settleChain
  repeat' first
    | extract_lets +onlyGivenNames x
    | with_reducible exact h
    | with_reducible apply State.setChain_keeps

theorem State.memberChange_keeps {s0 : State} {s} {m} {rec} {joins} {place} {hops} (h : Keeps s0 s) : Keeps s0 (State.memberChange s m rec joins place hops) := by
  unfold State.memberChange
  repeat' first
    | (extract_lets +onlyGivenNames x; refine (fun hx => ?_) (?_ : Keeps s0 x); clear_value x; rotate_left; subst x)
    | extract_lets +onlyGivenNames x
    | with_reducible exact h
    | with_reducible apply State.evt_keeps
    | with_reducible apply State.chainDone_keeps
    | with_reducible apply State.settleChain_keeps
    | with_reducible apply State.setChain_keeps
    | with_reducible apply State.chainUnled_keeps
    | with_reducible apply State.chainAlone_keeps
    | with_reducible refine Keeps.ite (fun _ => ?_) (fun _ => ?_)
    | with_reducible assumption

theorem State.publish_keeps {s0 : State} {s} {ps} (h : Keeps s0 s) : Keeps s0 (State.publish s ps) := by
  unfold State.publish
  repeat' first
    | extract_lets +onlyGivenNames x
    | with_reducible exact h
    | with_reducible apply State.setChain_keeps

/-! ### Memory -/

theorem State.setMemory_keeps {s0 s : State} {m : MemSt} (h : Keeps s0 s) (hm : m.fallback = s.memory.fallback) :
    Keeps s0 (s.setMemory m) := Keeps.of_eq (b := s) rfl rfl rfl hm rfl h

theorem State.dramFailure_keeps {s0 : State} {s} (h : Keeps s0 s) : Keeps s0 (State.dramFailure s) := by
  unfold State.dramFailure
  repeat' first
    | (extract_lets +onlyGivenNames x; refine (fun hx => ?_) (?_ : Keeps s0 x); clear_value x; rotate_left; subst x)
    | extract_lets +onlyGivenNames x
    | with_reducible exact h
    | with_reducible apply State.setMemory_keeps
    | with_reducible apply State.evt_keeps
    | with_reducible refine Keeps.ite (fun _ => ?_) (fun _ => ?_)
    | with_reducible assumption
    | with_reducible rfl
    | with_reducible refine Keeps.record rfl rfl rfl rfl ?_

theorem State.dramUe_keeps {s0 : State} {s} {addr} (h : Keeps s0 s) : Keeps s0 (State.dramUe s addr) := by
  unfold State.dramUe
  repeat' first
    | (extract_lets +onlyGivenNames x; refine (fun hx => ?_) (?_ : Keeps s0 x); clear_value x; rotate_left; subst x)
    | extract_lets +onlyGivenNames x
    | with_reducible exact h
    | with_reducible apply State.both_keeps
    | with_reducible apply State.setMemory_keeps
    | with_reducible apply State.dramFailure_keeps
    | with_reducible refine Keeps.ite (fun _ => ?_) (fun _ => ?_)
    | with_reducible assumption
    | with_reducible rfl

theorem State.mapDebt_keeps {s0 : State} {s} {c} {f} (h : Keeps s0 s) : Keeps s0 (State.mapDebt s c f) := by
  unfold State.mapDebt
  repeat' first
    | extract_lets +onlyGivenNames x
    | with_reducible exact h
    | with_reducible apply State.setMemory_keeps
    | with_reducible rfl

theorem State.pause_keeps {s0 : State} {s} {ns} (h : Keeps s0 s) : Keeps s0 (State.pause s ns) := by
  unfold State.pause
  repeat' first
    | extract_lets +onlyGivenNames x
    | with_reducible exact h
    | with_reducible apply State.setMemory_keeps
    | with_reducible rfl

theorem State.sampleLost_keeps {s0 : State} {s} {led} {holds} (h : Keeps s0 s) : Keeps s0 (State.sampleLost s led holds) := by
  unfold State.sampleLost
  repeat' first
    | extract_lets +onlyGivenNames x
    | with_reducible exact h
    | with_reducible apply State.tally_keeps
    | with_reducible refine Keeps.ite (fun _ => ?_) (fun _ => ?_)

theorem State.setDramChan_keeps {s0 : State} {s} {c} {v} (h : Keeps s0 s) : Keeps s0 (State.setDramChan s c v) := by
  unfold State.setDramChan
  repeat' first
    | extract_lets +onlyGivenNames x
    | with_reducible exact h
    | with_reducible apply State.setMemory_keeps
    | with_reducible rfl

theorem State.setSub_keeps {s0 : State} {s} {k} {v} (h : Keeps s0 s) : Keeps s0 (State.setSub s k v) := by
  unfold State.setSub
  repeat' first
    | extract_lets +onlyGivenNames x
    | with_reducible exact h
    | with_reducible apply State.setMemory_keeps
    | with_reducible rfl

theorem State.sramEffect_keeps {s0 : State} {s} {e} (h : Keeps s0 s) : Keeps s0 (State.sramEffect s e) := by
  unfold State.sramEffect
  repeat' first
    | extract_lets +onlyGivenNames x
    | with_reducible exact h
    | with_reducible apply State.both_keeps
    | with_reducible apply State.setDesk_keeps
    | with_reducible apply State.sampleLost_keeps
    | with_reducible refine Keeps.ite (fun _ => ?_) (fun _ => ?_)
    | split
    | with_reducible refine Keeps.record rfl rfl rfl rfl ?_

theorem alertNPulse_keeps {s0 : State} {sub} {during} {recent} {s} (h : Keeps s0 s) : Keeps s0 (alertNPulse sub during recent s) := by
  unfold alertNPulse
  repeat' first
    | (extract_lets +onlyGivenNames x; refine (fun hx => ?_) (?_ : Keeps s0 x); clear_value x; rotate_left; subst x)
    | extract_lets +onlyGivenNames x
    | with_reducible exact h
    | with_reducible apply State.setSub_keeps
    | with_reducible apply State.setMemory_keeps
    | with_reducible apply State.setDramChan_keeps
    | with_reducible apply State.pause_keeps
    | with_reducible apply State.both_keeps
    | with_reducible refine Keeps.ite (fun _ => ?_) (fun _ => ?_)
    | with_reducible assumption
    | with_reducible rfl

theorem dramScrub_keeps {s0 : State} {addr} {o} {s} (h : Keeps s0 s) : Keeps s0 (dramScrub addr o s) := by
  unfold dramScrub
  repeat' first
    | extract_lets +onlyGivenNames x
    | with_reducible exact h
    | with_reducible apply State.both_keeps
    | with_reducible apply State.dramUe_keeps
    | with_reducible refine Keeps.ite (fun _ => ?_) (fun _ => ?_)
    | split

theorem mr4Read_keeps {s0 : State} {c} {doubled} {s} (h : Keeps s0 s) : Keeps s0 (mr4Read c doubled s) := by
  unfold mr4Read
  repeat' first
    | (extract_lets +onlyGivenNames x; refine (fun hx => ?_) (?_ : Keeps s0 x); clear_value x; rotate_left; subst x)
    | extract_lets +onlyGivenNames x
    | with_reducible exact h
    | with_reducible apply State.setDramChan_keeps
    | with_reducible apply State.evt_keeps
    | with_reducible apply State.mapDebt_keeps
    | with_reducible apply State.count_keeps
    | with_reducible refine Keeps.ite (fun _ => ?_) (fun _ => ?_)
    | with_reducible assumption

theorem neighbourRefresh_keeps {s0 : State} {sub} {bank} {row} {s} (h : Keeps s0 s) : Keeps s0 (neighbourRefresh sub bank row s) := by
  unfold neighbourRefresh
  repeat' first
    | extract_lets +onlyGivenNames x
    | with_reducible exact h
    | with_reducible apply State.both_keeps
    | with_reducible apply State.setSub_keeps

theorem refreshInterval_keeps {s0 : State} {sub} {issued} {k} {s} (h : Keeps s0 s) : Keeps s0 (refreshInterval sub issued k s) := by
  unfold refreshInterval
  repeat' first
    | (extract_lets +onlyGivenNames x; refine (fun hx => ?_) (?_ : Keeps s0 x); clear_value x; rotate_left; subst x)
    | extract_lets +onlyGivenNames x
    | with_reducible exact h
    | with_reducible apply State.setSub_keeps
    | with_reducible apply State.pause_keeps
    | with_reducible refine Keeps.ite (fun _ => ?_) (fun _ => ?_)
    | with_reducible assumption

theorem refreshRateReturn_keeps {s0 : State} {c} {s} (h : Keeps s0 s) : Keeps s0 (refreshRateReturn c s) := by
  unfold refreshRateReturn
  repeat' first
    | extract_lets +onlyGivenNames x
    | with_reducible exact h
    | with_reducible apply State.mapDebt_keeps
    | with_reducible apply State.setDramChan_keeps
    | with_reducible refine Keeps.ite (fun _ => ?_) (fun _ => ?_)

theorem retrainDue_keeps {s0 : State} {c} {s} (h : Keeps s0 s) : Keeps s0 (retrainDue c s) := by
  unfold retrainDue
  repeat' first
    | extract_lets +onlyGivenNames x
    | with_reducible exact h
    | with_reducible apply State.setDramChan_keeps
    | with_reducible refine Keeps.ite (fun _ => ?_) (fun _ => ?_)

theorem retrainEnd_keeps {s0 : State} {c} {found} {s} (h : Keeps s0 s) : Keeps s0 (retrainEnd c found s) := by
  unfold retrainEnd
  repeat' first
    | (extract_lets +onlyGivenNames x; refine (fun hx => ?_) (?_ : Keeps s0 x); clear_value x; rotate_left; subst x)
    | extract_lets +onlyGivenNames x
    | with_reducible exact h
    | with_reducible apply State.count_keeps
    | with_reducible apply State.setDramChan_keeps
    | with_reducible apply State.both_keeps
    | with_reducible apply State.dramFailure_keeps
    | with_reducible refine Keeps.ite (fun _ => ?_) (fun _ => ?_)
    | with_reducible assumption

theorem retrainRetry_keeps {s0 : State} {c} {s} (h : Keeps s0 s) : Keeps s0 (retrainRetry c s) := by
  unfold retrainRetry
  repeat' first
    | extract_lets +onlyGivenNames x
    | with_reducible exact h
    | with_reducible apply State.setDramChan_keeps
    | with_reducible refine Keeps.ite (fun _ => ?_) (fun _ => ?_)

theorem retrainSlice_keeps {s0 : State} {c} {ns} {s} (h : Keeps s0 s) : Keeps s0 (retrainSlice c ns s) := by
  unfold retrainSlice
  repeat' first
    | extract_lets +onlyGivenNames x
    | with_reducible exact h
    | with_reducible apply State.pause_keeps
    | with_reducible apply State.setDramChan_keeps
    | with_reducible refine Keeps.ite (fun _ => ?_) (fun _ => ?_)
    | split

theorem sramScrub_keeps {s0 s : State} {l : List SramError} (h : Keeps s0 s) : Keeps s0 (sramScrub l s) := by
  induction l generalizing s with
  | nil => exact h
  | cons p l ih =>
    unfold sramScrub
    repeat' first
      | extract_lets +onlyGivenNames x
      | with_reducible exact h
      | with_reducible apply ih
      | with_reducible apply State.sramEffect_keeps
      | with_reducible apply State.both_keeps
      | with_reducible apply State.count_keeps
      | with_reducible refine Keeps.ite (fun _ => ?_) (fun _ => ?_)

/-! ### Ptp -/

theorem State.bmca_keeps {s0 : State} {s} {n} {alone} (h : Keeps s0 s) : Keeps s0 (State.bmca s n alone) := by
  unfold State.bmca
  repeat' first
    | (extract_lets +onlyGivenNames x; refine (fun hx => ?_) (?_ : Keeps s0 x); clear_value x; rotate_left; subst x)
    | extract_lets +onlyGivenNames x
    | with_reducible exact h
    | with_reducible apply State.setTb_keeps
    | with_reducible apply State.evt_keeps
    | with_reducible apply State.checkHold_keeps
    | with_reducible refine Keeps.ite (fun _ => ?_) (fun _ => ?_)
    | with_reducible assumption

theorem State.setCloak_keeps {s0 : State} {s} {p} {k} (h : Keeps s0 s) : Keeps s0 (State.setCloak s p k) := by
  unfold State.setCloak
  repeat' first
    | extract_lets +onlyGivenNames x
    | with_reducible exact h
    | with_reducible refine Keeps.record rfl rfl rfl rfl ?_

theorem State.launch_keeps {s0 : State} {s} {p} {e} (h : Keeps s0 s) : Keeps s0 (State.launch s p e) := by
  unfold State.launch
  repeat' first
    | extract_lets +onlyGivenNames x
    | with_reducible exact h
    | with_reducible apply State.setCloak_keeps
    | with_reducible apply State.both_keeps
    | with_reducible refine Keeps.ite (fun _ => ?_) (fun _ => ?_)

theorem State.retireCloak_keeps {s0 : State} {s} {p} {gone} (h : Keeps s0 s) : Keeps s0 (State.retireCloak s p gone) := by
  unfold State.retireCloak
  repeat' first
    | extract_lets +onlyGivenNames x
    | with_reducible exact h
    | with_reducible apply State.setCloak_keeps

theorem State.sendPtp_keeps {s0 : State} {s} {o} (h : Keeps s0 s) : Keeps s0 (State.sendPtp s o) := by
  unfold State.sendPtp
  repeat' first
    | extract_lets +onlyGivenNames x
    | with_reducible exact h
    | with_reducible refine Keeps.record rfl rfl rfl rfl ?_

theorem State.skipPtp_keeps {s0 : State} {s} {p} (h : Keeps s0 s) : Keeps s0 (State.skipPtp s p) := by
  unfold State.skipPtp
  repeat' first
    | extract_lets +onlyGivenNames x
    | with_reducible exact h
    | with_reducible apply State.both_keeps

theorem State.syncMeasured_keeps {s0 : State} {s} {n} {m} {origin} {corr} (h : Keeps s0 s) : Keeps s0 (State.syncMeasured s n m origin corr) := by
  unfold State.syncMeasured
  repeat' first
    | extract_lets +onlyGivenNames x
    | with_reducible exact h
    | with_reducible apply State.measureTb_keeps
    | with_reducible apply State.setTb_keeps

theorem announceReceiptTimeout_keeps {s0 : State} {n} {s} (h : Keeps s0 s) : Keeps s0 (announceReceiptTimeout n s) := by
  unfold announceReceiptTimeout
  repeat' first
    | (extract_lets +onlyGivenNames x; refine (fun hx => ?_) (?_ : Keeps s0 x); clear_value x; rotate_left; subst x)
    | extract_lets +onlyGivenNames x
    | with_reducible exact h
    | with_reducible apply State.bmca_keeps
    | with_reducible apply State.setTb_keeps
    | with_reducible apply State.dropSource_keeps
    | with_reducible refine Keeps.ite (fun _ => ?_) (fun _ => ?_)
    | with_reducible assumption
    | split

theorem ptpAnnounce_keeps {s0 : State} {n} {m} {s} (h : Keeps s0 s) : Keeps s0 (ptpAnnounce n m s) := by
  unfold ptpAnnounce
  repeat' first
    | extract_lets +onlyGivenNames x
    | with_reducible exact h
    | with_reducible apply State.bmca_keeps
    | with_reducible apply State.setTb_keeps
    | with_reducible refine Keeps.ite (fun _ => ?_) (fun _ => ?_)

theorem ptpAnnounceDue_keeps {s0 : State} {n} {s} (h : Keeps s0 s) : Keeps s0 (ptpAnnounceDue n s) := by
  unfold ptpAnnounceDue
  repeat' first
    | (extract_lets +onlyGivenNames x; refine (fun hx => ?_) (?_ : Keeps s0 x); clear_value x; rotate_left; subst x)
    | extract_lets +onlyGivenNames x
    | with_reducible exact h
    | with_reducible apply State.sendPtp_keeps
    | with_reducible apply State.setTb_keeps
    | with_reducible refine Keeps.ite (fun _ => ?_) (fun _ => ?_)
    | with_reducible refine Keeps.foldl (fun _ _ _ => ?_) ?_
    | with_reducible assumption

theorem ptpDelayReq_keeps {s0 : State} {n} {m} {s} (h : Keeps s0 s) : Keeps s0 (ptpDelayReq n m s) := by
  unfold ptpDelayReq
  repeat' first
    | extract_lets +onlyGivenNames x
    | with_reducible exact h
    | with_reducible apply State.sendPtp_keeps
    | with_reducible refine Keeps.ite (fun _ => ?_) (fun _ => ?_)

theorem ptpDelayReqDue_keeps {s0 : State} {n} {s} (h : Keeps s0 s) : Keeps s0 (ptpDelayReqDue n s) := by
  unfold ptpDelayReqDue
  repeat' first
    | (extract_lets +onlyGivenNames x; refine (fun hx => ?_) (?_ : Keeps s0 x); clear_value x; rotate_left; subst x)
    | extract_lets +onlyGivenNames x
    | with_reducible exact h
    | with_reducible apply State.skipPtp_keeps
    | with_reducible apply State.retireCloak_keeps
    | with_reducible apply State.launch_keeps
    | with_reducible apply State.setTb_keeps
    | with_reducible refine Keeps.ite (fun _ => ?_) (fun _ => ?_)
    | with_reducible assumption
    | split

theorem ptpDelayResp_keeps {s0 : State} {n} {m} {s} (h : Keeps s0 s) : Keeps s0 (ptpDelayResp n m s) := by
  unfold ptpDelayResp
  repeat' first
    | extract_lets +onlyGivenNames x
    | with_reducible exact h
    | with_reducible apply State.retireCloak_keeps
    | with_reducible apply State.setTb_keeps
    | with_reducible refine Keeps.ite (fun _ => ?_) (fun _ => ?_)
    | split

theorem ptpEventTransmitted_keeps {s0 : State} {p} {at_} {s} (h : Keeps s0 s) : Keeps s0 (ptpEventTransmitted p at_ s) := by
  unfold ptpEventTransmitted
  repeat' first
    | (extract_lets +onlyGivenNames x; refine (fun hx => ?_) (?_ : Keeps s0 x); clear_value x; rotate_left; subst x)
    | extract_lets +onlyGivenNames x
    | with_reducible exact h
    | with_reducible apply State.setCloak_keeps
    | with_reducible apply State.retireCloak_keeps
    | with_reducible apply State.sendPtp_keeps
    | with_reducible apply State.setTb_keeps
    | with_reducible refine Keeps.ite (fun _ => ?_) (fun _ => ?_)
    | with_reducible assumption
    | split

theorem ptpFollowUp_keeps {s0 : State} {n} {m} {s} (h : Keeps s0 s) : Keeps s0 (ptpFollowUp n m s) := by
  unfold ptpFollowUp
  repeat' first
    | extract_lets +onlyGivenNames x
    | with_reducible exact h
    | with_reducible apply State.syncMeasured_keeps
    | with_reducible refine Keeps.ite (fun _ => ?_) (fun _ => ?_)
    | split

theorem ptpSync_keeps {s0 : State} {n} {m} {s} (h : Keeps s0 s) : Keeps s0 (ptpSync n m s) := by
  unfold ptpSync
  repeat' first
    | extract_lets +onlyGivenNames x
    | with_reducible exact h
    | with_reducible apply State.setTb_keeps
    | with_reducible apply State.syncMeasured_keeps
    | with_reducible refine Keeps.ite (fun _ => ?_) (fun _ => ?_)

theorem ptpSyncDue_keeps {s0 : State} {n} {s} (h : Keeps s0 s) : Keeps s0 (ptpSyncDue n s) := by
  unfold ptpSyncDue
  repeat' first
    | (extract_lets +onlyGivenNames x; refine (fun hx => ?_) (?_ : Keeps s0 x); clear_value x; rotate_left; subst x)
    | extract_lets +onlyGivenNames x
    | with_reducible exact h
    | with_reducible apply State.skipPtp_keeps
    | with_reducible apply State.launch_keeps
    | with_reducible apply State.setTb_keeps
    | with_reducible refine Keeps.ite (fun _ => ?_) (fun _ => ?_)
    | with_reducible refine Keeps.foldl (fun _ _ _ => ?_) ?_
    | with_reducible assumption

/-! ### Sdac -/

theorem State.setSdac_keeps {s0 : State} {s} {k} {c} (h : Keeps s0 s) : Keeps s0 (State.setSdac s k c) := by
  unfold State.setSdac
  repeat' first
    | extract_lets +onlyGivenNames x
    | with_reducible exact h
    | with_reducible refine Keeps.record rfl rfl rfl rfl ?_

theorem State.sdacWriteNow_keeps {s0 : State} {s} {w} (h : Keeps s0 s) : Keeps s0 (State.sdacWriteNow s w) := by
  unfold State.sdacWriteNow
  repeat' first
    | extract_lets +onlyGivenNames x
    | with_reducible exact h
    | with_reducible apply State.setSdac_keeps

theorem State.strobeMask_keeps {s0 : State} {s} {mask} (h : Keeps s0 s) : Keeps s0 (State.strobeMask s mask) := by
  unfold State.strobeMask
  repeat' first
    | extract_lets +onlyGivenNames x
    | with_reducible exact h
    | with_reducible refine Keeps.record rfl rfl rfl rfl ?_

theorem State.sdacDue_keeps {s0 : State} {s} {n} (h : Keeps s0 s) : Keeps s0 (State.sdacDue s n) := by
  unfold State.sdacDue
  repeat' first
    | (extract_lets +onlyGivenNames x; refine (fun hx => ?_) (?_ : Keeps s0 x); clear_value x; rotate_left; subst x)
    | extract_lets +onlyGivenNames x
    | with_reducible exact h
    | with_reducible apply State.sdacWriteNow_keeps
    | with_reducible apply State.strobeMask_keeps
    | with_reducible apply State.complete_keeps
    | with_reducible refine Keeps.foldl (fun _ _ _ => ?_) ?_
    | with_reducible assumption
    | split
    | with_reducible refine Keeps.record rfl rfl rfl rfl ?_

theorem State.sdacStreams_keeps {s0 : State} {s} {n} (h : Keeps s0 s) : Keeps s0 (State.sdacStreams s n) := by
  unfold State.sdacStreams
  repeat' first
    | (extract_lets +onlyGivenNames x; refine (fun hx => ?_) (?_ : Keeps s0 x); clear_value x; rotate_left; subst x)
    | extract_lets +onlyGivenNames x
    | with_reducible exact h
    | with_reducible apply State.setSdac_keeps
    | with_reducible apply State.both_keeps
    | with_reducible refine Keeps.ite (fun _ => ?_) (fun _ => ?_)
    | with_reducible refine Keeps.foldl (fun _ _ _ => ?_) ?_
    | with_reducible assumption

theorem State.sdacTimed_keeps {s0 s : State} {c : CmdRef} {p : Nat} {late : Bool} {now : State → State} {wait : SdacTimed}
    (hn : ∀ u, Keeps s0 u → Keeps s0 (now u)) (h : Keeps s0 s) : Keeps s0 (s.sdacTimed c p late now wait) := by
  unfold State.sdacTimed
  repeat' first
    | extract_lets +onlyGivenNames x
    | with_reducible exact h
    | with_reducible apply hn
    | with_reducible apply State.complete_keeps
    | with_reducible refine Keeps.ite (fun _ => ?_) (fun _ => ?_)
    | with_reducible refine Keeps.record rfl rfl rfl rfl ?_

theorem sdacCurrentLimit_keeps {s0 : State} {k} {s} (h : Keeps s0 s) : Keeps s0 (sdacCurrentLimit k s) := by
  unfold sdacCurrentLimit
  repeat' first
    | extract_lets +onlyGivenNames x
    | with_reducible exact h
    | with_reducible apply State.evt_keeps
    | with_reducible apply State.count_keeps
    | with_reducible apply State.orReg_keeps
    | with_reducible apply State.setSdac_keeps
    | with_reducible refine Keeps.ite (fun _ => ?_) (fun _ => ?_)

theorem sdacLoadNFall_keeps {s0 : State} {s} (h : Keeps s0 s) : Keeps s0 (sdacLoadNFall s) := by
  unfold sdacLoadNFall
  repeat' first
    | extract_lets +onlyGivenNames x
    | with_reducible exact h
    | with_reducible apply State.strobeMask_keeps
    | with_reducible refine Keeps.ite (fun _ => ?_) (fun _ => ?_)

theorem sdacStrobeCmd_keeps {s0 : State} {e} {c} {s} (h : Keeps s0 s) : Keeps s0 (sdacStrobeCmd e c s) := by
  unfold sdacStrobeCmd
  repeat' first
    | extract_lets +onlyGivenNames x
    | with_reducible exact h
    | with_reducible apply State.complete_keeps
    | with_reducible apply State.sdacTimed_keeps
    | with_reducible apply State.strobeMask_keeps
    | with_reducible refine Keeps.ite (fun _ => ?_) (fun _ => ?_)
    | intro u hu
    | with_reducible assumption

theorem sdacWriteCmd_keeps {s0 : State} {e} {c} {s} (h : Keeps s0 s) : Keeps s0 (sdacWriteCmd e c s) := by
  unfold sdacWriteCmd
  repeat' first
    | extract_lets +onlyGivenNames x
    | with_reducible exact h
    | with_reducible apply State.complete_keeps
    | with_reducible apply State.sdacTimed_keeps
    | with_reducible apply State.sdacWriteNow_keeps
    | intro u hu
    | with_reducible assumption
    | split

end Sys2Proof.Machine
end

