-- ==== Sys2Proof/Laws/KeepsTables.lean ====
section
/-!
SUPPORT. Operations of Apply, Submit, Epoch, Timetable, ObjCmds, SpkCmds, TaskCmds, Shelf leave the queue alone and keep `State.sound` (`Keeps`).
-/
namespace Sys2Proof.Machine

/-! ### Apply -/

theorem State.addFlow_keeps {s0 : State} {s} {i} {n} {c} (h : Keeps s0 s) : Keeps s0 (State.addFlow s i n c) := by
  unfold State.addFlow
  repeat' first
    | extract_lets +onlyGivenNames x
    | with_reducible exact h
    | with_reducible apply State.tally_keeps
    | with_reducible refine Keeps.ite (fun _ => ?_) (fun _ => ?_)
    | with_reducible refine Keeps.record rfl rfl rfl rfl ?_

theorem State.setLockerCfg_keeps {s0 : State} {s} {quiet} {i} {c} (h : Keeps s0 s) : Keeps s0 (State.setLockerCfg s quiet i c) := by
  unfold State.setLockerCfg
  repeat' first
    | extract_lets +onlyGivenNames x
    | with_reducible exact h
    | with_reducible apply State.setLocker_keeps

theorem State.setLockerGeo_keeps {s0 : State} {s} {i} {c} {pf} (h : Keeps s0 s) : Keeps s0 (State.setLockerGeo s i c pf) := by
  unfold State.setLockerGeo
  repeat' first
    | extract_lets +onlyGivenNames x
    | with_reducible exact h
    | with_reducible apply State.setLocker_keeps

theorem State.setPos_keeps {s0 : State} {s} {u} (h : Keeps s0 s) : Keeps s0 (State.setPos s u) := by
  unfold State.setPos
  repeat' first
    | extract_lets +onlyGivenNames x
    | with_reducible exact h
    | with_reducible apply State.setLocker_keeps

theorem State.setBusGains_keeps {s0 : State} {s} {n} {i} {gs} (h : Keeps s0 s) : Keeps s0 (State.setBusGains s n i gs) := by
  unfold State.setBusGains
  repeat' first
    | extract_lets +onlyGivenNames x
    | with_reducible exact h
    | with_reducible apply State.setLocker_keeps

theorem State.recount_keeps {s0 : State} {s} {quiet} {ms} (h : Keeps s0 s) : Keeps s0 (State.recount s quiet ms) := by
  unfold State.recount
  repeat' first
    | extract_lets +onlyGivenNames x
    | with_reducible exact h
    | with_reducible refine Keeps.record rfl rfl rfl rfl ?_

theorem State.setNodes_keeps {s0 : State} {s} {quiet} {recs} {ms} (h : Keeps s0 s) : Keeps s0 (State.setNodes s quiet recs ms) := by
  unfold State.setNodes
  repeat' first
    | extract_lets +onlyGivenNames x
    | with_reducible exact h
    | with_reducible apply State.recount_keeps
    | with_reducible refine Keeps.record rfl rfl rfl rfl ?_

theorem State.setMatrix_keeps {s0 : State} {s} {quiet} {recs} {ms} (h : Keeps s0 s) : Keeps s0 (State.setMatrix s quiet recs ms) := by
  unfold State.setMatrix
  repeat' first
    | extract_lets +onlyGivenNames x
    | with_reducible exact h
    | with_reducible apply State.recount_keeps
    | with_reducible refine Keeps.record rfl rfl rfl rfl ?_

theorem State.setAux_keeps {s0 : State} {s} {quiet} {i} {c} {ms} (h : Keeps s0 s) : Keeps s0 (State.setAux s quiet i c ms) := by
  unfold State.setAux
  repeat' first
    | extract_lets +onlyGivenNames x
    | with_reducible exact h
    | with_reducible refine Keeps.record rfl rfl rfl rfl ?_

theorem State.setFeed_keeps {s0 : State} {s} {f} {v} (h : Keeps s0 s) : Keeps s0 (State.setFeed s f v) := by
  unfold State.setFeed
  repeat' first
    | extract_lets +onlyGivenNames x
    | with_reducible exact h
    | with_reducible refine Keeps.record rfl rfl rfl rfl ?_

theorem State.setScale_keeps {s0 : State} {s} {quiet} {first} {modes} {ms} (h : Keeps s0 s) : Keeps s0 (State.setScale s quiet first modes ms) := by
  unfold State.setScale
  repeat' first
    | (extract_lets +onlyGivenNames x; refine (fun hx => ?_) (?_ : Keeps s0 x); clear_value x; rotate_left; subst x)
    | extract_lets +onlyGivenNames x
    | with_reducible exact h
    | with_reducible apply State.setFeed_keeps
    | with_reducible apply State.recount_keeps
    | with_reducible refine Keeps.ite (fun _ => ?_) (fun _ => ?_)
    | with_reducible refine Keeps.foldl (fun _ _ _ => ?_) ?_
    | with_reducible assumption

theorem State.setFeedMix_keeps {s0 : State} {s} {quiet} {f} {c} {ms} {stored} (h : Keeps s0 s) : Keeps s0 (State.setFeedMix s quiet f c ms stored) := by
  unfold State.setFeedMix
  repeat' first
    | extract_lets +onlyGivenNames x
    | with_reducible exact h
    | with_reducible apply State.setFeed_keeps

theorem State.setAlign_keeps {s0 : State} {s} {quiet} {n} {f} {len} (h : Keeps s0 s) : Keeps s0 (State.setAlign s quiet n f len) := by
  unfold State.setAlign
  repeat' first
    | (extract_lets +onlyGivenNames x; refine (fun hx => ?_) (?_ : Keeps s0 x); clear_value x; rotate_left; subst x)
    | extract_lets +onlyGivenNames x
    | with_reducible exact h
    | with_reducible apply State.setFeed_keeps
    | with_reducible apply State.tally_keeps
    | with_reducible apply State.both_keeps
    | with_reducible refine Keeps.ite (fun _ => ?_) (fun _ => ?_)
    | with_reducible assumption
    | split

theorem State.setFeedEq_keeps {s0 : State} {s} {quiet} {f} {first} {bs} {ms} {stored} (h : Keeps s0 s) : Keeps s0 (State.setFeedEq s quiet f first bs ms stored) := by
  unfold State.setFeedEq
  repeat' first
    | extract_lets +onlyGivenNames x
    | with_reducible exact h
    | with_reducible apply State.setFeed_keeps

theorem State.setFir_keeps {s0 : State} {s} {quiet} {f} {taps} {ms} (h : Keeps s0 s) : Keeps s0 (State.setFir s quiet f taps ms) := by
  unfold State.setFir
  repeat' first
    | (extract_lets +onlyGivenNames x; refine (fun hx => ?_) (?_ : Keeps s0 x); clear_value x; rotate_left; subst x)
    | extract_lets +onlyGivenNames x
    | with_reducible exact h
    | with_reducible apply State.setFeed_keeps
    | with_reducible refine Keeps.ite (fun _ => ?_) (fun _ => ?_)
    | with_reducible assumption
    | with_reducible refine Keeps.record rfl rfl rfl rfl ?_

theorem State.setRoute_keeps {s0 : State} {s} {quiet} {r} {c} {ms} (h : Keeps s0 s) : Keeps s0 (State.setRoute s quiet r c ms) := by
  unfold State.setRoute
  repeat' first
    | extract_lets +onlyGivenNames x
    | with_reducible exact h
    | split
    | with_reducible refine Keeps.record rfl rfl rfl rfl ?_

theorem State.removeFlow_keeps {s0 : State} {s} {i} (h : Keeps s0 s) : Keeps s0 (State.removeFlow s i) := by
  unfold State.removeFlow
  repeat' first
    | (extract_lets +onlyGivenNames x; refine (fun hx => ?_) (?_ : Keeps s0 x); clear_value x; rotate_left; subst x)
    | extract_lets +onlyGivenNames x
    | with_reducible exact h
    | with_reducible apply State.tally_keeps
    | with_reducible assumption
    | split
    | with_reducible refine Keeps.record rfl rfl rfl rfl ?_

theorem State.attachTask_keeps {s0 : State} {s} {quiet} {n} {t} (h : Keeps s0 s) : Keeps s0 (State.attachTask s quiet n t) := by
  unfold State.attachTask
  repeat' first
    | extract_lets +onlyGivenNames x
    | with_reducible exact h
    | with_reducible apply State.setTask_keeps
    | split

theorem State.detachTask_keeps {s0 : State} {s} {quiet} {n} {t} (h : Keeps s0 s) : Keeps s0 (State.detachTask s quiet n t) := by
  unfold State.detachTask
  repeat' first
    | extract_lets +onlyGivenNames x
    | with_reducible exact h
    | with_reducible apply State.finishTask_keeps
    | with_reducible apply State.setTask_keeps
    | with_reducible refine Keeps.ite (fun _ => ?_) (fun _ => ?_)
    | split

theorem State.repairCredits_keeps {s0 : State} {s} (h : Keeps s0 s) : Keeps s0 (State.repairCredits s) := by
  unfold State.repairCredits
  repeat' first
    | (extract_lets +onlyGivenNames x; refine (fun hx => ?_) (?_ : Keeps s0 x); clear_value x; rotate_left; subst x)
    | extract_lets +onlyGivenNames x
    | with_reducible exact h
    | with_reducible apply State.count_keeps
    | with_reducible refine Keeps.ite (fun _ => ?_) (fun _ => ?_)
    | with_reducible assumption
    | with_reducible refine Keeps.record rfl rfl rfl rfl ?_

theorem State.applyChange_keeps {s0 : State} {s} {quiet} {n} {a3} (h : Keeps s0 s) : Keeps s0 (State.applyChange s quiet n a3) := by
  unfold State.applyChange
  repeat' first
    | extract_lets +onlyGivenNames x
    | with_reducible exact h
    | with_reducible apply State.setLockerCfg_keeps
    | with_reducible apply State.setLockerGeo_keeps
    | with_reducible apply State.setLocker_keeps
    | with_reducible apply State.setPos_keeps
    | with_reducible apply State.setBusGains_keeps
    | with_reducible apply State.setNodes_keeps
    | with_reducible apply State.setMatrix_keeps
    | with_reducible apply State.setAux_keeps
    | with_reducible apply State.recount_keeps
    | with_reducible apply State.setScale_keeps
    | with_reducible apply State.setFeedMix_keeps
    | with_reducible apply State.setFeed_keeps
    | with_reducible apply State.setAlign_keeps
    | with_reducible apply State.setFeedEq_keeps
    | with_reducible apply State.setFir_keeps
    | with_reducible apply State.setRoute_keeps
    | with_reducible apply State.setReg_keeps
    | with_reducible apply State.addFlow_keeps
    | with_reducible apply State.removeFlow_keeps
    | with_reducible apply State.attachTask_keeps
    | with_reducible apply State.detachTask_keeps
    | with_reducible apply State.memberChange_keeps
    | with_reducible apply State.publish_keeps
    | with_reducible apply State.repairCredits_keeps
    | with_reducible refine Keeps.foldl (fun _ _ _ => ?_) ?_
    | with_reducible assumption
    | split
    | with_reducible refine Keeps.record rfl rfl rfl rfl ?_

theorem State.applyStage_keeps {s0 : State} {s} {st} {n} (h : Keeps s0 s) : Keeps s0 (State.applyStage s st n) := by
  unfold State.applyStage
  repeat' first
    | (extract_lets +onlyGivenNames x; refine (fun hx => ?_) (?_ : Keeps s0 x); clear_value x; rotate_left; subst x)
    | extract_lets +onlyGivenNames x
    | with_reducible exact h
    | with_reducible apply State.applyChange_keeps
    | with_reducible refine Keeps.foldl (fun _ _ _ => ?_) ?_
    | with_reducible assumption
    | with_reducible refine Keeps.record rfl rfl rfl rfl ?_

theorem State.unstage_keeps {s0 : State} {s} {b} {c} (h : Keeps s0 s) : Keeps s0 (State.unstage s b c) := by
  unfold State.unstage
  repeat' first
    | extract_lets +onlyGivenNames x
    | with_reducible exact h
    | with_reducible refine Keeps.ite (fun _ => ?_) (fun _ => ?_)
    | with_reducible refine Keeps.record rfl rfl rfl rfl ?_

theorem State.put_keeps {s0 : State} {s} {key} {b} {c} (h : Keeps s0 s) : Keeps s0 (State.put s key b c) := by
  unfold State.put
  repeat' first
    | extract_lets +onlyGivenNames x
    | with_reducible exact h
    | with_reducible apply State.schedule_keeps
    | with_reducible apply State.unstage_keeps

theorem State.putAll_keeps {s0 : State} {s} {key} {b} {cs} (h : Keeps s0 s) : Keeps s0 (State.putAll s key b cs) := by
  unfold State.putAll
  repeat' first
    | extract_lets +onlyGivenNames x
    | with_reducible exact h
    | with_reducible apply State.put_keeps
    | with_reducible refine Keeps.foldl (fun _ _ _ => ?_) ?_
    | with_reducible assumption

/-! ### Submit -/

theorem State.take_keeps {s0 : State} {s} {q} {op} {flags} {tag} (h : Keeps s0 s) : Keeps s0 (State.take s q op flags tag).2 := by
  unfold State.take
  repeat' first
    | (extract_lets +onlyGivenNames x; refine (fun hx => ?_) (?_ : Keeps s0 x); clear_value x; rotate_left; subst x)
    | extract_lets +onlyGivenNames x
    | with_reducible exact h
    | with_reducible apply State.setQueue_keeps
    | with_reducible assumption
    | with_reducible refine Keeps.record rfl rfl rfl rfl ?_

theorem State.admitEntry_keeps {s0 s t : State} {op : Byte} {e : Submission} {c : CmdRef} (ha : s.admitEntry op e = some (c, t))
    (h : Keeps s0 s) : Keeps s0 t := by
  unfold State.admitEntry at ha
  simp only [] at ha
  split at ha
  · split at ha
    · cases ha
      exact State.setQueue_keeps (State.take_keeps h)
    · cases ha
  · split at ha
    · split at ha
      · cases ha
        exact State.setQueue_keeps h
      · cases ha
    · cases ha

theorem State.refuseEntry_keeps {s0 : State} {s} {c} {index} {st} (h : Keeps s0 s) : Keeps s0 (State.refuseEntry s c index st) := by
  unfold State.refuseEntry
  repeat' first
    | extract_lets +onlyGivenNames x
    | with_reducible exact h
    | with_reducible apply State.complete_keeps
    | with_reducible apply State.both_keeps
    | with_reducible refine Keeps.ite (fun _ => ?_) (fun _ => ?_)

theorem settleF_keeps {s0 s : State} {n q : Nat} (h : Keeps s0 s) : Keeps s0 (settleF n q s) := by
  induction n generalizing s with
  | zero => exact h
  | succ n ih =>
    unfold settleF
    repeat' first
      | (extract_lets +onlyGivenNames x; refine (fun hx => ?_) (?_ : Keeps s0 x); clear_value x; rotate_left; subst x)
      | extract_lets +onlyGivenNames x
      | with_reducible exact h
      | with_reducible apply ih
      | with_reducible apply State.refuseEntry_keeps
      | with_reducible apply State.setQueue_keeps
      | with_reducible refine Keeps.ite (fun _ => ?_) (fun _ => ?_)
      | with_reducible assumption
      | split

theorem State.settle_keeps {s0 : State} {s} {q} (h : Keeps s0 s) : Keeps s0 (State.settle s q) := by
  unfold State.settle
  repeat' first
    | extract_lets +onlyGivenNames x
    | with_reducible exact h
    | with_reducible apply settleF_keeps

theorem guardCmd_keeps {s0 s : State} {bad : Bool} {st : Byte} {c : CmdRef} {k : State → State}
    (hk : ∀ u, Keeps s0 u → Keeps s0 (k u)) (h : Keeps s0 s) : Keeps s0 (guardCmd bad st c k s) := by
  unfold guardCmd
  repeat' first
    | extract_lets +onlyGivenNames x
    | with_reducible exact h
    | with_reducible apply hk
    | with_reducible apply State.complete_keeps
    | with_reducible refine Keeps.ite (fun _ => ?_) (fun _ => ?_)

theorem hostCommand_keeps {s0 s : State} {op : Byte} {e : Submission} {k : CmdRef → State → State}
    (hk : ∀ c u, Keeps s0 u → Keeps s0 (k c u)) (h : Keeps s0 s) : Keeps s0 (hostCommand op e k s) := by
  unfold hostCommand
  split
  · exact h
  · next ha =>
    have h := State.admitEntry_keeps ha h
    repeat' first
      | extract_lets +onlyGivenNames x
      | with_reducible exact h
      | with_reducible apply State.settle_keeps
      | with_reducible apply State.refuseEntry_keeps
      | with_reducible apply hk
      | with_reducible refine Keeps.ite (fun _ => ?_) (fun _ => ?_)
      | with_reducible assumption
      | split

/-! ### Epoch -/

theorem State.setSlot_keeps {s0 : State} {s} {k} {v} (h : Keeps s0 s) : Keeps s0 (State.setSlot s k v) := by
  unfold State.setSlot
  repeat' first
    | extract_lets +onlyGivenNames x
    | with_reducible exact h
    | with_reducible refine Keeps.record rfl rfl rfl rfl ?_

theorem State.slotState_keeps {s0 : State} {s} {k} {st} (h : Keeps s0 s) : Keeps s0 (State.slotState s k st) := by
  unfold State.slotState
  repeat' first
    | extract_lets +onlyGivenNames x
    | with_reducible exact h
    | with_reducible apply State.setSlot_keeps

theorem State.activate_keeps {s0 : State} {s} {target} (h : Keeps s0 s) : Keeps s0 (State.activate s target) := by
  unfold State.activate
  repeat' first
    | (extract_lets +onlyGivenNames x; refine (fun hx => ?_) (?_ : Keeps s0 x); clear_value x; rotate_left; subst x)
    | extract_lets +onlyGivenNames x
    | with_reducible exact h
    | with_reducible apply State.slotState_keeps
    | with_reducible refine Keeps.ite (fun _ => ?_) (fun _ => ?_)
    | with_reducible refine Keeps.foldl (fun _ _ _ => ?_) ?_
    | with_reducible assumption
    | with_reducible refine Keeps.record rfl rfl rfl rfl ?_

theorem State.reserve_keeps {s0 s t : State} {m m1 : Member} (hr : s.reserve m = some (m1, t)) (h : Keeps s0 s) : Keeps s0 t := by
  unfold State.reserve at hr
  dsimp only at hr
  split at hr
  · cases hr
    exact h
  · split at hr
    · cases hr
      exact Keeps.record rfl rfl rfl rfl h
    · cases hr

theorem State.addMember_keeps {s0 : State} {s} {c} {e} {m} (h : Keeps s0 s) : Keeps s0 (State.addMember s c e m) := by
  unfold State.addMember
  repeat' first
    | extract_lets +onlyGivenNames x
    | with_reducible exact h
    | with_reducible apply State.complete_keeps
    | with_reducible apply State.setEpoch_keeps
    | with_reducible refine Keeps.ite (fun _ => ?_) (fun _ => ?_)
    | split
    | with_reducible refine State.reserve_keeps (by assumption) ?_

theorem State.announce_keeps {s0 : State} {s} {e} {m} {d} (h : Keeps s0 s) : Keeps s0 (State.announce s e m d) := by
  unfold State.announce
  repeat' first
    | extract_lets +onlyGivenNames x
    | with_reducible exact h
    | with_reducible refine Keeps.ite (fun _ => ?_) (fun _ => ?_)
    | with_reducible refine Keeps.record rfl rfl rfl rfl ?_

theorem State.applyNow_keeps {s0 : State} {s} {cs} (h : Keeps s0 s) : Keeps s0 (State.applyNow s cs) := by
  unfold State.applyNow
  repeat' first
    | extract_lets +onlyGivenNames x
    | with_reducible exact h
    | with_reducible apply State.applyChange_keeps
    | with_reducible refine Keeps.foldl (fun _ _ _ => ?_) ?_
    | with_reducible assumption

theorem State.applyQuiet_keeps {s0 : State} {s} {fits} {cs} (h : Keeps s0 s) : Keeps s0 (State.applyQuiet s fits cs) := by
  unfold State.applyQuiet
  repeat' first
    | extract_lets +onlyGivenNames x
    | with_reducible exact h
    | with_reducible apply State.applyChange_keeps
    | with_reducible refine Keeps.ite (fun _ => ?_) (fun _ => ?_)
    | with_reducible refine Keeps.foldl (fun _ _ _ => ?_) ?_
    | with_reducible assumption
    | split
    | with_reducible refine Keeps.record rfl rfl rfl rfl ?_

theorem State.badMember_keeps {s0 : State} {s} {c} {e} {st} {res} (h : Keeps s0 s) : Keeps s0 (State.badMember s c e st res) := by
  unfold State.badMember
  repeat' first
    | extract_lets +onlyGivenNames x
    | with_reducible exact h
    | with_reducible apply State.complete_keeps
    | with_reducible apply State.setEpoch_keeps
    | split

theorem State.blockCommand_keeps {s0 s : State} {c : CmdRef} {e : Submission} {off : Nat} {lateOk geo : Bool}
    {chgs : Nat → List Change} {res : Nat → State → Nat} (h : Keeps s0 s) :
    Keeps s0 (s.blockCommand c e off lateOk geo chgs res) := by
  unfold State.blockCommand
  repeat' first
    | (extract_lets +onlyGivenNames x; refine (fun hx => ?_) (?_ : Keeps s0 x); clear_value x; rotate_left; subst x)
    | extract_lets +onlyGivenNames x
    | with_reducible exact h
    | with_reducible apply State.addMember_keeps
    | with_reducible apply State.complete_keeps
    | with_reducible apply State.applyNow_keeps
    | with_reducible apply State.putAll_keeps
    | with_reducible refine Keeps.ite (fun _ => ?_) (fun _ => ?_)
    | with_reducible assumption

theorem State.finalise_keeps {s0 : State} {s} {e} {code} (h : Keeps s0 s) : Keeps s0 (State.finalise s e code) := by
  unfold State.finalise
  repeat' first
    | (extract_lets +onlyGivenNames x; refine (fun hx => ?_) (?_ : Keeps s0 x); clear_value x; rotate_left; subst x)
    | extract_lets +onlyGivenNames x
    | with_reducible exact h
    | with_reducible refine Keeps.ite (fun _ => ?_) (fun _ => ?_)
    | with_reducible assumption
    | with_reducible refine Keeps.record rfl rfl rfl rfl ?_

theorem State.fadeBack_keeps {s0 : State} {s} {o} {f} (h : Keeps s0 s) : Keeps s0 (State.fadeBack s o f) := by
  unfold State.fadeBack
  repeat' first
    | extract_lets +onlyGivenNames x
    | with_reducible exact h
    | with_reducible apply State.setFeed_keeps

theorem State.discard_keeps {s0 : State} {s} {e} (h : Keeps s0 s) : Keeps s0 (State.discard s e) := by
  unfold State.discard
  repeat' first
    | (extract_lets +onlyGivenNames x; refine (fun hx => ?_) (?_ : Keeps s0 x); clear_value x; rotate_left; subst x)
    | extract_lets +onlyGivenNames x
    | with_reducible exact h
    | with_reducible apply State.fadeBack_keeps
    | with_reducible apply State.finishTask_keeps
    | with_reducible refine Keeps.foldl (fun _ _ _ => ?_) ?_
    | with_reducible assumption
    | with_reducible refine Keeps.record rfl rfl rfl rfl ?_

theorem State.endEpoch_keeps {s0 : State} {s} {e} {code} {st} (h : Keeps s0 s) : Keeps s0 (State.endEpoch s e code st) := by
  unfold State.endEpoch
  repeat' first
    | (extract_lets +onlyGivenNames x; refine (fun hx => ?_) (?_ : Keeps s0 x); clear_value x; rotate_left; subst x)
    | extract_lets +onlyGivenNames x
    | with_reducible exact h
    | with_reducible apply State.finalise_keeps
    | with_reducible apply State.discard_keeps
    | with_reducible apply State.complete_keeps
    | with_reducible assumption
    | split

theorem State.cancelEpochs_keeps {s0 : State} {s} {p} (h : Keeps s0 s) : Keeps s0 (State.cancelEpochs s p) := by
  unfold State.cancelEpochs
  repeat' first
    | extract_lets +onlyGivenNames x
    | with_reducible exact h
    | with_reducible apply State.endEpoch_keeps
    | with_reducible refine Keeps.foldl (fun _ _ _ => ?_) ?_
    | with_reducible assumption

theorem State.fadeOut_keeps {s0 : State} {s} {o} {m} {f} (h : Keeps s0 s) : Keeps s0 (State.fadeOut s o m f) := by
  unfold State.fadeOut
  repeat' first
    | extract_lets +onlyGivenNames x
    | with_reducible exact h
    | with_reducible apply State.setFeed_keeps
    | with_reducible refine Keeps.ite (fun _ => ?_) (fun _ => ?_)

theorem State.fadeAll_keeps {s0 : State} {s} {e} (h : Keeps s0 s) : Keeps s0 (State.fadeAll s e) := by
  unfold State.fadeAll
  repeat' first
    | extract_lets +onlyGivenNames x
    | with_reducible exact h
    | with_reducible apply State.fadeOut_keeps
    | with_reducible refine Keeps.foldl (fun _ _ _ => ?_) ?_
    | with_reducible assumption

theorem State.commitSwitch_keeps {s0 s : State} {o m : Nat} {w : Switch} (h : Keeps s0 s) : Keeps s0 (s.commitSwitch o m w) := by
  unfold State.commitSwitch
  extract_lets +onlyGivenNames l old
  clear_value l old
  repeat' first
    | (extract_lets +onlyGivenNames x; refine (fun hx => ?_) (?_ : Keeps s0 x); clear_value x; rotate_left; subst x)
    | extract_lets +onlyGivenNames x
    | with_reducible exact h
    | with_reducible apply State.slotState_keeps
    | with_reducible apply State.setReg_keeps
    | with_reducible apply State.putAll_keeps
    | with_reducible apply State.fadeOut_keeps
    | with_reducible refine Keeps.ite (fun _ => ?_) (fun _ => ?_)
    | with_reducible refine Keeps.foldl (fun _ _ _ => ?_) ?_
    | with_reducible assumption
    | split
    | with_reducible refine Keeps.record rfl rfl rfl rfl ?_

theorem State.commitEpoch_keeps {s0 : State} {s} {e} {adj} (h : Keeps s0 s) : Keeps s0 (State.commitEpoch s e adj) := by
  unfold State.commitEpoch
  extract_lets +onlyGivenNames cs
  clear_value cs
  repeat' first
    | (extract_lets +onlyGivenNames x; refine (fun hx => ?_) (?_ : Keeps s0 x); clear_value x; rotate_left; subst x)
    | extract_lets +onlyGivenNames x
    | with_reducible exact h
    | with_reducible apply State.put_keeps
    | with_reducible apply State.finalise_keeps
    | with_reducible apply State.putAll_keeps
    | with_reducible apply State.commitSwitch_keeps
    | with_reducible apply State.count_keeps
    | with_reducible apply State.complete_keeps
    | with_reducible refine Keeps.foldl (fun _ _ _ => ?_) ?_
    | with_reducible assumption
    | split

theorem State.defer_keeps {s0 : State} {s} {e} (h : Keeps s0 s) : Keeps s0 (State.defer s e) := by
  unfold State.defer
  repeat' first
    | extract_lets +onlyGivenNames x
    | with_reducible exact h
    | with_reducible apply State.announce_keeps
    | with_reducible apply State.both_keeps
    | with_reducible apply State.fadeAll_keeps
    | with_reducible apply State.setEpoch_keeps

theorem State.checkEpoch_keeps {s0 : State} {s} {e} (h : Keeps s0 s) : Keeps s0 (State.checkEpoch s e) := by
  unfold State.checkEpoch
  repeat' first
    | (extract_lets +onlyGivenNames x; refine (fun hx => ?_) (?_ : Keeps s0 x); clear_value x; rotate_left; subst x)
    | extract_lets +onlyGivenNames x
    | with_reducible exact h
    | with_reducible apply State.endEpoch_keeps
    | with_reducible apply State.announce_keeps
    | with_reducible apply State.fadeAll_keeps
    | with_reducible apply State.setEpoch_keeps
    | with_reducible apply State.evt_keeps
    | with_reducible apply State.commitEpoch_keeps
    | with_reducible apply State.defer_keeps
    | with_reducible refine Keeps.ite (fun _ => ?_) (fun _ => ?_)
    | with_reducible assumption

theorem State.checkEpochs_keeps {s0 : State} {s} (h : Keeps s0 s) : Keeps s0 (State.checkEpochs s) := by
  unfold State.checkEpochs
  repeat' first
    | extract_lets +onlyGivenNames x
    | with_reducible exact h
    | with_reducible apply State.checkEpoch_keeps
    | with_reducible refine Keeps.foldl (fun _ _ _ => ?_) ?_
    | with_reducible assumption
    | split

theorem State.switchNow_keeps {s0 : State} {s} {target} (h : Keeps s0 s) : Keeps s0 (State.switchNow s target) := by
  unfold State.switchNow
  repeat' first
    | (extract_lets +onlyGivenNames x; refine (fun hx => ?_) (?_ : Keeps s0 x); clear_value x; rotate_left; subst x)
    | extract_lets +onlyGivenNames x
    | with_reducible exact h
    | with_reducible apply State.activate_keeps
    | with_reducible apply State.applyQuiet_keeps
    | with_reducible assumption

theorem State.commitQuiet_keeps {s0 : State} {s} {e} {c} (h : Keeps s0 s) : Keeps s0 (State.commitQuiet s e c) := by
  unfold State.commitQuiet
  repeat' first
    | (extract_lets +onlyGivenNames x; refine (fun hx => ?_) (?_ : Keeps s0 x); clear_value x; rotate_left; subst x)
    | extract_lets +onlyGivenNames x
    | with_reducible exact h
    | with_reducible apply State.endEpoch_keeps
    | with_reducible apply State.repairCredits_keeps
    | with_reducible apply State.finalise_keeps
    | with_reducible apply State.applyQuiet_keeps
    | with_reducible apply State.switchNow_keeps
    | with_reducible apply State.complete_keeps
    | with_reducible apply State.count_keeps
    | with_reducible refine Keeps.ite (fun _ => ?_) (fun _ => ?_)
    | with_reducible refine Keeps.foldl (fun _ _ _ => ?_) ?_
    | with_reducible assumption
    | split
    | with_reducible refine Keeps.record rfl rfl rfl rfl ?_

theorem State.fitFirs_keeps {s0 s : State} {l : List Change} (h : Keeps s0 s) : Keeps s0 (State.fitFirs s l).2 := by
  induction l generalizing s with
  | nil => exact h
  | cons p l ih =>
    unfold State.fitFirs
    repeat' first
      | extract_lets +onlyGivenNames x
      | with_reducible exact h
      | with_reducible apply ih
      | split
      | with_reducible refine Keeps.record rfl rfl rfl rfl ?_

theorem State.seal_keeps {s0 : State} {s} {e} {c} {m} {adj} (h : Keeps s0 s) : Keeps s0 (State.seal s e c m adj) := by
  unfold State.seal
  repeat' first
    | (extract_lets +onlyGivenNames x; refine (fun hx => ?_) (?_ : Keeps s0 x); clear_value x; rotate_left; subst x)
    | extract_lets +onlyGivenNames x
    | with_reducible exact h
    | with_reducible apply State.fadeAll_keeps
    | with_reducible assumption
    | with_reducible refine Keeps.record rfl rfl rfl rfl ?_

theorem State.ownEpoch_keeps {s0 : State} {s} {c} {present} {lateOk} {m} (h : Keeps s0 s) : Keeps s0 (State.ownEpoch s c present lateOk m) := by
  unfold State.ownEpoch
  repeat' first
    | (extract_lets +onlyGivenNames x; refine (fun hx => ?_) (?_ : Keeps s0 x); clear_value x; rotate_left; subst x)
    | extract_lets +onlyGivenNames x
    | with_reducible exact h
    | with_reducible apply State.complete_keeps
    | with_reducible apply State.commitQuiet_keeps
    | with_reducible apply State.seal_keeps
    | with_reducible refine Keeps.ite (fun _ => ?_) (fun _ => ?_)
    | with_reducible assumption
    | split
    | with_reducible refine State.reserve_keeps (by assumption) ?_
    | with_reducible refine Keeps.record rfl rfl rfl rfl ?_

theorem State.reject_keeps {s0 : State} {s} {c} {e} {st} {res} (h : Keeps s0 s) : Keeps s0 (State.reject s c e st res) := by
  unfold State.reject
  repeat' first
    | extract_lets +onlyGivenNames x
    | with_reducible exact h
    | with_reducible apply State.complete_keeps
    | with_reducible apply State.badMember_keeps
    | with_reducible refine Keeps.ite (fun _ => ?_) (fun _ => ?_)

/-! ### Timetable -/

theorem State.expire_keeps {s0 : State} {s} {e} (h : Keeps s0 s) : Keeps s0 (State.expire s e) := by
  unfold State.expire
  repeat' first
    | extract_lets +onlyGivenNames x
    | with_reducible exact h
    | with_reducible apply State.endEpoch_keeps
    | with_reducible apply State.both_keeps

theorem bellCancel_keeps {s0 : State} {e} {c} {s} (h : Keeps s0 s) : Keeps s0 (bellCancel e c s) := by
  unfold bellCancel
  repeat' first
    | extract_lets +onlyGivenNames x
    | with_reducible exact h
    | with_reducible apply guardCmd_keeps
    | with_reducible apply State.complete_keeps
    | intro u hu
    | with_reducible assumption
    | split
    | with_reducible refine Keeps.record rfl rfl rfl rfl ?_

theorem bellSet_keeps {s0 : State} {e} {c} {s} (h : Keeps s0 s) : Keeps s0 (bellSet e c s) := by
  unfold bellSet
  repeat' first
    | extract_lets +onlyGivenNames x
    | with_reducible exact h
    | with_reducible apply State.complete_keeps
    | with_reducible refine Keeps.ite (fun _ => ?_) (fun _ => ?_)
    | split
    | with_reducible refine Keeps.record rfl rfl rfl rfl ?_

theorem epochCancel_keeps {s0 : State} {e} {c} {s} (h : Keeps s0 s) : Keeps s0 (epochCancel e c s) := by
  unfold epochCancel
  repeat' first
    | (extract_lets +onlyGivenNames x; refine (fun hx => ?_) (?_ : Keeps s0 x); clear_value x; rotate_left; subst x)
    | extract_lets +onlyGivenNames x
    | with_reducible exact h
    | with_reducible apply guardCmd_keeps
    | with_reducible apply State.checkEpochs_keeps
    | with_reducible apply State.complete_keeps
    | with_reducible apply State.expire_keeps
    | with_reducible apply State.endEpoch_keeps
    | with_reducible refine Keeps.ite (fun _ => ?_) (fun _ => ?_)
    | intro u hu
    | with_reducible assumption
    | split

theorem epochCommit_keeps {s0 : State} {e} {c} {s} (h : Keeps s0 s) : Keeps s0 (epochCommit e c s) := by
  unfold epochCommit
  repeat' first
    | extract_lets +onlyGivenNames x
    | with_reducible exact h
    | with_reducible apply guardCmd_keeps
    | with_reducible apply State.complete_keeps
    | with_reducible apply State.commitQuiet_keeps
    | with_reducible apply State.seal_keeps
    | with_reducible refine Keeps.ite (fun _ => ?_) (fun _ => ?_)
    | intro u hu
    | with_reducible assumption
    | split

theorem epochExpire_keeps {s0 : State} {id} {s} (h : Keeps s0 s) : Keeps s0 (epochExpire id s) := by
  unfold epochExpire
  repeat' first
    | extract_lets +onlyGivenNames x
    | with_reducible exact h
    | with_reducible apply State.expire_keeps
    | split

theorem epochMemberStaged_keeps {s0 : State} {id} {k} {s} (h : Keeps s0 s) : Keeps s0 (epochMemberStaged id k s) := by
  unfold epochMemberStaged
  repeat' first
    | (extract_lets +onlyGivenNames x; refine (fun hx => ?_) (?_ : Keeps s0 x); clear_value x; rotate_left; subst x)
    | extract_lets +onlyGivenNames x
    | with_reducible exact h
    | with_reducible apply State.stageWork_keeps
    | with_reducible apply State.setEpoch_keeps
    | with_reducible refine Keeps.ite (fun _ => ?_) (fun _ => ?_)
    | with_reducible assumption
    | split
    | with_reducible refine State.reserve_keeps (by assumption) ?_

theorem epochOpen_keeps {s0 : State} {e} {c} {s} (h : Keeps s0 s) : Keeps s0 (epochOpen e c s) := by
  unfold epochOpen
  repeat' first
    | (extract_lets +onlyGivenNames x; refine (fun hx => ?_) (?_ : Keeps s0 x); clear_value x; rotate_left; subst x)
    | extract_lets +onlyGivenNames x
    | with_reducible exact h
    | with_reducible apply State.complete_keeps
    | with_reducible refine Keeps.ite (fun _ => ?_) (fun _ => ?_)
    | with_reducible assumption
    | with_reducible refine Keeps.record rfl rfl rfl rfl ?_

theorem epochSplit_keeps {s0 : State} {id} {s} (h : Keeps s0 s) : Keeps s0 (epochSplit id s) := by
  unfold epochSplit
  repeat' first
    | extract_lets +onlyGivenNames x
    | with_reducible exact h
    | with_reducible apply State.both_keeps
    | with_reducible apply State.endEpoch_keeps
    | split

/-! ### ObjCmds -/

theorem State.captureEnd_keeps {s0 : State} {s} {st} (h : Keeps s0 s) : Keeps s0 (State.captureEnd s st) := by
  unfold State.captureEnd
  repeat' first
    | (extract_lets +onlyGivenNames x; refine (fun hx => ?_) (?_ : Keeps s0 x); clear_value x; rotate_left; subst x)
    | extract_lets +onlyGivenNames x
    | with_reducible exact h
    | with_reducible apply State.complete_keeps
    | with_reducible refine Keeps.foldl (fun _ _ _ => ?_) ?_
    | with_reducible assumption
    | split
    | with_reducible refine Keeps.record rfl rfl rfl rfl ?_

theorem State.captureAbort_keeps {s0 : State} {s} (h : Keeps s0 s) : Keeps s0 (State.captureAbort s) := by
  unfold State.captureAbort
  repeat' first
    | extract_lets +onlyGivenNames x
    | with_reducible exact h
    | with_reducible apply State.evt_keeps
    | with_reducible apply State.captureEnd_keeps
    | with_reducible refine Keeps.ite (fun _ => ?_) (fun _ => ?_)

theorem State.frameCommand_keeps {s0 s : State} {c : CmdRef} {e : Submission} {chg : Change} {geo : Bool} {ok late : State → State}
    (ho : ∀ u, Keeps s0 u → Keeps s0 (ok u)) (hl : ∀ u, Keeps s0 u → Keeps s0 (late u)) (h : Keeps s0 s) :
    Keeps s0 (s.frameCommand c e chg geo ok late) := by
  unfold State.frameCommand
  repeat' first
    | (extract_lets +onlyGivenNames x; refine (fun hx => ?_) (?_ : Keeps s0 x); clear_value x; rotate_left; subst x)
    | extract_lets +onlyGivenNames x
    | with_reducible exact h
    | with_reducible apply State.addMember_keeps
    | with_reducible apply State.complete_keeps
    | with_reducible apply State.applyNow_keeps
    | with_reducible apply State.put_keeps
    | with_reducible apply ho
    | with_reducible apply hl
    | with_reducible refine Keeps.ite (fun _ => ?_) (fun _ => ?_)
    | with_reducible assumption

theorem State.replayBlock_keeps {s0 : State} {s} {n} (h : Keeps s0 s) : Keeps s0 (State.replayBlock s n) := by
  unfold State.replayBlock
  repeat' first
    | (extract_lets +onlyGivenNames x; refine (fun hx => ?_) (?_ : Keeps s0 x); clear_value x; rotate_left; subst x)
    | extract_lets +onlyGivenNames x
    | with_reducible exact h
    | with_reducible apply State.addLed_keeps
    | with_reducible apply State.evt_keeps
    | with_reducible refine Keeps.ite (fun _ => ?_) (fun _ => ?_)
    | with_reducible assumption
    | with_reducible refine Keeps.record rfl rfl rfl rfl ?_

theorem State.replayEnd_keeps {s0 : State} {s} (h : Keeps s0 s) : Keeps s0 (State.replayEnd s) := by
  unfold State.replayEnd
  repeat' first
    | (extract_lets +onlyGivenNames x; refine (fun hx => ?_) (?_ : Keeps s0 x); clear_value x; rotate_left; subst x)
    | extract_lets +onlyGivenNames x
    | with_reducible exact h
    | with_reducible apply State.addLed_keeps
    | with_reducible assumption
    | with_reducible refine Keeps.record rfl rfl rfl rfl ?_

theorem airSet_keeps {s0 : State} {e} {c} {s} (h : Keeps s0 s) : Keeps s0 (airSet e c s) := by
  unfold airSet
  repeat' first
    | (extract_lets +onlyGivenNames x; refine (fun hx => ?_) (?_ : Keeps s0 x); clear_value x; rotate_left; subst x)
    | extract_lets +onlyGivenNames x
    | with_reducible exact h
    | with_reducible apply State.reject_keeps
    | with_reducible apply State.frameCommand_keeps
    | with_reducible apply Keeps.idS
    | with_reducible refine Keeps.ite (fun _ => ?_) (fun _ => ?_)
    | with_reducible assumption
    | with_reducible refine Keeps.record rfl rfl rfl rfl ?_

theorem captureFrameWritten_keeps {s0 : State} {err} {s} (h : Keeps s0 s) : Keeps s0 (captureFrameWritten err s) := by
  unfold captureFrameWritten
  repeat' first
    | (extract_lets +onlyGivenNames x; refine (fun hx => ?_) (?_ : Keeps s0 x); clear_value x; rotate_left; subst x)
    | extract_lets +onlyGivenNames x
    | with_reducible exact h
    | with_reducible apply State.dramWrite_keeps
    | with_reducible apply State.dramUe_keeps
    | with_reducible apply State.count_keeps
    | with_reducible apply State.complete_keeps
    | with_reducible apply State.captureEnd_keeps
    | with_reducible apply State.evt_keeps
    | with_reducible refine Keeps.ite (fun _ => ?_) (fun _ => ?_)
    | with_reducible assumption
    | split
    | with_reducible refine Keeps.record rfl rfl rfl rfl ?_

theorem captureStart_keeps {s0 : State} {e} {c} {s} (h : Keeps s0 s) : Keeps s0 (captureStart e c s) := by
  unfold captureStart
  repeat' first
    | extract_lets +onlyGivenNames x
    | with_reducible exact h
    | with_reducible apply State.complete_keeps
    | with_reducible refine Keeps.ite (fun _ => ?_) (fun _ => ?_)
    | split
    | with_reducible refine Keeps.record rfl rfl rfl rfl ?_

theorem captureStop_keeps {s0 : State} {e} {c} {s} (h : Keeps s0 s) : Keeps s0 (captureStop e c s) := by
  unfold captureStop
  repeat' first
    | (extract_lets +onlyGivenNames x; refine (fun hx => ?_) (?_ : Keeps s0 x); clear_value x; rotate_left; subst x)
    | extract_lets +onlyGivenNames x
    | with_reducible exact h
    | with_reducible apply State.complete_keeps
    | with_reducible apply State.captureEnd_keeps
    | with_reducible refine Keeps.ite (fun _ => ?_) (fun _ => ?_)
    | with_reducible assumption
    | with_reducible refine Keeps.record rfl rfl rfl rfl ?_

theorem objConfig_keeps {s0 : State} {e} {c} {s} (h : Keeps s0 s) : Keeps s0 (objConfig e c s) := by
  unfold objConfig
  repeat' first
    | extract_lets +onlyGivenNames x
    | with_reducible exact h
    | with_reducible apply State.reject_keeps
    | with_reducible apply State.blockCommand_keeps
    | split

theorem objEq_keeps {s0 : State} {e} {c} {s} (h : Keeps s0 s) : Keeps s0 (objEq e c s) := by
  unfold objEq
  repeat' first
    | extract_lets +onlyGivenNames x
    | with_reducible exact h
    | with_reducible apply State.reject_keeps
    | with_reducible apply State.blockCommand_keeps
    | with_reducible refine Keeps.ite (fun _ => ?_) (fun _ => ?_)
    | split

theorem objGain_keeps {s0 : State} {e} {c} {s} (h : Keeps s0 s) : Keeps s0 (objGain e c s) := by
  unfold objGain
  repeat' first
    | extract_lets +onlyGivenNames x
    | with_reducible exact h
    | with_reducible apply State.reject_keeps
    | with_reducible apply State.blockCommand_keeps
    | with_reducible refine Keeps.ite (fun _ => ?_) (fun _ => ?_)

theorem objPosition_keeps {s0 : State} {e} {c} {s} (h : Keeps s0 s) : Keeps s0 (objPosition e c s) := by
  unfold objPosition
  repeat' first
    | extract_lets +onlyGivenNames x
    | with_reducible exact h
    | with_reducible apply State.reject_keeps
    | with_reducible apply State.frameCommand_keeps
    | with_reducible apply State.count_keeps
    | with_reducible apply State.both_keeps
    | with_reducible refine Keeps.ite (fun _ => ?_) (fun _ => ?_)
    | intro u hu
    | with_reducible assumption
    | split

theorem replaySet_keeps {s0 : State} {e} {c} {s} (h : Keeps s0 s) : Keeps s0 (replaySet e c s) := by
  unfold replaySet
  repeat' first
    | (extract_lets +onlyGivenNames x; refine (fun hx => ?_) (?_ : Keeps s0 x); clear_value x; rotate_left; subst x)
    | extract_lets +onlyGivenNames x
    | with_reducible exact h
    | with_reducible apply State.complete_keeps
    | with_reducible apply State.replayBlock_keeps
    | with_reducible apply State.replayEnd_keeps
    | with_reducible refine Keeps.ite (fun _ => ?_) (fun _ => ?_)
    | with_reducible assumption
    | split
    | with_reducible refine Keeps.record rfl rfl rfl rfl ?_

/-! ### SpkCmds -/

theorem State.ovrEvt_keeps {s0 : State} {s} {bit} (h : Keeps s0 s) : Keeps s0 (State.ovrEvt s bit) := by
  unfold State.ovrEvt
  repeat' first
    | extract_lets +onlyGivenNames x
    | with_reducible exact h
    | with_reducible apply State.evt_keeps

theorem alignFadeOutEnd_keeps {s0 : State} {f} {s} (h : Keeps s0 s) : Keeps s0 (alignFadeOutEnd f s) := by
  unfold alignFadeOutEnd
  repeat' first
    | extract_lets +onlyGivenNames x
    | with_reducible exact h
    | with_reducible apply State.setFeed_keeps

theorem corridorSet_keeps {s0 : State} {e} {c} {s} (h : Keeps s0 s) : Keeps s0 (corridorSet e c s) := by
  unfold corridorSet
  repeat' first
    | extract_lets +onlyGivenNames x
    | with_reducible exact h
    | with_reducible apply State.reject_keeps
    | with_reducible apply State.addMember_keeps
    | with_reducible apply State.complete_keeps
    | with_reducible apply State.applyNow_keeps
    | with_reducible apply State.put_keeps
    | with_reducible refine Keeps.ite (fun _ => ?_) (fun _ => ?_)
    | split

theorem feedBasic_keeps {s0 : State} {e} {c} {f} {b} {ms} {late} {s} (h : Keeps s0 s) : Keeps s0 (feedBasic e c f b ms late s) := by
  unfold feedBasic
  repeat' first
    | extract_lets +onlyGivenNames x
    | with_reducible exact h
    | with_reducible apply State.addMember_keeps
    | with_reducible apply State.blockCommand_keeps
    | with_reducible apply State.complete_keeps
    | with_reducible apply State.applyNow_keeps
    | with_reducible apply State.ownEpoch_keeps
    | with_reducible refine Keeps.ite (fun _ => ?_) (fun _ => ?_)

theorem feedConfig_keeps {s0 : State} {e} {c} {s} (h : Keeps s0 s) : Keeps s0 (feedConfig e c s) := by
  unfold feedConfig
  repeat' first
    | extract_lets +onlyGivenNames x
    | with_reducible exact h
    | with_reducible apply State.reject_keeps
    | with_reducible apply feedBasic_keeps
    | with_reducible apply State.blockCommand_keeps
    | with_reducible refine Keeps.ite (fun _ => ?_) (fun _ => ?_)
    | split

theorem firCrossfadeEnd_keeps {s0 : State} {f} {s} (h : Keeps s0 s) : Keeps s0 (firCrossfadeEnd f s) := by
  unfold firCrossfadeEnd
  repeat' first
    | (extract_lets +onlyGivenNames x; refine (fun hx => ?_) (?_ : Keeps s0 x); clear_value x; rotate_left; subst x)
    | extract_lets +onlyGivenNames x
    | with_reducible exact h
    | with_reducible apply State.setFeed_keeps
    | with_reducible refine Keeps.ite (fun _ => ?_) (fun _ => ?_)
    | with_reducible assumption
    | split
    | with_reducible refine Keeps.record rfl rfl rfl rfl ?_

theorem firReserve_keeps {s0 : State} {e} {c} {f} {taps} {ms} {late} {s} (h : Keeps s0 s) : Keeps s0 (firReserve e c f taps ms late s) := by
  unfold firReserve
  repeat' first
    | (extract_lets +onlyGivenNames x; refine (fun hx => ?_) (?_ : Keeps s0 x); clear_value x; rotate_left; subst x)
    | extract_lets +onlyGivenNames x
    | with_reducible exact h
    | with_reducible apply State.addMember_keeps
    | with_reducible apply State.complete_keeps
    | with_reducible apply State.blockCommand_keeps
    | with_reducible refine Keeps.ite (fun _ => ?_) (fun _ => ?_)
    | with_reducible assumption
    | with_reducible refine Keeps.record rfl rfl rfl rfl ?_

theorem firLoad_keeps {s0 : State} {e} {c} {s} (h : Keeps s0 s) : Keeps s0 (firLoad e c s) := by
  unfold firLoad
  repeat' first
    | extract_lets +onlyGivenNames x
    | with_reducible exact h
    | with_reducible apply State.reject_keeps
    | with_reducible apply firReserve_keeps
    | with_reducible refine Keeps.ite (fun _ => ?_) (fun _ => ?_)
    | split

theorem forceWrite_keeps {s0 : State} {bit} {on} {s} (h : Keeps s0 s) : Keeps s0 (forceWrite bit on s) := by
  unfold forceWrite
  repeat' first
    | extract_lets +onlyGivenNames x
    | with_reducible exact h
    | with_reducible apply State.setReg_keeps

theorem limiterSet_keeps {s0 : State} {e} {c} {s} (h : Keeps s0 s) : Keeps s0 (limiterSet e c s) := by
  unfold limiterSet
  repeat' first
    | extract_lets +onlyGivenNames x
    | with_reducible exact h
    | with_reducible apply State.reject_keeps
    | with_reducible apply State.blockCommand_keeps
    | with_reducible refine Keeps.ite (fun _ => ?_) (fun _ => ?_)
    | split

theorem matrixSet_keeps {s0 : State} {e} {c} {s} (h : Keeps s0 s) : Keeps s0 (matrixSet e c s) := by
  unfold matrixSet
  repeat' first
    | extract_lets +onlyGivenNames x
    | with_reducible exact h
    | with_reducible apply State.reject_keeps
    | with_reducible apply State.blockCommand_keeps
    | with_reducible refine Keeps.ite (fun _ => ?_) (fun _ => ?_)
    | split

theorem muteNChange_keeps {s0 : State} {s} (h : Keeps s0 s) : Keeps s0 (muteNChange s) := by
  unfold muteNChange
  repeat' first
    | (extract_lets +onlyGivenNames x; refine (fun hx => ?_) (?_ : Keeps s0 x); clear_value x; rotate_left; subst x)
    | extract_lets +onlyGivenNames x
    | with_reducible exact h
    | with_reducible apply State.ovrEvt_keeps
    | with_reducible apply State.count_keeps
    | with_reducible refine Keeps.ite (fun _ => ?_) (fun _ => ?_)
    | with_reducible assumption
    | with_reducible refine Keeps.record rfl rfl rfl rfl ?_

theorem overrideNChange_keeps {s0 : State} {s} (h : Keeps s0 s) : Keeps s0 (overrideNChange s) := by
  unfold overrideNChange
  repeat' first
    | (extract_lets +onlyGivenNames x; refine (fun hx => ?_) (?_ : Keeps s0 x); clear_value x; rotate_left; subst x)
    | extract_lets +onlyGivenNames x
    | with_reducible exact h
    | with_reducible apply State.ovrEvt_keeps
    | with_reducible apply State.count_keeps
    | with_reducible refine Keeps.ite (fun _ => ?_) (fun _ => ?_)
    | with_reducible assumption
    | with_reducible refine Keeps.record rfl rfl rfl rfl ?_

theorem pilotWindowEnd_keeps {s0 : State} {f} {s} (h : Keeps s0 s) : Keeps s0 (pilotWindowEnd f s) := by
  unfold pilotWindowEnd
  repeat' first
    | extract_lets +onlyGivenNames x
    | with_reducible exact h
    | with_reducible apply State.fxs_keeps
    | with_reducible apply State.setFeed_keeps
    | with_reducible refine Keeps.ite (fun _ => ?_) (fun _ => ?_)

/-! ### TaskCmds -/

theorem State.signalTask_keeps {s0 : State} {s} {c} {adj} {t} {mask} (h : Keeps s0 s) : Keeps s0 (State.signalTask s c adj t mask) := by
  unfold State.signalTask
  repeat' first
    | (extract_lets +onlyGivenNames x; refine (fun hx => ?_) (?_ : Keeps s0 x); clear_value x; rotate_left; subst x)
    | extract_lets +onlyGivenNames x
    | with_reducible exact h
    | with_reducible apply State.complete_keeps
    | with_reducible apply State.applyPost_keeps
    | with_reducible apply State.hold_keeps
    | with_reducible apply State.setQueue_keeps
    | with_reducible refine Keeps.ite (fun _ => ?_) (fun _ => ?_)
    | with_reducible assumption

theorem taskCancel_keeps {s0 s : State} {e : Submission} {c : CmdRef} (h : Keeps s0 s) : Keeps s0 (taskCancel e c s) := by
  unfold taskCancel
  repeat' first
    | (extract_lets +onlyGivenNames x; refine (fun hf => ?_) (?_ : ∀ a, Keeps s0 (x a)); clear_value x; rotate_left; subst x; intro a)
    | extract_lets +onlyGivenNames x
    | with_reducible exact h
    | with_reducible apply State.addMember_keeps
    | with_reducible apply State.complete_keeps
    | with_reducible apply State.finishTask_keeps
    | with_reducible apply State.reject_keeps
    | with_reducible apply State.put_keeps
    | with_reducible apply State.setTask_keeps
    | with_reducible apply hf
    | with_reducible refine Keeps.ite (fun _ => ?_) (fun _ => ?_)
    | split

theorem taskCreate_keeps {s0 : State} {e} {c} {s} (h : Keeps s0 s) : Keeps s0 (taskCreate e c s) := by
  unfold taskCreate
  repeat' first
    | extract_lets +onlyGivenNames x
    | with_reducible exact h
    | with_reducible apply State.reject_keeps
    | with_reducible apply State.addMember_keeps
    | with_reducible apply State.setTask_keeps
    | with_reducible apply State.complete_keeps
    | with_reducible apply State.blockCommand_keeps
    | with_reducible refine Keeps.ite (fun _ => ?_) (fun _ => ?_)
    | split

theorem taskSignal_keeps {s0 : State} {e} {c} {s} (h : Keeps s0 s) : Keeps s0 (taskSignal e c s) := by
  unfold taskSignal
  repeat' first
    | extract_lets +onlyGivenNames x
    | with_reducible exact h
    | with_reducible apply State.complete_keeps
    | with_reducible apply State.signalTask_keeps
    | with_reducible apply State.addTimed_keeps
    | with_reducible refine Keeps.ite (fun _ => ?_) (fun _ => ?_)

/-! ### Shelf -/

theorem State.addJob_keeps {s0 : State} {s} {k} {j} (h : Keeps s0 s) : Keeps s0 (State.addJob s k j) := by
  unfold State.addJob
  repeat' first
    | extract_lets +onlyGivenNames x
    | with_reducible exact h
    | with_reducible apply State.setSlot_keeps

theorem State.settleSlot_keeps {s0 : State} {s} {k} {ok} {p} (h : Keeps s0 s) : Keeps s0 (State.settleSlot s k ok p) := by
  unfold State.settleSlot
  repeat' first
    | extract_lets +onlyGivenNames x
    | with_reducible exact h
    | with_reducible apply State.setSlot_keeps

theorem State.spoilEpochs_keeps {s0 : State} {s} {k} (h : Keeps s0 s) : Keeps s0 (State.spoilEpochs s k) := by
  unfold State.spoilEpochs
  repeat' first
    | extract_lets +onlyGivenNames x
    | with_reducible exact h
    | with_reducible refine Keeps.record rfl rfl rfl rfl ?_

theorem flashSlotExamined_keeps {s0 : State} {k} {image} {s} (h : Keeps s0 s) : Keeps s0 (flashSlotExamined k image s) := by
  unfold flashSlotExamined
  repeat' first
    | (extract_lets +onlyGivenNames x; refine (fun hx => ?_) (?_ : Keeps s0 x); clear_value x; rotate_left; subst x)
    | extract_lets +onlyGivenNames x
    | with_reducible exact h
    | with_reducible apply State.setSlot_keeps
    | with_reducible apply State.completeMany_keeps
    | with_reducible refine Keeps.ite (fun _ => ?_) (fun _ => ?_)
    | with_reducible assumption

theorem shelfCopied_keeps {s0 : State} {k} {x} {j} {s} (h : Keeps s0 s) : Keeps s0 (shelfCopied k x j s) := by
  unfold shelfCopied
  repeat' first
    | (extract_lets +onlyGivenNames x; refine (fun hx => ?_) (?_ : Keeps s0 x); clear_value x; rotate_left; subst x)
    | extract_lets +onlyGivenNames x
    | with_reducible exact h
    | with_reducible apply State.dramWrite_keeps
    | with_reducible apply State.settleSlot_keeps
    | with_reducible apply State.complete_keeps
    | with_reducible refine Keeps.ite (fun _ => ?_) (fun _ => ?_)
    | with_reducible assumption

theorem shelfLoad_keeps {s0 : State} {e} {c} {s} (h : Keeps s0 s) : Keeps s0 (shelfLoad e c s) := by
  unfold shelfLoad
  repeat' first
    | extract_lets +onlyGivenNames x
    | with_reducible exact h
    | with_reducible apply guardCmd_keeps
    | with_reducible apply State.addJob_keeps
    | with_reducible apply State.complete_keeps
    | with_reducible apply State.slotState_keeps
    | with_reducible refine Keeps.ite (fun _ => ?_) (fun _ => ?_)
    | intro u hu
    | with_reducible assumption
    | split

theorem shelfLoadCopyEnd_keeps {s0 : State} {k} {x} {s} (h : Keeps s0 s) : Keeps s0 (shelfLoadCopyEnd k x s) := by
  unfold shelfLoadCopyEnd
  repeat' first
    | extract_lets +onlyGivenNames x
    | with_reducible exact h
    | with_reducible apply shelfCopied_keeps
    | with_reducible apply State.setSlot_keeps
    | with_reducible refine Keeps.ite (fun _ => ?_) (fun _ => ?_)
    | split

theorem shelfSwitch_keeps {s0 : State} {e} {c} {s} (h : Keeps s0 s) : Keeps s0 (shelfSwitch e c s) := by
  unfold shelfSwitch
  repeat' first
    | extract_lets +onlyGivenNames x
    | with_reducible exact h
    | with_reducible apply State.badMember_keeps
    | with_reducible apply State.addMember_keeps
    | with_reducible apply State.complete_keeps
    | with_reducible apply State.switchNow_keeps
    | with_reducible apply State.ownEpoch_keeps
    | with_reducible refine Keeps.ite (fun _ => ?_) (fun _ => ?_)

theorem shelfVerified_keeps {s0 : State} {k} {x} {j} {s} (h : Keeps s0 s) : Keeps s0 (shelfVerified k x j s) := by
  unfold shelfVerified
  repeat' first
    | (extract_lets +onlyGivenNames x; refine (fun hx => ?_) (?_ : Keeps s0 x); clear_value x; rotate_left; subst x)
    | extract_lets +onlyGivenNames x
    | with_reducible exact h
    | with_reducible apply State.spoilEpochs_keeps
    | with_reducible apply State.slotState_keeps
    | with_reducible apply State.evt_keeps
    | with_reducible apply State.complete_keeps
    | with_reducible refine Keeps.ite (fun _ => ?_) (fun _ => ?_)
    | with_reducible assumption
    | split

theorem shelfVerify_keeps {s0 : State} {e} {c} {s} (h : Keeps s0 s) : Keeps s0 (shelfVerify e c s) := by
  unfold shelfVerify
  repeat' first
    | extract_lets +onlyGivenNames x
    | with_reducible exact h
    | with_reducible apply guardCmd_keeps
    | with_reducible apply State.addJob_keeps
    | intro u hu
    | with_reducible assumption

theorem shelfVerifyEnd_keeps {s0 : State} {k} {x} {s} (h : Keeps s0 s) : Keeps s0 (shelfVerifyEnd k x s) := by
  unfold shelfVerifyEnd
  repeat' first
    | extract_lets +onlyGivenNames x
    | with_reducible exact h
    | with_reducible apply shelfVerified_keeps
    | with_reducible apply State.setSlot_keeps
    | with_reducible refine Keeps.ite (fun _ => ?_) (fun _ => ?_)
    | split

end Sys2Proof.Machine
end

