-- ==== Sys2Proof/Laws/KeepsIo.lean ====
section
/-!
SUPPORT. Operations of Serial, Network, Nitik, HostQ, Ledgers leave the queue alone and keep `State.sound` (`Keeps`).
-/
namespace Sys2Proof.Machine

/-! ### Serial -/

theorem State.setPort_keeps {s0 : State} {s} {p} {v} (h : Keeps s0 s) : Keeps s0 (State.setPort s p v) := by
  unfold State.setPort
  repeat' first
    | extract_lets +onlyGivenNames x
    | with_reducible exact h
    | with_reducible refine Keeps.record rfl rfl rfl rfl ?_

theorem State.bridgeFrame_keeps {s0 : State} {s} {g} {words} {rep} (h : Keeps s0 s) : Keeps s0 (State.bridgeFrame s g words rep) := by
  unfold State.bridgeFrame
  repeat' first
    | (extract_lets +onlyGivenNames x; refine (fun hx => ?_) (?_ : Keeps s0 x); clear_value x; rotate_left; subst x)
    | extract_lets +onlyGivenNames x
    | with_reducible exact h
    | with_reducible apply State.draw_keeps
    | with_reducible apply State.tally_keeps
    | with_reducible apply State.setPort_keeps
    | with_reducible refine Keeps.ite (fun _ => ?_) (fun _ => ?_)
    | with_reducible refine Keeps.foldl (fun _ _ _ => ?_) ?_
    | with_reducible assumption

theorem State.count64_keeps {s0 : State} {s} {off} {n} (h : Keeps s0 s) : Keeps s0 (State.count64 s off n) := by
  unfold State.count64
  repeat' first
    | extract_lets +onlyGivenNames x
    | with_reducible exact h
    | with_reducible apply State.setReg_keeps

theorem State.followerIn_keeps {s0 : State} {s} {m} {p} {g} {data} (h : Keeps s0 s) : Keeps s0 (State.followerIn s m p g data) := by
  unfold State.followerIn
  repeat' first
    | (extract_lets +onlyGivenNames x; refine (fun hx => ?_) (?_ : Keeps s0 x); clear_value x; rotate_left; subst x)
    | extract_lets +onlyGivenNames x
    | with_reducible exact h
    | with_reducible apply State.setPort_keeps
    | with_reducible apply State.tally_keeps
    | with_reducible refine Keeps.ite (fun _ => ?_) (fun _ => ?_)
    | with_reducible assumption

theorem State.ingest_keeps {s0 : State} {s} {i} {key} {x} (h : Keeps s0 s) : Keeps s0 (State.ingest s i key x) := by
  unfold State.ingest
  repeat' first
    | extract_lets +onlyGivenNames x
    | with_reducible exact h
    | with_reducible refine Keeps.record rfl rfl rfl rfl ?_

theorem State.leaderIn_keeps {s0 : State} {s} {m} {p} {words} (h : Keeps s0 s) : Keeps s0 (State.leaderIn s m p words) := by
  unfold State.leaderIn
  repeat' first
    | (extract_lets +onlyGivenNames x; refine (fun hx => ?_) (?_ : Keeps s0 x); clear_value x; rotate_left; subst x)
    | extract_lets +onlyGivenNames x
    | with_reducible exact h
    | with_reducible apply State.setPort_keeps
    | with_reducible apply State.tally_keeps
    | with_reducible refine Keeps.ite (fun _ => ?_) (fun _ => ?_)
    | with_reducible assumption

theorem State.takePort_keeps {s0 : State} {s} {t} {p} (h : Keeps s0 s) : Keeps s0 (State.takePort s t p) := by
  unfold State.takePort
  repeat' first
    | extract_lets +onlyGivenNames x
    | with_reducible exact h
    | with_reducible apply State.tally_keeps
    | with_reducible apply State.setPort_keeps
    | with_reducible refine Keeps.ite (fun _ => ?_) (fun _ => ?_)

theorem State.takeNew_keeps {s0 : State} {s} {p} (h : Keeps s0 s) : Keeps s0 (State.takeNew s p) := by
  unfold State.takeNew
  repeat' first
    | extract_lets +onlyGivenNames x
    | with_reducible exact h
    | with_reducible apply State.takePort_keeps
    | with_reducible refine Keeps.ite (fun _ => ?_) (fun _ => ?_)

theorem State.startPort_keeps {s0 : State} {s} {fresh} {b} {p} (h : Keeps s0 s) : Keeps s0 (State.startPort s fresh b p) := by
  unfold State.startPort
  repeat' first
    | extract_lets +onlyGivenNames x
    | with_reducible exact h
    | with_reducible apply State.setPort_keeps
    | with_reducible apply State.tally_keeps
    | with_reducible refine Keeps.ite (fun _ => ?_) (fun _ => ?_)

theorem State.stopPort_keeps {s0 : State} {s} {p} (h : Keeps s0 s) : Keeps s0 (State.stopPort s p) := by
  unfold State.stopPort
  repeat' first
    | extract_lets +onlyGivenNames x
    | with_reducible exact h
    | with_reducible apply State.tally_keeps
    | with_reducible apply State.setPort_keeps

theorem State.portActs_keeps {s0 : State} {s} {p} {v} (h : Keeps s0 s) : Keeps s0 (State.portActs s p v) := by
  unfold State.portActs
  repeat' first
    | (extract_lets +onlyGivenNames x; refine (fun hx => ?_) (?_ : Keeps s0 x); clear_value x; rotate_left; subst x)
    | extract_lets +onlyGivenNames x
    | with_reducible exact h
    | with_reducible apply State.setPort_keeps
    | with_reducible apply State.takeNew_keeps
    | with_reducible apply State.startPort_keeps
    | with_reducible apply State.stopPort_keeps
    | with_reducible refine Keeps.ite (fun _ => ?_) (fun _ => ?_)
    | with_reducible assumption

theorem State.setGroup_keeps {s0 : State} {s} {g} {v} (h : Keeps s0 s) : Keeps s0 (State.setGroup s g v) := by
  unfold State.setGroup
  repeat' first
    | extract_lets +onlyGivenNames x
    | with_reducible exact h
    | with_reducible refine Keeps.record rfl rfl rfl rfl ?_

theorem State.relock_keeps {s0 : State} {s} {g} (h : Keeps s0 s) : Keeps s0 (State.relock s g) := by
  unfold State.relock
  repeat' first
    | extract_lets +onlyGivenNames x
    | with_reducible exact h
    | with_reducible apply State.both_keeps
    | with_reducible apply State.setGroup_keeps

theorem State.sapRefuse_keeps {s0 : State} {s} {g} (h : Keeps s0 s) : Keeps s0 (State.sapRefuse s g) := by
  unfold State.sapRefuse
  repeat' first
    | extract_lets +onlyGivenNames x
    | with_reducible exact h
    | with_reducible apply State.evt_keeps
    | with_reducible apply State.setGroup_keeps

theorem State.serialEmpty_keeps {s0 : State} {s} (h : Keeps s0 s) : Keeps s0 (State.serialEmpty s) := by
  unfold State.serialEmpty
  repeat' first
    | extract_lets +onlyGivenNames x
    | with_reducible exact h
    | with_reducible apply State.setPort_keeps
    | with_reducible refine Keeps.ite (fun _ => ?_) (fun _ => ?_)
    | with_reducible refine Keeps.foldl (fun _ _ _ => ?_) ?_
    | with_reducible assumption

theorem State.serialIn_keeps {s0 : State} {s} {m} {words} (h : Keeps s0 s) : Keeps s0 (State.serialIn s m words) := by
  unfold State.serialIn
  repeat' first
    | (extract_lets +onlyGivenNames x; refine (fun hx => ?_) (?_ : Keeps s0 x); clear_value x; rotate_left; subst x)
    | extract_lets +onlyGivenNames x
    | with_reducible exact h
    | with_reducible apply State.setGroup_keeps
    | with_reducible apply State.leaderIn_keeps
    | with_reducible apply State.followerIn_keeps
    | with_reducible refine Keeps.ite (fun _ => ?_) (fun _ => ?_)
    | with_reducible refine Keeps.foldl (fun _ _ _ => ?_) ?_
    | with_reducible assumption

theorem State.serialIngest_keeps {s0 : State} {s} {i} (h : Keeps s0 s) : Keeps s0 (State.serialIngest s i) := by
  unfold State.serialIngest
  repeat' first
    | (extract_lets +onlyGivenNames x; refine (fun hx => ?_) (?_ : Keeps s0 x); clear_value x; rotate_left; subst x)
    | extract_lets +onlyGivenNames x
    | with_reducible exact h
    | with_reducible apply State.setPort_keeps
    | with_reducible apply State.addLed_keeps
    | with_reducible apply State.ingest_keeps
    | with_reducible refine Keeps.ite (fun _ => ?_) (fun _ => ?_)
    | with_reducible refine Keeps.foldl (fun _ _ _ => ?_) ?_
    | with_reducible assumption

theorem State.serialOut_keeps {s0 : State} {s} {k} (h : Keeps s0 s) : Keeps s0 (State.serialOut s k) := by
  unfold State.serialOut
  repeat' first
    | (extract_lets +onlyGivenNames x; refine (fun hx => ?_) (?_ : Keeps s0 x); clear_value x; rotate_left; subst x)
    | extract_lets +onlyGivenNames x
    | with_reducible exact h
    | with_reducible apply State.setPort_keeps
    | with_reducible apply State.addLed_keeps
    | with_reducible apply State.count64_keeps
    | with_reducible refine Keeps.ite (fun _ => ?_) (fun _ => ?_)
    | with_reducible refine Keeps.foldl (fun _ _ _ => ?_) ?_
    | with_reducible assumption

theorem State.serialStart_keeps {s0 : State} {s} {anew} {b} (h : Keeps s0 s) : Keeps s0 (State.serialStart s anew b) := by
  unfold State.serialStart
  repeat' first
    | (extract_lets +onlyGivenNames x; refine (fun hx => ?_) (?_ : Keeps s0 x); clear_value x; rotate_left; subst x)
    | extract_lets +onlyGivenNames x
    | with_reducible exact h
    | with_reducible apply State.setGroup_keeps
    | with_reducible apply State.startPort_keeps
    | with_reducible refine Keeps.ite (fun _ => ?_) (fun _ => ?_)
    | with_reducible refine Keeps.foldl (fun _ _ _ => ?_) ?_
    | with_reducible assumption

theorem State.serialStop_keeps {s0 : State} {s} (h : Keeps s0 s) : Keeps s0 (State.serialStop s) := by
  unfold State.serialStop
  repeat' first
    | (extract_lets +onlyGivenNames x; refine (fun hx => ?_) (?_ : Keeps s0 x); clear_value x; rotate_left; subst x)
    | extract_lets +onlyGivenNames x
    | with_reducible exact h
    | with_reducible apply State.stopPort_keeps
    | with_reducible apply State.setGroup_keeps
    | with_reducible refine Keeps.ite (fun _ => ?_) (fun _ => ?_)
    | with_reducible refine Keeps.foldl (fun _ _ _ => ?_) ?_
    | with_reducible assumption

theorem State.serialTake_keeps {s0 : State} {s} {t} (h : Keeps s0 s) : Keeps s0 (State.serialTake s t) := by
  unfold State.serialTake
  repeat' first
    | extract_lets +onlyGivenNames x
    | with_reducible exact h
    | with_reducible apply State.takePort_keeps
    | with_reducible refine Keeps.foldl (fun _ _ _ => ?_) ?_
    | with_reducible assumption

theorem State.startGroup_keeps {s0 : State} {s} {b} {g} (h : Keeps s0 s) : Keeps s0 (State.startGroup s b g) := by
  unfold State.startGroup
  repeat' first
    | (extract_lets +onlyGivenNames x; refine (fun hx => ?_) (?_ : Keeps s0 x); clear_value x; rotate_left; subst x)
    | extract_lets +onlyGivenNames x
    | with_reducible exact h
    | with_reducible apply State.setGroup_keeps
    | with_reducible apply State.takeNew_keeps
    | with_reducible apply State.startPort_keeps
    | with_reducible refine Keeps.ite (fun _ => ?_) (fun _ => ?_)
    | with_reducible refine Keeps.foldl (fun _ _ _ => ?_) ?_
    | with_reducible assumption

theorem State.stepMix_keeps {s0 : State} {s} {k} (h : Keeps s0 s) : Keeps s0 (State.stepMix s k) := by
  unfold State.stepMix
  repeat' first
    | extract_lets +onlyGivenNames x
    | with_reducible exact h
    | with_reducible refine Keeps.record rfl rfl rfl rfl ?_

theorem State.stepRoutes_keeps {s0 : State} {s} {m} {fetch} (h : Keeps s0 s) : Keeps s0 (State.stepRoutes s m fetch) := by
  unfold State.stepRoutes
  repeat' first
    | extract_lets +onlyGivenNames x
    | with_reducible exact h
    | with_reducible apply State.count_keeps
    | with_reducible refine Keeps.ite (fun _ => ?_) (fun _ => ?_)
    | with_reducible refine Keeps.foldl (fun _ _ _ => ?_) ?_
    | with_reducible assumption
    | with_reducible refine Keeps.record rfl rfl rfl rfl ?_

theorem State.stopGroup_keeps {s0 : State} {s} {g} (h : Keeps s0 s) : Keeps s0 (State.stopGroup s g) := by
  unfold State.stopGroup
  repeat' first
    | (extract_lets +onlyGivenNames x; refine (fun hx => ?_) (?_ : Keeps s0 x); clear_value x; rotate_left; subst x)
    | extract_lets +onlyGivenNames x
    | with_reducible exact h
    | with_reducible apply State.stopPort_keeps
    | with_reducible apply State.setGroup_keeps
    | with_reducible refine Keeps.ite (fun _ => ?_) (fun _ => ?_)
    | with_reducible refine Keeps.foldl (fun _ _ _ => ?_) ?_
    | with_reducible assumption

theorem bclkLoss_keeps {s0 : State} {g} {s} (h : Keeps s0 s) : Keeps s0 (bclkLoss g s) := by
  unfold bclkLoss
  repeat' first
    | extract_lets +onlyGivenNames x
    | with_reducible exact h
    | with_reducible apply State.both_keeps
    | with_reducible apply State.setGroup_keeps
    | with_reducible refine Keeps.ite (fun _ => ?_) (fun _ => ?_)

theorem bclkReturn_keeps {s0 : State} {g} {s} (h : Keeps s0 s) : Keeps s0 (bclkReturn g s) := by
  unfold bclkReturn
  repeat' first
    | extract_lets +onlyGivenNames x
    | with_reducible exact h
    | with_reducible apply State.setGroup_keeps
    | with_reducible refine Keeps.ite (fun _ => ?_) (fun _ => ?_)

theorem frameStartEdge_keeps {s0 : State} {g} {words} {s} (h : Keeps s0 s) : Keeps s0 (frameStartEdge g words s) := by
  unfold frameStartEdge
  repeat' first
    | extract_lets +onlyGivenNames x
    | with_reducible exact h
    | with_reducible apply State.bridgeFrame_keeps
    | with_reducible apply State.setGroup_keeps
    | with_reducible refine Keeps.ite (fun _ => ?_) (fun _ => ?_)

theorem fsyncGlitch_keeps {s0 : State} {g} {s} (h : Keeps s0 s) : Keeps s0 (fsyncGlitch g s) := by
  unfold fsyncGlitch
  repeat' first
    | (extract_lets +onlyGivenNames x; refine (fun hx => ?_) (?_ : Keeps s0 x); clear_value x; rotate_left; subst x)
    | extract_lets +onlyGivenNames x
    | with_reducible exact h
    | with_reducible apply State.both_keeps
    | with_reducible apply State.bridgeFrame_keeps
    | with_reducible apply State.setGroup_keeps
    | with_reducible apply State.relock_keeps
    | with_reducible refine Keeps.ite (fun _ => ?_) (fun _ => ?_)
    | with_reducible assumption

theorem fsyncMissing_keeps {s0 : State} {g} {words} {s} (h : Keeps s0 s) : Keeps s0 (fsyncMissing g words s) := by
  unfold fsyncMissing
  repeat' first
    | extract_lets +onlyGivenNames x
    | with_reducible exact h
    | with_reducible apply State.relock_keeps
    | with_reducible apply State.both_keeps
    | with_reducible apply State.bridgeFrame_keeps
    | with_reducible apply State.setGroup_keeps
    | with_reducible refine Keeps.ite (fun _ => ?_) (fun _ => ?_)

theorem groupLock_keeps {s0 : State} {g} {s} (h : Keeps s0 s) : Keeps s0 (groupLock g s) := by
  unfold groupLock
  repeat' first
    | extract_lets +onlyGivenNames x
    | with_reducible exact h
    | with_reducible apply State.evt_keeps
    | with_reducible apply State.setGroup_keeps
    | with_reducible refine Keeps.ite (fun _ => ?_) (fun _ => ?_)

theorem maskPairApply_keeps {s0 : State} {p} {s} (h : Keeps s0 s) : Keeps s0 (maskPairApply p s) := by
  unfold maskPairApply
  repeat' first
    | (extract_lets +onlyGivenNames x; refine (fun hx => ?_) (?_ : Keeps s0 x); clear_value x; rotate_left; subst x)
    | extract_lets +onlyGivenNames x
    | with_reducible exact h
    | with_reducible apply State.setPort_keeps
    | with_reducible apply State.setGroup_keeps
    | with_reducible apply State.sapRefuse_keeps
    | with_reducible refine Keeps.ite (fun _ => ?_) (fun _ => ?_)
    | with_reducible assumption
    | split

theorem rateStep_keeps {s0 : State} {g} {s} (h : Keeps s0 s) : Keeps s0 (rateStep g s) := by
  unfold rateStep
  repeat' first
    | extract_lets +onlyGivenNames x
    | with_reducible exact h
    | with_reducible apply State.relock_keeps
    | with_reducible refine Keeps.ite (fun _ => ?_) (fun _ => ?_)

theorem sapGroupCfgWrite_keeps {s0 : State} {g} {v} {s} (h : Keeps s0 s) : Keeps s0 (sapGroupCfgWrite g v s) := by
  unfold sapGroupCfgWrite
  repeat' first
    | (extract_lets +onlyGivenNames x; refine (fun hx => ?_) (?_ : Keeps s0 x); clear_value x; rotate_left; subst x)
    | extract_lets +onlyGivenNames x
    | with_reducible exact h
    | with_reducible apply State.setReg_keeps
    | with_reducible apply State.setGroup_keeps
    | with_reducible apply State.sapRefuse_keeps
    | with_reducible refine Keeps.ite (fun _ => ?_) (fun _ => ?_)
    | with_reducible assumption

theorem sapMaskctlWrite_keeps {s0 : State} {p} {v} {s} (h : Keeps s0 s) : Keeps s0 (sapMaskctlWrite p v s) := by
  unfold sapMaskctlWrite
  repeat' first
    | (extract_lets +onlyGivenNames x; refine (fun hx => ?_) (?_ : Keeps s0 x); clear_value x; rotate_left; subst x)
    | extract_lets +onlyGivenNames x
    | with_reducible exact h
    | with_reducible apply State.setReg_keeps
    | with_reducible apply State.setPort_keeps
    | with_reducible assumption

theorem sapPortCfgWrite_keeps {s0 : State} {p} {v} {s} (h : Keeps s0 s) : Keeps s0 (sapPortCfgWrite p v s) := by
  unfold sapPortCfgWrite
  repeat' first
    | (extract_lets +onlyGivenNames x; refine (fun hx => ?_) (?_ : Keeps s0 x); clear_value x; rotate_left; subst x)
    | extract_lets +onlyGivenNames x
    | with_reducible exact h
    | with_reducible apply State.setReg_keeps
    | with_reducible apply State.setGroup_keeps
    | with_reducible apply State.sapRefuse_keeps
    | with_reducible apply State.portActs_keeps
    | with_reducible apply State.setPort_keeps
    | with_reducible refine Keeps.ite (fun _ => ?_) (fun _ => ?_)
    | with_reducible assumption

/-! ### Network -/

theorem State.armCue_keeps {s0 : State} {s} {f} {c} (h : Keeps s0 s) : Keeps s0 (State.armCue s f c) := by
  unfold State.armCue
  repeat' first
    | extract_lets +onlyGivenNames x
    | with_reducible exact h
    | with_reducible apply State.count_keeps
    | with_reducible refine Keeps.ite (fun _ => ?_) (fun _ => ?_)
    | with_reducible refine Keeps.record rfl rfl rfl rfl ?_

theorem State.setRx_keeps {s0 : State} {s} {i} {f} (h : Keeps s0 s) : Keeps s0 (State.setRx s i f) := by
  unfold State.setRx
  repeat' first
    | extract_lets +onlyGivenNames x
    | with_reducible exact h
    | with_reducible refine Keeps.record rfl rfl rfl rfl ?_

theorem State.setTx_keeps {s0 : State} {s} {i} {f} (h : Keeps s0 s) : Keeps s0 (State.setTx s i f) := by
  unfold State.setTx
  repeat' first
    | extract_lets +onlyGivenNames x
    | with_reducible exact h
    | with_reducible refine Keeps.record rfl rfl rfl rfl ?_

theorem State.flowsEmpty_keeps {s0 : State} {s} (h : Keeps s0 s) : Keeps s0 (State.flowsEmpty s) := by
  unfold State.flowsEmpty
  repeat' first
    | (extract_lets +onlyGivenNames x; refine (fun hx => ?_) (?_ : Keeps s0 x); clear_value x; rotate_left; subst x)
    | extract_lets +onlyGivenNames x
    | with_reducible exact h
    | with_reducible apply State.addLed_keeps
    | with_reducible apply State.setRx_keeps
    | with_reducible apply State.setTx_keeps
    | with_reducible refine Keeps.foldl (fun _ _ _ => ?_) ?_
    | with_reducible assumption

theorem State.flowsStart_keeps {s0 : State} {s} {b} (h : Keeps s0 s) : Keeps s0 (State.flowsStart s b) := by
  unfold State.flowsStart
  repeat' first
    | (extract_lets +onlyGivenNames x; refine (fun hx => ?_) (?_ : Keeps s0 x); clear_value x; rotate_left; subst x)
    | extract_lets +onlyGivenNames x
    | with_reducible exact h
    | with_reducible apply State.tally_keeps
    | with_reducible apply State.setRx_keeps
    | with_reducible apply State.setTx_keeps
    | with_reducible refine Keeps.foldl (fun _ _ _ => ?_) ?_
    | with_reducible assumption

theorem State.netSend_keeps {s0 : State} {s} {o} (h : Keeps s0 s) : Keeps s0 (State.netSend s o) := by
  unfold State.netSend
  repeat' first
    | extract_lets +onlyGivenNames x
    | with_reducible exact h
    | with_reducible refine Keeps.record rfl rfl rfl rfl ?_

theorem State.rtpTake_keeps {s0 : State} {s} {i} {f} {rows} (h : Keeps s0 s) : Keeps s0 (State.rtpTake s i f rows) := by
  unfold State.rtpTake
  repeat' first
    | (extract_lets +onlyGivenNames x; refine (fun hx => ?_) (?_ : Keeps s0 x); clear_value x; rotate_left; subst x)
    | extract_lets +onlyGivenNames x
    | with_reducible exact h
    | with_reducible apply State.tally_keeps
    | with_reducible apply State.fxs_keeps
    | with_reducible apply State.setRx_keeps
    | with_reducible apply State.evt_keeps
    | with_reducible refine Keeps.ite (fun _ => ?_) (fun _ => ?_)
    | with_reducible assumption

theorem State.rtpFlow_keeps {s0 : State} {s} {i} {f} {port} {p} (h : Keeps s0 s) : Keeps s0 (State.rtpFlow s i f port p) := by
  unfold State.rtpFlow
  repeat' first
    | extract_lets +onlyGivenNames x
    | with_reducible exact h
    | with_reducible apply State.evt_keeps
    | with_reducible apply State.fxs_keeps
    | with_reducible apply State.setRx_keeps
    | with_reducible apply State.rtpTake_keeps
    | with_reducible refine Keeps.ite (fun _ => ?_) (fun _ => ?_)

theorem State.rxDeadline_keeps {s0 : State} {s} {m} (h : Keeps s0 s) : Keeps s0 (State.rxDeadline s m) := by
  unfold State.rxDeadline
  repeat' first
    | (extract_lets +onlyGivenNames x; refine (fun hx => ?_) (?_ : Keeps s0 x); clear_value x; rotate_left; subst x)
    | extract_lets +onlyGivenNames x
    | with_reducible exact h
    | with_reducible apply State.tally_keeps
    | with_reducible apply State.setRx_keeps
    | with_reducible apply State.evt_keeps
    | with_reducible apply State.fxs_keeps
    | with_reducible refine Keeps.ite (fun _ => ?_) (fun _ => ?_)
    | with_reducible refine Keeps.foldl (fun _ _ _ => ?_) ?_
    | with_reducible assumption

theorem State.rxIngest_keeps {s0 : State} {s} {i} (h : Keeps s0 s) : Keeps s0 (State.rxIngest s i) := by
  unfold State.rxIngest
  repeat' first
    | (extract_lets +onlyGivenNames x; refine (fun hx => ?_) (?_ : Keeps s0 x); clear_value x; rotate_left; subst x)
    | extract_lets +onlyGivenNames x
    | with_reducible exact h
    | with_reducible apply State.setRx_keeps
    | with_reducible apply State.ingest_keeps
    | with_reducible refine Keeps.ite (fun _ => ?_) (fun _ => ?_)
    | with_reducible refine Keeps.foldl (fun _ _ _ => ?_) ?_
    | with_reducible assumption

theorem State.setNetPort_keeps {s0 : State} {s} {n} {v} (h : Keeps s0 s) : Keeps s0 (State.setNetPort s n v) := by
  unfold State.setNetPort
  repeat' first
    | extract_lets +onlyGivenNames x
    | with_reducible exact h
    | with_reducible refine Keeps.record rfl rfl rfl rfl ?_

theorem State.setTrs_keeps {s0 : State} {s} {t} (h : Keeps s0 s) : Keeps s0 (State.setTrs s t) := by
  unfold State.setTrs
  repeat' first
    | extract_lets +onlyGivenNames x
    | with_reducible exact h
    | with_reducible refine Keeps.record rfl rfl rfl rfl ?_

theorem State.shiftFlows_keeps {s0 : State} {s} {k} (h : Keeps s0 s) : Keeps s0 (State.shiftFlows s k) := by
  unfold State.shiftFlows
  repeat' first
    | extract_lets +onlyGivenNames x
    | with_reducible exact h
    | with_reducible apply State.tally_keeps
    | with_reducible apply State.setRx_keeps
    | with_reducible refine Keeps.foldl (fun _ _ _ => ?_) ?_
    | with_reducible assumption

theorem State.trsApply_keeps {s0 s : State} {ver w : Nat} {ups cues} (h : Keeps s0 s) : Keeps s0 (s.trsApply ver w ups cues) := by
  unfold State.trsApply
  split
  · skip
    repeat' first
      | extract_lets +onlyGivenNames x
      | with_reducible exact h
      | with_reducible apply State.armCue_keeps
      | with_reducible apply State.count_keeps
      | with_reducible apply State.applyNow_keeps
      | with_reducible refine Keeps.ite (fun _ => ?_) (fun _ => ?_)
      | with_reducible refine Keeps.foldl (fun _ _ _ => ?_) ?_
      | with_reducible assumption
  · extract_lets +onlyGivenNames p r
    clear_value r
    repeat' first
      | (extract_lets +onlyGivenNames x; refine (fun hx => ?_) (?_ : Keeps s0 x); clear_value x; rotate_left; subst x)
      | extract_lets +onlyGivenNames x
      | with_reducible exact h
      | with_reducible apply State.armCue_keeps
      | with_reducible apply State.count_keeps
      | with_reducible apply State.put_keeps
      | with_reducible apply State.both_keeps
      | with_reducible refine Keeps.ite (fun _ => ?_) (fun _ => ?_)
      | with_reducible refine Keeps.foldl (fun _ _ _ => ?_) ?_
      | with_reducible assumption

theorem State.trsBad_keeps {s0 : State} {s} (h : Keeps s0 s) : Keeps s0 (State.trsBad s) := by
  unfold State.trsBad
  repeat' first
    | extract_lets +onlyGivenNames x
    | with_reducible exact h
    | with_reducible apply State.both_keeps

theorem State.trsForget_keeps {s0 : State} {s} (h : Keeps s0 s) : Keeps s0 (State.trsForget s) := by
  unfold State.trsForget
  repeat' first
    | extract_lets +onlyGivenNames x
    | with_reducible exact h
    | with_reducible apply State.setTrs_keeps

theorem State.txMix_keeps {s0 : State} {s} {k} (h : Keeps s0 s) : Keeps s0 (State.txMix s k) := by
  unfold State.txMix
  repeat' first
    | (extract_lets +onlyGivenNames x; refine (fun hx => ?_) (?_ : Keeps s0 x); clear_value x; rotate_left; subst x)
    | extract_lets +onlyGivenNames x
    | with_reducible exact h
    | with_reducible apply State.setTx_keeps
    | with_reducible apply State.count64_keeps
    | with_reducible refine Keeps.ite (fun _ => ?_) (fun _ => ?_)
    | with_reducible refine Keeps.foldl (fun _ _ _ => ?_) ?_
    | with_reducible assumption
    | split

theorem State.txTake_keeps {s0 : State} {s} {t} (h : Keeps s0 s) : Keeps s0 (State.txTake s t) := by
  unfold State.txTake
  repeat' first
    | extract_lets +onlyGivenNames x
    | with_reducible exact h
    | with_reducible apply State.tally_keeps
    | with_reducible apply State.setTx_keeps
    | with_reducible refine Keeps.ite (fun _ => ?_) (fun _ => ?_)
    | with_reducible refine Keeps.foldl (fun _ _ _ => ?_) ?_
    | with_reducible assumption

theorem autoSpeedTimeout_keeps {s0 : State} {n} {s} (h : Keeps s0 s) : Keeps s0 (autoSpeedTimeout n s) := by
  unfold autoSpeedTimeout
  repeat' first
    | extract_lets +onlyGivenNames x
    | with_reducible exact h
    | with_reducible apply State.setNetPort_keeps
    | with_reducible refine Keeps.ite (fun _ => ?_) (fun _ => ?_)

theorem flowAdd_keeps {s0 : State} {e} {c} {s} (h : Keeps s0 s) : Keeps s0 (flowAdd e c s) := by
  unfold flowAdd
  repeat' first
    | (extract_lets +onlyGivenNames x; refine (fun hx => ?_) (?_ : Keeps s0 x); clear_value x; rotate_left; subst x)
    | extract_lets +onlyGivenNames x
    | with_reducible exact h
    | with_reducible apply State.reject_keeps
    | with_reducible apply State.netSend_keeps
    | with_reducible apply State.addMember_keeps
    | with_reducible apply State.complete_keeps
    | with_reducible apply State.put_keeps
    | with_reducible refine Keeps.ite (fun _ => ?_) (fun _ => ?_)
    | with_reducible assumption
    | split

theorem flowRemove_keeps {s0 : State} {e} {c} {s} (h : Keeps s0 s) : Keeps s0 (flowRemove e c s) := by
  unfold flowRemove
  repeat' first
    | extract_lets +onlyGivenNames x
    | with_reducible exact h
    | with_reducible apply State.reject_keeps
    | with_reducible apply State.blockCommand_keeps
    | with_reducible refine Keeps.ite (fun _ => ?_) (fun _ => ?_)

theorem igmpQuery_keeps {s0 : State} {n} {v2} {s} (h : Keeps s0 s) : Keeps s0 (igmpQuery n v2 s) := by
  unfold igmpQuery
  repeat' first
    | (extract_lets +onlyGivenNames x; refine (fun hx => ?_) (?_ : Keeps s0 x); clear_value x; rotate_left; subst x)
    | extract_lets +onlyGivenNames x
    | with_reducible exact h
    | with_reducible apply State.setNetPort_keeps
    | with_reducible apply State.netSend_keeps
    | with_reducible refine Keeps.ite (fun _ => ?_) (fun _ => ?_)
    | with_reducible assumption

theorem moduleI2cDone_keeps {s0 : State} {k} {data} {nack} {s} (h : Keeps s0 s) : Keeps s0 (moduleI2cDone k data nack s) := by
  unfold moduleI2cDone
  repeat' first
    | extract_lets +onlyGivenNames x
    | with_reducible exact h
    | with_reducible apply State.setReg_keeps
    | with_reducible refine Keeps.ite (fun _ => ?_) (fun _ => ?_)

theorem moduleI2cGo_keeps {s0 : State} {k} {v} {s} (h : Keeps s0 s) : Keeps s0 (moduleI2cGo k v s) := by
  unfold moduleI2cGo
  repeat' first
    | extract_lets +onlyGivenNames x
    | with_reducible exact h
    | with_reducible apply State.setReg_keeps
    | with_reducible refine Keeps.ite (fun _ => ?_) (fun _ => ?_)

theorem netLinkChange_keeps {s0 : State} {n} {link} {s} (h : Keeps s0 s) : Keeps s0 (netLinkChange n link s) := by
  unfold netLinkChange
  repeat' first
    | extract_lets +onlyGivenNames x
    | with_reducible exact h
    | with_reducible apply State.evt_keeps
    | with_reducible apply State.setNetPort_keeps
    | with_reducible refine Keeps.ite (fun _ => ?_) (fun _ => ?_)

theorem netTrsCfgWrite_keeps {s0 : State} {off} {v} {s} (h : Keeps s0 s) : Keeps s0 (netTrsCfgWrite off v s) := by
  unfold netTrsCfgWrite
  repeat' first
    | (extract_lets +onlyGivenNames x; refine (fun hx => ?_) (?_ : Keeps s0 x); clear_value x; rotate_left; subst x)
    | extract_lets +onlyGivenNames x
    | with_reducible exact h
    | with_reducible apply State.trsForget_keeps
    | with_reducible apply State.setReg_keeps
    | with_reducible apply State.netSend_keeps
    | with_reducible refine Keeps.ite (fun _ => ?_) (fun _ => ?_)
    | with_reducible assumption

theorem originStepApply_keeps {s0 : State} {s} (h : Keeps s0 s) : Keeps s0 (originStepApply s) := by
  unfold originStepApply
  repeat' first
    | extract_lets +onlyGivenNames x
    | with_reducible exact h
    | with_reducible apply State.shiftFlows_keeps
    | with_reducible apply State.stepOrigin_keeps
    | with_reducible refine Keeps.ite (fun _ => ?_) (fun _ => ?_)
    | split

theorem rtpPacket_keeps {s0 : State} {port} {p} {s} (h : Keeps s0 s) : Keeps s0 (rtpPacket port p s) := by
  unfold rtpPacket
  repeat' first
    | extract_lets +onlyGivenNames x
    | with_reducible exact h
    | with_reducible apply State.rtpFlow_keeps
    | with_reducible refine Keeps.ite (fun _ => ?_) (fun _ => ?_)
    | split

theorem rtpPacketSend_keeps {s0 : State} {i} {s} (h : Keeps s0 s) : Keeps s0 (rtpPacketSend i s) := by
  unfold rtpPacketSend
  repeat' first
    | extract_lets +onlyGivenNames x
    | with_reducible exact h
    | with_reducible apply State.netSend_keeps
    | with_reducible apply State.tally_keeps
    | with_reducible apply State.fxs_keeps
    | with_reducible apply State.setTx_keeps
    | with_reducible refine Keeps.ite (fun _ => ?_) (fun _ => ?_)
    | split

theorem trosynData_keeps {s0 : State} {port} {bytes} {s} (h : Keeps s0 s) : Keeps s0 (trosynData port bytes s) := by
  unfold trosynData
  repeat' first
    | extract_lets +onlyGivenNames x
    | with_reducible exact h
    | with_reducible apply State.count_keeps
    | with_reducible apply State.trsBad_keeps
    | with_reducible apply State.setTrs_keeps
    | with_reducible apply State.trsApply_keeps
    | with_reducible refine Keeps.ite (fun _ => ?_) (fun _ => ?_)
    | split

theorem trosynHelloDue_keeps {s0 : State} {s} (h : Keeps s0 s) : Keeps s0 (trosynHelloDue s) := by
  unfold trosynHelloDue
  repeat' first
    | extract_lets +onlyGivenNames x
    | with_reducible exact h
    | with_reducible apply State.netSend_keeps
    | with_reducible apply State.setTrs_keeps
    | with_reducible refine Keeps.ite (fun _ => ?_) (fun _ => ?_)

theorem trosynSeqTimeout_keeps {s0 : State} {s} (h : Keeps s0 s) : Keeps s0 (trosynSeqTimeout s) := by
  unfold trosynSeqTimeout
  repeat' first
    | extract_lets +onlyGivenNames x
    | with_reducible exact h
    | with_reducible apply State.trsForget_keeps
    | with_reducible refine Keeps.ite (fun _ => ?_) (fun _ => ?_)

/-! ### Nitik -/

theorem State.auditOver_keeps {s0 : State} {s} {a} {f} (h : Keeps s0 s) : Keeps s0 (State.auditOver s a f) := by
  unfold State.auditOver
  repeat' first
    | (extract_lets +onlyGivenNames x; refine (fun hx => ?_) (?_ : Keeps s0 x); clear_value x; rotate_left; subst x)
    | extract_lets +onlyGivenNames x
    | with_reducible exact h
    | with_reducible apply State.evt_keeps
    | with_reducible apply State.complete_keeps
    | with_reducible refine Keeps.ite (fun _ => ?_) (fun _ => ?_)
    | with_reducible refine Keeps.foldl (fun _ _ _ => ?_) ?_
    | with_reducible assumption

theorem State.auditDone_keeps {s0 : State} {s} (h : Keeps s0 s) : Keeps s0 (State.auditDone s) := by
  unfold State.auditDone
  repeat' first
    | (extract_lets +onlyGivenNames x; refine (fun hx => ?_) (?_ : Keeps s0 x); clear_value x; rotate_left; subst x)
    | extract_lets +onlyGivenNames x
    | with_reducible exact h
    | with_reducible apply State.auditOver_keeps
    | with_reducible refine Keeps.foldl (fun _ _ _ => ?_) ?_
    | with_reducible assumption
    | with_reducible refine Keeps.record rfl rfl rfl rfl ?_

theorem State.auditRun_keeps {s0 : State} {s} {t} {cs} (h : Keeps s0 s) : Keeps s0 (State.auditRun s t cs) := by
  unfold State.auditRun
  repeat' first
    | extract_lets +onlyGivenNames x
    | with_reducible exact h
    | with_reducible apply State.auditDone_keeps
    | with_reducible refine Keeps.record rfl rfl rfl rfl ?_

theorem State.cellIn_keeps {s0 : State} {s} {n} (h : Keeps s0 s) : Keeps s0 (State.cellIn s n) := by
  unfold State.cellIn
  repeat' first
    | extract_lets +onlyGivenNames x
    | with_reducible exact h
    | with_reducible apply State.setNtkPort_keeps

theorem State.chainDeliver_keeps {s0 : State} {s} {n} (h : Keeps s0 s) : Keeps s0 (State.chainDeliver s n) := by
  unfold State.chainDeliver
  repeat' first
    | (extract_lets +onlyGivenNames x; refine (fun hx => ?_) (?_ : Keeps s0 x); clear_value x; rotate_left; subst x)
    | extract_lets +onlyGivenNames x
    | with_reducible exact h
    | with_reducible apply State.addLed_keeps
    | with_reducible apply State.count_keeps
    | with_reducible apply State.setChain_keeps
    | with_reducible apply State.releaseCopy_keeps
    | with_reducible refine Keeps.ite (fun _ => ?_) (fun _ => ?_)
    | with_reducible refine Keeps.foldl (fun _ _ _ => ?_) ?_
    | with_reducible assumption
    | split
    | with_reducible refine Keeps.record rfl rfl rfl rfl ?_

theorem State.forwardCell_keeps {s0 : State} {s} {n} {c} {wrap} (h : Keeps s0 s) : Keeps s0 (State.forwardCell s n c wrap) := by
  unfold State.forwardCell
  repeat' first
    | extract_lets +onlyGivenNames x
    | with_reducible exact h
    | with_reducible apply State.setNtkPort_keeps
    | with_reducible refine Keeps.ite (fun _ => ?_) (fun _ => ?_)

theorem State.frameSend_keeps {s0 : State} {s} {t} {n} (h : Keeps s0 s) : Keeps s0 (State.frameSend s t n) := by
  unfold State.frameSend
  repeat' first
    | (extract_lets +onlyGivenNames x; refine (fun hx => ?_) (?_ : Keeps s0 x); clear_value x; rotate_left; subst x)
    | extract_lets +onlyGivenNames x
    | with_reducible exact h
    | with_reducible apply State.setNtkPort_keeps
    | with_reducible apply State.count_keeps
    | with_reducible refine Keeps.ite (fun _ => ?_) (fun _ => ?_)
    | with_reducible assumption

theorem State.sendOn_keeps {s0 : State} {s} {ports} {r} (h : Keeps s0 s) : Keeps s0 (State.sendOn s ports r) := by
  unfold State.sendOn
  repeat' first
    | extract_lets +onlyGivenNames x
    | with_reducible exact h
    | with_reducible apply State.setNtkPort_keeps
    | with_reducible refine Keeps.ite (fun _ => ?_) (fun _ => ?_)
    | with_reducible refine Keeps.foldl (fun _ _ _ => ?_) ?_
    | with_reducible assumption

theorem State.sendDecisions_keeps {s0 : State} {s} (h : Keeps s0 s) : Keeps s0 (State.sendDecisions s) := by
  unfold State.sendDecisions
  repeat' first
    | extract_lets +onlyGivenNames x
    | with_reducible exact h
    | with_reducible apply State.sendOn_keeps
    | with_reducible apply State.setChain_keeps
    | with_reducible refine Keeps.foldl (fun _ _ _ => ?_) ?_
    | with_reducible assumption

theorem State.sendReports_keeps {s0 : State} {s} (h : Keeps s0 s) : Keeps s0 (State.sendReports s) := by
  unfold State.sendReports
  repeat' first
    | extract_lets +onlyGivenNames x
    | with_reducible exact h
    | with_reducible apply State.setEpoch_keeps
    | with_reducible apply State.sendOn_keeps
    | with_reducible refine Keeps.ite (fun _ => ?_) (fun _ => ?_)
    | with_reducible refine Keeps.foldl (fun _ _ _ => ?_) ?_
    | with_reducible assumption

theorem State.framesSend_keeps {s0 : State} {s} {t} (h : Keeps s0 s) : Keeps s0 (State.framesSend s t) := by
  unfold State.framesSend
  repeat' first
    | (extract_lets +onlyGivenNames x; refine (fun hx => ?_) (?_ : Keeps s0 x); clear_value x; rotate_left; subst x)
    | extract_lets +onlyGivenNames x
    | with_reducible exact h
    | with_reducible apply State.setChain_keeps
    | with_reducible apply State.frameSend_keeps
    | with_reducible apply State.sendDecisions_keeps
    | with_reducible apply State.sendReports_keeps
    | with_reducible assumption

theorem State.heard_keeps {s0 : State} {s} {position} (h : Keeps s0 s) : Keeps s0 (State.heard s position) := by
  unfold State.heard
  repeat' first
    | extract_lets +onlyGivenNames x
    | with_reducible exact h
    | with_reducible apply State.setChain_keeps

theorem State.keepCell_keeps {s0 : State} {s} {n} {kept} (h : Keeps s0 s) : Keeps s0 (State.keepCell s n kept) := by
  unfold State.keepCell
  repeat' first
    | extract_lets +onlyGivenNames x
    | with_reducible exact h
    | with_reducible apply State.cellIn_keeps
    | with_reducible apply State.setNtkPort_keeps
    | with_reducible apply State.setChain_keeps
    | with_reducible refine Keeps.ite (fun _ => ?_) (fun _ => ?_)

theorem State.learnPubs_keeps {s0 : State} {s} {position} {chans} (h : Keeps s0 s) : Keeps s0 (State.learnPubs s position chans) := by
  unfold State.learnPubs
  repeat' first
    | extract_lets +onlyGivenNames x
    | with_reducible exact h
    | with_reducible apply State.setChain_keeps

theorem State.setLink_keeps {s0 : State} {s} {n} {l} (h : Keeps s0 s) : Keeps s0 (State.setLink s n l) := by
  unfold State.setLink
  repeat' first
    | extract_lets +onlyGivenNames x
    | with_reducible exact h
    | with_reducible apply State.evt_keeps
    | with_reducible apply State.setNtkPort_keeps
    | with_reducible refine Keeps.ite (fun _ => ?_) (fun _ => ?_)

theorem State.linkDown_keeps {s0 : State} {s} {n} (h : Keeps s0 s) : Keeps s0 (State.linkDown s n) := by
  unfold State.linkDown
  repeat' first
    | (extract_lets +onlyGivenNames x; refine (fun hx => ?_) (?_ : Keeps s0 x); clear_value x; rotate_left; subst x)
    | extract_lets +onlyGivenNames x
    | with_reducible exact h
    | with_reducible apply State.setLink_keeps
    | with_reducible apply State.setNtkPort_keeps
    | with_reducible apply State.setChain_keeps
    | with_reducible apply State.evt_keeps
    | with_reducible apply State.sendOn_keeps
    | with_reducible refine Keeps.ite (fun _ => ?_) (fun _ => ?_)
    | with_reducible assumption
    | with_reducible refine Keeps.record rfl rfl rfl rfl ?_

theorem State.openChange_keeps {s0 : State} {s} {rec} {joins} {place} {hops} {parts} {st} (h : Keeps s0 s) : Keeps s0 (State.openChange s rec joins place hops parts st) := by
  unfold State.openChange
  repeat' first
    | extract_lets +onlyGivenNames x
    | with_reducible exact h
    | with_reducible refine Keeps.ite (fun _ => ?_) (fun _ => ?_)
    | with_reducible refine Keeps.record rfl rfl rfl rfl ?_

theorem State.passOn_keeps {s0 : State} {s} {n} {chainPort} {r} (h : Keeps s0 s) : Keeps s0 (State.passOn s n chainPort r) := by
  unfold State.passOn
  repeat' first
    | extract_lets +onlyGivenNames x
    | with_reducible exact h
    | with_reducible apply State.sendOn_keeps
    | with_reducible refine Keeps.ite (fun _ => ?_) (fun _ => ?_)

theorem State.queueCells_keeps {s0 : State} {s} {n} {cs} (h : Keeps s0 s) : Keeps s0 (State.queueCells s n cs) := by
  unfold State.queueCells
  repeat' first
    | extract_lets +onlyGivenNames x
    | with_reducible exact h
    | with_reducible apply State.setNtkPort_keeps
    | with_reducible refine Keeps.ite (fun _ => ?_) (fun _ => ?_)

theorem State.publishBlock_keeps {s0 : State} {s} {n} (h : Keeps s0 s) : Keeps s0 (State.publishBlock s n) := by
  unfold State.publishBlock
  repeat' first
    | (extract_lets +onlyGivenNames x; refine (fun hx => ?_) (?_ : Keeps s0 x); clear_value x; rotate_left; subst x)
    | extract_lets +onlyGivenNames x
    | with_reducible exact h
    | with_reducible apply State.queueCells_keeps
    | with_reducible apply State.setChain_keeps
    | with_reducible apply State.addLed_keeps
    | with_reducible refine Keeps.ite (fun _ => ?_) (fun _ => ?_)
    | with_reducible assumption

theorem State.queueSums_keeps {s0 : State} {s} {b} {outs} (h : Keeps s0 s) : Keeps s0 (State.queueSums s b outs) := by
  unfold State.queueSums
  repeat' first
    | extract_lets +onlyGivenNames x
    | with_reducible exact h
    | with_reducible apply State.queueCells_keeps

theorem State.rollOutcome_keeps {s0 : State} {s} {r} {i} (h : Keeps s0 s) : Keeps s0 (State.rollOutcome s r i) := by
  unfold State.rollOutcome
  repeat' first
    | (extract_lets +onlyGivenNames x; refine (fun hx => ?_) (?_ : Keeps s0 x); clear_value x; rotate_left; subst x)
    | extract_lets +onlyGivenNames x
    | with_reducible exact h
    | with_reducible apply State.settleChain_keeps
    | with_reducible apply State.setChain_keeps
    | with_reducible apply State.chainDone_keeps
    | with_reducible apply State.evt_keeps
    | with_reducible refine Keeps.ite (fun _ => ?_) (fun _ => ?_)
    | with_reducible assumption

theorem State.startLeave_keeps {s0 : State} {s} {position} {graceful} (h : Keeps s0 s) : Keeps s0 (State.startLeave s position graceful) := by
  unfold State.startLeave
  repeat' first
    | (extract_lets +onlyGivenNames x; refine (fun hx => ?_) (?_ : Keeps s0 x); clear_value x; rotate_left; subst x)
    | extract_lets +onlyGivenNames x
    | with_reducible exact h
    | with_reducible apply State.openChange_keeps
    | with_reducible apply State.sendOn_keeps
    | with_reducible apply State.seal_keeps
    | with_reducible refine Keeps.ite (fun _ => ?_) (fun _ => ?_)
    | with_reducible assumption
    | split

theorem State.sumDeadline_keeps {s0 : State} {s} {b} (h : Keeps s0 s) : Keeps s0 (State.sumDeadline s b) := by
  unfold State.sumDeadline
  repeat' first
    | extract_lets +onlyGivenNames x
    | with_reducible exact h
    | with_reducible apply State.releaseCopy_keeps
    | with_reducible apply State.addLed_keeps
    | with_reducible apply State.setChain_keeps
    | with_reducible refine Keeps.foldl (fun _ _ _ => ?_) ?_
    | with_reducible assumption

theorem State.tailSum_keeps {s0 : State} {s} {f} {incomplete} {contrib} (h : Keeps s0 s) : Keeps s0 (State.tailSum s f incomplete contrib) := by
  unfold State.tailSum
  repeat' first
    | extract_lets +onlyGivenNames x
    | with_reducible exact h
    | with_reducible apply State.evt_keeps
    | with_reducible apply State.orReg_keeps
    | with_reducible apply State.count_keeps
    | with_reducible refine Keeps.ite (fun _ => ?_) (fun _ => ?_)

theorem State.takeChain_keeps {s0 : State} {s} {e} {c} {head} {pubs} {st} (h : Keeps s0 s) : Keeps s0 (State.takeChain s e c head pubs st) := by
  unfold State.takeChain
  repeat' first
    | (extract_lets +onlyGivenNames x; refine (fun hx => ?_) (?_ : Keeps s0 x); clear_value x; rotate_left; subst x)
    | extract_lets +onlyGivenNames x
    | with_reducible exact h
    | with_reducible apply State.chainAlone_keeps
    | with_reducible apply State.chainDone_keeps
    | with_reducible apply State.setChain_keeps
    | with_reducible assumption

theorem State.takeSum_keeps {s0 : State} {s} {b} {f} (h : Keeps s0 s) : Keeps s0 (State.takeSum s b f).2 := by
  unfold State.takeSum
  repeat' first
    | (extract_lets +onlyGivenNames x; refine (fun hx => ?_) (?_ : Keeps s0 x); clear_value x; rotate_left; subst x)
    | extract_lets +onlyGivenNames x
    | with_reducible exact h
    | with_reducible apply State.addLed_keeps
    | with_reducible apply State.releaseCopy_keeps
    | with_reducible apply State.setChain_keeps
    | with_reducible apply State.count_keeps
    | with_reducible assumption
    | split

theorem State.tryCall_keeps {s0 : State} {s} (h : Keeps s0 s) : Keeps s0 (State.tryCall s) := by
  unfold State.tryCall
  repeat' first
    | extract_lets +onlyGivenNames x
    | with_reducible exact h
    | with_reducible apply State.sendOn_keeps
    | with_reducible apply State.setChain_keeps
    | with_reducible refine Keeps.ite (fun _ => ?_) (fun _ => ?_)

theorem State.tryJoin_keeps {s0 : State} {s} (h : Keeps s0 s) : Keeps s0 (State.tryJoin s) := by
  unfold State.tryJoin
  repeat' first
    | extract_lets +onlyGivenNames x
    | with_reducible exact h
    | with_reducible apply State.sendOn_keeps
    | with_reducible apply State.setChain_keeps
    | with_reducible refine Keeps.ite (fun _ => ?_) (fun _ => ?_)

theorem chainConfig_keeps {s0 : State} {e} {c} {s} (h : Keeps s0 s) : Keeps s0 (chainConfig e c s) := by
  unfold chainConfig
  repeat' first
    | (extract_lets +onlyGivenNames x; have _hx : (x : Option _) = x := rfl; clear_value x)
    | (extract_lets +onlyGivenNames x; refine (fun hx => ?_) (?_ : Keeps s0 x); clear_value x; rotate_left; subst x)
    | extract_lets +onlyGivenNames x
    | with_reducible exact h
    | with_reducible apply State.reject_keeps
    | with_reducible apply State.complete_keeps
    | with_reducible apply State.chainUnled_keeps
    | with_reducible apply State.chainAlone_keeps
    | with_reducible apply State.sendOn_keeps
    | with_reducible apply State.chainDone_keeps
    | with_reducible apply State.setChain_keeps
    | with_reducible apply State.startLeave_keeps
    | with_reducible apply State.addMember_keeps
    | with_reducible apply State.tryCall_keeps
    | with_reducible apply State.takeChain_keeps
    | with_reducible apply State.tryJoin_keeps
    | with_reducible refine Keeps.ite (fun _ => ?_) (fun _ => ?_)
    | with_reducible assumption
    | split

theorem chainReturn_keeps {s0 : State} {s} (h : Keeps s0 s) : Keeps s0 (chainReturn s) := by
  unfold chainReturn
  repeat' first
    | extract_lets +onlyGivenNames x
    | with_reducible exact h
    | with_reducible apply State.setChain_keeps
    | with_reducible refine Keeps.ite (fun _ => ?_) (fun _ => ?_)

theorem chainSourceLost_keeps {s0 : State} {s} (h : Keeps s0 s) : Keeps s0 (chainSourceLost s) := by
  unfold chainSourceLost
  repeat' first
    | (extract_lets +onlyGivenNames x; refine (fun hx => ?_) (?_ : Keeps s0 x); clear_value x; rotate_left; subst x)
    | extract_lets +onlyGivenNames x
    | with_reducible exact h
    | with_reducible apply State.dropSource_keeps
    | with_reducible apply State.setChain_keeps
    | with_reducible refine Keeps.ite (fun _ => ?_) (fun _ => ?_)
    | with_reducible assumption
    | split

theorem epochDecision_keeps {s0 : State} {n} {id} {m} {d} {s} (h : Keeps s0 s) : Keeps s0 (epochDecision n id m d s) := by
  unfold epochDecision
  repeat' first
    | (extract_lets +onlyGivenNames x; refine (fun hx => ?_) (?_ : Keeps s0 x); clear_value x; rotate_left; subst x)
    | extract_lets +onlyGivenNames x
    | with_reducible exact h
    | with_reducible apply State.passOn_keeps
    | with_reducible apply State.commitEpoch_keeps
    | with_reducible apply State.both_keeps
    | with_reducible apply State.setEpoch_keeps
    | with_reducible apply State.evt_keeps
    | with_reducible apply State.expire_keeps
    | with_reducible refine Keeps.ite (fun _ => ?_) (fun _ => ?_)
    | with_reducible assumption
    | split

theorem epochReport_keeps {s0 : State} {n} {id} {position} {st} {s} (h : Keeps s0 s) : Keeps s0 (epochReport n id position st s) := by
  unfold epochReport
  repeat' first
    | (extract_lets +onlyGivenNames x; refine (fun hx => ?_) (?_ : Keeps s0 x); clear_value x; rotate_left; subst x)
    | extract_lets +onlyGivenNames x
    | with_reducible exact h
    | with_reducible apply State.heard_keeps
    | with_reducible apply State.setEpoch_keeps
    | with_reducible apply State.seal_keeps
    | with_reducible apply State.setChain_keeps
    | with_reducible apply State.passOn_keeps
    | with_reducible refine Keeps.ite (fun _ => ?_) (fun _ => ?_)
    | with_reducible assumption
    | split

theorem linkDelay_keeps {s0 : State} {n} {probe} {echo} {received} {s} (h : Keeps s0 s) : Keeps s0 (linkDelay n probe echo received s) := by
  unfold linkDelay
  repeat' first
    | extract_lets +onlyGivenNames x
    | with_reducible exact h
    | with_reducible apply State.setNtkPort_keeps
    | with_reducible refine Keeps.ite (fun _ => ?_) (fun _ => ?_)

theorem memberRemoval_keeps {s0 : State} {position} {s} (h : Keeps s0 s) : Keeps s0 (memberRemoval position s) := by
  unfold memberRemoval
  repeat' first
    | extract_lets +onlyGivenNames x
    | with_reducible exact h
    | with_reducible apply State.startLeave_keeps
    | with_reducible refine Keeps.ite (fun _ => ?_) (fun _ => ?_)

theorem modulePresenceChange_keeps {s0 : State} {k} {present} {s} (h : Keeps s0 s) : Keeps s0 (modulePresenceChange k present s) := by
  unfold modulePresenceChange
  repeat' first
    | (extract_lets +onlyGivenNames x; refine (fun hx => ?_) (?_ : Keeps s0 x); clear_value x; rotate_left; subst x)
    | extract_lets +onlyGivenNames x
    | with_reducible exact h
    | with_reducible apply State.setNetPort_keeps
    | with_reducible apply State.setNtkPort_keeps
    | with_reducible apply State.auditDone_keeps
    | with_reducible apply State.linkDown_keeps
    | with_reducible apply State.setLink_keeps
    | with_reducible refine Keeps.ite (fun _ => ?_) (fun _ => ?_)
    | with_reducible assumption

theorem ntkAudit_keeps {s0 : State} {n} {boundary} {received} {free} {s} (h : Keeps s0 s) : Keeps s0 (ntkAudit n boundary received free s) := by
  unfold ntkAudit
  repeat' first
    | (extract_lets +onlyGivenNames x; refine (fun hx => ?_) (?_ : Keeps s0 x); clear_value x; rotate_left; subst x)
    | extract_lets +onlyGivenNames x
    | with_reducible exact h
    | with_reducible apply State.setNtkPort_keeps
    | with_reducible apply State.auditDone_keeps
    | with_reducible refine Keeps.ite (fun _ => ?_) (fun _ => ?_)
    | with_reducible assumption
    | split
    | with_reducible refine Keeps.record rfl rfl rfl rfl ?_

theorem ntkBlock_keeps {s0 : State} {n} {msc} {st} {position} {s} (h : Keeps s0 s) : Keeps s0 (ntkBlock n msc st position s) := by
  unfold ntkBlock
  repeat' first
    | (extract_lets +onlyGivenNames x; refine (fun hx => ?_) (?_ : Keeps s0 x); clear_value x; rotate_left; subst x)
    | extract_lets +onlyGivenNames x
    | with_reducible exact h
    | with_reducible apply State.cellIn_keeps
    | with_reducible apply State.setNtkPort_keeps
    | with_reducible apply State.heard_keeps
    | with_reducible apply State.evt_keeps
    | with_reducible apply State.setChain_keeps
    | with_reducible apply State.passOn_keeps
    | with_reducible refine Keeps.ite (fun _ => ?_) (fun _ => ?_)
    | with_reducible assumption

theorem ntkCredit_keeps {s0 : State} {n} {count} {total} {s} (h : Keeps s0 s) : Keeps s0 (ntkCredit n count total s) := by
  unfold ntkCredit
  repeat' first
    | extract_lets +onlyGivenNames x
    | with_reducible exact h
    | with_reducible apply State.setNtkPort_keeps
    | with_reducible refine Keeps.ite (fun _ => ?_) (fun _ => ?_)

theorem ntkJoin_keeps {s0 : State} {n} {rec} {place} {hops} {s} (h : Keeps s0 s) : Keeps s0 (ntkJoin n rec place hops s) := by
  unfold ntkJoin
  repeat' first
    | (extract_lets +onlyGivenNames x; refine (fun hx => ?_) (?_ : Keeps s0 x); clear_value x; rotate_left; subst x)
    | extract_lets +onlyGivenNames x
    | with_reducible exact h
    | with_reducible apply State.sendOn_keeps
    | with_reducible apply State.openChange_keeps
    | with_reducible apply State.evt_keeps
    | with_reducible apply State.setChain_keeps
    | with_reducible apply State.passOn_keeps
    | with_reducible refine Keeps.ite (fun _ => ?_) (fun _ => ?_)
    | with_reducible assumption

theorem ntkLeave_keeps {s0 : State} {n} {position} {reason} {s} (h : Keeps s0 s) : Keeps s0 (ntkLeave n position reason s) := by
  unfold ntkLeave
  repeat' first
    | (extract_lets +onlyGivenNames x; refine (fun hx => ?_) (?_ : Keeps s0 x); clear_value x; rotate_left; subst x)
    | extract_lets +onlyGivenNames x
    | with_reducible exact h
    | with_reducible apply State.chainUnled_keeps
    | with_reducible apply State.chainAlone_keeps
    | with_reducible apply State.sendOn_keeps
    | with_reducible apply State.chainDone_keeps
    | with_reducible apply State.setChain_keeps
    | with_reducible apply State.startLeave_keeps
    | with_reducible apply State.openChange_keeps
    | with_reducible apply State.passOn_keeps
    | with_reducible refine Keeps.ite (fun _ => ?_) (fun _ => ?_)
    | with_reducible assumption
    | split

theorem ntkStep_keeps {s0 : State} {n} {k} {b} {s} (h : Keeps s0 s) : Keeps s0 (ntkStep n k b s) := by
  unfold ntkStep
  repeat' first
    | (extract_lets +onlyGivenNames x; refine (fun hx => ?_) (?_ : Keeps s0 x); clear_value x; rotate_left; subst x)
    | extract_lets +onlyGivenNames x
    | with_reducible exact h
    | with_reducible apply State.setMedia_keeps
    | with_reducible apply State.passOn_keeps
    | with_reducible refine Keeps.ite (fun _ => ?_) (fun _ => ?_)
    | with_reducible assumption

theorem ntkTime_keeps {s0 : State} {n} {t} {origin} {r96} {s} (h : Keeps s0 s) : Keeps s0 (ntkTime n t origin r96 s) := by
  unfold ntkTime
  repeat' first
    | (extract_lets +onlyGivenNames x; refine (fun hx => ?_) (?_ : Keeps s0 x); clear_value x; rotate_left; subst x)
    | extract_lets +onlyGivenNames x
    | with_reducible exact h
    | with_reducible apply State.setChain_keeps
    | with_reducible apply State.setMedia_keeps
    | with_reducible apply State.measureTb_keeps
    | with_reducible refine Keeps.ite (fun _ => ?_) (fun _ => ?_)
    | with_reducible assumption
    | split

theorem ntkTrainingDone_keeps {s0 : State} {n} {s} (h : Keeps s0 s) : Keeps s0 (ntkTrainingDone n s) := by
  unfold ntkTrainingDone
  repeat' first
    | extract_lets +onlyGivenNames x
    | with_reducible exact h
    | with_reducible apply State.setLink_keeps
    | with_reducible refine Keeps.ite (fun _ => ?_) (fun _ => ?_)

theorem ntkVersionAgreed_keeps {s0 : State} {n} {verMin} {verMax} {total} {s} (h : Keeps s0 s) : Keeps s0 (ntkVersionAgreed n verMin verMax total s) := by
  unfold ntkVersionAgreed
  repeat' first
    | (extract_lets +onlyGivenNames x; refine (fun hx => ?_) (?_ : Keeps s0 x); clear_value x; rotate_left; subst x)
    | extract_lets +onlyGivenNames x
    | with_reducible exact h
    | with_reducible apply State.setLink_keeps
    | with_reducible apply State.setNtkPort_keeps
    | with_reducible apply State.setChain_keeps
    | with_reducible apply State.tryJoin_keeps
    | with_reducible apply State.tryCall_keeps
    | with_reducible refine Keeps.ite (fun _ => ?_) (fun _ => ?_)
    | with_reducible assumption

theorem objectCell_keeps {s0 : State} {n} {x} {s} (h : Keeps s0 s) : Keeps s0 (objectCell n x s) := by
  unfold objectCell
  repeat' first
    | (extract_lets +onlyGivenNames x; refine (fun hx => ?_) (?_ : Keeps s0 x); clear_value x; rotate_left; subst x)
    | extract_lets +onlyGivenNames x
    | with_reducible exact h
    | with_reducible apply State.cellIn_keeps
    | with_reducible apply State.count_keeps
    | with_reducible apply State.forwardCell_keeps
    | with_reducible apply State.addLed_keeps
    | with_reducible apply State.setChain_keeps
    | with_reducible apply State.learnPubs_keeps
    | with_reducible apply State.keepCell_keeps
    | with_reducible refine Keeps.ite (fun _ => ?_) (fun _ => ?_)
    | with_reducible assumption

theorem rollCall_keeps {s0 : State} {n} {recs} {s} (h : Keeps s0 s) : Keeps s0 (rollCall n recs s) := by
  unfold rollCall
  repeat' first
    | (extract_lets +onlyGivenNames x; refine (fun hx => ?_) (?_ : Keeps s0 x); clear_value x; rotate_left; subst x)
    | extract_lets +onlyGivenNames x
    | with_reducible exact h
    | with_reducible apply State.setChain_keeps
    | with_reducible apply State.sendOn_keeps
    | with_reducible refine Keeps.ite (fun _ => ?_) (fun _ => ?_)
    | with_reducible assumption

theorem rollReply_keeps {s0 : State} {n} {recs} {hops} {s} (h : Keeps s0 s) : Keeps s0 (rollReply n recs hops s) := by
  unfold rollReply
  repeat' first
    | extract_lets +onlyGivenNames x
    | with_reducible exact h
    | with_reducible apply State.sendOn_keeps
    | with_reducible apply State.rollOutcome_keeps
    | with_reducible refine Keeps.ite (fun _ => ?_) (fun _ => ?_)

theorem sumCell_keeps {s0 : State} {n} {x} {s} (h : Keeps s0 s) : Keeps s0 (sumCell n x s) := by
  unfold sumCell
  repeat' first
    | (extract_lets +onlyGivenNames x; refine (fun hx => ?_) (?_ : Keeps s0 x); clear_value x; rotate_left; subst x)
    | extract_lets +onlyGivenNames x
    | with_reducible exact h
    | with_reducible apply State.cellIn_keeps
    | with_reducible apply State.count_keeps
    | with_reducible apply State.forwardCell_keeps
    | with_reducible apply State.keepCell_keeps
    | with_reducible apply State.addLed_keeps
    | with_reducible apply State.setChain_keeps
    | with_reducible refine Keeps.ite (fun _ => ?_) (fun _ => ?_)
    | with_reducible assumption

/-! ### HostQ -/

theorem atBoundary_keeps {s0 : State} {e} {c} {a} {s} (h : Keeps s0 s) : Keeps s0 (atBoundary e c a s) := by
  unfold atBoundary
  repeat' first
    | extract_lets +onlyGivenNames x
    | with_reducible exact h
    | with_reducible apply guardCmd_keeps
    | with_reducible apply State.addTimed_keeps
    | intro u hu
    | with_reducible assumption

theorem signalQueue_keeps {s0 : State} {q} {s} (h : Keeps s0 s) : Keeps s0 (signalQueue q s) := by
  unfold signalQueue
  repeat' first
    | extract_lets +onlyGivenNames x
    | with_reducible exact h
    | with_reducible apply State.raiseVec_keeps
    | with_reducible apply State.setQueue_keeps
    | with_reducible refine Keeps.ite (fun _ => ?_) (fun _ => ?_)

theorem putEntry_keeps {s0 : State} {q} {bs} {suppress} {s} (h : Keeps s0 s) : Keeps s0 (putEntry q bs suppress s) := by
  unfold putEntry
  repeat' first
    | (extract_lets +onlyGivenNames x; refine (fun hx => ?_) (?_ : Keeps s0 x); clear_value x; rotate_left; subst x)
    | extract_lets +onlyGivenNames x
    | with_reducible exact h
    | with_reducible apply State.hostWrite_keeps
    | with_reducible apply signalQueue_keeps
    | with_reducible apply State.setQueue_keeps
    | with_reducible assumption

theorem queueError_keeps {s0 : State} {q} {s} (h : Keeps s0 s) : Keeps s0 (queueError q s) := by
  unfold queueError
  repeat' first
    | (extract_lets +onlyGivenNames x; refine (fun hx => ?_) (?_ : Keeps s0 x); clear_value x; rotate_left; subst x)
    | extract_lets +onlyGivenNames x
    | with_reducible exact h
    | with_reducible apply State.dropCompletion_keeps
    | with_reducible apply State.evt_keeps
    | with_reducible apply State.setQueue_keeps
    | with_reducible refine Keeps.foldl (fun _ _ _ => ?_) ?_
    | with_reducible assumption
    | with_reducible refine Keeps.record rfl rfl rfl rfl ?_

theorem completionWrite_keeps {s0 : State} {q} {linkOk} {s} (h : Keeps s0 s) : Keeps s0 (completionWrite q linkOk s) := by
  unfold completionWrite
  repeat' first
    | (extract_lets +onlyGivenNames x; refine (fun hx => ?_) (?_ : Keeps s0 x); clear_value x; rotate_left; subst x)
    | extract_lets +onlyGivenNames x
    | with_reducible exact h
    | with_reducible apply State.freeSlot_keeps
    | with_reducible apply State.settle_keeps
    | with_reducible apply putEntry_keeps
    | with_reducible apply queueError_keeps
    | with_reducible refine Keeps.ite (fun _ => ?_) (fun _ => ?_)
    | with_reducible assumption
    | split
    | with_reducible refine Keeps.record rfl rfl rfl rfl ?_

theorem cqHead_keeps {s0 : State} {q} {v} {s} (h : Keeps s0 s) : Keeps s0 (cqHead q v s) := by
  unfold cqHead
  repeat' first
    | extract_lets +onlyGivenNames x
    | with_reducible exact h
    | with_reducible apply State.setQueue_keeps
    | with_reducible apply State.both_keeps
    | with_reducible refine Keeps.ite (fun _ => ?_) (fun _ => ?_)

theorem creditAudit_keeps {s0 : State} {e} {c} {s} (h : Keeps s0 s) : Keeps s0 (creditAudit e c s) := by
  unfold creditAudit
  repeat' first
    | extract_lets +onlyGivenNames x
    | with_reducible exact h
    | with_reducible apply guardCmd_keeps
    | with_reducible apply atBoundary_keeps

theorem fetchAll_keeps {s0 s : State} {q : Fin 16} {l : List FetchedEntry} (h : Keeps s0 s) : Keeps s0 (fetchAll q l s) := by
  induction l generalizing s with
  | nil => exact h
  | cons p l ih =>
    unfold fetchAll
    repeat' first
      | (extract_lets +onlyGivenNames x; refine (fun hx => ?_) (?_ : Keeps s0 x); clear_value x; rotate_left; subst x)
      | extract_lets +onlyGivenNames x
      | with_reducible exact h
      | with_reducible apply ih
      | with_reducible apply State.take_keeps
      | with_reducible apply State.setQueue_keeps
      | with_reducible assumption

theorem entryFetch_keeps {s0 : State} {q} {entries} {s} (h : Keeps s0 s) : Keeps s0 (entryFetch q entries s) := by
  unfold entryFetch
  repeat' first
    | (extract_lets +onlyGivenNames x; refine (fun hx => ?_) (?_ : Keeps s0 x); clear_value x; rotate_left; subst x)
    | extract_lets +onlyGivenNames x
    | with_reducible exact h
    | with_reducible apply queueError_keeps
    | with_reducible apply fetchAll_keeps
    | with_reducible apply State.settle_keeps
    | with_reducible refine Keeps.ite (fun _ => ?_) (fun _ => ?_)
    | with_reducible assumption
    | split
    | with_reducible refine Keeps.record rfl rfl rfl rfl ?_

theorem overflowRecord_keeps {s0 : State} {s} (h : Keeps s0 s) : Keeps s0 (overflowRecord s) := by
  unfold overflowRecord
  repeat' first
    | extract_lets +onlyGivenNames x
    | with_reducible exact h
    | with_reducible apply State.pushReady_keeps
    | with_reducible refine Keeps.ite (fun _ => ?_) (fun _ => ?_)
    | with_reducible refine Keeps.record rfl rfl rfl rfl ?_

theorem nextSeq_keeps {s0 : State} {s} (h : Keeps s0 s) : Keeps s0 (nextSeq s) := by
  unfold nextSeq
  repeat' first
    | extract_lets +onlyGivenNames x
    | with_reducible exact h
    | with_reducible refine Keeps.record rfl rfl rfl rfl ?_

theorem eventRecordWrite_keeps {s0 : State} {linkOk} {s} (h : Keeps s0 s) : Keeps s0 (eventRecordWrite linkOk s) := by
  unfold eventRecordWrite
  repeat' first
    | (extract_lets +onlyGivenNames x; refine (fun hx => ?_) (?_ : Keeps s0 x); clear_value x; rotate_left; subst x)
    | extract_lets +onlyGivenNames x
    | with_reducible exact h
    | with_reducible apply overflowRecord_keeps
    | with_reducible apply nextSeq_keeps
    | with_reducible apply putEntry_keeps
    | with_reducible apply queueError_keeps
    | with_reducible apply State.count_keeps
    | with_reducible refine Keeps.ite (fun _ => ?_) (fun _ => ?_)
    | with_reducible assumption
    | split
    | with_reducible refine Keeps.record rfl rfl rfl rfl ?_

theorem irqTest_keeps {s0 : State} {v} {s} (h : Keeps s0 s) : Keeps s0 (irqTest v s) := by
  unfold irqTest
  repeat' first
    | extract_lets +onlyGivenNames x
    | with_reducible exact h
    | with_reducible apply State.raiseVec_keeps
    | with_reducible refine Keeps.foldl (fun _ _ _ => ?_) ?_
    | with_reducible assumption

theorem ledgerSnapshot_keeps {s0 : State} {e} {c} {s} (h : Keeps s0 s) : Keeps s0 (ledgerSnapshot e c s) := by
  unfold ledgerSnapshot
  repeat' first
    | extract_lets +onlyGivenNames x
    | with_reducible exact h
    | with_reducible apply guardCmd_keeps
    | with_reducible apply atBoundary_keeps

theorem linkLoss_keeps {s0 : State} {s} (h : Keeps s0 s) : Keeps s0 (linkLoss s) := by
  unfold linkLoss
  repeat' first
    | extract_lets +onlyGivenNames x
    | with_reducible exact h
    | with_reducible apply State.count_keeps
    | with_reducible refine Keeps.ite (fun _ => ?_) (fun _ => ?_)
    | with_reducible refine Keeps.record rfl rfl rfl rfl ?_

theorem linkReturn_keeps {s0 : State} {s} (h : Keeps s0 s) : Keeps s0 (linkReturn s) := by
  unfold linkReturn
  repeat' first
    | extract_lets +onlyGivenNames x
    | with_reducible exact h
    | with_reducible apply State.evt_keeps
    | with_reducible refine Keeps.ite (fun _ => ?_) (fun _ => ?_)
    | with_reducible refine Keeps.record rfl rfl rfl rfl ?_

theorem nopAct_keeps {s0 : State} {e} {c} {s} (h : Keeps s0 s) : Keeps s0 (nopAct e c s) := by
  unfold nopAct
  repeat' first
    | extract_lets +onlyGivenNames x
    | with_reducible exact h
    | with_reducible apply guardCmd_keeps
    | with_reducible apply State.complete_keeps
    | with_reducible apply State.addTimed_keeps
    | with_reducible refine Keeps.ite (fun _ => ?_) (fun _ => ?_)
    | intro u hu
    | with_reducible assumption

theorem sendPending_keeps {s0 : State} {s} (h : Keeps s0 s) : Keeps s0 (sendPending s) := by
  unfold sendPending
  repeat' first
    | extract_lets +onlyGivenNames x
    | with_reducible exact h
    | with_reducible refine Keeps.ite (fun _ => ?_) (fun _ => ?_)
    | with_reducible refine Keeps.record rfl rfl rfl rfl ?_

theorem setMask_keeps {s0 : State} {v} {masked} {s} (h : Keeps s0 s) : Keeps s0 (setMask v masked s) := by
  unfold setMask
  repeat' first
    | extract_lets +onlyGivenNames x
    | with_reducible exact h
    | with_reducible apply sendPending_keeps
    | split
    | with_reducible refine Keeps.record rfl rfl rfl rfl ?_

theorem sqTail_keeps {s0 : State} {q} {v} {s} (h : Keeps s0 s) : Keeps s0 (sqTail q v s) := by
  unfold sqTail
  repeat' first
    | extract_lets +onlyGivenNames x
    | with_reducible exact h
    | with_reducible apply State.setQueue_keeps
    | with_reducible apply State.both_keeps
    | with_reducible refine Keeps.ite (fun _ => ?_) (fun _ => ?_)

theorem statsSnapshot_keeps {s0 : State} {e} {c} {s} (h : Keeps s0 s) : Keeps s0 (statsSnapshot e c s) := by
  unfold statsSnapshot
  repeat' first
    | extract_lets +onlyGivenNames x
    | with_reducible exact h
    | with_reducible apply guardCmd_keeps
    | with_reducible apply State.complete_keeps
    | with_reducible apply atBoundary_keeps
    | with_reducible refine Keeps.ite (fun _ => ?_) (fun _ => ?_)
    | intro u hu
    | with_reducible assumption

theorem versionSet_keeps {s0 : State} {e} {c} {s} (h : Keeps s0 s) : Keeps s0 (versionSet e c s) := by
  unfold versionSet
  repeat' first
    | (extract_lets +onlyGivenNames x; refine (fun hx => ?_) (?_ : Keeps s0 x); clear_value x; rotate_left; subst x)
    | extract_lets +onlyGivenNames x
    | with_reducible exact h
    | with_reducible apply guardCmd_keeps
    | with_reducible apply State.complete_keeps
    | intro u hu
    | with_reducible assumption
    | with_reducible refine Keeps.record rfl rfl rfl rfl ?_

theorem watchdogExpiry_keeps {s0 : State} {s} (h : Keeps s0 s) : Keeps s0 (watchdogExpiry s) := by
  unfold watchdogExpiry
  repeat' first
    | (extract_lets +onlyGivenNames x; refine (fun hx => ?_) (?_ : Keeps s0 x); clear_value x; rotate_left; subst x)
    | extract_lets +onlyGivenNames x
    | with_reducible exact h
    | with_reducible apply State.both_keeps
    | with_reducible refine Keeps.ite (fun _ => ?_) (fun _ => ?_)
    | with_reducible assumption
    | with_reducible refine Keeps.record rfl rfl rfl rfl ?_

theorem wdogRestart_keeps {s0 : State} {s} (h : Keeps s0 s) : Keeps s0 (wdogRestart s) := by
  unfold wdogRestart
  repeat' first
    | extract_lets +onlyGivenNames x
    | with_reducible exact h
    | with_reducible refine Keeps.ite (fun _ => ?_) (fun _ => ?_)
    | with_reducible refine Keeps.record rfl rfl rfl rfl ?_

theorem watchdogKick_keeps {s0 : State} {e} {c} {s} (h : Keeps s0 s) : Keeps s0 (watchdogKick e c s) := by
  unfold watchdogKick
  repeat' first
    | extract_lets +onlyGivenNames x
    | with_reducible exact h
    | with_reducible apply guardCmd_keeps
    | with_reducible apply State.complete_keeps
    | with_reducible apply wdogRestart_keeps
    | intro u hu
    | with_reducible assumption

theorem writeQueueCtl_keeps {s0 : State} {q} {v} {s} (h : Keeps s0 s) : Keeps s0 (writeQueueCtl q v s) := by
  unfold writeQueueCtl
  repeat' first
    | (extract_lets +onlyGivenNames x; refine (fun hx => ?_) (?_ : Keeps s0 x); clear_value x; rotate_left; subst x)
    | extract_lets +onlyGivenNames x
    | with_reducible exact h
    | with_reducible apply State.setQueue_keeps
    | with_reducible refine Keeps.ite (fun _ => ?_) (fun _ => ?_)
    | with_reducible assumption
    | with_reducible refine Keeps.record rfl rfl rfl rfl ?_

theorem writeRingBase_keeps {s0 : State} {q} {cq} {v} {s} (h : Keeps s0 s) : Keeps s0 (writeRingBase q cq v s) := by
  unfold writeRingBase
  repeat' first
    | extract_lets +onlyGivenNames x
    | with_reducible exact h
    | with_reducible apply State.setQueue_keeps
    | with_reducible refine Keeps.ite (fun _ => ?_) (fun _ => ?_)

/-! ### Ledgers -/

theorem State.hwFault_keeps {s0 : State} {s} (h : Keeps s0 s) : Keeps s0 (State.hwFault s) := by
  unfold State.hwFault
  repeat' first
    | extract_lets +onlyGivenNames x
    | with_reducible exact h
    | with_reducible apply State.both_keeps

theorem State.checkEvents_keeps {s0 : State} {s} (h : Keeps s0 s) : Keeps s0 (State.checkEvents s) := by
  unfold State.checkEvents
  repeat' first
    | extract_lets +onlyGivenNames x
    | with_reducible exact h
    | with_reducible apply State.hwFault_keeps
    | with_reducible apply State.evt_keeps
    | with_reducible refine Keeps.ite (fun _ => ?_) (fun _ => ?_)

theorem State.checkBalance_keeps {s0 : State} {s} (h : Keeps s0 s) : Keeps s0 (State.checkBalance s) := by
  unfold State.checkBalance
  repeat' first
    | extract_lets +onlyGivenNames x
    | with_reducible exact h
    | with_reducible apply State.hwFault_keeps
    | with_reducible apply State.evt_keeps
    | with_reducible refine Keeps.ite (fun _ => ?_) (fun _ => ?_)

theorem balance_moves {a y d i f A S I D : BitVec 64} (h : a + y = d + i + f) :
    a + A + (y + S) = d + D + (i + I) + (f + A + S - I - D) := by
  have e1 : a + A + (y + S) = (a + y) + (A + S) := by ac_rfl
  have e2 : d + D + (i + I) + (f + A + S + -I + -D) = (d + i + f) + (A + S) + ((I + -I) + (D + -D)) := by ac_rfl
  rw [e1, h, BitVec.sub_eq_add_neg, BitVec.sub_eq_add_neg, e2, BitVec.add_right_neg, BitVec.add_right_neg]
  simp

theorem Ledger.move_balanced {l : Ledger} {d : LedDelta} (h : l.balanced) : (l.move d).balanced := balance_moves h

theorem State.ledger_balanced {s : State} (h : s.ledgersBalance) (i : Nat) : (s.ledger i).balanced := by
  unfold State.ledger
  cases e : tget s.led.tab i with
  | none => rfl
  | some l => exact h _ (mem_of_tget e)

theorem State.closeLedger_keeps {s0 s : State} {p : Nat × LedDelta} (h : Keeps s0 s) : Keeps s0 (s.closeLedger p) := by
  unfold State.closeLedger
  extract_lets l src s1
  have h1 : Keeps s0 s1 := h.trans ⟨rfl, fun x => ⟨x.1, fun q hq => by
    rcases mem_tset hq with e | e
    · rw [e]
      exact Ledger.move_balanced (State.ledger_balanced x.2 p.1)
    · exact x.2 q e⟩⟩
  clear_value l s1
  split
  · exact State.fx_keeps h1
  · exact h1

theorem State.ledgerEvent_keeps {s0 : State} {s} {bit} {lo} {first} (h : Keeps s0 s) : Keeps s0 (State.ledgerEvent s bit lo first) := by
  unfold State.ledgerEvent
  repeat' first
    | (extract_lets +onlyGivenNames x; refine (fun hx => ?_) (?_ : Keeps s0 x); clear_value x; rotate_left; subst x)
    | extract_lets +onlyGivenNames x
    | with_reducible exact h
    | with_reducible apply State.setReg_keeps
    | with_reducible apply State.evt_keeps
    | with_reducible refine Keeps.ite (fun _ => ?_) (fun _ => ?_)
    | with_reducible assumption
    | split

theorem State.closeCounts_keeps {s0 : State} {s} {t} (h : Keeps s0 s) : Keeps s0 (State.closeCounts s t) := by
  unfold State.closeCounts
  repeat' first
    | (extract_lets +onlyGivenNames x; refine (fun hx => ?_) (?_ : Keeps s0 x); clear_value x; rotate_left; subst x)
    | extract_lets +onlyGivenNames x
    | with_reducible exact h
    | with_reducible apply State.closeLedger_keeps
    | with_reducible apply State.ledgerEvent_keeps
    | with_reducible refine Keeps.foldl (fun _ _ _ => ?_) ?_
    | with_reducible assumption
    | with_reducible refine Keeps.record rfl rfl rfl rfl ?_

theorem State.snapWrite_keeps {s0 : State} {s} {addr} {bs} (h : Keeps s0 s) : Keeps s0 (State.snapWrite s addr bs) := by
  unfold State.snapWrite
  repeat' first
    | extract_lets +onlyGivenNames x
    | with_reducible exact h
    | with_reducible apply State.hostWrite_keeps
    | with_reducible refine Keeps.ite (fun _ => ?_) (fun _ => ?_)

theorem State.ledgerSnap_keeps {s0 : State} {s} {t} {addr} (h : Keeps s0 s) : Keeps s0 (State.ledgerSnap s t addr) := by
  unfold State.ledgerSnap
  repeat' first
    | extract_lets +onlyGivenNames x
    | with_reducible exact h
    | with_reducible apply State.snapWrite_keeps
    | with_reducible refine Keeps.record rfl rfl rfl rfl ?_

theorem State.statsSnap_keeps {s0 : State} {s} {t} {addr} (h : Keeps s0 s) : Keeps s0 (State.statsSnap s t addr) := by
  unfold State.statsSnap
  repeat' first
    | extract_lets +onlyGivenNames x
    | with_reducible exact h
    | with_reducible apply State.snapWrite_keeps
    | with_reducible refine Keeps.record rfl rfl rfl rfl ?_

theorem State.takeSnap_keeps {s0 : State} {s} {t} {c} (h : Keeps s0 s) : Keeps s0 (State.takeSnap s t c) := by
  unfold State.takeSnap
  repeat' first
    | extract_lets +onlyGivenNames x
    | with_reducible exact h
    | with_reducible apply State.complete_keeps
    | with_reducible apply State.ledgerSnap_keeps
    | with_reducible apply State.statsSnap_keeps
    | split

theorem State.boundaryEnd_keeps {s0 : State} {s} {t} (h : Keeps s0 s) : Keeps s0 (State.boundaryEnd s t) := by
  unfold State.boundaryEnd
  repeat' first
    | (extract_lets +onlyGivenNames x; refine (fun hx => ?_) (?_ : Keeps s0 x); clear_value x; rotate_left; subst x)
    | extract_lets +onlyGivenNames x
    | with_reducible exact h
    | with_reducible apply State.checkEvents_keeps
    | with_reducible apply State.checkBalance_keeps
    | with_reducible apply State.closeCounts_keeps
    | with_reducible apply State.takeSnap_keeps
    | with_reducible apply State.auditRun_keeps
    | with_reducible refine Keeps.ite (fun _ => ?_) (fun _ => ?_)
    | with_reducible refine Keeps.foldl (fun _ _ _ => ?_) ?_
    | with_reducible assumption
    | with_reducible refine Keeps.record rfl rfl rfl rfl ?_

theorem State.discardAll_keeps {s0 : State} {s} (h : Keeps s0 s) : Keeps s0 (State.discardAll s) := by
  unfold State.discardAll
  repeat' first
    | extract_lets +onlyGivenNames x
    | with_reducible exact h
    | with_reducible apply State.addLed_keeps
    | with_reducible refine Keeps.ite (fun _ => ?_) (fun _ => ?_)
    | with_reducible refine Keeps.foldl (fun _ _ _ => ?_) ?_
    | with_reducible assumption

end Sys2Proof.Machine
end

