-- ==== Sys2Proof/Laws/KeepsModes.lean ====
section
/-!
SUPPORT. Operations of Modes, Bells, Desk, RegRead, Board, Reset, RegWrite, Boot, Boundary, Dma leave the queue alone and keep `State.sound` (`Keeps`).
-/
namespace Sys2Proof.Machine

/-! ### Modes -/

theorem State.setPwr_keeps {s0 : State} {s} {p} (h : Keeps s0 s) : Keeps s0 (State.setPwr s p) := by
  unfold State.setPwr
  repeat' first
    | extract_lets +onlyGivenNames x
    | with_reducible exact h
    | with_reducible refine Keeps.record rfl rfl rfl rfl ?_

theorem State.abortWait_keeps {s0 : State} {s} (h : Keeps s0 s) : Keeps s0 (State.abortWait s) := by
  unfold State.abortWait
  repeat' first
    | extract_lets +onlyGivenNames x
    | with_reducible exact h
    | with_reducible apply State.complete_keeps
    | with_reducible apply State.setPwr_keeps
    | split

theorem State.abortModes_keeps {s0 : State} {s} (h : Keeps s0 s) : Keeps s0 (State.abortModes s) := by
  unfold State.abortModes
  repeat' first
    | (extract_lets +onlyGivenNames x; refine (fun hx => ?_) (?_ : Keeps s0 x); clear_value x; rotate_left; subst x)
    | extract_lets +onlyGivenNames x
    | with_reducible exact h
    | with_reducible apply State.abortWait_keeps
    | with_reducible apply State.setPwr_keeps
    | with_reducible apply State.complete_keeps
    | with_reducible assumption
    | split

theorem State.abortTimed_keeps {s0 : State} {s} (h : Keeps s0 s) : Keeps s0 (State.abortTimed s) := by
  unfold State.abortTimed
  repeat' first
    | extract_lets +onlyGivenNames x
    | with_reducible exact h
    | with_reducible apply State.completeMany_keeps
    | with_reducible refine Keeps.record rfl rfl rfl rfl ?_

theorem State.applyAll_keeps {s0 : State} {s} (h : Keeps s0 s) : Keeps s0 (State.applyAll s) := by
  unfold State.applyAll
  repeat' first
    | (extract_lets +onlyGivenNames x; refine (fun hx => ?_) (?_ : Keeps s0 x); clear_value x; rotate_left; subst x)
    | extract_lets +onlyGivenNames x
    | with_reducible exact h
    | with_reducible apply State.applyNow_keeps
    | with_reducible assumption
    | with_reducible refine Keeps.record rfl rfl rfl rfl ?_

theorem State.settleTasks_keeps {s0 : State} {s} (h : Keeps s0 s) : Keeps s0 (State.settleTasks s) := by
  unfold State.settleTasks
  repeat' first
    | extract_lets +onlyGivenNames x
    | with_reducible exact h
    | with_reducible refine Keeps.record rfl rfl rfl rfl ?_

theorem State.stopTasks_keeps {s0 : State} {s} {free} (h : Keeps s0 s) : Keeps s0 (State.stopTasks s free) := by
  unfold State.stopTasks
  repeat' first
    | (extract_lets +onlyGivenNames x; refine (fun hx => ?_) (?_ : Keeps s0 x); clear_value x; rotate_left; subst x)
    | extract_lets +onlyGivenNames x
    | with_reducible exact h
    | with_reducible apply State.stopRun_keeps
    | with_reducible apply State.leaveList_keeps
    | with_reducible apply State.setTask_keeps
    | with_reducible refine Keeps.ite (fun _ => ?_) (fun _ => ?_)
    | with_reducible refine Keeps.foldl (fun _ _ _ => ?_) ?_
    | with_reducible assumption
    | split

theorem State.endXfades_keeps {s0 : State} {s} (h : Keeps s0 s) : Keeps s0 (State.endXfades s) := by
  unfold State.endXfades
  repeat' first
    | extract_lets +onlyGivenNames x
    | with_reducible exact h
    | with_reducible refine Keeps.record rfl rfl rfl rfl ?_

theorem State.pipeEmpty_keeps {s0 : State} {s} (h : Keeps s0 s) : Keeps s0 (State.pipeEmpty s) := by
  unfold State.pipeEmpty
  repeat' first
    | (extract_lets +onlyGivenNames x; refine (fun hx => ?_) (?_ : Keeps s0 x); clear_value x; rotate_left; subst x)
    | extract_lets +onlyGivenNames x
    | with_reducible exact h
    | with_reducible apply State.endXfades_keeps
    | with_reducible assumption
    | with_reducible refine Keeps.record rfl rfl rfl rfl ?_

theorem State.enterStandby_keeps {s0 s : State} {cmd : Option (CmdRef × Bool)} {thermal : Bool} (h : Keeps s0 s) :
    Keeps s0 (s.enterStandby cmd thermal) := by
  unfold State.enterStandby
  extract_lets +onlyGivenNames s1 s2
  have h2 : Keeps s0 s2 := by
    subst s2 s1
    repeat' first
      | extract_lets +onlyGivenNames x
      | with_reducible exact h
      | with_reducible apply dmaAbortAll_keeps
      | with_reducible apply State.discardAll_keeps
      | with_reducible apply State.pipeEmpty_keeps
      | with_reducible apply State.chainDiscard_keeps
      | with_reducible apply State.flowsEmpty_keeps
      | with_reducible apply State.serialEmpty_keeps
      | with_reducible apply State.settleTasks_keeps
      | with_reducible apply State.stopTasks_keeps
      | with_reducible apply State.cancelEpochs_keeps
      | with_reducible apply State.captureAbort_keeps
      | with_reducible apply State.replayEnd_keeps
      | with_reducible refine Keeps.ite (fun _ => ?_) (fun _ => ?_)
  clear_value s2 s1
  extract_lets p src src1 s3 s4
  have h4 : Keeps s0 s4 := wdogRestart_keeps (Keeps.of_eq (b := s2) rfl rfl rfl rfl rfl h2)
  clear_value s4
  split
  · exact State.complete_keeps h4
  · exact h4

theorem State.stageTo_keeps {s0 : State} {s} {t} (h : Keeps s0 s) : Keeps s0 (State.stageTo s t) := by
  unfold State.stageTo
  repeat' first
    | extract_lets +onlyGivenNames x
    | with_reducible exact h
    | with_reducible refine Keeps.ite (fun _ => ?_) (fun _ => ?_)
    | with_reducible refine Keeps.record rfl rfl rfl rfl ?_

theorem State.beginStandby_keeps {s0 : State} {s} {cmd} {thermal} (h : Keeps s0 s) : Keeps s0 (State.beginStandby s cmd thermal) := by
  unfold State.beginStandby
  repeat' first
    | extract_lets +onlyGivenNames x
    | with_reducible exact h
    | with_reducible apply State.enterStandby_keeps
    | with_reducible apply State.setPwr_keeps
    | with_reducible apply State.stageTo_keeps
    | with_reducible refine Keeps.ite (fun _ => ?_) (fun _ => ?_)

theorem State.cancelSwitches_keeps {s0 : State} {s} (h : Keeps s0 s) : Keeps s0 (State.cancelSwitches s) := by
  unfold State.cancelSwitches
  repeat' first
    | extract_lets +onlyGivenNames x
    | with_reducible exact h
    | with_reducible apply State.cancelEpochs_keeps

theorem State.enterDormant_keeps {s0 : State} {s} {cmd} {adj} (h : Keeps s0 s) : Keeps s0 (State.enterDormant s cmd adj) := by
  unfold State.enterDormant
  repeat' first
    | (extract_lets +onlyGivenNames x; refine (fun hx => ?_) (?_ : Keeps s0 x); clear_value x; rotate_left; subst x)
    | extract_lets +onlyGivenNames x
    | with_reducible exact h
    | with_reducible apply State.setPwr_keeps
    | with_reducible apply State.complete_keeps
    | with_reducible assumption
    | with_reducible refine Keeps.record rfl rfl rfl rfl ?_

theorem lentFeed_keeps {s0 : State} {s} {p} (h : Keeps s0 s) : Keeps s0 (lentFeed s p) := by
  unfold lentFeed
  repeat' first
    | (extract_lets +onlyGivenNames x; refine (fun hx => ?_) (?_ : Keeps s0 x); clear_value x; rotate_left; subst x)
    | extract_lets +onlyGivenNames x
    | with_reducible exact h
    | with_reducible apply State.setFeed_keeps
    | with_reducible apply State.addLed_keeps
    | with_reducible apply State.both_keeps
    | with_reducible refine Keeps.ite (fun _ => ?_) (fun _ => ?_)
    | with_reducible assumption

theorem State.linesLost_keeps {s0 : State} {s} (h : Keeps s0 s) : Keeps s0 (State.linesLost s) := by
  unfold State.linesLost
  repeat' first
    | (extract_lets +onlyGivenNames x; refine (fun hx => ?_) (?_ : Keeps s0 x); clear_value x; rotate_left; subst x)
    | extract_lets +onlyGivenNames x
    | with_reducible exact h
    | with_reducible apply lentFeed_keeps
    | with_reducible refine Keeps.foldl (fun _ _ _ => ?_) ?_
    | with_reducible assumption
    | with_reducible refine Keeps.record rfl rfl rfl rfl ?_

theorem State.hurrySafe_keeps {s0 : State} {s} {t} (h : Keeps s0 s) : Keeps s0 (State.hurrySafe s t) := by
  unfold State.hurrySafe
  repeat' first
    | extract_lets +onlyGivenNames x
    | with_reducible exact h
    | with_reducible refine Keeps.record rfl rfl rfl rfl ?_

theorem State.dramLost_keeps {s0 : State} {s} {t} (h : Keeps s0 s) : Keeps s0 (State.dramLost s t) := by
  unfold State.dramLost
  repeat' first
    | (extract_lets +onlyGivenNames x; refine (fun hx => ?_) (?_ : Keeps s0 x); clear_value x; rotate_left; subst x)
    | (extract_lets +onlyGivenNames x; refine (fun hx => ?_) (?_ : Keeps s0 x.2); clear_value x; rotate_left; subst x)
    | extract_lets +onlyGivenNames x
    | with_reducible exact h
    | with_reducible apply State.stopTasks_keeps
    | with_reducible apply State.cancelEpochs_keeps
    | with_reducible apply State.cancelSwitches_keeps
    | with_reducible apply State.captureAbort_keeps
    | with_reducible apply State.replayEnd_keeps
    | with_reducible apply State.linesLost_keeps
    | with_reducible apply State.activate_keeps
    | with_reducible apply State.hurrySafe_keeps
    | with_reducible apply State.switchNow_keeps
    | with_reducible apply State.fitFirs_keeps
    | with_reducible apply State.putAll_keeps
    | with_reducible refine Keeps.ite (fun _ => ?_) (fun _ => ?_)
    | with_reducible assumption
    | with_reducible refine Keeps.record rfl rfl rfl rfl ?_

theorem State.takeEmit_keeps {s0 : State} {s} {t} (h : Keeps s0 s) : Keeps s0 (State.takeEmit s t) := by
  unfold State.takeEmit
  repeat' first
    | extract_lets +onlyGivenNames x
    | with_reducible exact h
    | with_reducible apply State.txTake_keeps
    | with_reducible apply State.serialTake_keeps

theorem State.pipeStart_keeps {s0 : State} {s} {b} (h : Keeps s0 s) : Keeps s0 (State.pipeStart s b) := by
  unfold State.pipeStart
  repeat' first
    | (extract_lets +onlyGivenNames x; refine (fun hx => ?_) (?_ : Keeps s0 x); clear_value x; rotate_left; subst x)
    | extract_lets +onlyGivenNames x
    | with_reducible exact h
    | with_reducible apply State.addLed_keeps
    | with_reducible refine Keeps.ite (fun _ => ?_) (fun _ => ?_)
    | with_reducible refine Keeps.foldl (fun _ _ _ => ?_) ?_
    | with_reducible assumption
    | with_reducible refine Keeps.record rfl rfl rfl rfl ?_

theorem State.stageStep_keeps {s0 : State} {s} (h : Keeps s0 s) : Keeps s0 (State.stageStep s) := by
  unfold State.stageStep
  repeat' first
    | extract_lets +onlyGivenNames x
    | with_reducible exact h
    | with_reducible apply State.stageTo_keeps
    | with_reducible refine Keeps.ite (fun _ => ?_) (fun _ => ?_)
    | split

theorem State.exitStandby_keeps {s0 : State} {s} {target} {cmd} {adj} (h : Keeps s0 s) : Keeps s0 (State.exitStandby s target cmd adj) := by
  unfold State.exitStandby
  repeat' first
    | (extract_lets +onlyGivenNames x; refine (fun hx => ?_) (?_ : Keeps s0 x); clear_value x; rotate_left; subst x)
    | extract_lets +onlyGivenNames x
    | with_reducible exact h
    | with_reducible apply State.setPwr_keeps
    | with_reducible apply State.both_keeps
    | with_reducible apply State.linesLost_keeps
    | with_reducible apply State.dramLost_keeps
    | with_reducible apply State.takeEmit_keeps
    | with_reducible apply State.freezeGeo_keeps
    | with_reducible apply State.pipeStart_keeps
    | with_reducible apply State.flowsStart_keeps
    | with_reducible apply State.serialStart_keeps
    | with_reducible apply State.complete_keeps
    | with_reducible apply wdogRestart_keeps
    | with_reducible apply State.stageStep_keeps
    | with_reducible apply State.trsForget_keeps
    | with_reducible refine Keeps.ite (fun _ => ?_) (fun _ => ?_)
    | with_reducible assumption
    | with_reducible refine Keeps.record rfl rfl rfl rfl ?_

theorem State.enterRunning_keeps {s0 : State} {s} {target} {cmd} {adj} (h : Keeps s0 s) : Keeps s0 (State.enterRunning s target cmd adj) := by
  unfold State.enterRunning
  repeat' first
    | (extract_lets +onlyGivenNames x; refine (fun hx => ?_) (?_ : Keeps s0 x); clear_value x; rotate_left; subst x)
    | extract_lets +onlyGivenNames x
    | with_reducible exact h
    | with_reducible apply State.cancelEpochs_keeps
    | with_reducible apply State.setPwr_keeps
    | with_reducible apply wdogRestart_keeps
    | with_reducible apply State.stageStep_keeps
    | with_reducible apply State.complete_keeps
    | with_reducible assumption
    | split

theorem State.carryMode_keeps {s0 : State} {s} {target} {cmd} {adj} (h : Keeps s0 s) : Keeps s0 (State.carryMode s target cmd adj) := by
  unfold State.carryMode
  repeat' first
    | extract_lets +onlyGivenNames x
    | with_reducible exact h
    | with_reducible apply State.beginStandby_keeps
    | with_reducible apply State.enterDormant_keeps
    | with_reducible apply State.exitStandby_keeps
    | with_reducible apply State.enterRunning_keeps
    | with_reducible refine Keeps.ite (fun _ => ?_) (fun _ => ?_)

theorem State.clockless_keeps {s0 : State} {s} (h : Keeps s0 s) : Keeps s0 (State.clockless s) := by
  unfold State.clockless
  repeat' first
    | extract_lets +onlyGivenNames x
    | with_reducible exact h
    | with_reducible refine Keeps.record rfl rfl rfl rfl ?_

theorem State.safeSelect_keeps {s0 : State} {s} (h : Keeps s0 s) : Keeps s0 (State.safeSelect s) := by
  unfold State.safeSelect
  repeat' first
    | (extract_lets +onlyGivenNames x; refine (fun hx => ?_) (?_ : Keeps s0 x); clear_value x; rotate_left; subst x)
    | extract_lets +onlyGivenNames x
    | with_reducible exact h
    | with_reducible apply State.cancelEpochs_keeps
    | with_reducible apply State.switchNow_keeps
    | with_reducible refine Keeps.ite (fun _ => ?_) (fun _ => ?_)
    | with_reducible assumption
    | with_reducible refine Keeps.record rfl rfl rfl rfl ?_

theorem State.fallbackReasons_keeps {s0 : State} {s} (h : Keeps s0 s) : Keeps s0 (State.fallbackReasons s) := by
  unfold State.fallbackReasons
  repeat' first
    | (extract_lets +onlyGivenNames x; refine (fun hx => ?_) (?_ : Keeps s0 x); clear_value x; rotate_left; subst x)
    | extract_lets +onlyGivenNames x
    | with_reducible exact h
    | with_reducible apply State.setPwr_keeps
    | with_reducible apply State.dramLost_keeps
    | with_reducible apply State.safeSelect_keeps
    | with_reducible refine Keeps.ite (fun _ => ?_) (fun _ => ?_)
    | with_reducible assumption

theorem State.enterFallback_keeps {s0 : State} {s} (h : Keeps s0 s) : Keeps s0 (State.enterFallback s) := by
  unfold State.enterFallback
  repeat' first
    | (extract_lets +onlyGivenNames x; refine (fun hx => ?_) (?_ : Keeps s0 x); clear_value x; rotate_left; subst x)
    | extract_lets +onlyGivenNames x
    | with_reducible exact h
    | with_reducible apply State.both_keeps
    | with_reducible apply State.setPwr_keeps
    | with_reducible apply State.abortWait_keeps
    | with_reducible apply State.fallbackReasons_keeps
    | with_reducible apply wdogRestart_keeps
    | with_reducible apply State.stageStep_keeps
    | with_reducible refine Keeps.ite (fun _ => ?_) (fun _ => ?_)
    | with_reducible assumption

theorem State.modeDone_keeps {s0 : State} {s} (h : Keeps s0 s) : Keeps s0 (State.modeDone s) := by
  unfold State.modeDone
  repeat' first
    | extract_lets +onlyGivenNames x
    | with_reducible exact h
    | with_reducible apply State.boundaryEnd_keeps
    | with_reducible refine Keeps.ite (fun _ => ?_) (fun _ => ?_)

theorem dormantEntry_keeps {s0 : State} {s} (h : Keeps s0 s) : Keeps s0 (dormantEntry s) := by
  unfold dormantEntry
  repeat' first
    | extract_lets +onlyGivenNames x
    | with_reducible exact h
    | with_reducible apply State.enterDormant_keeps
    | with_reducible apply State.boundaryEnd_keeps
    | with_reducible apply State.setPwr_keeps
    | with_reducible refine Keeps.ite (fun _ => ?_) (fun _ => ?_)
    | split
    | with_reducible refine Keeps.record rfl rfl rfl rfl ?_

theorem fallbackEntry_keeps {s0 : State} {s} (h : Keeps s0 s) : Keeps s0 (fallbackEntry s) := by
  unfold fallbackEntry
  repeat' first
    | extract_lets +onlyGivenNames x
    | with_reducible exact h
    | with_reducible apply State.modeDone_keeps
    | with_reducible apply State.enterFallback_keeps
    | with_reducible refine Keeps.ite (fun _ => ?_) (fun _ => ?_)

theorem mediaCfg_keeps {s0 : State} {taken} {v} {s} (h : Keeps s0 s) : Keeps s0 (mediaCfg taken v s) := by
  unfold mediaCfg
  repeat' first
    | (extract_lets +onlyGivenNames x; refine (fun hx => ?_) (?_ : Keeps s0 x); clear_value x; rotate_left; subst x)
    | extract_lets +onlyGivenNames x
    | with_reducible exact h
    | with_reducible apply State.setReg_keeps
    | with_reducible apply State.checkHold_keeps
    | with_reducible apply State.setMedia_keeps
    | with_reducible refine Keeps.ite (fun _ => ?_) (fun _ => ?_)
    | with_reducible assumption

theorem modeChange_keeps {s0 : State} {s} (h : Keeps s0 s) : Keeps s0 (modeChange s) := by
  unfold modeChange
  repeat' first
    | (extract_lets +onlyGivenNames x; refine (fun hx => ?_) (?_ : Keeps s0 x); clear_value x; rotate_left; subst x)
    | extract_lets +onlyGivenNames x
    | with_reducible exact h
    | with_reducible apply State.abortWait_keeps
    | with_reducible apply State.setPwr_keeps
    | with_reducible apply State.modeDone_keeps
    | with_reducible apply State.beginStandby_keeps
    | with_reducible apply State.carryMode_keeps
    | with_reducible refine Keeps.ite (fun _ => ?_) (fun _ => ?_)
    | with_reducible assumption
    | split

theorem modeSet_keeps {s0 : State} {e} {c} {s} (h : Keeps s0 s) : Keeps s0 (modeSet e c s) := by
  unfold modeSet
  repeat' first
    | extract_lets +onlyGivenNames x
    | with_reducible exact h
    | with_reducible apply State.complete_keeps
    | with_reducible apply State.carryMode_keeps
    | with_reducible apply State.setPwr_keeps
    | with_reducible refine Keeps.ite (fun _ => ?_) (fun _ => ?_)
    | split

theorem mscInvalidate_keeps {s0 : State} {s} (h : Keeps s0 s) : Keeps s0 (mscInvalidate s) := by
  unfold mscInvalidate
  repeat' first
    | (extract_lets +onlyGivenNames x; refine (fun hx => ?_) (?_ : Keeps s0 x); clear_value x; rotate_left; subst x)
    | extract_lets +onlyGivenNames x
    | with_reducible exact h
    | with_reducible apply State.stopTasks_keeps
    | with_reducible apply State.abortModes_keeps
    | with_reducible apply State.abortTimed_keeps
    | with_reducible apply State.cancelEpochs_keeps
    | with_reducible apply State.captureAbort_keeps
    | with_reducible apply State.replayEnd_keeps
    | with_reducible apply State.clockless_keeps
    | with_reducible apply State.discardAll_keeps
    | with_reducible apply State.pipeEmpty_keeps
    | with_reducible apply State.settleTasks_keeps
    | with_reducible apply State.applyAll_keeps
    | with_reducible apply State.chainDiscard_keeps
    | with_reducible apply State.flowsEmpty_keeps
    | with_reducible apply State.serialStop_keeps
    | with_reducible apply State.boundaryEnd_keeps
    | with_reducible apply State.setMedia_keeps
    | with_reducible refine Keeps.ite (fun _ => ?_) (fun _ => ?_)
    | with_reducible assumption
    | with_reducible refine Keeps.record rfl rfl rfl rfl ?_

theorem mscValidate_keeps {s0 : State} {s} (h : Keeps s0 s) : Keeps s0 (mscValidate s) := by
  unfold mscValidate
  repeat' first
    | (extract_lets +onlyGivenNames x; refine (fun hx => ?_) (?_ : Keeps s0 x); clear_value x; rotate_left; subst x)
    | extract_lets +onlyGivenNames x
    | with_reducible exact h
    | with_reducible apply State.setMedia_keeps
    | with_reducible apply State.flowsStart_keeps
    | with_reducible apply State.serialStart_keeps
    | with_reducible apply State.pipeStart_keeps
    | with_reducible refine Keeps.ite (fun _ => ?_) (fun _ => ?_)
    | with_reducible assumption
    | with_reducible refine Keeps.record rfl rfl rfl rfl ?_

theorem standbyEntry_keeps {s0 : State} {s} (h : Keeps s0 s) : Keeps s0 (standbyEntry s) := by
  unfold standbyEntry
  repeat' first
    | extract_lets +onlyGivenNames x
    | with_reducible exact h
    | with_reducible apply State.modeDone_keeps
    | with_reducible apply State.enterStandby_keeps
    | with_reducible refine Keeps.ite (fun _ => ?_) (fun _ => ?_)
    | split

theorem standbyExit_keeps {s0 : State} {s} (h : Keeps s0 s) : Keeps s0 (standbyExit s) := by
  unfold standbyExit
  repeat' first
    | extract_lets +onlyGivenNames x
    | with_reducible exact h
    | with_reducible apply State.modeDone_keeps
    | with_reducible apply State.exitStandby_keeps
    | with_reducible apply State.setPwr_keeps
    | with_reducible refine Keeps.ite (fun _ => ?_) (fun _ => ?_)
    | split

theorem temperatureMeasure_keeps {s0 : State} {t} {s} (h : Keeps s0 s) : Keeps s0 (temperatureMeasure t s) := by
  unfold temperatureMeasure
  repeat' first
    | extract_lets +onlyGivenNames x
    | with_reducible exact h
    | with_reducible apply State.setPwr_keeps
    | with_reducible refine Keeps.ite (fun _ => ?_) (fun _ => ?_)

theorem thermStep_keeps {s0 : State} {k} {s} (h : Keeps s0 s) : Keeps s0 (thermStep k s) := by
  unfold thermStep
  repeat' first
    | (extract_lets +onlyGivenNames x; refine (fun hx => ?_) (?_ : Keeps s0 x); clear_value x; rotate_left; subst x)
    | extract_lets +onlyGivenNames x
    | with_reducible exact h
    | with_reducible apply State.setPwr_keeps
    | with_reducible apply State.evt_keeps
    | with_reducible apply State.count_keeps
    | with_reducible refine Keeps.ite (fun _ => ?_) (fun _ => ?_)
    | with_reducible assumption

theorem thermalEmergency_keeps {s0 : State} {s} (h : Keeps s0 s) : Keeps s0 (thermalEmergency s) := by
  unfold thermalEmergency
  repeat' first
    | extract_lets +onlyGivenNames x
    | with_reducible exact h
    | with_reducible apply State.setPwr_keeps
    | with_reducible refine Keeps.ite (fun _ => ?_) (fun _ => ?_)

/-! ### Bells -/

theorem State.bellNotify_keeps {s0 : State} {s} {stream} {id} {b} (h : Keeps s0 s) : Keeps s0 (State.bellNotify s stream id b) := by
  unfold State.bellNotify
  repeat' first
    | (extract_lets +onlyGivenNames x; refine (fun hx => ?_) (?_ : Keeps s0 x); clear_value x; rotate_left; subst x)
    | extract_lets +onlyGivenNames x
    | with_reducible exact h
    | with_reducible apply State.fx_keeps
    | with_reducible apply State.evt_keeps
    | with_reducible apply State.raiseVec_keeps
    | with_reducible refine Keeps.ite (fun _ => ?_) (fun _ => ?_)
    | with_reducible assumption

theorem bellRing_keeps {s0 : State} {stream} {id} {s} (h : Keeps s0 s) : Keeps s0 (bellRing stream id s) := by
  unfold bellRing
  repeat' first
    | (extract_lets +onlyGivenNames x; refine (fun hx => ?_) (?_ : Keeps s0 x); clear_value x; rotate_left; subst x)
    | extract_lets +onlyGivenNames x
    | with_reducible exact h
    | with_reducible apply State.bellOver_keeps
    | with_reducible apply State.both_keeps
    | with_reducible apply State.bellNotify_keeps
    | with_reducible apply State.applyPost_keeps
    | with_reducible apply State.hold_keeps
    | with_reducible apply dmaDoorbell_keeps
    | with_reducible apply State.strobeMask_keeps
    | with_reducible apply State.modeDone_keeps
    | with_reducible refine Keeps.ite (fun _ => ?_) (fun _ => ?_)
    | with_reducible assumption
    | split

theorem sapEnableAct_keeps {s0 : State} {isPort} {i} {s} (h : Keeps s0 s) : Keeps s0 (sapEnableAct isPort i s) := by
  unfold sapEnableAct
  repeat' first
    | extract_lets +onlyGivenNames x
    | with_reducible exact h
    | with_reducible apply State.portActs_keeps
    | with_reducible apply State.modeDone_keeps
    | with_reducible apply State.startGroup_keeps
    | with_reducible apply State.stopGroup_keeps
    | with_reducible refine Keeps.ite (fun _ => ?_) (fun _ => ?_)
    | split

/-! ### Desk -/

theorem State.haltAt_keeps {s0 : State} {s} {d} {k} (h : Keeps s0 s) : Keeps s0 (State.haltAt s d k) := by
  unfold State.haltAt
  repeat' first
    | extract_lets +onlyGivenNames x
    | with_reducible exact h
    | with_reducible apply State.evt_keeps
    | with_reducible apply State.setDesk_keeps

theorem State.xferWaited_keeps {s0 : State} {s} {d} (h : Keeps s0 s) : Keeps s0 (State.xferWaited s d) := by
  unfold State.xferWaited
  repeat' first
    | (extract_lets +onlyGivenNames x; refine (fun hx => ?_) (?_ : Keeps s0 x.2); clear_value x; rotate_left; subst x)
    | extract_lets +onlyGivenNames x
    | with_reducible exact h
    | with_reducible apply State.draw_keeps
    | with_reducible apply State.setDesk_keeps
    | with_reducible refine Keeps.ite (fun _ => ?_) (fun _ => ?_)
    | with_reducible assumption

theorem State.xferMove_keeps {s0 : State} {s} {d} {words} (h : Keeps s0 s) : Keeps s0 (State.xferMove s d words) := by
  unfold State.xferMove
  repeat' first
    | (extract_lets +onlyGivenNames x; refine (fun hx => ?_) (?_ : Keeps s0 x); clear_value x; rotate_left; subst x)
    | extract_lets +onlyGivenNames x
    | with_reducible exact h
    | with_reducible apply State.dramWrite_keeps
    | with_reducible apply State.setDesk_keeps
    | with_reducible refine Keeps.ite (fun _ => ?_) (fun _ => ?_)
    | with_reducible refine Keeps.foldl (fun _ _ _ => ?_) ?_
    | with_reducible assumption
    | split

theorem State.xferSome_keeps {s0 : State} {s} {d} (h : Keeps s0 s) : Keeps s0 (State.xferSome s d) := by
  unfold State.xferSome
  repeat' first
    | (extract_lets +onlyGivenNames x; refine (fun hx => ?_) (?_ : Keeps s0 x.2); clear_value x; rotate_left; subst x)
    | extract_lets +onlyGivenNames x
    | with_reducible exact h
    | with_reducible apply State.draw_keeps
    | with_reducible apply State.xferMove_keeps
    | with_reducible assumption
    | split

theorem State.deskNext_keeps {s0 : State} {s} {d} {k} (h : Keeps s0 s) : Keeps s0 (State.deskNext s d k) := by
  unfold State.deskNext
  repeat' first
    | extract_lets +onlyGivenNames x
    | with_reducible exact h
    | with_reducible apply State.setDesk_keeps
    | with_reducible apply State.deskFault_keeps
    | split

theorem State.deskRepeat_keeps {s0 : State} {s} {d} {op} {r} {w} {n} (h : Keeps s0 s) : Keeps s0 (State.deskRepeat s d op r w n) := by
  unfold State.deskRepeat
  repeat' first
    | (extract_lets +onlyGivenNames x; refine (fun hx => ?_) (?_ : Keeps s0 x); clear_value x; rotate_left; subst x)
    | extract_lets +onlyGivenNames x
    | with_reducible exact h
    | with_reducible apply State.count_keeps
    | with_reducible apply State.deskNext_keeps
    | with_reducible apply State.deskFault_keeps
    | with_reducible apply State.setDesk_keeps
    | with_reducible refine Keeps.ite (fun _ => ?_) (fun _ => ?_)
    | with_reducible assumption
    | split

theorem State.deskSignal_keeps {s0 : State} {s} {d} {k} {t} {mask} (h : Keeps s0 s) : Keeps s0 (State.deskSignal s d k t mask) := by
  unfold State.deskSignal
  repeat' first
    | extract_lets +onlyGivenNames x
    | with_reducible exact h
    | with_reducible apply State.deskNext_keeps
    | with_reducible apply State.applyPost_keeps
    | with_reducible apply State.count_keeps
    | with_reducible apply State.hold_keeps
    | with_reducible apply State.setDesk_keeps
    | with_reducible refine Keeps.ite (fun _ => ?_) (fun _ => ?_)

theorem deskExec_keeps {s0 s : State} {n d op : Nat} {w : DeskBits} (h : Keeps s0 s) : Keeps s0 (deskExec n d op w s) := by
  induction n generalizing s op w with
  | zero => exact h
  | succ n ih =>
    unfold deskExec
    repeat' first
      | (extract_lets +onlyGivenNames x; refine (fun hx => ?_) (?_ : Keeps s0 x); clear_value x; rotate_left; subst x)
      | extract_lets +onlyGivenNames x
      | with_reducible exact h
      | with_reducible apply ih
      | with_reducible apply State.deskFault_keeps
      | with_reducible apply State.xferWaited_keeps
      | with_reducible apply State.xferSome_keeps
      | with_reducible apply State.deskRepeat_keeps
      | with_reducible apply State.deskNext_keeps
      | with_reducible apply State.count_keeps
      | with_reducible apply State.setDesk_keeps
      | with_reducible apply State.haltAt_keeps
      | with_reducible apply State.retireTask_keeps
      | with_reducible apply State.deskSignal_keeps
      | with_reducible refine Keeps.ite (fun _ => ?_) (fun _ => ?_)
      | with_reducible assumption
      | split

theorem State.deskIssue_keeps {s0 : State} {s} {d} {op} {w} (h : Keeps s0 s) : Keeps s0 (State.deskIssue s d op w) := by
  unfold State.deskIssue
  repeat' first
    | extract_lets +onlyGivenNames x
    | with_reducible exact h
    | with_reducible apply State.runLimit_keeps
    | with_reducible apply deskExec_keeps
    | with_reducible refine Keeps.ite (fun _ => ?_) (fun _ => ?_)

theorem State.deskInstr_keeps {s0 : State} {s} {d} {op} {w} (h : Keeps s0 s) : Keeps s0 (State.deskInstr s d op w) := by
  unfold State.deskInstr
  repeat' first
    | extract_lets +onlyGivenNames x
    | with_reducible exact h
    | with_reducible apply State.haltAt_keeps
    | with_reducible apply State.deskIssue_keeps
    | with_reducible refine Keeps.ite (fun _ => ?_) (fun _ => ?_)

theorem State.stepIssue_keeps {s0 : State} {s} {d} (h : Keeps s0 s) : Keeps s0 (State.stepIssue s d) := by
  unfold State.stepIssue
  repeat' first
    | (extract_lets +onlyGivenNames x; refine (fun hx => ?_) (?_ : Keeps s0 x); clear_value x; rotate_left; subst x)
    | extract_lets +onlyGivenNames x
    | with_reducible exact h
    | with_reducible apply State.runLimit_keeps
    | with_reducible apply deskExec_keeps
    | with_reducible apply State.setDesk_keeps
    | with_reducible assumption

theorem deskCfg_keeps {s0 : State} {d} {v} {s} (h : Keeps s0 s) : Keeps s0 (deskCfg d v s) := by
  unfold deskCfg
  repeat' first
    | (extract_lets +onlyGivenNames x; refine (fun hx => ?_) (?_ : Keeps s0 x); clear_value x; rotate_left; subst x)
    | extract_lets +onlyGivenNames x
    | with_reducible exact h
    | with_reducible apply State.setDesk_keeps
    | with_reducible apply State.evt_keeps
    | with_reducible refine Keeps.ite (fun _ => ?_) (fun _ => ?_)
    | with_reducible assumption

theorem deskClear_keeps {s0 : State} {d} {s} (h : Keeps s0 s) : Keeps s0 (deskClear d s) := by
  unfold deskClear
  repeat' first
    | extract_lets +onlyGivenNames x
    | with_reducible exact h
    | with_reducible apply State.setDesk_keeps
    | with_reducible refine Keeps.ite (fun _ => ?_) (fun _ => ?_)

theorem deskHalt_keeps {s0 : State} {d} {s} (h : Keeps s0 s) : Keeps s0 (deskHalt d s) := by
  unfold deskHalt
  repeat' first
    | extract_lets +onlyGivenNames x
    | with_reducible exact h
    | with_reducible apply State.setDesk_keeps
    | with_reducible refine Keeps.ite (fun _ => ?_) (fun _ => ?_)

theorem deskRun_keeps {s0 : State} {d} {s} (h : Keeps s0 s) : Keeps s0 (deskRun d s) := by
  unfold deskRun
  repeat' first
    | extract_lets +onlyGivenNames x
    | with_reducible exact h
    | with_reducible apply State.setDesk_keeps
    | with_reducible refine Keeps.ite (fun _ => ?_) (fun _ => ?_)

theorem deskStepOne_keeps {s0 : State} {d} {s} (h : Keeps s0 s) : Keeps s0 (deskStepOne d s) := by
  unfold deskStepOne
  repeat' first
    | extract_lets +onlyGivenNames x
    | with_reducible exact h
    | with_reducible apply State.stepIssue_keeps
    | with_reducible refine Keeps.ite (fun _ => ?_) (fun _ => ?_)

theorem deskCtl_keeps {s0 : State} {d} {v} {s} (h : Keeps s0 s) : Keeps s0 (deskCtl d v s) := by
  unfold deskCtl
  repeat' first
    | extract_lets +onlyGivenNames x
    | with_reducible exact h
    | with_reducible apply deskHalt_keeps
    | with_reducible apply deskRun_keeps
    | with_reducible apply deskStepOne_keeps
    | with_reducible apply deskClear_keeps
    | with_reducible refine Keeps.ite (fun _ => ?_) (fun _ => ?_)

theorem deskDbg_keeps {s0 : State} {d} {v} {s} (h : Keeps s0 s) : Keeps s0 (deskDbg d v s) := by
  unfold deskDbg
  repeat' first
    | extract_lets +onlyGivenNames x
    | with_reducible exact h
    | with_reducible apply State.setDesk_keeps
    | with_reducible refine Keeps.ite (fun _ => ?_) (fun _ => ?_)

theorem deskPc_keeps {s0 : State} {d} {v} {s} (h : Keeps s0 s) : Keeps s0 (deskPc d v s) := by
  unfold deskPc
  repeat' first
    | extract_lets +onlyGivenNames x
    | with_reducible exact h
    | with_reducible apply State.setDesk_keeps
    | with_reducible refine Keeps.ite (fun _ => ?_) (fun _ => ?_)

theorem xferComplete_keeps {s0 : State} {d} {bad} {s} (h : Keeps s0 s) : Keeps s0 (xferComplete d bad s) := by
  unfold xferComplete
  repeat' first
    | (extract_lets +onlyGivenNames x; refine (fun hx => ?_) (?_ : Keeps s0 x); clear_value x; rotate_left; subst x)
    | extract_lets +onlyGivenNames x
    | with_reducible exact h
    | with_reducible apply State.xferMove_keeps
    | with_reducible apply State.setDesk_keeps
    | with_reducible apply State.evt_keeps
    | with_reducible apply State.count_keeps
    | with_reducible apply State.stepIssue_keeps
    | with_reducible refine Keeps.ite (fun _ => ?_) (fun _ => ?_)
    | with_reducible assumption
    | split

/-! ### RegRead -/

theorem State.answered_keeps {s0 : State} {s} {m} {v} (h : Keeps s0 s) : Keeps s0 (State.answered s m v) := by
  unfold State.answered
  repeat' first
    | extract_lets +onlyGivenNames x
    | with_reducible exact h
    | with_reducible refine Keeps.ite (fun _ => ?_) (fun _ => ?_)
    | with_reducible refine Keeps.record rfl rfl rfl rfl ?_

theorem clearRead_keeps {s0 : State} {off} {s} (h : Keeps s0 s) : Keeps s0 (clearRead off s) := by
  unfold clearRead
  repeat' first
    | extract_lets +onlyGivenNames x
    | with_reducible exact h
    | with_reducible apply State.setPwr_keeps
    | with_reducible apply State.setReg_keeps
    | with_reducible apply State.setMemory_keeps
    | with_reducible apply State.setCloak_keeps
    | with_reducible refine Keeps.ite (fun _ => ?_) (fun _ => ?_)
    | with_reducible rfl
    | split
    | with_reducible refine Keeps.record rfl rfl rfl rfl ?_

theorem lowRead_keeps {s0 : State} {m} {off} {s} (h : Keeps s0 s) : Keeps s0 (lowRead m off s).2 := by
  unfold lowRead
  repeat' first
    | extract_lets +onlyGivenNames x
    | with_reducible exact h
    | with_reducible refine Keeps.record rfl rfl rfl rfl ?_

theorem readReg_keeps {s0 : State} {m} {off} {s} (h : Keeps s0 s) : Keeps s0 (readReg m off s).2 := by
  unfold readReg
  repeat' first
    | extract_lets +onlyGivenNames x
    | with_reducible exact h
    | with_reducible apply lowRead_keeps
    | with_reducible apply clearRead_keeps
    | split

/-! ### Board -/

theorem State.setJtag_keeps {s0 : State} {s} {j} (h : Keeps s0 s) : Keeps s0 (State.setJtag s j) := by
  unfold State.setJtag
  repeat' first
    | extract_lets +onlyGivenNames x
    | with_reducible exact h
    | with_reducible apply State.setPwr_keeps

theorem State.jtagRun_keeps {s0 : State} {s} {k} (h : Keeps s0 s) : Keeps s0 (State.jtagRun s k) := by
  unfold State.jtagRun
  repeat' first
    | extract_lets +onlyGivenNames x
    | with_reducible exact h
    | with_reducible apply State.setJtag_keeps
    | with_reducible refine Keeps.ite (fun _ => ?_) (fun _ => ?_)

theorem State.smbAnswer_keeps {s0 : State} {s} {r} (h : Keeps s0 s) : Keeps s0 (State.smbAnswer s r) := by
  unfold State.smbAnswer
  repeat' first
    | extract_lets +onlyGivenNames x
    | with_reducible exact h
    | with_reducible apply State.setPwr_keeps

theorem alertResponse_keeps {s0 : State} {changed} {s} (h : Keeps s0 s) : Keeps s0 (alertResponse changed s) := by
  unfold alertResponse
  repeat' first
    | extract_lets +onlyGivenNames x
    | with_reducible exact h
    | with_reducible apply State.setPwr_keeps
    | with_reducible refine Keeps.ite (fun _ => ?_) (fun _ => ?_)

theorem jtagTrst_keeps {s0 : State} {low} {s} (h : Keeps s0 s) : Keeps s0 (jtagTrst low s) := by
  unfold jtagTrst
  repeat' first
    | extract_lets +onlyGivenNames x
    | with_reducible exact h
    | with_reducible apply State.setJtag_keeps

theorem smbTemperature_keeps {s0 : State} {s} (h : Keeps s0 s) : Keeps s0 (smbTemperature s) := by
  unfold smbTemperature
  repeat' first
    | (extract_lets +onlyGivenNames x; refine (fun hx => ?_) (?_ : Keeps s0 x.2); clear_value x; rotate_left; subst x)
    | extract_lets +onlyGivenNames x
    | with_reducible exact h
    | with_reducible apply State.draw_keeps
    | with_reducible apply State.smbAnswer_keeps
    | with_reducible refine Keeps.ite (fun _ => ?_) (fun _ => ?_)
    | with_reducible assumption

/-! ### Reset -/

theorem State.resetMain_keeps {s0 s : State} {keep : Bool} {cause : Nat} (h : Keeps s0 s) : Keeps s0 (s.resetMain keep cause) := by
  refine h.trans ⟨rfl, fun x => ⟨⟨x.1.1, ?_, rfl⟩, fun p hp => by cases hp⟩⟩
  cases keep
  · rfl
  · exact x.1.2.1

theorem State.beginBoot_keeps {s0 : State} {s} {straps} (h : Keeps s0 s) : Keeps s0 (State.beginBoot s straps) := by
  unfold State.beginBoot
  repeat' first
    | (extract_lets +onlyGivenNames x; refine (fun hx => ?_) (?_ : Keeps s0 x); clear_value x; rotate_left; subst x)
    | extract_lets +onlyGivenNames x
    | with_reducible exact h
    | with_reducible apply State.resetMain_keeps
    | with_reducible apply State.setPwr_keeps
    | with_reducible refine Keeps.ite (fun _ => ?_) (fun _ => ?_)
    | with_reducible assumption

theorem State.setAttic_keeps {s0 : State} {s} {a} (h : Keeps s0 s) : Keeps s0 (State.setAttic s a) := by
  unfold State.setAttic
  repeat' first
    | extract_lets +onlyGivenNames x
    | with_reducible exact h
    | with_reducible apply State.setPwr_keeps

theorem State.setFuses_keeps {s0 : State} {s} {f} (h : Keeps s0 s) : Keeps s0 (State.setFuses s f) := by
  unfold State.setFuses
  repeat' first
    | extract_lets +onlyGivenNames x
    | with_reducible exact h
    | with_reducible apply State.setPwr_keeps

theorem atticSelfBoot_keeps {s0 : State} {straps} {s} (h : Keeps s0 s) : Keeps s0 (atticSelfBoot straps s) := by
  unfold atticSelfBoot
  repeat' first
    | extract_lets +onlyGivenNames x
    | with_reducible exact h
    | with_reducible apply State.beginBoot_keeps
    | with_reducible refine Keeps.ite (fun _ => ?_) (fun _ => ?_)

theorem atticWrite_keeps {s0 : State} {off} {v} {s} (h : Keeps s0 s) : Keeps s0 (atticWrite off v s) := by
  unfold atticWrite
  repeat' first
    | extract_lets +onlyGivenNames x
    | with_reducible exact h
    | with_reducible apply State.setAttic_keeps
    | with_reducible refine Keeps.ite (fun _ => ?_) (fun _ => ?_)

theorem comparatorFire_keeps {s0 : State} {k} {s} (h : Keeps s0 s) : Keeps s0 (comparatorFire k s) := by
  unfold comparatorFire
  repeat' first
    | (extract_lets +onlyGivenNames x; refine (fun hx => ?_) (?_ : Keeps s0 x); clear_value x; rotate_left; subst x)
    | extract_lets +onlyGivenNames x
    | with_reducible exact h
    | with_reducible apply State.setAttic_keeps
    | with_reducible apply State.evt_keeps
    | with_reducible refine Keeps.ite (fun _ => ?_) (fun _ => ?_)
    | with_reducible assumption

theorem fuseBurnEnd_keeps {s0 : State} {ok} {s} (h : Keeps s0 s) : Keeps s0 (fuseBurnEnd ok s) := by
  unfold fuseBurnEnd
  repeat' first
    | extract_lets +onlyGivenNames x
    | with_reducible exact h
    | with_reducible apply State.setFuses_keeps
    | with_reducible refine Keeps.ite (fun _ => ?_) (fun _ => ?_)
    | split

theorem fuseCmd_keeps {s0 : State} {op} {key} {s} (h : Keeps s0 s) : Keeps s0 (fuseCmd op key s) := by
  unfold fuseCmd
  repeat' first
    | extract_lets +onlyGivenNames x
    | with_reducible exact h
    | with_reducible apply State.setFuses_keeps
    | with_reducible refine Keeps.ite (fun _ => ?_) (fun _ => ?_)

theorem mainRailDrop_keeps {s0 : State} {s} (h : Keeps s0 s) : Keeps s0 (mainRailDrop s) := by
  unfold mainRailDrop
  repeat' first
    | (extract_lets +onlyGivenNames x; refine (fun hx => ?_) (?_ : Keeps s0 x); clear_value x; rotate_left; subst x)
    | extract_lets +onlyGivenNames x
    | with_reducible exact h
    | with_reducible apply State.resetMain_keeps
    | with_reducible apply State.setPwr_keeps
    | with_reducible refine Keeps.ite (fun _ => ?_) (fun _ => ?_)
    | with_reducible assumption

theorem mainRailReturn_keeps {s0 : State} {s} (h : Keeps s0 s) : Keeps s0 (mainRailReturn s) := by
  unfold mainRailReturn
  repeat' first
    | extract_lets +onlyGivenNames x
    | with_reducible exact h
    | with_reducible apply State.setPwr_keeps
    | with_reducible refine Keeps.ite (fun _ => ?_) (fun _ => ?_)

theorem resetNAssert_keeps {s0 : State} {s} (h : Keeps s0 s) : Keeps s0 (resetNAssert s) := by
  unfold resetNAssert
  repeat' first
    | (extract_lets +onlyGivenNames x; refine (fun hx => ?_) (?_ : Keeps s0 x); clear_value x; rotate_left; subst x)
    | extract_lets +onlyGivenNames x
    | with_reducible exact h
    | with_reducible apply State.resetMain_keeps
    | with_reducible apply State.setPwr_keeps
    | with_reducible refine Keeps.ite (fun _ => ?_) (fun _ => ?_)
    | with_reducible assumption

theorem resetRelease_keeps {s0 : State} {straps} {s} (h : Keeps s0 s) : Keeps s0 (resetRelease straps s) := by
  unfold resetRelease
  repeat' first
    | extract_lets +onlyGivenNames x
    | with_reducible exact h
    | with_reducible apply State.beginBoot_keeps
    | with_reducible refine Keeps.ite (fun _ => ?_) (fun _ => ?_)

theorem softReset_keeps {s0 : State} {key} {soft} {s} (h : Keeps s0 s) : Keeps s0 (softReset key soft s) := by
  unfold softReset
  repeat' first
    | extract_lets +onlyGivenNames x
    | with_reducible exact h
    | with_reducible apply State.resetMain_keeps
    | with_reducible refine Keeps.ite (fun _ => ?_) (fun _ => ?_)

theorem vddAtticDrop_keeps {s0 : State} {s} (h : Keeps s0 s) : Keeps s0 (vddAtticDrop s) := by
  unfold vddAtticDrop
  repeat' first
    | (extract_lets +onlyGivenNames x; refine (fun hx => ?_) (?_ : Keeps s0 x); clear_value x; rotate_left; subst x)
    | extract_lets +onlyGivenNames x
    | with_reducible exact h
    | with_reducible apply State.resetMain_keeps
    | with_reducible apply State.setPwr_keeps
    | with_reducible assumption

theorem vddAtticRise_keeps {s0 : State} {s} (h : Keeps s0 s) : Keeps s0 (vddAtticRise s) := by
  unfold vddAtticRise
  repeat' first
    | (extract_lets +onlyGivenNames x; refine (fun hx => ?_) (?_ : Keeps s0 x); clear_value x; rotate_left; subst x)
    | extract_lets +onlyGivenNames x
    | with_reducible exact h
    | with_reducible apply State.resetMain_keeps
    | with_reducible apply State.setPwr_keeps
    | with_reducible refine Keeps.ite (fun _ => ?_) (fun _ => ?_)
    | with_reducible assumption

theorem wake_keeps {s0 : State} {src} {s} (h : Keeps s0 s) : Keeps s0 (wake src s) := by
  unfold wake
  repeat' first
    | extract_lets +onlyGivenNames x
    | with_reducible exact h
    | with_reducible apply State.setPwr_keeps
    | with_reducible refine Keeps.ite (fun _ => ?_) (fun _ => ?_)

theorem wakeSecWrite_keeps {s0 : State} {v} {s} (h : Keeps s0 s) : Keeps s0 (wakeSecWrite v s) := by
  unfold wakeSecWrite
  repeat' first
    | extract_lets +onlyGivenNames x
    | with_reducible exact h
    | with_reducible apply State.setAttic_keeps

theorem xtalFault_keeps {s0 : State} {s} (h : Keeps s0 s) : Keeps s0 (xtalFault s) := by
  unfold xtalFault
  repeat' first
    | (extract_lets +onlyGivenNames x; refine (fun hx => ?_) (?_ : Keeps s0 x); clear_value x; rotate_left; subst x)
    | extract_lets +onlyGivenNames x
    | with_reducible exact h
    | with_reducible apply State.resetMain_keeps
    | with_reducible apply State.setPwr_keeps
    | with_reducible refine Keeps.ite (fun _ => ?_) (fun _ => ?_)
    | with_reducible assumption

/-! ### RegWrite -/

theorem State.setRegs_keeps {s0 : State} {s} {l} (h : Keeps s0 s) : Keeps s0 (State.setRegs s l) := by
  unfold State.setRegs
  repeat' first
    | extract_lets +onlyGivenNames x
    | with_reducible exact h
    | with_reducible apply State.setReg_keeps
    | with_reducible refine Keeps.foldl (fun _ _ _ => ?_) ?_
    | with_reducible assumption

theorem dmaNextPcHigh_keeps {s0 : State} {c} {m} {hi} {same} {s} (h : Keeps s0 s) : Keeps s0 (dmaNextPcHigh c m hi same s) := by
  unfold dmaNextPcHigh
  repeat' first
    | extract_lets +onlyGivenNames x
    | with_reducible exact h
    | with_reducible apply dmaNextPc_keeps

theorem dskTaskSel_keeps {s0 : State} {v} {s} (h : Keeps s0 s) : Keeps s0 (dskTaskSel v s) := by
  unfold dskTaskSel
  repeat' first
    | extract_lets +onlyGivenNames x
    | with_reducible exact h
    | with_reducible apply State.setRegs_keeps
    | split

theorem enableWrite_keeps {s0 : State} {off} {v} {s} (h : Keeps s0 s) : Keeps s0 (enableWrite off v s) := by
  unfold enableWrite
  repeat' first
    | extract_lets +onlyGivenNames x
    | with_reducible exact h
    | with_reducible apply State.arm_keeps
    | with_reducible apply State.setReg_keeps
    | with_reducible refine Keeps.foldl (fun _ _ _ => ?_) ?_
    | with_reducible assumption
    | split

theorem geoLkSel_keeps {s0 : State} {v} {s} (h : Keeps s0 s) : Keeps s0 (geoLkSel v s) := by
  unfold geoLkSel
  repeat' first
    | extract_lets +onlyGivenNames x
    | with_reducible exact h
    | with_reducible apply State.setRegs_keeps

theorem pairStore_keeps {s0 : State} {lo} {v} {s} (h : Keeps s0 s) : Keeps s0 (pairStore lo v s) := by
  unfold pairStore
  repeat' first
    | extract_lets +onlyGivenNames x
    | with_reducible exact h
    | with_reducible apply wakeSecWrite_keeps
    | with_reducible apply tmbOriginWrite_keeps
    | with_reducible apply State.setSec_keeps
    | with_reducible apply writeRingBase_keeps
    | with_reducible apply State.setDch_keeps
    | with_reducible apply dmaNextPc_keeps
    | with_reducible apply State.setRegs_keeps
    | with_reducible refine Keeps.ite (fun _ => ?_) (fun _ => ?_)
    | split

theorem highWrite_keeps {s0 : State} {m} {hiOff} {v} {s} (h : Keeps s0 s) : Keeps s0 (highWrite m hiOff v s) := by
  unfold highWrite
  repeat' first
    | extract_lets +onlyGivenNames x
    | with_reducible exact h
    | with_reducible apply pairStore_keeps

theorem lowWrite_keeps {s0 : State} {m} {off} {v} {s} (h : Keeps s0 s) : Keeps s0 (lowWrite m off v s) := by
  unfold lowWrite
  repeat' first
    | extract_lets +onlyGivenNames x
    | with_reducible exact h
    | with_reducible refine Keeps.record rfl rfl rfl rfl ?_

theorem store_keeps {s0 : State} {off} {v} {s} (h : Keeps s0 s) : Keeps s0 (store off v s) := by
  unfold store
  repeat' first
    | extract_lets +onlyGivenNames x
    | with_reducible exact h
    | with_reducible apply State.setReg_keeps
    | with_reducible refine Keeps.ite (fun _ => ?_) (fun _ => ?_)
    | split

theorem netCfg_keeps {s0 : State} {n} {v} {s} (h : Keeps s0 s) : Keeps s0 (netCfg n v s) := by
  unfold netCfg
  repeat' first
    | (extract_lets +onlyGivenNames x; refine (fun hx => ?_) (?_ : Keeps s0 x); clear_value x; rotate_left; subst x)
    | extract_lets +onlyGivenNames x
    | with_reducible exact h
    | with_reducible apply store_keeps
    | with_reducible apply State.setNetPort_keeps
    | with_reducible apply netLinkChange_keeps
    | with_reducible refine Keeps.ite (fun _ => ?_) (fun _ => ?_)
    | with_reducible assumption

theorem netFlSel_keeps {s0 : State} {v} {s} (h : Keeps s0 s) : Keeps s0 (netFlSel v s) := by
  unfold netFlSel
  repeat' first
    | extract_lets +onlyGivenNames x
    | with_reducible exact h
    | with_reducible apply State.setRegs_keeps

theorem ntkCfg_keeps {s0 : State} {n} {v} {s} (h : Keeps s0 s) : Keeps s0 (ntkCfg n v s) := by
  unfold ntkCfg
  repeat' first
    | (extract_lets +onlyGivenNames x; refine (fun hx => ?_) (?_ : Keeps s0 x); clear_value x; rotate_left; subst x)
    | extract_lets +onlyGivenNames x
    | with_reducible exact h
    | with_reducible apply store_keeps
    | with_reducible apply State.setLink_keeps
    | with_reducible apply State.auditDone_keeps
    | with_reducible apply State.linkDown_keeps
    | with_reducible refine Keeps.ite (fun _ => ?_) (fun _ => ?_)
    | with_reducible assumption

theorem objLkSel_keeps {s0 : State} {v} {s} (h : Keeps s0 s) : Keeps s0 (objLkSel v s) := by
  unfold objLkSel
  repeat' first
    | extract_lets +onlyGivenNames x
    | with_reducible exact h
    | with_reducible apply State.setRegs_keeps

theorem pthLkSel_keeps {s0 : State} {v} {s} (h : Keeps s0 s) : Keeps s0 (pthLkSel v s) := by
  unfold pthLkSel
  repeat' first
    | extract_lets +onlyGivenNames x
    | with_reducible exact h
    | with_reducible apply State.setRegs_keeps

theorem pthProbeSel_keeps {s0 : State} {v} {s} (h : Keeps s0 s) : Keeps s0 (pthProbeSel v s) := by
  unfold pthProbeSel
  repeat' first
    | (extract_lets +onlyGivenNames x; refine (fun hx => ?_) (?_ : Keeps s0 x); clear_value x; rotate_left; subst x)
    | extract_lets +onlyGivenNames x
    | with_reducible exact h
    | with_reducible apply State.setRegs_keeps
    | with_reducible assumption
    | with_reducible refine Keeps.record rfl rfl rfl rfl ?_

theorem spkFdSel_keeps {s0 : State} {v} {s} (h : Keeps s0 s) : Keeps s0 (spkFdSel v s) := by
  unfold spkFdSel
  repeat' first
    | extract_lets +onlyGivenNames x
    | with_reducible exact h
    | with_reducible apply State.setRegs_keeps

theorem sysLedgerSel_keeps {s0 : State} {v} {s} (h : Keeps s0 s) : Keeps s0 (sysLedgerSel v s) := by
  unfold sysLedgerSel
  repeat' first
    | extract_lets +onlyGivenNames x
    | with_reducible exact h
    | with_reducible apply State.setRegs_keeps

theorem w1c_keeps {s0 : State} {off} {v} {same} {s} (h : Keeps s0 s) : Keeps s0 (w1c off v same s) := by
  unfold w1c
  repeat' first
    | (extract_lets +onlyGivenNames x; refine (fun hx => ?_) (?_ : Keeps s0 x); clear_value x; rotate_left; subst x)
    | extract_lets +onlyGivenNames x
    | with_reducible exact h
    | with_reducible apply State.setReg_keeps
    | with_reducible apply State.arm_keeps
    | with_reducible refine Keeps.foldl (fun _ _ _ => ?_) ?_
    | with_reducible assumption
    | split

theorem writeDma_keeps {s0 : State} {off} {v} {s} (h : Keeps s0 s) : Keeps s0 (writeDma off v s) := by
  unfold writeDma
  repeat' first
    | (extract_lets +onlyGivenNames x; refine (fun hx => ?_) (?_ : Keeps s0 x); clear_value x; rotate_left; subst x)
    | extract_lets +onlyGivenNames x
    | with_reducible exact h
    | with_reducible apply dmaModeWrite_keeps
    | with_reducible apply dmaDoorbell_keeps
    | with_reducible apply dmaCtlAbort_keeps
    | with_reducible apply State.setDch_keeps
    | with_reducible apply store_keeps
    | with_reducible refine Keeps.ite (fun _ => ?_) (fun _ => ?_)
    | with_reducible assumption
    | split

theorem writeDsk_keeps {s0 : State} {off} {v} {s} (h : Keeps s0 s) : Keeps s0 (writeDsk off v s) := by
  unfold writeDsk
  repeat' first
    | extract_lets +onlyGivenNames x
    | with_reducible exact h
    | with_reducible apply dskTaskSel_keeps
    | with_reducible apply deskCfg_keeps
    | with_reducible apply deskCtl_keeps
    | with_reducible apply deskPc_keeps
    | with_reducible apply deskDbg_keeps
    | with_reducible apply store_keeps
    | with_reducible refine Keeps.ite (fun _ => ?_) (fun _ => ?_)
    | split

theorem writeHq_keeps {s0 : State} {off} {v} {s} (h : Keeps s0 s) : Keeps s0 (writeHq off v s) := by
  unfold writeHq
  repeat' first
    | extract_lets +onlyGivenNames x
    | with_reducible exact h
    | with_reducible apply setMask_keeps
    | with_reducible apply State.setReg_keeps
    | with_reducible apply wdogRestart_keeps
    | with_reducible apply writeQueueCtl_keeps
    | with_reducible apply store_keeps
    | with_reducible refine Keeps.ite (fun _ => ?_) (fun _ => ?_)
    | split

theorem writeNet_keeps {s0 : State} {off} {v} {s} (h : Keeps s0 s) : Keeps s0 (writeNet off v s) := by
  unfold writeNet
  repeat' first
    | extract_lets +onlyGivenNames x
    | with_reducible exact h
    | with_reducible apply netFlSel_keeps
    | with_reducible apply netTrsCfgWrite_keeps
    | with_reducible apply netCfg_keeps
    | with_reducible apply moduleI2cGo_keeps
    | with_reducible apply store_keeps
    | with_reducible refine Keeps.ite (fun _ => ?_) (fun _ => ?_)
    | split

theorem writeNtk_keeps {s0 : State} {off} {v} {s} (h : Keeps s0 s) : Keeps s0 (writeNtk off v s) := by
  unfold writeNtk
  repeat' first
    | extract_lets +onlyGivenNames x
    | with_reducible exact h
    | with_reducible apply ntkCfg_keeps
    | with_reducible apply moduleI2cGo_keeps
    | with_reducible apply store_keeps
    | split

theorem writeSys_keeps {s0 : State} {off} {v} {s} (h : Keeps s0 s) : Keeps s0 (writeSys off v s) := by
  unfold writeSys
  repeat' first
    | extract_lets +onlyGivenNames x
    | with_reducible exact h
    | with_reducible apply sysLedgerSel_keeps
    | with_reducible apply irqTest_keeps
    | with_reducible apply store_keeps
    | with_reducible refine Keeps.ite (fun _ => ?_) (fun _ => ?_)

theorem writePwr_keeps {s0 : State} {off} {v} {s} (h : Keeps s0 s) : Keeps s0 (writePwr off v s) := by
  unfold writePwr
  repeat' first
    | extract_lets +onlyGivenNames x
    | with_reducible exact h
    | with_reducible apply softReset_keeps
    | with_reducible apply fuseCmd_keeps
    | with_reducible apply atticWrite_keeps
    | with_reducible apply store_keeps
    | with_reducible refine Keeps.ite (fun _ => ?_) (fun _ => ?_)

theorem writeTmb_keeps {s0 : State} {taken} {off} {v} {s} (h : Keeps s0 s) : Keeps s0 (writeTmb taken off v s) := by
  unfold writeTmb
  repeat' first
    | extract_lets +onlyGivenNames x
    | with_reducible exact h
    | with_reducible apply mediaCfg_keeps
    | with_reducible apply forceMedia_keeps
    | with_reducible apply tmbSnapGo_keeps
    | with_reducible apply State.ppsCheck_keeps
    | with_reducible apply store_keeps
    | with_reducible apply tmbTbCfgWrite_keeps
    | with_reducible refine Keeps.ite (fun _ => ?_) (fun _ => ?_)
    | split

theorem writeSap_keeps {s0 : State} {off} {v} {s} (h : Keeps s0 s) : Keeps s0 (writeSap off v s) := by
  unfold writeSap
  repeat' first
    | extract_lets +onlyGivenNames x
    | with_reducible exact h
    | with_reducible apply sapGroupCfgWrite_keeps
    | with_reducible apply sapPortCfgWrite_keeps
    | with_reducible apply sapMaskctlWrite_keeps
    | with_reducible apply store_keeps
    | split

theorem writePlain_keeps {s0 : State} {taken} {off} {v} {s} (h : Keeps s0 s) : Keeps s0 (writePlain taken off v s) := by
  unfold writePlain
  repeat' first
    | extract_lets +onlyGivenNames x
    | with_reducible exact h
    | with_reducible apply writeSys_keeps
    | with_reducible apply writePwr_keeps
    | with_reducible apply writeTmb_keeps
    | with_reducible apply writeHq_keeps
    | with_reducible apply writeDma_keeps
    | with_reducible apply writeSap_keeps
    | with_reducible apply writeNet_keeps
    | with_reducible apply writeNtk_keeps
    | with_reducible apply objLkSel_keeps
    | with_reducible apply store_keeps
    | with_reducible apply geoLkSel_keeps
    | with_reducible apply pthLkSel_keeps
    | with_reducible apply pthProbeSel_keeps
    | with_reducible apply spkFdSel_keeps
    | with_reducible apply writeDsk_keeps
    | with_reducible refine Keeps.ite (fun _ => ?_) (fun _ => ?_)
    | split

theorem writeReg_keeps {s0 : State} {taken} {m} {off} {v} {s} (h : Keeps s0 s) : Keeps s0 (writeReg taken m off v s) := by
  unfold writeReg
  repeat' first
    | extract_lets +onlyGivenNames x
    | with_reducible exact h
    | with_reducible apply lowWrite_keeps
    | with_reducible apply highWrite_keeps
    | with_reducible apply enableWrite_keeps
    | with_reducible apply w1c_keeps
    | with_reducible apply writePlain_keeps
    | with_reducible refine Keeps.ite (fun _ => ?_) (fun _ => ?_)

/-! ### Boot -/

theorem State.bootAt_keeps {s0 : State} {s} {stage} (h : Keeps s0 s) : Keeps s0 (State.bootAt s stage) := by
  unfold State.bootAt
  repeat' first
    | extract_lets +onlyGivenNames x
    | with_reducible exact h
    | with_reducible apply State.setPwr_keeps

theorem State.bootFail_keeps {s0 : State} {s} {cause} (h : Keeps s0 s) : Keeps s0 (State.bootFail s cause) := by
  unfold State.bootFail
  repeat' first
    | extract_lets +onlyGivenNames x
    | with_reducible exact h
    | with_reducible apply State.setPwr_keeps

theorem State.bootHold_keeps {s0 s : State} {cause : Nat} (h : Keeps s0 s) : Keeps s0 (s.bootHold cause) :=
  Keeps.of_eq (b := s.bootFail cause) rfl rfl rfl rfl rfl (State.bootFail_keeps h)

theorem State.bootSections_keeps {s0 : State} {s} (h : Keeps s0 s) : Keeps s0 (State.bootSections s) := by
  unfold State.bootSections
  repeat' first
    | (extract_lets +onlyGivenNames x; refine (fun hx => ?_) (?_ : Keeps s0 x); clear_value x; rotate_left; subst x)
    | (extract_lets +onlyGivenNames x; refine (fun hx => ?_) (?_ : Keeps s0 x.2); clear_value x; rotate_left; subst x)
    | extract_lets +onlyGivenNames x
    | with_reducible exact h
    | with_reducible apply State.fitFirs_keeps
    | with_reducible apply State.applyNow_keeps
    | with_reducible refine Keeps.ite (fun _ => ?_) (fun _ => ?_)
    | with_reducible refine Keeps.foldl (fun _ _ _ => ?_) ?_
    | with_reducible assumption

theorem State.examineFlash_keeps {s0 : State} {s} (h : Keeps s0 s) : Keeps s0 (State.examineFlash s) := by
  unfold State.examineFlash
  repeat' first
    | extract_lets +onlyGivenNames x
    | with_reducible exact h
    | with_reducible refine Keeps.record rfl rfl rfl rfl ?_

theorem State.seed_keeps {s0 : State} {s} (h : Keeps s0 s) : Keeps s0 (State.seed s) := by
  unfold State.seed
  repeat' first
    | (extract_lets +onlyGivenNames x; refine (fun hx => ?_) (?_ : Keeps s0 x); clear_value x; rotate_left; subst x)
    | extract_lets +onlyGivenNames x
    | with_reducible exact h
    | with_reducible apply State.loseTb_keeps
    | with_reducible apply State.evt_keeps
    | with_reducible apply State.setMedia_keeps
    | with_reducible refine Keeps.ite (fun _ => ?_) (fun _ => ?_)
    | with_reducible assumption
    | with_reducible refine Keeps.record rfl rfl rfl rfl ?_

theorem autoStart_keeps {s0 : State} {s} (h : Keeps s0 s) : Keeps s0 (autoStart s) := by
  unfold autoStart
  repeat' first
    | extract_lets +onlyGivenNames x
    | with_reducible exact h
    | with_reducible apply State.modeDone_keeps
    | with_reducible apply State.enterRunning_keeps
    | with_reducible refine Keeps.ite (fun _ => ?_) (fun _ => ?_)

theorem bootEnd_keeps {s0 : State} {x} {s} (h : Keeps s0 s) : Keeps s0 (bootEnd x s) := by
  unfold bootEnd
  repeat' first
    | (extract_lets +onlyGivenNames x; refine (fun hx => ?_) (?_ : Keeps s0 x); clear_value x; rotate_left; subst x)
    | extract_lets +onlyGivenNames x
    | with_reducible exact h
    | with_reducible apply State.setPwr_keeps
    | with_reducible apply writeReg_keeps
    | with_reducible apply State.bootSections_keeps
    | with_reducible apply wdogRestart_keeps
    | with_reducible apply State.examineFlash_keeps
    | with_reducible apply State.seed_keeps
    | with_reducible apply State.dramLost_keeps
    | with_reducible apply State.both_keeps
    | with_reducible refine Keeps.ite (fun _ => ?_) (fun _ => ?_)
    | with_reducible refine Keeps.foldl (fun _ _ _ => ?_) ?_
    | with_reducible assumption

theorem bootImage_keeps {s0 : State} {x} {s} (h : Keeps s0 s) : Keeps s0 (bootImage x s) := by
  unfold bootImage
  repeat' first
    | extract_lets +onlyGivenNames x
    | with_reducible exact h
    | with_reducible apply State.bootAt_keeps
    | with_reducible apply State.setPwr_keeps
    | with_reducible apply State.setMemory_keeps
    | with_reducible apply State.bootHold_keeps
    | with_reducible refine Keeps.ite (fun _ => ?_) (fun _ => ?_)
    | with_reducible rfl

theorem bootProf_keeps {s0 : State} {x} {s} (h : Keeps s0 s) : Keeps s0 (bootProf x s) := by
  unfold bootProf
  repeat' first
    | (extract_lets +onlyGivenNames x; refine (fun hx => ?_) (?_ : Keeps s0 x); clear_value x; rotate_left; subst x)
    | extract_lets +onlyGivenNames x
    | with_reducible exact h
    | with_reducible apply State.dramWrite_keeps
    | with_reducible apply State.bootAt_keeps
    | with_reducible apply State.settleSlot_keeps
    | with_reducible apply State.slotState_keeps
    | with_reducible apply State.evt_keeps
    | with_reducible apply State.bootFail_keeps
    | with_reducible refine Keeps.ite (fun _ => ?_) (fun _ => ?_)
    | with_reducible assumption
    | with_reducible refine Keeps.record rfl rfl rfl rfl ?_

theorem bootSafe_keeps {s0 s : State} {x : BootInput} (h : Keeps s0 s) : Keeps s0 (bootSafe x s) := by
  unfold bootSafe
  extract_lets +onlyGivenNames b
  clear_value b
  extract_lets +onlyGivenNames s1 s2
  have h2 : Keeps s0 s2 := by
    subst s2 s1
    repeat' first
      | extract_lets +onlyGivenNames x
      | with_reducible exact h
      | with_reducible apply State.dramWrite_keeps
      | with_reducible apply State.bootAt_keeps
      | with_reducible refine Keeps.ite (fun _ => ?_) (fun _ => ?_)
  clear_value s2 s1
  extract_lets +onlyGivenNames src s3
  have h3 : Keeps s0 s3 := h2.trans ⟨rfl, fun x => ⟨⟨x.1.1, x.1.2.1, Memory.wf_memWrite rfl 0 b⟩, x.2⟩⟩
  clear_value s3
  repeat' first
    | (extract_lets +onlyGivenNames x; refine (fun hx => ?_) (?_ : Keeps s0 x); clear_value x; rotate_left; subst x)
    | extract_lets +onlyGivenNames x
    | with_reducible apply State.evt_keeps
    | with_reducible apply State.bootFail_keeps
    | with_reducible apply State.slotState_keeps
    | with_reducible apply State.settleSlot_keeps
    | with_reducible refine Keeps.ite (fun _ => ?_) (fun _ => ?_)
    | with_reducible assumption
    | with_reducible refine Keeps.record rfl rfl rfl rfl ?_

theorem bootTrain_keeps {s0 : State} {x} {s} (h : Keeps s0 s) : Keeps s0 (bootTrain x s) := by
  unfold bootTrain
  repeat' first
    | (extract_lets +onlyGivenNames x; refine (fun hx => ?_) (?_ : Keeps s0 x); clear_value x; rotate_left; subst x)
    | extract_lets +onlyGivenNames x
    | with_reducible exact h
    | with_reducible apply State.bootAt_keeps
    | with_reducible apply State.setMemory_keeps
    | with_reducible apply State.bootFail_keeps
    | with_reducible apply State.evt_keeps
    | with_reducible refine Keeps.ite (fun _ => ?_) (fun _ => ?_)
    | with_reducible assumption
    | with_reducible rfl

theorem bootStageEnd_keeps {s0 : State} {x} {s} (h : Keeps s0 s) : Keeps s0 (bootStageEnd x s) := by
  unfold bootStageEnd
  repeat' first
    | extract_lets +onlyGivenNames x
    | with_reducible exact h
    | with_reducible apply State.bootAt_keeps
    | with_reducible apply bootImage_keeps
    | with_reducible apply bootTrain_keeps
    | with_reducible apply bootSafe_keeps
    | with_reducible apply bootProf_keeps
    | with_reducible apply bootEnd_keeps
    | with_reducible refine Keeps.ite (fun _ => ?_) (fun _ => ?_)
    | split

theorem hostWaitExpiry_keeps {s0 : State} {s} (h : Keeps s0 s) : Keeps s0 (hostWaitExpiry s) := by
  unfold hostWaitExpiry
  repeat' first
    | extract_lets +onlyGivenNames x
    | with_reducible exact h
    | with_reducible apply State.setPwr_keeps
    | with_reducible refine Keeps.ite (fun _ => ?_) (fun _ => ?_)

/-! ### Boundary -/

theorem State.atticTick_keeps {s0 : State} {s} {x} (h : Keeps s0 s) : Keeps s0 (State.atticTick s x) := by
  unfold State.atticTick
  repeat' first
    | extract_lets +onlyGivenNames x
    | with_reducible exact h
    | with_reducible apply State.setPwr_keeps
    | with_reducible refine Keeps.ite (fun _ => ?_) (fun _ => ?_)

theorem State.auxStart_keeps {s0 : State} {s} {p} (h : Keeps s0 s) : Keeps s0 (State.auxStart s p) := by
  unfold State.auxStart
  repeat' first
    | extract_lets +onlyGivenNames x
    | with_reducible exact h
    | split
    | with_reducible refine Keeps.record rfl rfl rfl rfl ?_

theorem State.busEnd_keeps {s0 : State} {s} {p} (h : Keeps s0 s) : Keeps s0 (State.busEnd s p) := by
  unfold State.busEnd
  repeat' first
    | (extract_lets +onlyGivenNames x; refine (fun hx => ?_) (?_ : Keeps s0 x); clear_value x; rotate_left; subst x)
    | extract_lets +onlyGivenNames x
    | with_reducible exact h
    | with_reducible apply State.fxs_keeps
    | with_reducible assumption
    | with_reducible refine Keeps.record rfl rfl rfl rfl ?_

theorem State.captureRuns_keeps {s0 : State} {s} {n} (h : Keeps s0 s) : Keeps s0 (State.captureRuns s n) := by
  unfold State.captureRuns
  repeat' first
    | extract_lets +onlyGivenNames x
    | with_reducible exact h
    | with_reducible refine Keeps.ite (fun _ => ?_) (fun _ => ?_)
    | with_reducible refine Keeps.record rfl rfl rfl rfl ?_

theorem State.chainSum_keeps {s0 : State} {s} {b} {f} {c} {xs} (h : Keeps s0 s) : Keeps s0 (State.chainSum s b f c xs).2 := by
  unfold State.chainSum
  repeat' first
    | (extract_lets +onlyGivenNames x; refine (fun hx => ?_) (?_ : Keeps s0 x); clear_value x; rotate_left; subst x)
    | (extract_lets +onlyGivenNames x; refine (fun hx => ?_) (?_ : Keeps s0 x.2); clear_value x; rotate_left; subst x)
    | extract_lets +onlyGivenNames x
    | with_reducible exact h
    | with_reducible apply State.takeSum_keeps
    | with_reducible apply State.fxs_keeps
    | with_reducible apply State.tailSum_keeps
    | with_reducible refine Keeps.ite (fun _ => ?_) (fun _ => ?_)
    | with_reducible assumption
    | split

theorem State.closeFrame_keeps {s0 : State} {s} {t} (h : Keeps s0 s) : Keeps s0 (State.closeFrame s t) := by
  unfold State.closeFrame
  repeat' first
    | extract_lets +onlyGivenNames x
    | with_reducible exact h
    | with_reducible apply State.evaluateGeo_keeps
    | with_reducible refine Keeps.ite (fun _ => ?_) (fun _ => ?_)
    | split

theorem State.timedAct_keeps {s0 : State} {s} {c} (h : Keeps s0 s) : Keeps s0 (State.timedAct s c) := by
  unfold State.timedAct
  repeat' first
    | extract_lets +onlyGivenNames x
    | with_reducible exact h
    | with_reducible apply State.complete_keeps
    | with_reducible apply State.signalTask_keeps
    | with_reducible apply State.dmaStartNow_keeps
    | with_reducible refine Keeps.ite (fun _ => ?_) (fun _ => ?_)
    | split

theorem State.timedActs_keeps {s0 : State} {s} {t} (h : Keeps s0 s) : Keeps s0 (State.timedActs s t) := by
  unfold State.timedActs
  repeat' first
    | extract_lets +onlyGivenNames x
    | with_reducible exact h
    | with_reducible apply State.timedAct_keeps
    | with_reducible refine Keeps.foldl (fun _ _ _ => ?_) ?_
    | with_reducible assumption
    | with_reducible refine Keeps.record rfl rfl rfl rfl ?_

theorem State.commits_keeps {s0 : State} {s} {t} (h : Keeps s0 s) : Keeps s0 (State.commits s t) := by
  unfold State.commits
  repeat' first
    | (extract_lets +onlyGivenNames x; refine (fun hx => ?_) (?_ : Keeps s0 x); clear_value x; rotate_left; subst x)
    | extract_lets +onlyGivenNames x
    | with_reducible exact h
    | with_reducible apply State.checkEpochs_keeps
    | with_reducible apply State.applyStage_keeps
    | with_reducible apply State.timedActs_keeps
    | with_reducible refine Keeps.ite (fun _ => ?_) (fun _ => ?_)
    | with_reducible assumption

theorem State.feedEnd_keeps {s0 : State} {s} {stage} {n} {gone} {p} (h : Keeps s0 s) : Keeps s0 (State.feedEnd s stage n gone p) := by
  unfold State.feedEnd
  repeat' first
    | (extract_lets +onlyGivenNames x; refine (fun hx => ?_) (?_ : Keeps s0 x); clear_value x; rotate_left; subst x)
    | extract_lets +onlyGivenNames x
    | with_reducible exact h
    | with_reducible apply State.fxs_keeps
    | with_reducible apply State.addLed_keeps
    | with_reducible apply State.setFeed_keeps
    | with_reducible assumption
    | with_reducible refine Keeps.record rfl rfl rfl rfl ?_

theorem State.feedMix_keeps {s0 : State} {input : Nat → List Int} {sum : Option Nat} {f : Nat}
    {a : State × List (Nat × List Int × Bool × Nat)} (h : Keeps s0 a.1) : Keeps s0 (State.feedMix input sum f a).1 := by
  unfold State.feedMix
  repeat' first
    | (extract_lets +onlyGivenNames x; refine (fun hx => ?_) (?_ : Keeps s0 x); clear_value x; rotate_left; subst x)
    | (extract_lets +onlyGivenNames x; refine (fun hx => ?_) (?_ : Keeps s0 x.2); clear_value x; rotate_left; subst x)
    | extract_lets +onlyGivenNames x
    | with_reducible exact h
    | with_reducible apply State.addLed_keeps
    | with_reducible apply State.chainSum_keeps
    | with_reducible apply State.fxs_keeps
    | with_reducible apply State.setFeed_keeps
    | with_reducible assumption
    | split
    | with_reducible refine Keeps.record rfl rfl rfl rfl ?_

theorem State.slotsEnd_keeps {s0 : State} {s} {ip} {n} (h : Keeps s0 s) : Keeps s0 (State.slotsEnd s ip n) := by
  unfold State.slotsEnd
  repeat' first
    | extract_lets +onlyGivenNames x
    | with_reducible exact h
    | with_reducible apply State.slotEnd_keeps
    | with_reducible refine Keeps.foldl (fun _ _ _ => ?_) ?_
    | with_reducible assumption

theorem State.tapIn_keeps {s0 : State} {s} {point} {n} {bs} (h : Keeps s0 s) : Keeps s0 (State.tapIn s point n bs) := by
  unfold State.tapIn
  repeat' first
    | extract_lets +onlyGivenNames x
    | with_reducible exact h
    | with_reducible refine Keeps.record rfl rfl rfl rfl ?_

theorem State.feedSlotEnd_keeps {s0 : State} {s} {stage} {t} {n} (h : Keeps s0 s) : Keeps s0 (State.feedSlotEnd s stage t n) := by
  unfold State.feedSlotEnd
  repeat' first
    | (extract_lets +onlyGivenNames x; refine (fun hx => ?_) (?_ : Keeps s0 x); clear_value x; rotate_left; subst x)
    | extract_lets +onlyGivenNames x
    | with_reducible exact h
    | with_reducible apply State.feedEnd_keeps
    | with_reducible apply State.slotsEnd_keeps
    | with_reducible apply State.tapIn_keeps
    | with_reducible refine Keeps.foldl (fun _ _ _ => ?_) ?_
    | with_reducible assumption
    | with_reducible refine Keeps.record rfl rfl rfl rfl ?_

theorem State.frameStep_keeps {s0 : State} {s} {t} (h : Keeps s0 s) : Keeps s0 (State.frameStep s t) := by
  unfold State.frameStep
  repeat' first
    | (extract_lets +onlyGivenNames x; refine (fun hx => ?_) (?_ : Keeps s0 x); clear_value x; rotate_left; subst x)
    | extract_lets +onlyGivenNames x
    | with_reducible exact h
    | with_reducible apply State.measureMedia_keeps
    | with_reducible apply State.stageStep_keeps
    | with_reducible apply State.setMedia_keeps
    | with_reducible apply State.freezeGeo_keeps
    | with_reducible apply State.applyStage_keeps
    | with_reducible refine Keeps.ite (fun _ => ?_) (fun _ => ?_)
    | with_reducible assumption

theorem State.returnsIn_keeps {s0 : State} {s} {n} (h : Keeps s0 s) : Keeps s0 (State.returnsIn s n) := by
  unfold State.returnsIn
  repeat' first
    | extract_lets +onlyGivenNames x
    | with_reducible exact h
    | with_reducible refine Keeps.record rfl rfl rfl rfl ?_

theorem State.ingestEnd_keeps {s0 : State} {s} {n} (h : Keeps s0 s) : Keeps s0 (State.ingestEnd s n) := by
  unfold State.ingestEnd
  repeat' first
    | (extract_lets +onlyGivenNames x; refine (fun hx => ?_) (?_ : Keeps s0 x); clear_value x; rotate_left; subst x)
    | extract_lets +onlyGivenNames x
    | with_reducible exact h
    | with_reducible apply State.tally_keeps
    | with_reducible apply State.returnsIn_keeps
    | with_reducible apply State.chainDeliver_keeps
    | with_reducible apply State.publishBlock_keeps
    | with_reducible assumption
    | with_reducible refine Keeps.record rfl rfl rfl rfl ?_

theorem State.lineLost_keeps {s0 : State} {s} {k} (h : Keeps s0 s) : Keeps s0 (State.lineLost s k) := by
  unfold State.lineLost
  repeat' first
    | extract_lets +onlyGivenNames x
    | with_reducible exact h
    | with_reducible apply State.setLocker_keeps
    | with_reducible apply State.addLed_keeps
    | with_reducible apply State.setFeed_keeps
    | with_reducible refine Keeps.ite (fun _ => ?_) (fun _ => ?_)
    | split

theorem State.lineDry_keeps {s0 : State} {s} {k} (h : Keeps s0 s) : Keeps s0 (State.lineDry s k) := by
  unfold State.lineDry
  repeat' first
    | extract_lets +onlyGivenNames x
    | with_reducible exact h
    | with_reducible apply State.both_keeps
    | with_reducible apply State.lineLost_keeps

theorem State.lineError_keeps {s0 : State} {s} {p} (h : Keeps s0 s) : Keeps s0 (State.lineError s p) := by
  unfold State.lineError
  repeat' first
    | (extract_lets +onlyGivenNames x; refine (fun hx => ?_) (?_ : Keeps s0 x); clear_value x; rotate_left; subst x)
    | extract_lets +onlyGivenNames x
    | with_reducible exact h
    | with_reducible apply State.lineLost_keeps
    | with_reducible apply State.dramUe_keeps
    | with_reducible apply State.both_keeps
    | with_reducible refine Keeps.ite (fun _ => ?_) (fun _ => ?_)
    | with_reducible assumption

theorem State.lockerEnd_keeps {s0 : State} {s} {n} {p} (h : Keeps s0 s) : Keeps s0 (State.lockerEnd s n p) := by
  unfold State.lockerEnd
  repeat' first
    | extract_lets +onlyGivenNames x
    | with_reducible exact h
    | with_reducible apply State.fxs_keeps
    | with_reducible apply State.setLocker_keeps
    | split

theorem State.lockerStart_keeps {s0 : State} {s} {p} (h : Keeps s0 s) : Keeps s0 (State.lockerStart s p) := by
  unfold State.lockerStart
  repeat' first
    | (extract_lets +onlyGivenNames x; refine (fun hx => ?_) (?_ : Keeps s0 x); clear_value x; rotate_left; subst x)
    | extract_lets +onlyGivenNames x
    | with_reducible exact h
    | with_reducible apply State.fxs_keeps
    | with_reducible apply State.setLocker_keeps
    | with_reducible refine Keeps.ite (fun _ => ?_) (fun _ => ?_)
    | with_reducible assumption
    | with_reducible refine Keeps.record rfl rfl rfl rfl ?_

theorem State.measureLoad_keeps {s0 : State} {s} {lo} {hi} (h : Keeps s0 s) : Keeps s0 (State.measureLoad s lo hi).2 := by
  unfold State.measureLoad
  repeat' first
    | extract_lets +onlyGivenNames x
    | with_reducible exact h
    | with_reducible apply State.draw_keeps

theorem State.mixSlotEnd_keeps {s0 s : State} {n : Nat} (h : Keeps s0 s) : Keeps s0 (s.mixSlotEnd n) := by
  unfold State.mixSlotEnd
  repeat' first
    | (extract_lets +onlyGivenNames x; have _hx : (x : Option _) = x := rfl; clear_value x)
    | (extract_lets +onlyGivenNames x; refine (fun hx => ?_) (?_ : Keeps s0 x); clear_value x; rotate_left; subst x)
    | (extract_lets +onlyGivenNames x; refine (fun hx => ?_) (?_ : Keeps s0 x.1); clear_value x; rotate_left; subst x)
    | extract_lets +onlyGivenNames x
    | with_reducible exact h
    | with_reducible apply State.feedMix_keeps
    | with_reducible apply State.slotsEnd_keeps
    | with_reducible apply State.sumDeadline_keeps
    | with_reducible apply State.queueSums_keeps
    | with_reducible refine Keeps.ite (fun _ => ?_) (fun _ => ?_)
    | with_reducible refine Keeps.foldlFst (fun _ _ _ => ?_) ?_
    | with_reducible assumption
    | split
    | with_reducible refine Keeps.record rfl rfl rfl rfl ?_

theorem State.mixSlotStart_keeps {s0 : State} {s} {n} (h : Keeps s0 s) : Keeps s0 (State.mixSlotStart s n) := by
  unfold State.mixSlotStart
  repeat' first
    | (extract_lets +onlyGivenNames x; refine (fun hx => ?_) (?_ : Keeps s0 x); clear_value x; rotate_left; subst x)
    | extract_lets +onlyGivenNames x
    | with_reducible exact h
    | with_reducible apply State.applyStage_keeps
    | with_reducible apply State.recount_keeps
    | with_reducible refine Keeps.ite (fun _ => ?_) (fun _ => ?_)
    | with_reducible assumption
    | with_reducible refine Keeps.record rfl rfl rfl rfl ?_

theorem State.objectSlotEnd_keeps {s0 : State} {s} {n} (h : Keeps s0 s) : Keeps s0 (State.objectSlotEnd s n) := by
  unfold State.objectSlotEnd
  repeat' first
    | (extract_lets +onlyGivenNames x; refine (fun hx => ?_) (?_ : Keeps s0 x); clear_value x; rotate_left; subst x)
    | extract_lets +onlyGivenNames x
    | with_reducible exact h
    | with_reducible apply State.lockerEnd_keeps
    | with_reducible apply State.tapIn_keeps
    | with_reducible apply State.slotsEnd_keeps
    | with_reducible refine Keeps.foldl (fun _ _ _ => ?_) ?_
    | with_reducible assumption
    | with_reducible refine Keeps.record rfl rfl rfl rfl ?_

theorem State.releases_keeps {s0 : State} {s} {ip} {n} {input} (h : Keeps s0 s) : Keeps s0 (State.releases s ip n input) := by
  unfold State.releases
  repeat' first
    | extract_lets +onlyGivenNames x
    | with_reducible exact h
    | with_reducible apply State.release_keeps
    | with_reducible refine Keeps.foldl (fun _ _ _ => ?_) ?_
    | with_reducible assumption

theorem State.objectSlotStart_keeps {s0 : State} {s} {n} (h : Keeps s0 s) : Keeps s0 (State.objectSlotStart s n) := by
  unfold State.objectSlotStart
  repeat' first
    | (extract_lets +onlyGivenNames x; refine (fun hx => ?_) (?_ : Keeps s0 x); clear_value x; rotate_left; subst x)
    | extract_lets +onlyGivenNames x
    | with_reducible exact h
    | with_reducible apply State.tapIn_keeps
    | with_reducible apply State.captureRuns_keeps
    | with_reducible apply State.auxStart_keeps
    | with_reducible apply State.lockerStart_keeps
    | with_reducible apply State.releases_keeps
    | with_reducible refine Keeps.foldl (fun _ _ _ => ?_) ?_
    | with_reducible assumption
    | with_reducible refine Keeps.record rfl rfl rfl rfl ?_

theorem State.otherLoads_keeps {s0 : State} {s} (h : Keeps s0 s) : Keeps s0 (State.otherLoads s) := by
  unfold State.otherLoads
  repeat' first
    | (extract_lets +onlyGivenNames x; refine (fun hx => ?_) (?_ : Keeps s0 x); clear_value x; rotate_left; subst x)
    | extract_lets +onlyGivenNames x
    | with_reducible exact h
    | with_reducible apply State.setReg_keeps
    | with_reducible apply State.setDesk_keeps
    | with_reducible refine Keeps.foldl (fun _ _ _ => ?_) ?_
    | with_reducible assumption

theorem State.pathLoad_keeps {s0 : State} {s} {c} (h : Keeps s0 s) : Keeps s0 (State.pathLoad s c) := by
  unfold State.pathLoad
  repeat' first
    | (extract_lets +onlyGivenNames x; refine (fun hx => ?_) (?_ : Keeps s0 x.2); clear_value x; rotate_left; subst x)
    | extract_lets +onlyGivenNames x
    | with_reducible exact h
    | with_reducible apply State.measureLoad_keeps
    | with_reducible apply State.setReg_keeps
    | with_reducible assumption

theorem State.superviseAt_keeps {s0 : State} {s} {p} (h : Keeps s0 s) : Keeps s0 (State.superviseAt s p) := by
  unfold State.superviseAt
  repeat' first
    | extract_lets +onlyGivenNames x
    | with_reducible exact h
    | with_reducible refine Keeps.ite (fun _ => ?_) (fun _ => ?_)
    | with_reducible refine Keeps.record rfl rfl rfl rfl ?_

theorem State.streamStep_keeps {s0 : State} {s} {n} {x} (h : Keeps s0 s) : Keeps s0 (State.streamStep s n x) := by
  unfold State.streamStep
  repeat' first
    | (extract_lets +onlyGivenNames x; refine (fun hx => ?_) (?_ : Keeps s0 x); clear_value x; rotate_left; subst x)
    | extract_lets +onlyGivenNames x
    | with_reducible exact h
    | with_reducible apply State.serialOut_keeps
    | with_reducible apply State.serialIn_keeps
    | with_reducible apply State.txMix_keeps
    | with_reducible apply State.stepMix_keeps
    | with_reducible apply State.stepRoutes_keeps
    | with_reducible apply State.rxDeadline_keeps
    | with_reducible apply State.rxIngest_keeps
    | with_reducible apply State.serialIngest_keeps
    | with_reducible apply State.superviseAt_keeps
    | with_reducible refine Keeps.ite (fun _ => ?_) (fun _ => ?_)
    | with_reducible assumption

theorem State.pinStep_keeps {s0 : State} {s} {x} (h : Keeps s0 s) : Keeps s0 (State.pinStep s x) := by
  unfold State.pinStep
  repeat' first
    | extract_lets +onlyGivenNames x
    | with_reducible exact h
    | with_reducible refine Keeps.record rfl rfl rfl rfl ?_

theorem State.periodAt_keeps {s0 : State} {s} {n} {first} {x} (h : Keeps s0 s) : Keeps s0 (State.periodAt s n first x) := by
  unfold State.periodAt
  repeat' first
    | (extract_lets +onlyGivenNames x; refine (fun hx => ?_) (?_ : Keeps s0 x); clear_value x; rotate_left; subst x)
    | extract_lets +onlyGivenNames x
    | with_reducible exact h
    | with_reducible apply State.setMedia_keeps
    | with_reducible apply State.streamStep_keeps
    | with_reducible apply State.mediaTick_keeps
    | with_reducible apply State.sdacStreams_keeps
    | with_reducible apply State.sdacDue_keeps
    | with_reducible apply State.pinStep_keeps
    | with_reducible refine Keeps.ite (fun _ => ?_) (fun _ => ?_)
    | with_reducible assumption
    | with_reducible refine Keeps.record rfl rfl rfl rfl ?_

theorem State.renderSlotEnd_keeps {s0 : State} {s} {n} {overrun} (h : Keeps s0 s) : Keeps s0 (State.renderSlotEnd s n overrun) := by
  unfold State.renderSlotEnd
  repeat' first
    | (extract_lets +onlyGivenNames x; refine (fun hx => ?_) (?_ : Keeps s0 x); clear_value x; rotate_left; subst x)
    | extract_lets +onlyGivenNames x
    | with_reducible exact h
    | with_reducible apply State.pathLoad_keeps
    | with_reducible apply State.fxs_keeps
    | with_reducible apply State.busEnd_keeps
    | with_reducible apply State.hwFault_keeps
    | with_reducible apply State.both_keeps
    | with_reducible apply State.tapIn_keeps
    | with_reducible refine Keeps.ite (fun _ => ?_) (fun _ => ?_)
    | with_reducible refine Keeps.foldl (fun _ _ _ => ?_) ?_
    | with_reducible assumption
    | with_reducible refine Keeps.record rfl rfl rfl rfl ?_

theorem State.slotsLeave_keeps {s0 : State} {s} {t} {overrun} (h : Keeps s0 s) : Keeps s0 (State.slotsLeave s t overrun) := by
  unfold State.slotsLeave
  repeat' first
    | (extract_lets +onlyGivenNames x; refine (fun hx => ?_) (?_ : Keeps s0 x); clear_value x; rotate_left; subst x)
    | extract_lets +onlyGivenNames x
    | with_reducible exact h
    | with_reducible apply State.feedSlotEnd_keeps
    | with_reducible apply State.mixSlotEnd_keeps
    | with_reducible apply State.renderSlotEnd_keeps
    | with_reducible apply State.objectSlotEnd_keeps
    | with_reducible apply State.ingestEnd_keeps
    | with_reducible refine Keeps.ite (fun _ => ?_) (fun _ => ?_)
    | with_reducible assumption
    | with_reducible refine Keeps.record rfl rfl rfl rfl ?_

theorem State.readErrors_keeps {s0 : State} {s} {x} (h : Keeps s0 s) : Keeps s0 (State.readErrors s x) := by
  unfold State.readErrors
  repeat' first
    | extract_lets +onlyGivenNames x
    | with_reducible exact h
    | with_reducible apply State.lineDry_keeps
    | with_reducible apply State.lineError_keeps
    | with_reducible apply sramScrub_keeps
    | with_reducible refine Keeps.foldl (fun _ _ _ => ?_) ?_
    | with_reducible assumption

theorem State.replayAt_keeps {s0 : State} {s} {t} (h : Keeps s0 s) : Keeps s0 (State.replayAt s t) := by
  unfold State.replayAt
  repeat' first
    | extract_lets +onlyGivenNames x
    | with_reducible exact h
    | with_reducible apply State.replayEnd_keeps
    | with_reducible apply State.replayBlock_keeps
    | with_reducible refine Keeps.ite (fun _ => ?_) (fun _ => ?_)
    | split

theorem State.slotsEnter_keeps {s0 : State} {s} {t} (h : Keeps s0 s) : Keeps s0 (State.slotsEnter s t) := by
  unfold State.slotsEnter
  repeat' first
    | (extract_lets +onlyGivenNames x; refine (fun hx => ?_) (?_ : Keeps s0 x); clear_value x; rotate_left; subst x)
    | extract_lets +onlyGivenNames x
    | with_reducible exact h
    | with_reducible apply State.handOver_keeps
    | with_reducible apply State.closeFrame_keeps
    | with_reducible apply State.applyStage_keeps
    | with_reducible apply State.mixSlotStart_keeps
    | with_reducible apply State.objectSlotStart_keeps
    | with_reducible apply State.releases_keeps
    | with_reducible refine Keeps.ite (fun _ => ?_) (fun _ => ?_)
    | with_reducible assumption

theorem State.pipeBoundary_keeps {s0 : State} {s} {t} {x} (h : Keeps s0 s) : Keeps s0 (State.pipeBoundary s t x) := by
  unfold State.pipeBoundary
  repeat' first
    | (extract_lets +onlyGivenNames x; refine (fun hx => ?_) (?_ : Keeps s0 x); clear_value x; rotate_left; subst x)
    | extract_lets +onlyGivenNames x
    | with_reducible exact h
    | with_reducible apply State.slotsLeave_keeps
    | with_reducible apply State.readErrors_keeps
    | with_reducible apply State.replayAt_keeps
    | with_reducible apply State.commits_keeps
    | with_reducible apply State.otherLoads_keeps
    | with_reducible apply State.takeEmit_keeps
    | with_reducible apply State.frameStep_keeps
    | with_reducible apply State.slotsEnter_keeps
    | with_reducible assumption

theorem State.stillBoundary_keeps {s0 : State} {s} {t} (h : Keeps s0 s) : Keeps s0 (State.stillBoundary s t) := by
  unfold State.stillBoundary
  repeat' first
    | (extract_lets +onlyGivenNames x; refine (fun hx => ?_) (?_ : Keeps s0 x); clear_value x; rotate_left; subst x)
    | extract_lets +onlyGivenNames x
    | with_reducible exact h
    | with_reducible apply State.commits_keeps
    | with_reducible apply State.applyStage_keeps
    | with_reducible apply State.frameStep_keeps
    | with_reducible assumption

theorem State.wdogTick_keeps {s0 : State} {s} (h : Keeps s0 s) : Keeps s0 (State.wdogTick s) := by
  unfold State.wdogTick
  repeat' first
    | extract_lets +onlyGivenNames x
    | with_reducible exact h
    | with_reducible refine Keeps.ite (fun _ => ?_) (fun _ => ?_)
    | split
    | with_reducible refine Keeps.record rfl rfl rfl rfl ?_

theorem blockBoundary_keeps {s0 : State} {x} {s} (h : Keeps s0 s) : Keeps s0 (blockBoundary x s) := by
  unfold blockBoundary
  repeat' first
    | (extract_lets +onlyGivenNames x; refine (fun hx => ?_) (?_ : Keeps s0 x); clear_value x; rotate_left; subst x)
    | extract_lets +onlyGivenNames x
    | with_reducible exact h
    | with_reducible apply State.framesSend_keeps
    | with_reducible apply State.pipeBoundary_keeps
    | with_reducible apply State.stillBoundary_keeps
    | with_reducible apply State.boundaryEnd_keeps
    | with_reducible refine Keeps.ite (fun _ => ?_) (fun _ => ?_)
    | with_reducible assumption
    | with_reducible refine Keeps.record rfl rfl rfl rfl ?_

theorem samplePeriodStart_keeps {s0 : State} {x} {s} (h : Keeps s0 s) : Keeps s0 (samplePeriodStart x s) := by
  unfold samplePeriodStart
  repeat' first
    | (extract_lets +onlyGivenNames x; refine (fun hx => ?_) (?_ : Keeps s0 x); clear_value x; rotate_left; subst x)
    | extract_lets +onlyGivenNames x
    | with_reducible exact h
    | with_reducible apply State.atticTick_keeps
    | with_reducible apply State.wdogTick_keeps
    | with_reducible apply State.advanceTime_keeps
    | with_reducible apply State.periodAt_keeps
    | with_reducible refine Keeps.ite (fun _ => ?_) (fun _ => ?_)
    | with_reducible assumption
    | with_reducible refine Keeps.record rfl rfl rfl rfl ?_

/-! ### Dma -/

theorem State.dmaHolds_keeps {s0 : State} {s} {c} {w} (h : Keeps s0 s) : Keeps s0 (State.dmaHolds s c w).2 := by
  unfold State.dmaHolds
  repeat' first
    | (extract_lets +onlyGivenNames x; refine (fun hx => ?_) (?_ : Keeps s0 x.2); clear_value x; rotate_left; subst x)
    | extract_lets +onlyGivenNames x
    | with_reducible exact h
    | with_reducible apply readReg_keeps
    | with_reducible assumption
    | split

theorem State.dmaAwait_keeps {s0 : State} {s} {c} {w} (h : Keeps s0 s) : Keeps s0 (State.dmaAwait s c w) := by
  unfold State.dmaAwait
  repeat' first
    | (extract_lets +onlyGivenNames x; refine (fun hx => ?_) (?_ : Keeps s0 x.2); clear_value x; rotate_left; subst x)
    | extract_lets +onlyGivenNames x
    | with_reducible exact h
    | with_reducible apply State.dmaHolds_keeps
    | with_reducible apply State.setDch_keeps
    | with_reducible refine Keeps.ite (fun _ => ?_) (fun _ => ?_)
    | with_reducible assumption

theorem State.dmaEndActs_keeps {s0 : State} {s} {c} (h : Keeps s0 s) : Keeps s0 (State.dmaEndActs s c) := by
  unfold State.dmaEndActs
  repeat' first
    | extract_lets +onlyGivenNames x
    | with_reducible exact h
    | with_reducible apply State.setDch_keeps
    | with_reducible apply State.dmaAtEnd_keeps
    | with_reducible refine Keeps.ite (fun _ => ?_) (fun _ => ?_)

theorem State.dmaInstr_keeps {s0 s : State} {c op : Nat} {ins : DmaBits} {ok : Bool} {k : State → State}
    (hk : ∀ u, Keeps s0 u → Keeps s0 (k u)) (h : Keeps s0 s) : Keeps s0 (s.dmaInstr c op ins ok k) := by
  unfold State.dmaInstr
  repeat' first
    | extract_lets +onlyGivenNames x
    | with_reducible exact h
    | with_reducible apply hk
    | with_reducible apply State.dmaFault_keeps
    | with_reducible apply State.setDch_keeps
    | with_reducible refine Keeps.ite (fun _ => ?_) (fun _ => ?_)
    | split

theorem State.dmaNext_keeps {s0 : State} {s} {c} (h : Keeps s0 s) : Keeps s0 (State.dmaNext s c) := by
  unfold State.dmaNext
  repeat' first
    | extract_lets +onlyGivenNames x
    | with_reducible exact h
    | with_reducible apply State.setDch_keeps

theorem State.dmaPaused_keeps {s0 : State} {s} {c} (h : Keeps s0 s) : Keeps s0 (State.dmaPaused s c) := by
  unfold State.dmaPaused
  repeat' first
    | extract_lets +onlyGivenNames x
    | with_reducible exact h
    | with_reducible apply State.completeMany_keeps
    | with_reducible apply State.setDch_keeps

theorem State.moveError_keeps {s0 : State} {s} {c} {i} (h : Keeps s0 s) : Keeps s0 (State.moveError s c i) := by
  unfold State.moveError
  repeat' first
    | extract_lets +onlyGivenNames x
    | with_reducible exact h
    | with_reducible apply State.dramUe_keeps
    | with_reducible apply State.both_keeps
    | with_reducible refine Keeps.ite (fun _ => ?_) (fun _ => ?_)
    | split

theorem State.moveWrite_keeps {s0 : State} {s} {c} {m} {i} {v} (h : Keeps s0 s) : Keeps s0 (State.moveWrite s c m i v) := by
  unfold State.moveWrite
  repeat' first
    | extract_lets +onlyGivenNames x
    | with_reducible exact h
    | with_reducible apply State.hostWrite_keeps
    | with_reducible apply State.dramWrite_keeps
    | with_reducible apply State.setDesk_keeps
    | with_reducible apply writeReg_keeps
    | with_reducible refine Keeps.ite (fun _ => ?_) (fun _ => ?_)
    | split

theorem State.moveRead_keeps {s0 : State} {s} {c} {m} {host} {i} (h : Keeps s0 s) : Keeps s0 (State.moveRead s c m host i).2 := by
  unfold State.moveRead
  repeat' first
    | extract_lets +onlyGivenNames x
    | with_reducible exact h
    | with_reducible apply readReg_keeps
    | split

theorem moveWords_keeps {s0 s : State} {c : Nat} {m : DmaMove} {l : List Byte} {n i : Nat} (h : Keeps s0 s) :
    Keeps s0 (moveWords c m l n i s).1 := by
  induction n generalizing s i with
  | zero => exact h
  | succ n ih =>
    unfold moveWords
    repeat' first
      | (extract_lets +onlyGivenNames x; refine (fun hx => ?_) (?_ : Keeps s0 x.2); clear_value x; rotate_left; subst x)
      | extract_lets +onlyGivenNames x
      | with_reducible exact h
      | with_reducible apply ih
      | with_reducible apply State.moveWrite_keeps
      | with_reducible apply State.moveRead_keeps
      | with_reducible assumption
      | split

theorem State.moveOn_keeps {s0 : State} {s} {c} {upTo} {host} (h : Keeps s0 s) : Keeps s0 (State.moveOn s c upTo host).1 := by
  unfold State.moveOn
  repeat' first
    | (extract_lets +onlyGivenNames x; refine (fun hx => ?_) (?_ : Keeps s0 x.1); clear_value x; rotate_left; subst x)
    | extract_lets +onlyGivenNames x
    | with_reducible exact h
    | with_reducible apply moveWords_keeps
    | with_reducible apply State.setDch_keeps
    | with_reducible assumption
    | split

theorem dmaAbort_keeps {s0 : State} {e} {c} {s} (h : Keeps s0 s) : Keeps s0 (dmaAbort e c s) := by
  unfold dmaAbort
  repeat' first
    | extract_lets +onlyGivenNames x
    | with_reducible exact h
    | with_reducible apply State.complete_keeps
    | with_reducible apply State.dmaAbortSample_keeps
    | with_reducible apply State.setDch_keeps
    | with_reducible refine Keeps.ite (fun _ => ?_) (fun _ => ?_)

theorem dmaEnd_keeps {s0 : State} {c} {ins} {s} (h : Keeps s0 s) : Keeps s0 (dmaEnd c ins s) := by
  unfold dmaEnd
  repeat' first
    | extract_lets +onlyGivenNames x
    | with_reducible exact h
    | with_reducible apply State.dmaInstr_keeps
    | with_reducible apply State.dmaEndActs_keeps
    | intro u hu
    | with_reducible assumption

theorem dmaJump_keeps {s0 : State} {c} {ins} {s} (h : Keeps s0 s) : Keeps s0 (dmaJump c ins s) := by
  unfold dmaJump
  repeat' first
    | extract_lets +onlyGivenNames x
    | with_reducible exact h
    | with_reducible apply State.dmaInstr_keeps
    | with_reducible apply State.setDch_keeps
    | intro u hu
    | with_reducible assumption

theorem dmaLoop_keeps {s0 : State} {c} {ins} {s} (h : Keeps s0 s) : Keeps s0 (dmaLoop c ins s) := by
  unfold dmaLoop
  repeat' first
    | extract_lets +onlyGivenNames x
    | with_reducible exact h
    | with_reducible apply State.dmaInstr_keeps
    | with_reducible apply State.setDch_keeps
    | with_reducible apply State.dmaFault_keeps
    | with_reducible refine Keeps.ite (fun _ => ?_) (fun _ => ?_)
    | intro u hu
    | with_reducible assumption

theorem dmaMove_keeps {s0 : State} {c} {ins} {s} (h : Keeps s0 s) : Keeps s0 (dmaMove c ins s) := by
  unfold dmaMove
  repeat' first
    | extract_lets +onlyGivenNames x
    | with_reducible exact h
    | with_reducible apply State.dmaInstr_keeps
    | with_reducible apply State.dmaFault_keeps
    | with_reducible apply State.setDch_keeps
    | with_reducible refine Keeps.ite (fun _ => ?_) (fun _ => ?_)
    | intro u hu
    | with_reducible assumption
    | split

theorem dmaMoveComplete_keeps {s0 : State} {c} {x} {s} (h : Keeps s0 s) : Keeps s0 (dmaMoveComplete c x s) := by
  unfold dmaMoveComplete
  repeat' first
    | (extract_lets +onlyGivenNames x; refine (fun hx => ?_) (?_ : Keeps s0 x.1); clear_value x; rotate_left; subst x)
    | extract_lets +onlyGivenNames x
    | with_reducible exact h
    | with_reducible apply State.dmaFault_keeps
    | with_reducible apply State.moveOn_keeps
    | with_reducible apply State.moveError_keeps
    | with_reducible apply State.setDch_keeps
    | with_reducible refine Keeps.ite (fun _ => ?_) (fun _ => ?_)
    | with_reducible assumption
    | split

theorem dmaPause_keeps {s0 : State} {e} {c} {s} (h : Keeps s0 s) : Keeps s0 (dmaPause e c s) := by
  unfold dmaPause
  repeat' first
    | (extract_lets +onlyGivenNames x; refine (fun hx => ?_) (?_ : Keeps s0 x); clear_value x; rotate_left; subst x)
    | extract_lets +onlyGivenNames x
    | with_reducible exact h
    | with_reducible apply State.complete_keeps
    | with_reducible apply State.setDch_keeps
    | with_reducible apply State.dmaPaused_keeps
    | with_reducible refine Keeps.ite (fun _ => ?_) (fun _ => ?_)
    | with_reducible assumption

theorem dmaPauseEffect_keeps {s0 : State} {c} {x} {s} (h : Keeps s0 s) : Keeps s0 (dmaPauseEffect c x s) := by
  unfold dmaPauseEffect
  repeat' first
    | (extract_lets +onlyGivenNames x; refine (fun hx => ?_) (?_ : Keeps s0 x.1); clear_value x; rotate_left; subst x)
    | extract_lets +onlyGivenNames x
    | with_reducible exact h
    | with_reducible apply State.moveOn_keeps
    | with_reducible apply State.dmaFault_keeps
    | with_reducible apply State.moveError_keeps
    | with_reducible apply State.dmaPaused_keeps
    | with_reducible refine Keeps.ite (fun _ => ?_) (fun _ => ?_)
    | with_reducible assumption
    | split

theorem dmaResume_keeps {s0 : State} {e} {c} {s} (h : Keeps s0 s) : Keeps s0 (dmaResume e c s) := by
  unfold dmaResume
  repeat' first
    | (extract_lets +onlyGivenNames x; refine (fun hx => ?_) (?_ : Keeps s0 x); clear_value x; rotate_left; subst x)
    | extract_lets +onlyGivenNames x
    | with_reducible exact h
    | with_reducible apply State.complete_keeps
    | with_reducible apply State.dmaAwait_keeps
    | with_reducible apply State.setDch_keeps
    | with_reducible refine Keeps.ite (fun _ => ?_) (fun _ => ?_)
    | with_reducible assumption
    | split

theorem dmaSignal_keeps {s0 : State} {c} {ins} {s} (h : Keeps s0 s) : Keeps s0 (dmaSignal c ins s) := by
  unfold dmaSignal
  repeat' first
    | extract_lets +onlyGivenNames x
    | with_reducible exact h
    | with_reducible apply State.dmaInstr_keeps
    | with_reducible apply State.dmaNext_keeps
    | with_reducible apply State.applyPost_keeps
    | with_reducible apply State.count_keeps
    | with_reducible apply State.hold_keeps
    | with_reducible apply State.setDch_keeps
    | with_reducible refine Keeps.ite (fun _ => ?_) (fun _ => ?_)
    | intro u hu
    | with_reducible assumption

theorem dmaStart_keeps {s0 : State} {e} {c} {s} (h : Keeps s0 s) : Keeps s0 (dmaStart e c s) := by
  unfold dmaStart
  repeat' first
    | extract_lets +onlyGivenNames x
    | with_reducible exact h
    | with_reducible apply State.complete_keeps
    | with_reducible apply State.dmaStartNow_keeps
    | with_reducible apply State.addTimed_keeps
    | with_reducible refine Keeps.ite (fun _ => ?_) (fun _ => ?_)

theorem dmaStop_keeps {s0 : State} {c} {x} {s} (h : Keeps s0 s) : Keeps s0 (dmaStop c x s) := by
  unfold dmaStop
  repeat' first
    | (extract_lets +onlyGivenNames x; refine (fun hx => ?_) (?_ : Keeps s0 x); clear_value x; rotate_left; subst x)
    | extract_lets +onlyGivenNames x
    | with_reducible exact h
    | with_reducible apply State.dmaStopped_keeps
    | with_reducible apply State.count_keeps
    | with_reducible apply State.moveOn_keeps
    | with_reducible refine Keeps.ite (fun _ => ?_) (fun _ => ?_)
    | with_reducible assumption

theorem dmaWait_keeps {s0 : State} {c} {ins} {s} (h : Keeps s0 s) : Keeps s0 (dmaWait c ins s) := by
  unfold dmaWait
  repeat' first
    | extract_lets +onlyGivenNames x
    | with_reducible exact h
    | with_reducible apply State.dmaInstr_keeps
    | with_reducible apply State.dmaAwait_keeps
    | with_reducible apply State.dmaFault_keeps
    | with_reducible refine Keeps.ite (fun _ => ?_) (fun _ => ?_)
    | intro u hu
    | with_reducible assumption

theorem dmaWaitSatisfied_keeps {s0 : State} {c} {s} (h : Keeps s0 s) : Keeps s0 (dmaWaitSatisfied c s) := by
  unfold dmaWaitSatisfied
  repeat' first
    | extract_lets +onlyGivenNames x
    | with_reducible exact h
    | with_reducible apply State.dmaAwait_keeps
    | with_reducible refine Keeps.ite (fun _ => ?_) (fun _ => ?_)
    | split

end Sys2Proof.Machine
end

