-- ==== Sys2Proof/Laws/KeepsExec.lean ====
section
/-!
SUPPORT. Every command leaves the queue alone and keeps `State.sound`, one lemma a command.
-/
namespace Sys2Proof.Machine

theorem writeRow_keeps {off : Nat} {k : State → State} {s out : State} (hk : ∀ u, Keeps s u → Keeps s (k u))
    (e : writeRow off k s = .next out) : Keeps s out := by
  unfold writeRow at e
  split at e
  · cases e
  · cases e
    exact watched_keeps (barWrite_keeps (hk _ (Keeps.refl s)) (Keeps.refl s))

/-! ### GeoUnit -/

theorem execGeometryEvaluationDeadline_keeps {x} {s} {out} (e : execGeometryEvaluationDeadline x s = .next out) : Keeps s out := by
  unfold execGeometryEvaluationDeadline at e
  repeat' split at e
  all_goals cases e
  all_goals have h := Keeps.refl s
  all_goals
    repeat' first
      | extract_lets +onlyGivenNames x
      | with_reducible exact h
      | with_reducible apply State.evaluateGeo_keeps

theorem execJumpCrossfadeEnd_keeps {locker} {s} {out} (e : execJumpCrossfadeEnd locker s = .next out) : Keeps s out := by
  unfold execJumpCrossfadeEnd at e
  repeat' split at e
  all_goals cases e
  all_goals have h := Keeps.refl s
  all_goals
    repeat' first
      | extract_lets +onlyGivenNames x
      | with_reducible exact h
      | with_reducible apply State.setLocker_keeps

theorem execLockerDisable_keeps {locker} {s} {out} (e : execLockerDisable locker s = .next out) : Keeps s out := by
  unfold execLockerDisable at e
  repeat' split at e
  all_goals cases e
  all_goals have h := Keeps.refl s
  all_goals
    repeat' first
      | extract_lets +onlyGivenNames x
      | with_reducible exact h
      | with_reducible apply State.setLocker_keeps

theorem execProbeCapture_keeps {s out} (e : execProbeCapture s = .next out) : Keeps s out := by
  unfold execProbeCapture at e
  split at e
  · cases e
    exact Keeps.refl s
  · cases e
    have h := Keeps.refl s
    refine Keeps.ite (fun _ => ?_) (fun _ => h)
    repeat' first
      | (extract_lets +onlyGivenNames x; have _hx : (x : Option _) = x := rfl; clear_value x)
      | (extract_lets +onlyGivenNames x; refine (fun hx => ?_) (?_ : Keeps s x); clear_value x; rotate_left; subst x)
      | extract_lets +onlyGivenNames x
      | with_reducible exact h
      | with_reducible apply State.probeRegs_keeps
      | with_reducible assumption
      | split
      | with_reducible refine Keeps.record rfl rfl rfl rfl ?_

theorem execPruneHoldEnd_keeps {locker} {set} {speaker} {s} {out} (e : execPruneHoldEnd locker set speaker s = .next out) : Keeps s out := by
  unfold execPruneHoldEnd at e
  cases e
  all_goals have h := Keeps.refl s
  all_goals
    repeat' first
      | extract_lets +onlyGivenNames x
      | with_reducible exact h
      | with_reducible refine Keeps.record rfl rfl rfl rfl ?_

theorem execXfadeDone_keeps {s} {out} (e : execXfadeDone s = .next out) : Keeps s out := by
  unfold execXfadeDone at e
  repeat' split at e
  all_goals cases e
  all_goals have h := Keeps.refl s
  all_goals
    repeat' first
      | extract_lets +onlyGivenNames x
      | with_reducible exact h
      | with_reducible apply State.evt_keeps
      | with_reducible refine Keeps.record rfl rfl rfl rfl ?_

/-! ### DmaCore -/

theorem execDmaCtlAbort_keeps {c} {s} {out} (e : execDmaCtlAbort c s = .next out) : Keeps s out := by
  unfold execDmaCtlAbort at e
  cases e
  all_goals have h := Keeps.refl s
  all_goals
    repeat' first
      | extract_lets +onlyGivenNames x
      | with_reducible exact h
      | with_reducible apply barWrite_keeps
      | with_reducible apply dmaCtlAbort_keeps

theorem execDmaDoorbell_keeps {c} {s} {out} (e : execDmaDoorbell c s = .next out) : Keeps s out := by
  unfold execDmaDoorbell at e
  cases e
  all_goals have h := Keeps.refl s
  all_goals
    repeat' first
      | extract_lets +onlyGivenNames x
      | with_reducible exact h
      | with_reducible apply barWrite_keeps
      | with_reducible apply dmaDoorbell_keeps

theorem execDmaModeWrite_keeps {v} {s} {out} (e : execDmaModeWrite v s = .next out) : Keeps s out := by
  unfold execDmaModeWrite at e
  cases e
  all_goals have h := Keeps.refl s
  all_goals
    repeat' first
      | extract_lets +onlyGivenNames x
      | with_reducible exact h
      | with_reducible apply barWrite_keeps
      | with_reducible apply dmaModeWrite_keeps

/-! ### Sched -/

theorem execHeldPostApply_keeps {s} {out} (e : execHeldPostApply s = .next out) : Keeps s out := by
  unfold execHeldPostApply at e
  cases e
  all_goals have h := Keeps.refl s
  all_goals
    repeat' first
      | extract_lets +onlyGivenNames x
      | with_reducible exact h
      | with_reducible apply heldPostApply_keeps

theorem execInboxWritten_keeps {task} {s} {out} (e : execInboxWritten task s = .next out) : Keeps s out := by
  unfold execInboxWritten at e
  cases e
  all_goals have h := Keeps.refl s
  all_goals
    repeat' first
      | extract_lets +onlyGivenNames x
      | with_reducible exact h
      | with_reducible apply State.inboxWritten_keeps

theorem execRunaway_keeps {desk} {s} {out} (e : execRunaway desk s = .next out) : Keeps s out := by
  unfold execRunaway at e
  cases e
  all_goals have h := Keeps.refl s
  all_goals
    repeat' first
      | extract_lets +onlyGivenNames x
      | with_reducible exact h
      | with_reducible apply runaway_keeps

theorem execTaskCutoff_keeps {task} {s} {out} (e : execTaskCutoff task s = .next out) : Keeps s out := by
  unfold execTaskCutoff at e
  cases e
  all_goals have h := Keeps.refl s
  all_goals
    repeat' first
      | extract_lets +onlyGivenNames x
      | with_reducible exact h
      | with_reducible apply State.cutoff_keeps

theorem execTaskDispatch_keeps {desk} {s} {out} (e : execTaskDispatch desk s = .next out) : Keeps s out := by
  unfold execTaskDispatch at e
  cases e
  all_goals have h := Keeps.refl s
  all_goals
    repeat' first
      | extract_lets +onlyGivenNames x
      | with_reducible exact h
      | with_reducible apply State.dispatch_keeps

theorem execTaskRemoval_keeps {task} {s} {out} (e : execTaskRemoval task s = .next out) : Keeps s out := by
  unfold execTaskRemoval at e
  repeat' split at e
  all_goals cases e
  all_goals have h := Keeps.refl s
  all_goals
    repeat' first
      | extract_lets +onlyGivenNames x
      | with_reducible exact h
      | with_reducible apply State.finishTask_keeps

/-! ### Clock -/

theorem execAtticClkAbsent_keeps {s} {out} (e : execAtticClkAbsent s = .next out) : Keeps s out := by
  unfold execAtticClkAbsent at e
  cases e
  all_goals have h := Keeps.refl s
  all_goals
    repeat' first
      | extract_lets +onlyGivenNames x
      | with_reducible exact h
      | with_reducible apply atticClk_keeps

theorem execAtticClkPresent_keeps {s} {out} (e : execAtticClkPresent s = .next out) : Keeps s out := by
  unfold execAtticClkPresent at e
  cases e
  all_goals have h := Keeps.refl s
  all_goals
    repeat' first
      | extract_lets +onlyGivenNames x
      | with_reducible exact h
      | with_reducible apply atticClk_keeps

theorem execAtticTimeReload_keeps {s} {out} (e : execAtticTimeReload s = .next out) : Keeps s out := by
  unfold execAtticTimeReload at e
  cases e
  all_goals have h := Keeps.refl s
  all_goals
    repeat' first
      | extract_lets +onlyGivenNames x
      | with_reducible exact h
      | with_reducible apply atticTimeReload_keeps

theorem execForcePrimary_keeps {s} {out} (e : execForcePrimary s = .next out) : Keeps s out := by
  unfold execForcePrimary at e
  cases e
  all_goals have h := Keeps.refl s
  all_goals
    repeat' first
      | extract_lets +onlyGivenNames x
      | with_reducible exact h
      | with_reducible apply barWrite_keeps
      | with_reducible apply forceMedia_keeps

theorem execForceSecondary_keeps {s} {out} (e : execForceSecondary s = .next out) : Keeps s out := by
  unfold execForceSecondary at e
  cases e
  all_goals have h := Keeps.refl s
  all_goals
    repeat' first
      | extract_lets +onlyGivenNames x
      | with_reducible exact h
      | with_reducible apply barWrite_keeps
      | with_reducible apply forceMedia_keeps

theorem execHoldoverExpiry_keeps {s} {out} (e : execHoldoverExpiry s = .next out) : Keeps s out := by
  unfold execHoldoverExpiry at e
  cases e
  all_goals have h := Keeps.refl s
  all_goals
    repeat' first
      | extract_lets +onlyGivenNames x
      | with_reducible exact h
      | with_reducible apply holdoverExpiry_keeps

theorem execMediaChangeover_keeps {s} {out} (e : execMediaChangeover s = .next out) : Keeps s out := by
  unfold execMediaChangeover at e
  cases e
  all_goals have h := Keeps.refl s
  all_goals
    repeat' first
      | extract_lets +onlyGivenNames x
      | with_reducible exact h
      | with_reducible apply mediaChangeover_keeps

theorem execPpsInPulse_keeps {s} {out} (e : execPpsInPulse s = .next out) : Keeps s out := by
  unfold execPpsInPulse at e
  cases e
  all_goals have h := Keeps.refl s
  all_goals
    repeat' first
      | extract_lets +onlyGivenNames x
      | with_reducible exact h
      | with_reducible apply ppsInPulse_keeps

theorem execPpsWidthEnd_keeps {s} {out} (e : execPpsWidthEnd s = .next out) : Keeps s out := by
  unfold execPpsWidthEnd at e
  cases e
  all_goals have h := Keeps.refl s
  all_goals
    repeat' first
      | extract_lets +onlyGivenNames x
      | with_reducible exact h
      | with_reducible apply ppsWidthEnd_keeps

theorem execRevertTimeout_keeps {s} {out} (e : execRevertTimeout s = .next out) : Keeps s out := by
  unfold execRevertTimeout at e
  cases e
  all_goals have h := Keeps.refl s
  all_goals
    repeat' first
      | extract_lets +onlyGivenNames x
      | with_reducible exact h
      | with_reducible apply revertTimeout_keeps

theorem execSlewEnd_keeps {s} {out} (e : execSlewEnd s = .next out) : Keeps s out := by
  unfold execSlewEnd at e
  cases e
  all_goals have h := Keeps.refl s
  all_goals
    repeat' first
      | extract_lets +onlyGivenNames x
      | with_reducible exact h
      | with_reducible apply slewEnd_keeps

theorem execSourceLost_keeps {tb} {s} {out} (e : execSourceLost tb s = .next out) : Keeps s out := by
  unfold execSourceLost at e
  cases e
  all_goals have h := Keeps.refl s
  all_goals
    repeat' first
      | extract_lets +onlyGivenNames x
      | with_reducible exact h
      | with_reducible apply sourceLost_keeps

theorem execTimeBaseLocked_keeps {tb} {s} {out} (e : execTimeBaseLocked tb s = .next out) : Keeps s out := by
  unfold execTimeBaseLocked at e
  cases e
  all_goals have h := Keeps.refl s
  all_goals
    repeat' first
      | extract_lets +onlyGivenNames x
      | with_reducible exact h
      | with_reducible apply timeBaseLocked_keeps

theorem execTimeBaseUnlock_keeps {tb} {s} {out} (e : execTimeBaseUnlock tb s = .next out) : Keeps s out := by
  unfold execTimeBaseUnlock at e
  cases e
  all_goals have h := Keeps.refl s
  all_goals
    repeat' first
      | extract_lets +onlyGivenNames x
      | with_reducible exact h
      | with_reducible apply timeBaseUnlock_keeps

theorem execTmbHoldoverLimitWrite_keeps {v} {s} {out} (e : execTmbHoldoverLimitWrite v s = .next out) : Keeps s out := by
  unfold execTmbHoldoverLimitWrite at e
  cases e
  all_goals have h := Keeps.refl s
  all_goals
    repeat' first
      | extract_lets +onlyGivenNames x
      | with_reducible exact h
      | with_reducible apply barWrite_keeps
      | with_reducible apply State.setReg_keeps

theorem execTmbOriginWrite_keeps {v} {s} {out} (e : execTmbOriginWrite v s = .next out) : Keeps s out := by
  unfold execTmbOriginWrite at e
  cases e
  all_goals have h := Keeps.refl s
  all_goals
    repeat' first
      | extract_lets +onlyGivenNames x
      | with_reducible exact h
      | with_reducible apply barWrite_keeps
      | with_reducible apply tmbOriginWrite_keeps

theorem execTmbSetSecWrite_keeps {tb} {hi} {s} {out} (e : execTmbSetSecWrite tb hi s = .next out) : Keeps s out := by
  unfold execTmbSetSecWrite at e
  cases e
  all_goals have h := Keeps.refl s
  all_goals
    repeat' first
      | extract_lets +onlyGivenNames x
      | with_reducible exact h
      | with_reducible apply barWrite_keeps
      | with_reducible apply State.setSec_keeps

theorem execTmbSnapGo_keeps {s} {out} (e : execTmbSnapGo s = .next out) : Keeps s out := by
  unfold execTmbSnapGo at e
  cases e
  all_goals have h := Keeps.refl s
  all_goals
    repeat' first
      | extract_lets +onlyGivenNames x
      | with_reducible exact h
      | with_reducible apply barWrite_keeps
      | with_reducible apply tmbSnapGo_keeps

theorem execTmbTbCfgWrite_keeps {tb} {v} {s} {out} (e : execTmbTbCfgWrite tb v s = .next out) : Keeps s out := by
  unfold execTmbTbCfgWrite at e
  cases e
  all_goals have h := Keeps.refl s
  all_goals
    repeat' first
      | extract_lets +onlyGivenNames x
      | with_reducible exact h
      | with_reducible apply barWrite_keeps
      | with_reducible apply tmbTbCfgWrite_keeps

theorem execWclkMeasurement_keeps {offsetNs} {s} {out} (e : execWclkMeasurement offsetNs s = .next out) : Keeps s out := by
  unfold execWclkMeasurement at e
  repeat' split at e
  all_goals cases e
  all_goals have h := Keeps.refl s
  all_goals
    repeat' first
      | extract_lets +onlyGivenNames x
      | with_reducible exact h
      | with_reducible apply State.measureTb_keeps

theorem execWholeSecond_keeps {tb} {s} {out} (e : execWholeSecond tb s = .next out) : Keeps s out := by
  unfold execWholeSecond at e
  cases e
  all_goals have h := Keeps.refl s
  all_goals
    repeat' first
      | extract_lets +onlyGivenNames x
      | with_reducible exact h
      | with_reducible apply wholeSecond_keeps

/-! ### Timetable -/

theorem execBellCancel_keeps {e} {s} {out} (e : execBellCancel e s = .next out) : Keeps s out := by
  unfold execBellCancel at e
  cases e
  all_goals have h := Keeps.refl s
  all_goals
    repeat' first
      | extract_lets +onlyGivenNames x
      | with_reducible exact h
      | with_reducible apply hostCommand_keeps
      | with_reducible apply bellCancel_keeps

theorem execBellSet_keeps {e} {s} {out} (e : execBellSet e s = .next out) : Keeps s out := by
  unfold execBellSet at e
  cases e
  all_goals have h := Keeps.refl s
  all_goals
    repeat' first
      | extract_lets +onlyGivenNames x
      | with_reducible exact h
      | with_reducible apply hostCommand_keeps
      | with_reducible apply bellSet_keeps

theorem execEpochCancel_keeps {e} {s} {out} (e : execEpochCancel e s = .next out) : Keeps s out := by
  unfold execEpochCancel at e
  cases e
  all_goals have h := Keeps.refl s
  all_goals
    repeat' first
      | extract_lets +onlyGivenNames x
      | with_reducible exact h
      | with_reducible apply hostCommand_keeps
      | with_reducible apply epochCancel_keeps

theorem execEpochCommit_keeps {e} {s} {out} (e : execEpochCommit e s = .next out) : Keeps s out := by
  unfold execEpochCommit at e
  cases e
  all_goals have h := Keeps.refl s
  all_goals
    repeat' first
      | extract_lets +onlyGivenNames x
      | with_reducible exact h
      | with_reducible apply hostCommand_keeps
      | with_reducible apply epochCommit_keeps

theorem execEpochExpire_keeps {id} {s} {out} (e : execEpochExpire id s = .next out) : Keeps s out := by
  unfold execEpochExpire at e
  cases e
  all_goals have h := Keeps.refl s
  all_goals
    repeat' first
      | extract_lets +onlyGivenNames x
      | with_reducible exact h
      | with_reducible apply epochExpire_keeps

theorem execEpochMemberStaged_keeps {id} {member} {s} {out} (e : execEpochMemberStaged id member s = .next out) : Keeps s out := by
  unfold execEpochMemberStaged at e
  cases e
  all_goals have h := Keeps.refl s
  all_goals
    repeat' first
      | extract_lets +onlyGivenNames x
      | with_reducible exact h
      | with_reducible apply epochMemberStaged_keeps

theorem execEpochOpen_keeps {e} {s} {out} (e : execEpochOpen e s = .next out) : Keeps s out := by
  unfold execEpochOpen at e
  cases e
  all_goals have h := Keeps.refl s
  all_goals
    repeat' first
      | extract_lets +onlyGivenNames x
      | with_reducible exact h
      | with_reducible apply hostCommand_keeps
      | with_reducible apply epochOpen_keeps

theorem execEpochSplit_keeps {id} {s} {out} (e : execEpochSplit id s = .next out) : Keeps s out := by
  unfold execEpochSplit at e
  cases e
  all_goals have h := Keeps.refl s
  all_goals
    repeat' first
      | extract_lets +onlyGivenNames x
      | with_reducible exact h
      | with_reducible apply epochSplit_keeps

/-! ### Memory -/

theorem execActivationWindowReset_keeps {s} {out} (e : execActivationWindowReset s = .next out) : Keeps s out := by
  unfold execActivationWindowReset at e
  cases e
  all_goals have h := Keeps.refl s
  all_goals
    repeat' first
      | extract_lets +onlyGivenNames x
      | with_reducible exact h
      | with_reducible apply State.setMemory_keeps
      | with_reducible rfl

theorem execAlertNPulse_keeps {sub} {during} {recent} {s} {out} (e : execAlertNPulse sub during recent s = .next out) : Keeps s out := by
  unfold execAlertNPulse at e
  cases e
  all_goals have h := Keeps.refl s
  all_goals
    repeat' first
      | extract_lets +onlyGivenNames x
      | with_reducible exact h
      | with_reducible apply alertNPulse_keeps

theorem execDramScrub_keeps {addr} {outcome} {s} {out} (e : execDramScrub addr outcome s = .next out) : Keeps s out := by
  unfold execDramScrub at e
  cases e
  all_goals have h := Keeps.refl s
  all_goals
    repeat' first
      | extract_lets +onlyGivenNames x
      | with_reducible exact h
      | with_reducible apply dramScrub_keeps

theorem execMr4Read_keeps {ch} {doubled} {s} {out} (e : execMr4Read ch doubled s = .next out) : Keeps s out := by
  unfold execMr4Read at e
  cases e
  all_goals have h := Keeps.refl s
  all_goals
    repeat' first
      | extract_lets +onlyGivenNames x
      | with_reducible exact h
      | with_reducible apply mr4Read_keeps

theorem execNeighbourRefresh_keeps {sub} {bank} {row} {s} {out} (e : execNeighbourRefresh sub bank row s = .next out) : Keeps s out := by
  unfold execNeighbourRefresh at e
  cases e
  all_goals have h := Keeps.refl s
  all_goals
    repeat' first
      | extract_lets +onlyGivenNames x
      | with_reducible exact h
      | with_reducible apply neighbourRefresh_keeps

theorem execRefreshInterval_keeps {sub} {issued} {catchUp} {s} {out} (e : execRefreshInterval sub issued catchUp s = .next out) : Keeps s out := by
  unfold execRefreshInterval at e
  cases e
  all_goals have h := Keeps.refl s
  all_goals
    repeat' first
      | extract_lets +onlyGivenNames x
      | with_reducible exact h
      | with_reducible apply refreshInterval_keeps

theorem execRefreshRateReturn_keeps {ch} {s} {out} (e : execRefreshRateReturn ch s = .next out) : Keeps s out := by
  unfold execRefreshRateReturn at e
  cases e
  all_goals have h := Keeps.refl s
  all_goals
    repeat' first
      | extract_lets +onlyGivenNames x
      | with_reducible exact h
      | with_reducible apply refreshRateReturn_keeps

theorem execRetrainDue_keeps {ch} {s} {out} (e : execRetrainDue ch s = .next out) : Keeps s out := by
  unfold execRetrainDue at e
  cases e
  all_goals have h := Keeps.refl s
  all_goals
    repeat' first
      | extract_lets +onlyGivenNames x
      | with_reducible exact h
      | with_reducible apply retrainDue_keeps

theorem execRetrainEnd_keeps {ch} {found} {s} {out} (e : execRetrainEnd ch found s = .next out) : Keeps s out := by
  unfold execRetrainEnd at e
  cases e
  all_goals have h := Keeps.refl s
  all_goals
    repeat' first
      | extract_lets +onlyGivenNames x
      | with_reducible exact h
      | with_reducible apply retrainEnd_keeps

theorem execRetrainRetry_keeps {ch} {s} {out} (e : execRetrainRetry ch s = .next out) : Keeps s out := by
  unfold execRetrainRetry at e
  cases e
  all_goals have h := Keeps.refl s
  all_goals
    repeat' first
      | extract_lets +onlyGivenNames x
      | with_reducible exact h
      | with_reducible apply retrainRetry_keeps

theorem execRetrainSlice_keeps {ch} {ns} {s} {out} (e : execRetrainSlice ch ns s = .next out) : Keeps s out := by
  unfold execRetrainSlice at e
  cases e
  all_goals have h := Keeps.refl s
  all_goals
    repeat' first
      | extract_lets +onlyGivenNames x
      | with_reducible exact h
      | with_reducible apply retrainSlice_keeps

theorem execSramScrub_keeps {errors} {s} {out} (e : execSramScrub errors s = .next out) : Keeps s out := by
  unfold execSramScrub at e
  cases e
  all_goals have h := Keeps.refl s
  all_goals
    repeat' first
      | extract_lets +onlyGivenNames x
      | with_reducible exact h
      | with_reducible apply sramScrub_keeps

/-! ### ObjCmds -/

theorem execAirSet_keeps {e} {s} {out} (e : execAirSet e s = .next out) : Keeps s out := by
  unfold execAirSet at e
  cases e
  all_goals have h := Keeps.refl s
  all_goals
    repeat' first
      | extract_lets +onlyGivenNames x
      | with_reducible exact h
      | with_reducible apply hostCommand_keeps
      | with_reducible apply airSet_keeps

theorem execCaptureFrameWritten_keeps {dramError} {s} {out} (e : execCaptureFrameWritten dramError s = .next out) : Keeps s out := by
  unfold execCaptureFrameWritten at e
  cases e
  all_goals have h := Keeps.refl s
  all_goals
    repeat' first
      | extract_lets +onlyGivenNames x
      | with_reducible exact h
      | with_reducible apply captureFrameWritten_keeps

theorem execCaptureStart_keeps {e} {s} {out} (e : execCaptureStart e s = .next out) : Keeps s out := by
  unfold execCaptureStart at e
  cases e
  all_goals have h := Keeps.refl s
  all_goals
    repeat' first
      | extract_lets +onlyGivenNames x
      | with_reducible exact h
      | with_reducible apply hostCommand_keeps
      | with_reducible apply captureStart_keeps

theorem execCaptureStop_keeps {e} {s} {out} (e : execCaptureStop e s = .next out) : Keeps s out := by
  unfold execCaptureStop at e
  cases e
  all_goals have h := Keeps.refl s
  all_goals
    repeat' first
      | extract_lets +onlyGivenNames x
      | with_reducible exact h
      | with_reducible apply hostCommand_keeps
      | with_reducible apply captureStop_keeps

theorem execObjConfig_keeps {e} {s} {out} (e : execObjConfig e s = .next out) : Keeps s out := by
  unfold execObjConfig at e
  cases e
  all_goals have h := Keeps.refl s
  all_goals
    repeat' first
      | extract_lets +onlyGivenNames x
      | with_reducible exact h
      | with_reducible apply hostCommand_keeps
      | with_reducible apply objConfig_keeps

theorem execObjEq_keeps {e} {s} {out} (e : execObjEq e s = .next out) : Keeps s out := by
  unfold execObjEq at e
  cases e
  all_goals have h := Keeps.refl s
  all_goals
    repeat' first
      | extract_lets +onlyGivenNames x
      | with_reducible exact h
      | with_reducible apply hostCommand_keeps
      | with_reducible apply objEq_keeps

theorem execObjGain_keeps {e} {s} {out} (e : execObjGain e s = .next out) : Keeps s out := by
  unfold execObjGain at e
  cases e
  all_goals have h := Keeps.refl s
  all_goals
    repeat' first
      | extract_lets +onlyGivenNames x
      | with_reducible exact h
      | with_reducible apply hostCommand_keeps
      | with_reducible apply objGain_keeps

theorem execObjPosition_keeps {e} {s} {out} (e : execObjPosition e s = .next out) : Keeps s out := by
  unfold execObjPosition at e
  cases e
  all_goals have h := Keeps.refl s
  all_goals
    repeat' first
      | extract_lets +onlyGivenNames x
      | with_reducible exact h
      | with_reducible apply hostCommand_keeps
      | with_reducible apply objPosition_keeps

theorem execReplaySet_keeps {e} {s} {out} (e : execReplaySet e s = .next out) : Keeps s out := by
  unfold execReplaySet at e
  cases e
  all_goals have h := Keeps.refl s
  all_goals
    repeat' first
      | extract_lets +onlyGivenNames x
      | with_reducible exact h
      | with_reducible apply hostCommand_keeps
      | with_reducible apply replaySet_keeps

/-! ### SpkCmds -/

theorem execAlignFadeOutEnd_keeps {feed} {s} {out} (e : execAlignFadeOutEnd feed s = .next out) : Keeps s out := by
  unfold execAlignFadeOutEnd at e
  cases e
  all_goals have h := Keeps.refl s
  all_goals
    repeat' first
      | extract_lets +onlyGivenNames x
      | with_reducible exact h
      | with_reducible apply alignFadeOutEnd_keeps

theorem execCorridorSet_keeps {e} {s} {out} (e : execCorridorSet e s = .next out) : Keeps s out := by
  unfold execCorridorSet at e
  cases e
  all_goals have h := Keeps.refl s
  all_goals
    repeat' first
      | extract_lets +onlyGivenNames x
      | with_reducible exact h
      | with_reducible apply hostCommand_keeps
      | with_reducible apply corridorSet_keeps

theorem execFeedConfig_keeps {e} {s} {out} (e : execFeedConfig e s = .next out) : Keeps s out := by
  unfold execFeedConfig at e
  cases e
  all_goals have h := Keeps.refl s
  all_goals
    repeat' first
      | extract_lets +onlyGivenNames x
      | with_reducible exact h
      | with_reducible apply hostCommand_keeps
      | with_reducible apply feedConfig_keeps

theorem execFirCrossfadeEnd_keeps {feed} {s} {out} (e : execFirCrossfadeEnd feed s = .next out) : Keeps s out := by
  unfold execFirCrossfadeEnd at e
  cases e
  all_goals have h := Keeps.refl s
  all_goals
    repeat' first
      | extract_lets +onlyGivenNames x
      | with_reducible exact h
      | with_reducible apply firCrossfadeEnd_keeps

theorem execFirLoad_keeps {e} {s} {out} (e : execFirLoad e s = .next out) : Keeps s out := by
  unfold execFirLoad at e
  cases e
  all_goals have h := Keeps.refl s
  all_goals
    repeat' first
      | extract_lets +onlyGivenNames x
      | with_reducible exact h
      | with_reducible apply hostCommand_keeps
      | with_reducible apply firLoad_keeps

theorem execForceMuteWrite_keeps {on} {s} {out} (e : execForceMuteWrite on s = .next out) : Keeps s out := by
  unfold execForceMuteWrite at e
  cases e
  all_goals have h := Keeps.refl s
  all_goals
    repeat' first
      | extract_lets +onlyGivenNames x
      | with_reducible exact h
      | with_reducible apply barWrite_keeps
      | with_reducible apply forceWrite_keeps

theorem execForceOvrWrite_keeps {on} {s} {out} (e : execForceOvrWrite on s = .next out) : Keeps s out := by
  unfold execForceOvrWrite at e
  cases e
  all_goals have h := Keeps.refl s
  all_goals
    repeat' first
      | extract_lets +onlyGivenNames x
      | with_reducible exact h
      | with_reducible apply barWrite_keeps
      | with_reducible apply forceWrite_keeps

theorem execLimiterSet_keeps {e} {s} {out} (e : execLimiterSet e s = .next out) : Keeps s out := by
  unfold execLimiterSet at e
  cases e
  all_goals have h := Keeps.refl s
  all_goals
    repeat' first
      | extract_lets +onlyGivenNames x
      | with_reducible exact h
      | with_reducible apply hostCommand_keeps
      | with_reducible apply limiterSet_keeps

theorem execMatrixSet_keeps {e} {s} {out} (e : execMatrixSet e s = .next out) : Keeps s out := by
  unfold execMatrixSet at e
  cases e
  all_goals have h := Keeps.refl s
  all_goals
    repeat' first
      | extract_lets +onlyGivenNames x
      | with_reducible exact h
      | with_reducible apply hostCommand_keeps
      | with_reducible apply matrixSet_keeps

theorem execMuteNChange_keeps {s} {out} (e : execMuteNChange s = .next out) : Keeps s out := by
  unfold execMuteNChange at e
  cases e
  all_goals have h := Keeps.refl s
  all_goals
    repeat' first
      | extract_lets +onlyGivenNames x
      | with_reducible exact h
      | with_reducible apply muteNChange_keeps

theorem execOverrideNChange_keeps {s} {out} (e : execOverrideNChange s = .next out) : Keeps s out := by
  unfold execOverrideNChange at e
  cases e
  all_goals have h := Keeps.refl s
  all_goals
    repeat' first
      | extract_lets +onlyGivenNames x
      | with_reducible exact h
      | with_reducible apply overrideNChange_keeps

theorem execPilotWindowEnd_keeps {feed} {s} {out} (e : execPilotWindowEnd feed s = .next out) : Keeps s out := by
  unfold execPilotWindowEnd at e
  cases e
  all_goals have h := Keeps.refl s
  all_goals
    repeat' first
      | extract_lets +onlyGivenNames x
      | with_reducible exact h
      | with_reducible apply pilotWindowEnd_keeps

/-! ### Serial -/

theorem execBclkLoss_keeps {g} {s} {out} (e : execBclkLoss g s = .next out) : Keeps s out := by
  unfold execBclkLoss at e
  cases e
  all_goals have h := Keeps.refl s
  all_goals
    repeat' first
      | extract_lets +onlyGivenNames x
      | with_reducible exact h
      | with_reducible apply bclkLoss_keeps

theorem execBclkReturn_keeps {g} {s} {out} (e : execBclkReturn g s = .next out) : Keeps s out := by
  unfold execBclkReturn at e
  cases e
  all_goals have h := Keeps.refl s
  all_goals
    repeat' first
      | extract_lets +onlyGivenNames x
      | with_reducible exact h
      | with_reducible apply bclkReturn_keeps

theorem execFrameStartEdge_keeps {g} {words} {s} {out} (e : execFrameStartEdge g words s = .next out) : Keeps s out := by
  unfold execFrameStartEdge at e
  cases e
  all_goals have h := Keeps.refl s
  all_goals
    repeat' first
      | extract_lets +onlyGivenNames x
      | with_reducible exact h
      | with_reducible apply frameStartEdge_keeps

theorem execFsyncGlitch_keeps {g} {s} {out} (e : execFsyncGlitch g s = .next out) : Keeps s out := by
  unfold execFsyncGlitch at e
  cases e
  all_goals have h := Keeps.refl s
  all_goals
    repeat' first
      | extract_lets +onlyGivenNames x
      | with_reducible exact h
      | with_reducible apply fsyncGlitch_keeps

theorem execFsyncMissing_keeps {g} {words} {s} {out} (e : execFsyncMissing g words s = .next out) : Keeps s out := by
  unfold execFsyncMissing at e
  cases e
  all_goals have h := Keeps.refl s
  all_goals
    repeat' first
      | extract_lets +onlyGivenNames x
      | with_reducible exact h
      | with_reducible apply fsyncMissing_keeps

theorem execGroupLock_keeps {g} {s} {out} (e : execGroupLock g s = .next out) : Keeps s out := by
  unfold execGroupLock at e
  cases e
  all_goals have h := Keeps.refl s
  all_goals
    repeat' first
      | extract_lets +onlyGivenNames x
      | with_reducible exact h
      | with_reducible apply groupLock_keeps

theorem execMaskPairApply_keeps {p} {s} {out} (e : execMaskPairApply p s = .next out) : Keeps s out := by
  unfold execMaskPairApply at e
  cases e
  all_goals have h := Keeps.refl s
  all_goals
    repeat' first
      | extract_lets +onlyGivenNames x
      | with_reducible exact h
      | with_reducible apply maskPairApply_keeps

theorem execRateStep_keeps {g} {s} {out} (e : execRateStep g s = .next out) : Keeps s out := by
  unfold execRateStep at e
  cases e
  all_goals have h := Keeps.refl s
  all_goals
    repeat' first
      | extract_lets +onlyGivenNames x
      | with_reducible exact h
      | with_reducible apply rateStep_keeps

theorem execSapGroupCfgWrite_keeps {g} {v} {s} {out} (e : execSapGroupCfgWrite g v s = .next out) : Keeps s out := by
  unfold execSapGroupCfgWrite at e
  cases e
  all_goals have h := Keeps.refl s
  all_goals
    repeat' first
      | extract_lets +onlyGivenNames x
      | with_reducible exact h
      | with_reducible apply barWrite_keeps
      | with_reducible apply sapGroupCfgWrite_keeps

theorem execSapMaskctlWrite_keeps {p} {v} {s} {out} (e : execSapMaskctlWrite p v s = .next out) : Keeps s out := by
  unfold execSapMaskctlWrite at e
  cases e
  all_goals have h := Keeps.refl s
  all_goals
    repeat' first
      | extract_lets +onlyGivenNames x
      | with_reducible exact h
      | with_reducible apply barWrite_keeps
      | with_reducible apply sapMaskctlWrite_keeps

theorem execSapPortCfgWrite_keeps {p} {v} {s} {out} (e : execSapPortCfgWrite p v s = .next out) : Keeps s out := by
  unfold execSapPortCfgWrite at e
  cases e
  all_goals have h := Keeps.refl s
  all_goals
    repeat' first
      | extract_lets +onlyGivenNames x
      | with_reducible exact h
      | with_reducible apply barWrite_keeps
      | with_reducible apply sapPortCfgWrite_keeps

/-! ### Network -/

theorem execArpRequest_keeps {port} {target} {sender} {s} {out} (e : execArpRequest port target sender s = .next out) : Keeps s out := by
  unfold execArpRequest at e
  cases e
  all_goals have h := Keeps.refl s
  all_goals
    repeat' first
      | extract_lets +onlyGivenNames x
      | with_reducible exact h
      | with_reducible apply State.netSend_keeps
      | with_reducible refine Keeps.ite (fun _ => ?_) (fun _ => ?_)

theorem execAutoSpeedTimeout_keeps {port} {s} {out} (e : execAutoSpeedTimeout port s = .next out) : Keeps s out := by
  unfold execAutoSpeedTimeout at e
  cases e
  all_goals have h := Keeps.refl s
  all_goals
    repeat' first
      | extract_lets +onlyGivenNames x
      | with_reducible exact h
      | with_reducible apply autoSpeedTimeout_keeps

theorem execFlowAdd_keeps {e} {s} {out} (e : execFlowAdd e s = .next out) : Keeps s out := by
  unfold execFlowAdd at e
  cases e
  all_goals have h := Keeps.refl s
  all_goals
    repeat' first
      | extract_lets +onlyGivenNames x
      | with_reducible exact h
      | with_reducible apply hostCommand_keeps
      | with_reducible apply flowAdd_keeps

theorem execFlowRemove_keeps {e} {s} {out} (e : execFlowRemove e s = .next out) : Keeps s out := by
  unfold execFlowRemove at e
  cases e
  all_goals have h := Keeps.refl s
  all_goals
    repeat' first
      | extract_lets +onlyGivenNames x
      | with_reducible exact h
      | with_reducible apply hostCommand_keeps
      | with_reducible apply flowRemove_keeps

theorem execIcmpEcho_keeps {port} {dest} {sender} {payload} {s} {out} (e : execIcmpEcho port dest sender payload s = .next out) : Keeps s out := by
  unfold execIcmpEcho at e
  cases e
  all_goals have h := Keeps.refl s
  all_goals
    repeat' first
      | extract_lets +onlyGivenNames x
      | with_reducible exact h
      | with_reducible apply State.netSend_keeps
      | with_reducible refine Keeps.ite (fun _ => ?_) (fun _ => ?_)

theorem execIgmpQuery_keeps {port} {v2} {s} {out} (e : execIgmpQuery port v2 s = .next out) : Keeps s out := by
  unfold execIgmpQuery at e
  cases e
  all_goals have h := Keeps.refl s
  all_goals
    repeat' first
      | extract_lets +onlyGivenNames x
      | with_reducible exact h
      | with_reducible apply igmpQuery_keeps

theorem execModuleI2cDone_keeps {mod_} {data} {nack} {s} {out} (e : execModuleI2cDone mod_ data nack s = .next out) : Keeps s out := by
  unfold execModuleI2cDone at e
  cases e
  all_goals have h := Keeps.refl s
  all_goals
    repeat' first
      | extract_lets +onlyGivenNames x
      | with_reducible exact h
      | with_reducible apply moduleI2cDone_keeps

theorem execModuleI2cGo_keeps {mod_} {v} {s} {out} (e : execModuleI2cGo mod_ v s = .next out) : Keeps s out := by
  unfold execModuleI2cGo at e
  cases e
  all_goals have h := Keeps.refl s
  all_goals
    repeat' first
      | extract_lets +onlyGivenNames x
      | with_reducible exact h
      | with_reducible apply barWrite_keeps
      | with_reducible apply moduleI2cGo_keeps

theorem execNetLinkChange_keeps {port} {link} {s} {out} (e : execNetLinkChange port link s = .next out) : Keeps s out := by
  unfold execNetLinkChange at e
  cases e
  all_goals have h := Keeps.refl s
  all_goals
    repeat' first
      | extract_lets +onlyGivenNames x
      | with_reducible exact h
      | with_reducible apply netLinkChange_keeps

theorem execNetTrsCfgWrite_keeps {off} {v} {s} {out} (e : execNetTrsCfgWrite off v s = .next out) : Keeps s out := by
  unfold execNetTrsCfgWrite at e
  cases e
  all_goals have h := Keeps.refl s
  all_goals
    repeat' first
      | extract_lets +onlyGivenNames x
      | with_reducible exact h
      | with_reducible apply barWrite_keeps
      | with_reducible apply netTrsCfgWrite_keeps

theorem execOriginStepApply_keeps {s} {out} (e : execOriginStepApply s = .next out) : Keeps s out := by
  unfold execOriginStepApply at e
  cases e
  all_goals have h := Keeps.refl s
  all_goals
    repeat' first
      | extract_lets +onlyGivenNames x
      | with_reducible exact h
      | with_reducible apply originStepApply_keeps

theorem execRtpPacket_keeps {port} {p} {s} {out} (e : execRtpPacket port p s = .next out) : Keeps s out := by
  unfold execRtpPacket at e
  cases e
  all_goals have h := Keeps.refl s
  all_goals
    repeat' first
      | extract_lets +onlyGivenNames x
      | with_reducible exact h
      | with_reducible apply rtpPacket_keeps

theorem execRtpPacketSend_keeps {flow} {s} {out} (e : execRtpPacketSend flow s = .next out) : Keeps s out := by
  unfold execRtpPacketSend at e
  cases e
  all_goals have h := Keeps.refl s
  all_goals
    repeat' first
      | extract_lets +onlyGivenNames x
      | with_reducible exact h
      | with_reducible apply rtpPacketSend_keeps

theorem execTrosynData_keeps {port} {bytes} {s} {out} (e : execTrosynData port bytes s = .next out) : Keeps s out := by
  unfold execTrosynData at e
  cases e
  all_goals have h := Keeps.refl s
  all_goals
    repeat' first
      | extract_lets +onlyGivenNames x
      | with_reducible exact h
      | with_reducible apply trosynData_keeps

theorem execTrosynHelloDue_keeps {s} {out} (e : execTrosynHelloDue s = .next out) : Keeps s out := by
  unfold execTrosynHelloDue at e
  cases e
  all_goals have h := Keeps.refl s
  all_goals
    repeat' first
      | extract_lets +onlyGivenNames x
      | with_reducible exact h
      | with_reducible apply trosynHelloDue_keeps

theorem execTrosynSeqTimeout_keeps {s} {out} (e : execTrosynSeqTimeout s = .next out) : Keeps s out := by
  unfold execTrosynSeqTimeout at e
  cases e
  all_goals have h := Keeps.refl s
  all_goals
    repeat' first
      | extract_lets +onlyGivenNames x
      | with_reducible exact h
      | with_reducible apply trosynSeqTimeout_keeps

theorem execUnsupportedPacket_keeps {port} {s} {out} (e : execUnsupportedPacket port s = .next out) : Keeps s out := by
  unfold execUnsupportedPacket at e
  cases e
  all_goals have h := Keeps.refl s
  all_goals
    repeat' first
      | extract_lets +onlyGivenNames x
      | with_reducible exact h
      | with_reducible apply State.count_keeps
      | with_reducible refine Keeps.ite (fun _ => ?_) (fun _ => ?_)

/-! ### Nitik -/

theorem execChainConfig_keeps {e} {s} {out} (e : execChainConfig e s = .next out) : Keeps s out := by
  unfold execChainConfig at e
  cases e
  all_goals have h := Keeps.refl s
  all_goals
    repeat' first
      | extract_lets +onlyGivenNames x
      | with_reducible exact h
      | with_reducible apply hostCommand_keeps
      | with_reducible apply chainConfig_keeps

theorem execChainReturn_keeps {s} {out} (e : execChainReturn s = .next out) : Keeps s out := by
  unfold execChainReturn at e
  cases e
  all_goals have h := Keeps.refl s
  all_goals
    repeat' first
      | extract_lets +onlyGivenNames x
      | with_reducible exact h
      | with_reducible apply chainReturn_keeps

theorem execChainSourceLost_keeps {s} {out} (e : execChainSourceLost s = .next out) : Keeps s out := by
  unfold execChainSourceLost at e
  cases e
  all_goals have h := Keeps.refl s
  all_goals
    repeat' first
      | extract_lets +onlyGivenNames x
      | with_reducible exact h
      | with_reducible apply chainSourceLost_keeps

theorem execEpochDecision_keeps {n} {id} {m} {outcome} {s} {out} (e : execEpochDecision n id m outcome s = .next out) : Keeps s out := by
  unfold execEpochDecision at e
  cases e
  all_goals have h := Keeps.refl s
  all_goals
    repeat' first
      | extract_lets +onlyGivenNames x
      | with_reducible exact h
      | with_reducible apply epochDecision_keeps

theorem execEpochReport_keeps {n} {id} {position} {st} {s} {out} (e : execEpochReport n id position st s = .next out) : Keeps s out := by
  unfold execEpochReport at e
  cases e
  all_goals have h := Keeps.refl s
  all_goals
    repeat' first
      | extract_lets +onlyGivenNames x
      | with_reducible exact h
      | with_reducible apply epochReport_keeps

theorem execLinkDelay_keeps {n} {probe} {echo} {received} {s} {out} (e : execLinkDelay n probe echo received s = .next out) : Keeps s out := by
  unfold execLinkDelay at e
  cases e
  all_goals have h := Keeps.refl s
  all_goals
    repeat' first
      | extract_lets +onlyGivenNames x
      | with_reducible exact h
      | with_reducible apply linkDelay_keeps

theorem execMemberRemoval_keeps {position} {s} {out} (e : execMemberRemoval position s = .next out) : Keeps s out := by
  unfold execMemberRemoval at e
  cases e
  all_goals have h := Keeps.refl s
  all_goals
    repeat' first
      | extract_lets +onlyGivenNames x
      | with_reducible exact h
      | with_reducible apply memberRemoval_keeps

theorem execModulePresenceChange_keeps {mod_} {present} {s} {out} (e : execModulePresenceChange mod_ present s = .next out) : Keeps s out := by
  unfold execModulePresenceChange at e
  cases e
  all_goals have h := Keeps.refl s
  all_goals
    repeat' first
      | extract_lets +onlyGivenNames x
      | with_reducible exact h
      | with_reducible apply modulePresenceChange_keeps

theorem execNtkAudit_keeps {n} {boundary} {received} {free} {s} {out} (e : execNtkAudit n boundary received free s = .next out) : Keeps s out := by
  unfold execNtkAudit at e
  cases e
  all_goals have h := Keeps.refl s
  all_goals
    repeat' first
      | extract_lets +onlyGivenNames x
      | with_reducible exact h
      | with_reducible apply ntkAudit_keeps

theorem execNtkBlock_keeps {n} {msc} {chainState} {position} {s} {out} (e : execNtkBlock n msc chainState position s = .next out) : Keeps s out := by
  unfold execNtkBlock at e
  cases e
  all_goals have h := Keeps.refl s
  all_goals
    repeat' first
      | extract_lets +onlyGivenNames x
      | with_reducible exact h
      | with_reducible apply ntkBlock_keeps

theorem execNtkBlockLockLoss_keeps {n} {s} {out} (e : execNtkBlockLockLoss n s = .next out) : Keeps s out := by
  unfold execNtkBlockLockLoss at e
  cases e
  all_goals have h := Keeps.refl s
  all_goals
    repeat' first
      | extract_lets +onlyGivenNames x
      | with_reducible exact h
      | with_reducible apply State.auditDone_keeps
      | with_reducible apply State.linkDown_keeps

theorem execNtkCredit_keeps {n} {count} {total} {s} {out} (e : execNtkCredit n count total s = .next out) : Keeps s out := by
  unfold execNtkCredit at e
  cases e
  all_goals have h := Keeps.refl s
  all_goals
    repeat' first
      | extract_lets +onlyGivenNames x
      | with_reducible exact h
      | with_reducible apply ntkCredit_keeps

theorem execNtkJoin_keeps {n} {rec} {place} {hops} {s} {out} (e : execNtkJoin n rec place hops s = .next out) : Keeps s out := by
  unfold execNtkJoin at e
  cases e
  all_goals have h := Keeps.refl s
  all_goals
    repeat' first
      | extract_lets +onlyGivenNames x
      | with_reducible exact h
      | with_reducible apply ntkJoin_keeps

theorem execNtkLeave_keeps {n} {position} {reason} {s} {out} (e : execNtkLeave n position reason s = .next out) : Keeps s out := by
  unfold execNtkLeave at e
  cases e
  all_goals have h := Keeps.refl s
  all_goals
    repeat' first
      | extract_lets +onlyGivenNames x
      | with_reducible exact h
      | with_reducible apply ntkLeave_keeps

theorem execNtkStep_keeps {n} {k} {boundary} {s} {out} (e : execNtkStep n k boundary s = .next out) : Keeps s out := by
  unfold execNtkStep at e
  cases e
  all_goals have h := Keeps.refl s
  all_goals
    repeat' first
      | extract_lets +onlyGivenNames x
      | with_reducible exact h
      | with_reducible apply ntkStep_keeps

theorem execNtkTime_keeps {n} {t} {origin} {rate} {s} {out} (e : execNtkTime n t origin rate s = .next out) : Keeps s out := by
  unfold execNtkTime at e
  cases e
  all_goals have h := Keeps.refl s
  all_goals
    repeat' first
      | extract_lets +onlyGivenNames x
      | with_reducible exact h
      | with_reducible apply ntkTime_keeps

theorem execNtkTrainingDone_keeps {n} {s} {out} (e : execNtkTrainingDone n s = .next out) : Keeps s out := by
  unfold execNtkTrainingDone at e
  cases e
  all_goals have h := Keeps.refl s
  all_goals
    repeat' first
      | extract_lets +onlyGivenNames x
      | with_reducible exact h
      | with_reducible apply ntkTrainingDone_keeps

theorem execNtkVersionAgreed_keeps {n} {verMin} {verMax} {total} {s} {out} (e : execNtkVersionAgreed n verMin verMax total s = .next out) : Keeps s out := by
  unfold execNtkVersionAgreed at e
  cases e
  all_goals have h := Keeps.refl s
  all_goals
    repeat' first
      | extract_lets +onlyGivenNames x
      | with_reducible exact h
      | with_reducible apply ntkVersionAgreed_keeps

theorem execObjectCell_keeps {n} {cell} {s} {out} (e : execObjectCell n cell s = .next out) : Keeps s out := by
  unfold execObjectCell at e
  cases e
  all_goals have h := Keeps.refl s
  all_goals
    repeat' first
      | extract_lets +onlyGivenNames x
      | with_reducible exact h
      | with_reducible apply objectCell_keeps

theorem execRollCall_keeps {n} {recs} {s} {out} (e : execRollCall n recs s = .next out) : Keeps s out := by
  unfold execRollCall at e
  cases e
  all_goals have h := Keeps.refl s
  all_goals
    repeat' first
      | extract_lets +onlyGivenNames x
      | with_reducible exact h
      | with_reducible apply rollCall_keeps

theorem execRollReply_keeps {n} {recs} {hops} {s} {out} (e : execRollReply n recs hops s = .next out) : Keeps s out := by
  unfold execRollReply at e
  cases e
  all_goals have h := Keeps.refl s
  all_goals
    repeat' first
      | extract_lets +onlyGivenNames x
      | with_reducible exact h
      | with_reducible apply rollReply_keeps

theorem execSumCell_keeps {n} {cell} {s} {out} (e : execSumCell n cell s = .next out) : Keeps s out := by
  unfold execSumCell at e
  cases e
  all_goals have h := Keeps.refl s
  all_goals
    repeat' first
      | extract_lets +onlyGivenNames x
      | with_reducible exact h
      | with_reducible apply sumCell_keeps

/-! ### HostQ -/

theorem execBadAccess_keeps {isRead} {s} {out} (e : execBadAccess isRead s = .next out) : Keeps s out := by
  unfold execBadAccess at e
  repeat' split at e
  all_goals cases e
  all_goals have h := Keeps.refl s
  all_goals
    repeat' first
      | extract_lets +onlyGivenNames x
      | with_reducible exact h
      | with_reducible apply State.both_keeps
      | with_reducible refine Keeps.record rfl rfl rfl rfl ?_

theorem execBusMasterEnableChange_keeps {on} {s} {out} (e : execBusMasterEnableChange on s = .next out) : Keeps s out := by
  unfold execBusMasterEnableChange at e
  cases e
  all_goals have h := Keeps.refl s
  all_goals
    repeat' first
      | extract_lets +onlyGivenNames x
      | with_reducible exact h
      | with_reducible apply sendPending_keeps
      | with_reducible refine Keeps.record rfl rfl rfl rfl ?_

theorem execCompletionWrite_keeps {q} {linkOk} {s} {out} (e : execCompletionWrite q linkOk s = .next out) : Keeps s out := by
  unfold execCompletionWrite at e
  cases e
  all_goals have h := Keeps.refl s
  all_goals
    repeat' first
      | extract_lets +onlyGivenNames x
      | with_reducible exact h
      | with_reducible apply completionWrite_keeps

theorem execCqHeadWrite_keeps {q} {v} {s} {out} (e : execCqHeadWrite q v s = .next out) : Keeps s out := by
  unfold execCqHeadWrite at e
  cases e
  all_goals have h := Keeps.refl s
  all_goals
    repeat' first
      | extract_lets +onlyGivenNames x
      | with_reducible exact h
      | with_reducible apply barWrite_keeps
      | with_reducible apply cqHead_keeps

theorem execCreditAudit_keeps {e} {s} {out} (e : execCreditAudit e s = .next out) : Keeps s out := by
  unfold execCreditAudit at e
  cases e
  all_goals have h := Keeps.refl s
  all_goals
    repeat' first
      | extract_lets +onlyGivenNames x
      | with_reducible exact h
      | with_reducible apply hostCommand_keeps
      | with_reducible apply creditAudit_keeps

theorem execEntryFetch_keeps {q} {entries} {s} {out} (e : execEntryFetch q entries s = .next out) : Keeps s out := by
  unfold execEntryFetch at e
  cases e
  all_goals have h := Keeps.refl s
  all_goals
    repeat' first
      | extract_lets +onlyGivenNames x
      | with_reducible exact h
      | with_reducible apply entryFetch_keeps

theorem execEventRecordWrite_keeps {linkOk} {s} {out} (e : execEventRecordWrite linkOk s = .next out) : Keeps s out := by
  unfold execEventRecordWrite at e
  cases e
  all_goals have h := Keeps.refl s
  all_goals
    repeat' first
      | extract_lets +onlyGivenNames x
      | with_reducible exact h
      | with_reducible apply eventRecordWrite_keeps

theorem execIrqTestWrite_keeps {v} {s} {out} (e : execIrqTestWrite v s = .next out) : Keeps s out := by
  unfold execIrqTestWrite at e
  cases e
  all_goals have h := Keeps.refl s
  all_goals
    repeat' first
      | extract_lets +onlyGivenNames x
      | with_reducible exact h
      | with_reducible apply barWrite_keeps
      | with_reducible apply irqTest_keeps

theorem execIrqTimerExpiry_keeps {q} {s} {out} (e : execIrqTimerExpiry q s = .next out) : Keeps s out := by
  unfold execIrqTimerExpiry at e
  simp only at e
  repeat' split at e
  all_goals cases e
  all_goals have h := Keeps.refl s
  all_goals
    repeat' first
      | extract_lets +onlyGivenNames x
      | with_reducible exact h
      | with_reducible apply State.raiseVec_keeps
      | with_reducible apply State.setQueue_keeps

theorem execLedgerSnapshot_keeps {e} {s} {out} (e : execLedgerSnapshot e s = .next out) : Keeps s out := by
  unfold execLedgerSnapshot at e
  cases e
  all_goals have h := Keeps.refl s
  all_goals
    repeat' first
      | extract_lets +onlyGivenNames x
      | with_reducible exact h
      | with_reducible apply hostCommand_keeps
      | with_reducible apply ledgerSnapshot_keeps

theorem execMsixUnmask_keeps {v} {s} {out} (e : execMsixUnmask v s = .next out) : Keeps s out := by
  unfold execMsixUnmask at e
  cases e
  all_goals have h := Keeps.refl s
  all_goals
    repeat' first
      | extract_lets +onlyGivenNames x
      | with_reducible exact h
      | with_reducible apply barWrite_keeps
      | with_reducible apply setMask_keeps

theorem execNop_keeps {e} {s} {out} (e : execNop e s = .next out) : Keeps s out := by
  unfold execNop at e
  cases e
  all_goals have h := Keeps.refl s
  all_goals
    repeat' first
      | extract_lets +onlyGivenNames x
      | with_reducible exact h
      | with_reducible apply hostCommand_keeps
      | with_reducible apply nopAct_keeps

theorem execPcieLinkLoss_keeps {s} {out} (e : execPcieLinkLoss s = .next out) : Keeps s out := by
  unfold execPcieLinkLoss at e
  cases e
  all_goals have h := Keeps.refl s
  all_goals
    repeat' first
      | extract_lets +onlyGivenNames x
      | with_reducible exact h
      | with_reducible apply linkLoss_keeps

theorem execPcieLinkReturn_keeps {s} {out} (e : execPcieLinkReturn s = .next out) : Keeps s out := by
  unfold execPcieLinkReturn at e
  cases e
  all_goals have h := Keeps.refl s
  all_goals
    repeat' first
      | extract_lets +onlyGivenNames x
      | with_reducible exact h
      | with_reducible apply linkReturn_keeps

theorem execQueueDisable_keeps {q} {v} {s} {out} (e : execQueueDisable q v s = .next out) : Keeps s out := by
  unfold execQueueDisable at e
  cases e
  all_goals have h := Keeps.refl s
  all_goals
    repeat' first
      | extract_lets +onlyGivenNames x
      | with_reducible exact h
      | with_reducible apply barWrite_keeps
      | with_reducible apply writeQueueCtl_keeps

theorem execQueueDrainEnd_keeps {q} {s} {out} (e : execQueueDrainEnd q s = .next out) : Keeps s out := by
  unfold execQueueDrainEnd at e
  simp only at e
  repeat' split at e
  all_goals cases e
  all_goals have h := Keeps.refl s
  all_goals
    repeat' first
      | extract_lets +onlyGivenNames x
      | with_reducible exact h
      | with_reducible apply State.setQueue_keeps

theorem execQueueEnable_keeps {q} {v} {s} {out} (e : execQueueEnable q v s = .next out) : Keeps s out := by
  unfold execQueueEnable at e
  cases e
  all_goals have h := Keeps.refl s
  all_goals
    repeat' first
      | extract_lets +onlyGivenNames x
      | with_reducible exact h
      | with_reducible apply barWrite_keeps
      | with_reducible apply writeQueueCtl_keeps

theorem execSqTailWrite_keeps {q} {v} {s} {out} (e : execSqTailWrite q v s = .next out) : Keeps s out := by
  unfold execSqTailWrite at e
  cases e
  all_goals have h := Keeps.refl s
  all_goals
    repeat' first
      | extract_lets +onlyGivenNames x
      | with_reducible exact h
      | with_reducible apply barWrite_keeps
      | with_reducible apply sqTail_keeps

theorem execStatsSnapshot_keeps {e} {s} {out} (e : execStatsSnapshot e s = .next out) : Keeps s out := by
  unfold execStatsSnapshot at e
  cases e
  all_goals have h := Keeps.refl s
  all_goals
    repeat' first
      | extract_lets +onlyGivenNames x
      | with_reducible exact h
      | with_reducible apply hostCommand_keeps
      | with_reducible apply statsSnapshot_keeps

theorem execVersionSet_keeps {e} {s} {out} (e : execVersionSet e s = .next out) : Keeps s out := by
  unfold execVersionSet at e
  cases e
  all_goals have h := Keeps.refl s
  all_goals
    repeat' first
      | extract_lets +onlyGivenNames x
      | with_reducible exact h
      | with_reducible apply hostCommand_keeps
      | with_reducible apply versionSet_keeps

theorem execWatchdogExpiry_keeps {s} {out} (e : execWatchdogExpiry s = .next out) : Keeps s out := by
  unfold execWatchdogExpiry at e
  cases e
  all_goals have h := Keeps.refl s
  all_goals
    repeat' first
      | extract_lets +onlyGivenNames x
      | with_reducible exact h
      | with_reducible apply watchdogExpiry_keeps

theorem execWatchdogKick_keeps {e} {s} {out} (e : execWatchdogKick e s = .next out) : Keeps s out := by
  unfold execWatchdogKick at e
  cases e
  all_goals have h := Keeps.refl s
  all_goals
    repeat' first
      | extract_lets +onlyGivenNames x
      | with_reducible exact h
      | with_reducible apply hostCommand_keeps
      | with_reducible apply watchdogKick_keeps

theorem execWdogCfgWrite_keeps {v} {s} {out} (e : execWdogCfgWrite v s = .next out) : Keeps s out := by
  unfold execWdogCfgWrite at e
  cases e
  all_goals have h := Keeps.refl s
  all_goals
    repeat' first
      | extract_lets +onlyGivenNames x
      | with_reducible exact h
      | with_reducible apply barWrite_keeps
      | with_reducible apply wdogRestart_keeps
      | with_reducible apply State.setReg_keeps

/-! ### TaskCmds -/

theorem execTaskCancel_keeps {e} {s} {out} (e : execTaskCancel e s = .next out) : Keeps s out := by
  unfold execTaskCancel at e
  cases e
  all_goals have h := Keeps.refl s
  all_goals
    repeat' first
      | extract_lets +onlyGivenNames x
      | with_reducible exact h
      | with_reducible apply hostCommand_keeps
      | with_reducible apply taskCancel_keeps
      | intro u hu

theorem execTaskCreate_keeps {e} {s} {out} (e : execTaskCreate e s = .next out) : Keeps s out := by
  unfold execTaskCreate at e
  cases e
  all_goals have h := Keeps.refl s
  all_goals
    repeat' first
      | extract_lets +onlyGivenNames x
      | with_reducible exact h
      | with_reducible apply hostCommand_keeps
      | with_reducible apply taskCreate_keeps

theorem execTaskSignal_keeps {e} {s} {out} (e : execTaskSignal e s = .next out) : Keeps s out := by
  unfold execTaskSignal at e
  cases e
  all_goals have h := Keeps.refl s
  all_goals
    repeat' first
      | extract_lets +onlyGivenNames x
      | with_reducible exact h
      | with_reducible apply hostCommand_keeps
      | with_reducible apply taskSignal_keeps

/-! ### Ptp -/

theorem execAnnounceReceiptTimeout_keeps {tb} {s} {out} (e : execAnnounceReceiptTimeout tb s = .next out) : Keeps s out := by
  unfold execAnnounceReceiptTimeout at e
  cases e
  all_goals have h := Keeps.refl s
  all_goals
    repeat' first
      | extract_lets +onlyGivenNames x
      | with_reducible exact h
      | with_reducible apply announceReceiptTimeout_keeps

theorem execPtpAnnounce_keeps {tb} {m} {s} {out} (e : execPtpAnnounce tb m s = .next out) : Keeps s out := by
  unfold execPtpAnnounce at e
  cases e
  all_goals have h := Keeps.refl s
  all_goals
    repeat' first
      | extract_lets +onlyGivenNames x
      | with_reducible exact h
      | with_reducible apply ptpAnnounce_keeps

theorem execPtpAnnounceDue_keeps {tb} {s} {out} (e : execPtpAnnounceDue tb s = .next out) : Keeps s out := by
  unfold execPtpAnnounceDue at e
  cases e
  all_goals have h := Keeps.refl s
  all_goals
    repeat' first
      | extract_lets +onlyGivenNames x
      | with_reducible exact h
      | with_reducible apply ptpAnnounceDue_keeps

theorem execPtpDelayReq_keeps {tb} {m} {s} {out} (e : execPtpDelayReq tb m s = .next out) : Keeps s out := by
  unfold execPtpDelayReq at e
  cases e
  all_goals have h := Keeps.refl s
  all_goals
    repeat' first
      | extract_lets +onlyGivenNames x
      | with_reducible exact h
      | with_reducible apply ptpDelayReq_keeps

theorem execPtpDelayReqDue_keeps {tb} {s} {out} (e : execPtpDelayReqDue tb s = .next out) : Keeps s out := by
  unfold execPtpDelayReqDue at e
  cases e
  all_goals have h := Keeps.refl s
  all_goals
    repeat' first
      | extract_lets +onlyGivenNames x
      | with_reducible exact h
      | with_reducible apply ptpDelayReqDue_keeps

theorem execPtpDelayResp_keeps {tb} {m} {s} {out} (e : execPtpDelayResp tb m s = .next out) : Keeps s out := by
  unfold execPtpDelayResp at e
  cases e
  all_goals have h := Keeps.refl s
  all_goals
    repeat' first
      | extract_lets +onlyGivenNames x
      | with_reducible exact h
      | with_reducible apply ptpDelayResp_keeps

theorem execPtpEventTransmitted_keeps {port} {at_} {s} {out} (e : execPtpEventTransmitted port at_ s = .next out) : Keeps s out := by
  unfold execPtpEventTransmitted at e
  cases e
  all_goals have h := Keeps.refl s
  all_goals
    repeat' first
      | extract_lets +onlyGivenNames x
      | with_reducible exact h
      | with_reducible apply ptpEventTransmitted_keeps

theorem execPtpFollowUp_keeps {tb} {m} {s} {out} (e : execPtpFollowUp tb m s = .next out) : Keeps s out := by
  unfold execPtpFollowUp at e
  cases e
  all_goals have h := Keeps.refl s
  all_goals
    repeat' first
      | extract_lets +onlyGivenNames x
      | with_reducible exact h
      | with_reducible apply ptpFollowUp_keeps

theorem execPtpSync_keeps {tb} {m} {s} {out} (e : execPtpSync tb m s = .next out) : Keeps s out := by
  unfold execPtpSync at e
  cases e
  all_goals have h := Keeps.refl s
  all_goals
    repeat' first
      | extract_lets +onlyGivenNames x
      | with_reducible exact h
      | with_reducible apply ptpSync_keeps

theorem execPtpSyncDue_keeps {tb} {s} {out} (e : execPtpSyncDue tb s = .next out) : Keeps s out := by
  unfold execPtpSyncDue at e
  cases e
  all_goals have h := Keeps.refl s
  all_goals
    repeat' first
      | extract_lets +onlyGivenNames x
      | with_reducible exact h
      | with_reducible apply ptpSyncDue_keeps

theorem execPtpUnsupportedMessage_keeps {port} {s} {out} (e : execPtpUnsupportedMessage port s = .next out) : Keeps s out := by
  unfold execPtpUnsupportedMessage at e
  cases e
  all_goals have h := Keeps.refl s
  all_goals
    repeat' first
      | extract_lets +onlyGivenNames x
      | with_reducible exact h
      | with_reducible apply State.count_keeps

/-! ### Sdac -/

theorem execSdacCurrentLimit_keeps {ch} {s} {out} (e : execSdacCurrentLimit ch s = .next out) : Keeps s out := by
  unfold execSdacCurrentLimit at e
  cases e
  all_goals have h := Keeps.refl s
  all_goals
    repeat' first
      | extract_lets +onlyGivenNames x
      | with_reducible exact h
      | with_reducible apply sdacCurrentLimit_keeps

theorem execSdacCurrentLimitEnd_keeps {ch} {s} {out} (e : execSdacCurrentLimitEnd ch s = .next out) : Keeps s out := by
  unfold execSdacCurrentLimitEnd at e
  cases e
  all_goals have h := Keeps.refl s
  all_goals
    repeat' first
      | extract_lets +onlyGivenNames x
      | with_reducible exact h
      | with_reducible apply State.setSdac_keeps

theorem execSdacLoadNFall_keeps {s} {out} (e : execSdacLoadNFall s = .next out) : Keeps s out := by
  unfold execSdacLoadNFall at e
  cases e
  all_goals have h := Keeps.refl s
  all_goals
    repeat' first
      | extract_lets +onlyGivenNames x
      | with_reducible exact h
      | with_reducible apply sdacLoadNFall_keeps

theorem execSdacRangeClampEnd_keeps {ch} {s} {out} (e : execSdacRangeClampEnd ch s = .next out) : Keeps s out := by
  unfold execSdacRangeClampEnd at e
  cases e
  all_goals have h := Keeps.refl s
  all_goals
    repeat' first
      | extract_lets +onlyGivenNames x
      | with_reducible exact h
      | with_reducible apply State.setSdac_keeps

theorem execSdacStrobe_keeps {e} {s} {out} (e : execSdacStrobe e s = .next out) : Keeps s out := by
  unfold execSdacStrobe at e
  cases e
  all_goals have h := Keeps.refl s
  all_goals
    repeat' first
      | extract_lets +onlyGivenNames x
      | with_reducible exact h
      | with_reducible apply hostCommand_keeps
      | with_reducible apply sdacStrobeCmd_keeps

theorem execSdacWrite_keeps {e} {s} {out} (e : execSdacWrite e s = .next out) : Keeps s out := by
  unfold execSdacWrite at e
  cases e
  all_goals have h := Keeps.refl s
  all_goals
    repeat' first
      | extract_lets +onlyGivenNames x
      | with_reducible exact h
      | with_reducible apply hostCommand_keeps
      | with_reducible apply sdacWriteCmd_keeps

/-! ### Modes -/

theorem execDormantEntry_keeps {s} {out} (e : execDormantEntry s = .next out) : Keeps s out := by
  unfold execDormantEntry at e
  cases e
  all_goals have h := Keeps.refl s
  all_goals
    repeat' first
      | extract_lets +onlyGivenNames x
      | with_reducible exact h
      | with_reducible apply watched_keeps
      | with_reducible apply dormantEntry_keeps

theorem execFallbackEntry_keeps {s} {out} (e : execFallbackEntry s = .next out) : Keeps s out := by
  unfold execFallbackEntry at e
  cases e
  all_goals have h := Keeps.refl s
  all_goals
    repeat' first
      | extract_lets +onlyGivenNames x
      | with_reducible exact h
      | with_reducible apply watched_keeps
      | with_reducible apply fallbackEntry_keeps

theorem execModeChange_keeps {s} {out} (e : execModeChange s = .next out) : Keeps s out := by
  unfold execModeChange at e
  cases e
  all_goals have h := Keeps.refl s
  all_goals
    repeat' first
      | extract_lets +onlyGivenNames x
      | with_reducible exact h
      | with_reducible apply watched_keeps
      | with_reducible apply modeChange_keeps

theorem execModeSet_keeps {e} {s} {out} (e : execModeSet e s = .next out) : Keeps s out := by
  unfold execModeSet at e
  cases e
  all_goals have h := Keeps.refl s
  all_goals
    repeat' first
      | extract_lets +onlyGivenNames x
      | with_reducible exact h
      | with_reducible apply hostCommand_keeps
      | with_reducible apply modeSet_keeps

theorem execMscInvalidate_keeps {s} {out} (e : execMscInvalidate s = .next out) : Keeps s out := by
  unfold execMscInvalidate at e
  cases e
  all_goals have h := Keeps.refl s
  all_goals
    repeat' first
      | extract_lets +onlyGivenNames x
      | with_reducible exact h
      | with_reducible apply watched_keeps
      | with_reducible apply mscInvalidate_keeps

theorem execMscValidate_keeps {s} {out} (e : execMscValidate s = .next out) : Keeps s out := by
  unfold execMscValidate at e
  cases e
  all_goals have h := Keeps.refl s
  all_goals
    repeat' first
      | extract_lets +onlyGivenNames x
      | with_reducible exact h
      | with_reducible apply mscValidate_keeps

theorem execStandbyEntry_keeps {s} {out} (e : execStandbyEntry s = .next out) : Keeps s out := by
  unfold execStandbyEntry at e
  cases e
  all_goals have h := Keeps.refl s
  all_goals
    repeat' first
      | extract_lets +onlyGivenNames x
      | with_reducible exact h
      | with_reducible apply watched_keeps
      | with_reducible apply standbyEntry_keeps

theorem execStandbyExit_keeps {s} {out} (e : execStandbyExit s = .next out) : Keeps s out := by
  unfold execStandbyExit at e
  cases e
  all_goals have h := Keeps.refl s
  all_goals
    repeat' first
      | extract_lets +onlyGivenNames x
      | with_reducible exact h
      | with_reducible apply watched_keeps
      | with_reducible apply standbyExit_keeps

theorem execTemperatureMeasure_keeps {t} {s} {out} (e : execTemperatureMeasure t s = .next out) : Keeps s out := by
  unfold execTemperatureMeasure at e
  cases e
  all_goals have h := Keeps.refl s
  all_goals
    repeat' first
      | extract_lets +onlyGivenNames x
      | with_reducible exact h
      | with_reducible apply watched_keeps
      | with_reducible apply temperatureMeasure_keeps

theorem execThermalEmergency_keeps {s} {out} (e : execThermalEmergency s = .next out) : Keeps s out := by
  unfold execThermalEmergency at e
  cases e
  all_goals have h := Keeps.refl s
  all_goals
    repeat' first
      | extract_lets +onlyGivenNames x
      | with_reducible exact h
      | with_reducible apply thermalEmergency_keeps

theorem execThermalStep_keeps {step} {s} {out} (e : execThermalStep step s = .next out) : Keeps s out := by
  unfold execThermalStep at e
  cases e
  all_goals have h := Keeps.refl s
  all_goals
    repeat' first
      | extract_lets +onlyGivenNames x
      | with_reducible exact h
      | with_reducible apply watched_keeps
      | with_reducible apply thermStep_keeps

theorem execTmbMediaCfgWrite_keeps {v} {s} {out} (e : execTmbMediaCfgWrite v s = .next out) : Keeps s out := by
  unfold execTmbMediaCfgWrite at e
  cases e
  all_goals have h := Keeps.refl s
  all_goals
    repeat' first
      | extract_lets +onlyGivenNames x
      | with_reducible exact h
      | with_reducible apply barWrite_keeps
      | with_reducible apply mediaCfg_keeps

/-! ### Bells -/

theorem execBellRing_keeps {stream} {id} {s} {out} (e : execBellRing stream id s = .next out) : Keeps s out := by
  unfold execBellRing at e
  cases e
  all_goals have h := Keeps.refl s
  all_goals
    repeat' first
      | extract_lets +onlyGivenNames x
      | with_reducible exact h
      | with_reducible apply watched_keeps
      | with_reducible apply bellRing_keeps

theorem execSapEnableAct_keeps {isPort} {idx} {s} {out} (e : execSapEnableAct isPort idx s = .next out) : Keeps s out := by
  unfold execSapEnableAct at e
  cases e
  all_goals have h := Keeps.refl s
  all_goals
    repeat' first
      | extract_lets +onlyGivenNames x
      | with_reducible exact h
      | with_reducible apply watched_keeps
      | with_reducible apply sapEnableAct_keeps

/-! ### Desk -/

theorem execDAdd_keeps {desk} {w} {s} {out} (e : execDAdd desk w s = .next out) : Keeps s out := by
  unfold execDAdd at e
  cases e
  all_goals have h := Keeps.refl s
  all_goals
    repeat' first
      | extract_lets +onlyGivenNames x
      | with_reducible exact h
      | with_reducible apply State.deskInstr_keeps

theorem execDAnd_keeps {desk} {w} {s} {out} (e : execDAnd desk w s = .next out) : Keeps s out := by
  unfold execDAnd at e
  cases e
  all_goals have h := Keeps.refl s
  all_goals
    repeat' first
      | extract_lets +onlyGivenNames x
      | with_reducible exact h
      | with_reducible apply State.deskInstr_keeps

theorem execDBexp_keeps {desk} {w} {s} {out} (e : execDBexp desk w s = .next out) : Keeps s out := by
  unfold execDBexp at e
  cases e
  all_goals have h := Keeps.refl s
  all_goals
    repeat' first
      | extract_lets +onlyGivenNames x
      | with_reducible exact h
      | with_reducible apply State.deskInstr_keeps

theorem execDBfly_keeps {desk} {w} {s} {out} (e : execDBfly desk w s = .next out) : Keeps s out := by
  unfold execDBfly at e
  cases e
  all_goals have h := Keeps.refl s
  all_goals
    repeat' first
      | extract_lets +onlyGivenNames x
      | with_reducible exact h
      | with_reducible apply State.deskInstr_keeps

theorem execDBr_keeps {desk} {w} {s} {out} (e : execDBr desk w s = .next out) : Keeps s out := by
  unfold execDBr at e
  cases e
  all_goals have h := Keeps.refl s
  all_goals
    repeat' first
      | extract_lets +onlyGivenNames x
      | with_reducible exact h
      | with_reducible apply State.deskInstr_keeps

theorem execDCall_keeps {desk} {w} {s} {out} (e : execDCall desk w s = .next out) : Keeps s out := by
  unfold execDCall at e
  cases e
  all_goals have h := Keeps.refl s
  all_goals
    repeat' first
      | extract_lets +onlyGivenNames x
      | with_reducible exact h
      | with_reducible apply State.deskInstr_keeps

theorem execDFtap_keeps {desk} {w} {s} {out} (e : execDFtap desk w s = .next out) : Keeps s out := by
  unfold execDFtap at e
  cases e
  all_goals have h := Keeps.refl s
  all_goals
    repeat' first
      | extract_lets +onlyGivenNames x
      | with_reducible exact h
      | with_reducible apply State.deskInstr_keeps

theorem execDGetp_keeps {desk} {w} {s} {out} (e : execDGetp desk w s = .next out) : Keeps s out := by
  unfold execDGetp at e
  cases e
  all_goals have h := Keeps.refl s
  all_goals
    repeat' first
      | extract_lets +onlyGivenNames x
      | with_reducible exact h
      | with_reducible apply State.deskInstr_keeps

theorem execDLds_keeps {desk} {w} {s} {out} (e : execDLds desk w s = .next out) : Keeps s out := by
  unfold execDLds at e
  cases e
  all_goals have h := Keeps.refl s
  all_goals
    repeat' first
      | extract_lets +onlyGivenNames x
      | with_reducible exact h
      | with_reducible apply State.deskInstr_keeps

theorem execDLi_keeps {desk} {w} {s} {out} (e : execDLi desk w s = .next out) : Keeps s out := by
  unfold execDLi at e
  cases e
  all_goals have h := Keeps.refl s
  all_goals
    repeat' first
      | extract_lets +onlyGivenNames x
      | with_reducible exact h
      | with_reducible apply State.deskInstr_keeps

theorem execDLoop_keeps {desk} {w} {s} {out} (e : execDLoop desk w s = .next out) : Keeps s out := by
  unfold execDLoop at e
  cases e
  all_goals have h := Keeps.refl s
  all_goals
    repeat' first
      | extract_lets +onlyGivenNames x
      | with_reducible exact h
      | with_reducible apply State.deskInstr_keeps

theorem execDMul_keeps {desk} {w} {s} {out} (e : execDMul desk w s = .next out) : Keeps s out := by
  unfold execDMul at e
  cases e
  all_goals have h := Keeps.refl s
  all_goals
    repeat' first
      | extract_lets +onlyGivenNames x
      | with_reducible exact h
      | with_reducible apply State.deskInstr_keeps

theorem execDNop_keeps {desk} {w} {s} {out} (e : execDNop desk w s = .next out) : Keeps s out := by
  unfold execDNop at e
  cases e
  all_goals have h := Keeps.refl s
  all_goals
    repeat' first
      | extract_lets +onlyGivenNames x
      | with_reducible exact h
      | with_reducible apply State.deskInstr_keeps

theorem execDOr_keeps {desk} {w} {s} {out} (e : execDOr desk w s = .next out) : Keeps s out := by
  unfold execDOr at e
  cases e
  all_goals have h := Keeps.refl s
  all_goals
    repeat' first
      | extract_lets +onlyGivenNames x
      | with_reducible exact h
      | with_reducible apply State.deskInstr_keeps

theorem execDRepeat_keeps {desk} {w} {s} {out} (e : execDRepeat desk w s = .next out) : Keeps s out := by
  unfold execDRepeat at e
  cases e
  all_goals have h := Keeps.refl s
  all_goals
    repeat' first
      | extract_lets +onlyGivenNames x
      | with_reducible exact h
      | with_reducible apply State.deskInstr_keeps

theorem execDRet_keeps {desk} {w} {s} {out} (e : execDRet desk w s = .next out) : Keeps s out := by
  unfold execDRet at e
  cases e
  all_goals have h := Keeps.refl s
  all_goals
    repeat' first
      | extract_lets +onlyGivenNames x
      | with_reducible exact h
      | with_reducible apply State.deskInstr_keeps

theorem execDRetire_keeps {desk} {w} {s} {out} (e : execDRetire desk w s = .next out) : Keeps s out := by
  unfold execDRetire at e
  cases e
  all_goals have h := Keeps.refl s
  all_goals
    repeat' first
      | extract_lets +onlyGivenNames x
      | with_reducible exact h
      | with_reducible apply State.deskInstr_keeps

theorem execDSar_keeps {desk} {w} {s} {out} (e : execDSar desk w s = .next out) : Keeps s out := by
  unfold execDSar at e
  cases e
  all_goals have h := Keeps.refl s
  all_goals
    repeat' first
      | extract_lets +onlyGivenNames x
      | with_reducible exact h
      | with_reducible apply State.deskInstr_keeps

theorem execDSetm_keeps {desk} {w} {s} {out} (e : execDSetm desk w s = .next out) : Keeps s out := by
  unfold execDSetm at e
  cases e
  all_goals have h := Keeps.refl s
  all_goals
    repeat' first
      | extract_lets +onlyGivenNames x
      | with_reducible exact h
      | with_reducible apply State.deskInstr_keeps

theorem execDSetp_keeps {desk} {w} {s} {out} (e : execDSetp desk w s = .next out) : Keeps s out := by
  unfold execDSetp at e
  cases e
  all_goals have h := Keeps.refl s
  all_goals
    repeat' first
      | extract_lets +onlyGivenNames x
      | with_reducible exact h
      | with_reducible apply State.deskInstr_keeps

theorem execDShl_keeps {desk} {w} {s} {out} (e : execDShl desk w s = .next out) : Keeps s out := by
  unfold execDShl at e
  cases e
  all_goals have h := Keeps.refl s
  all_goals
    repeat' first
      | extract_lets +onlyGivenNames x
      | with_reducible exact h
      | with_reducible apply State.deskInstr_keeps

theorem execDShr_keeps {desk} {w} {s} {out} (e : execDShr desk w s = .next out) : Keeps s out := by
  unfold execDShr at e
  cases e
  all_goals have h := Keeps.refl s
  all_goals
    repeat' first
      | extract_lets +onlyGivenNames x
      | with_reducible exact h
      | with_reducible apply State.deskInstr_keeps

theorem execDSignal_keeps {desk} {w} {s} {out} (e : execDSignal desk w s = .next out) : Keeps s out := by
  unfold execDSignal at e
  cases e
  all_goals have h := Keeps.refl s
  all_goals
    repeat' first
      | extract_lets +onlyGivenNames x
      | with_reducible exact h
      | with_reducible apply State.deskInstr_keeps

theorem execDSts_keeps {desk} {w} {s} {out} (e : execDSts desk w s = .next out) : Keeps s out := by
  unfold execDSts at e
  cases e
  all_goals have h := Keeps.refl s
  all_goals
    repeat' first
      | extract_lets +onlyGivenNames x
      | with_reducible exact h
      | with_reducible apply State.deskInstr_keeps

theorem execDSub_keeps {desk} {w} {s} {out} (e : execDSub desk w s = .next out) : Keeps s out := by
  unfold execDSub at e
  cases e
  all_goals have h := Keeps.refl s
  all_goals
    repeat' first
      | extract_lets +onlyGivenNames x
      | with_reducible exact h
      | with_reducible apply State.deskInstr_keeps

theorem execDTrap_keeps {desk} {w} {s} {out} (e : execDTrap desk w s = .next out) : Keeps s out := by
  unfold execDTrap at e
  cases e
  all_goals have h := Keeps.refl s
  all_goals
    repeat' first
      | extract_lets +onlyGivenNames x
      | with_reducible exact h
      | with_reducible apply State.deskInstr_keeps

theorem execDVabs_keeps {desk} {w} {s} {out} (e : execDVabs desk w s = .next out) : Keeps s out := by
  unfold execDVabs at e
  cases e
  all_goals have h := Keeps.refl s
  all_goals
    repeat' first
      | extract_lets +onlyGivenNames x
      | with_reducible exact h
      | with_reducible apply State.deskInstr_keeps

theorem execDVadd_keeps {desk} {w} {s} {out} (e : execDVadd desk w s = .next out) : Keeps s out := by
  unfold execDVadd at e
  cases e
  all_goals have h := Keeps.refl s
  all_goals
    repeat' first
      | extract_lets +onlyGivenNames x
      | with_reducible exact h
      | with_reducible apply State.deskInstr_keeps

theorem execDVclr_keeps {desk} {w} {s} {out} (e : execDVclr desk w s = .next out) : Keeps s out := by
  unfold execDVclr at e
  cases e
  all_goals have h := Keeps.refl s
  all_goals
    repeat' first
      | extract_lets +onlyGivenNames x
      | with_reducible exact h
      | with_reducible apply State.deskInstr_keeps

theorem execDVext_keeps {desk} {w} {s} {out} (e : execDVext desk w s = .next out) : Keeps s out := by
  unfold execDVext at e
  cases e
  all_goals have h := Keeps.refl s
  all_goals
    repeat' first
      | extract_lets +onlyGivenNames x
      | with_reducible exact h
      | with_reducible apply State.deskInstr_keeps

theorem execDVins_keeps {desk} {w} {s} {out} (e : execDVins desk w s = .next out) : Keeps s out := by
  unfold execDVins at e
  cases e
  all_goals have h := Keeps.refl s
  all_goals
    repeat' first
      | extract_lets +onlyGivenNames x
      | with_reducible exact h
      | with_reducible apply State.deskInstr_keeps

theorem execDVld_keeps {desk} {w} {s} {out} (e : execDVld desk w s = .next out) : Keeps s out := by
  unfold execDVld at e
  cases e
  all_goals have h := Keeps.refl s
  all_goals
    repeat' first
      | extract_lets +onlyGivenNames x
      | with_reducible exact h
      | with_reducible apply State.deskInstr_keeps

theorem execDVldb_keeps {desk} {w} {s} {out} (e : execDVldb desk w s = .next out) : Keeps s out := by
  unfold execDVldb at e
  cases e
  all_goals have h := Keeps.refl s
  all_goals
    repeat' first
      | extract_lets +onlyGivenNames x
      | with_reducible exact h
      | with_reducible apply State.deskInstr_keeps

theorem execDVmac_keeps {desk} {w} {s} {out} (e : execDVmac desk w s = .next out) : Keeps s out := by
  unfold execDVmac at e
  cases e
  all_goals have h := Keeps.refl s
  all_goals
    repeat' first
      | extract_lets +onlyGivenNames x
      | with_reducible exact h
      | with_reducible apply State.deskInstr_keeps

theorem execDVmacm_keeps {desk} {w} {s} {out} (e : execDVmacm desk w s = .next out) : Keeps s out := by
  unfold execDVmacm at e
  cases e
  all_goals have h := Keeps.refl s
  all_goals
    repeat' first
      | extract_lets +onlyGivenNames x
      | with_reducible exact h
      | with_reducible apply State.deskInstr_keeps

theorem execDVmax_keeps {desk} {w} {s} {out} (e : execDVmax desk w s = .next out) : Keeps s out := by
  unfold execDVmax at e
  cases e
  all_goals have h := Keeps.refl s
  all_goals
    repeat' first
      | extract_lets +onlyGivenNames x
      | with_reducible exact h
      | with_reducible apply State.deskInstr_keeps

theorem execDVmin_keeps {desk} {w} {s} {out} (e : execDVmin desk w s = .next out) : Keeps s out := by
  unfold execDVmin at e
  cases e
  all_goals have h := Keeps.refl s
  all_goals
    repeat' first
      | extract_lets +onlyGivenNames x
      | with_reducible exact h
      | with_reducible apply State.deskInstr_keeps

theorem execDVmsu_keeps {desk} {w} {s} {out} (e : execDVmsu desk w s = .next out) : Keeps s out := by
  unfold execDVmsu at e
  cases e
  all_goals have h := Keeps.refl s
  all_goals
    repeat' first
      | extract_lets +onlyGivenNames x
      | with_reducible exact h
      | with_reducible apply State.deskInstr_keeps

theorem execDVmul_keeps {desk} {w} {s} {out} (e : execDVmul desk w s = .next out) : Keeps s out := by
  unfold execDVmul at e
  cases e
  all_goals have h := Keeps.refl s
  all_goals
    repeat' first
      | extract_lets +onlyGivenNames x
      | with_reducible exact h
      | with_reducible apply State.deskInstr_keeps

theorem execDVneg_keeps {desk} {w} {s} {out} (e : execDVneg desk w s = .next out) : Keeps s out := by
  unfold execDVneg at e
  cases e
  all_goals have h := Keeps.refl s
  all_goals
    repeat' first
      | extract_lets +onlyGivenNames x
      | with_reducible exact h
      | with_reducible apply State.deskInstr_keeps

theorem execDVsar_keeps {desk} {w} {s} {out} (e : execDVsar desk w s = .next out) : Keeps s out := by
  unfold execDVsar at e
  cases e
  all_goals have h := Keeps.refl s
  all_goals
    repeat' first
      | extract_lets +onlyGivenNames x
      | with_reducible exact h
      | with_reducible apply State.deskInstr_keeps

theorem execDVshl_keeps {desk} {w} {s} {out} (e : execDVshl desk w s = .next out) : Keeps s out := by
  unfold execDVshl at e
  cases e
  all_goals have h := Keeps.refl s
  all_goals
    repeat' first
      | extract_lets +onlyGivenNames x
      | with_reducible exact h
      | with_reducible apply State.deskInstr_keeps

theorem execDVst_keeps {desk} {w} {s} {out} (e : execDVst desk w s = .next out) : Keeps s out := by
  unfold execDVst at e
  cases e
  all_goals have h := Keeps.refl s
  all_goals
    repeat' first
      | extract_lets +onlyGivenNames x
      | with_reducible exact h
      | with_reducible apply State.deskInstr_keeps

theorem execDVsta_keeps {desk} {w} {s} {out} (e : execDVsta desk w s = .next out) : Keeps s out := by
  unfold execDVsta at e
  cases e
  all_goals have h := Keeps.refl s
  all_goals
    repeat' first
      | extract_lets +onlyGivenNames x
      | with_reducible exact h
      | with_reducible apply State.deskInstr_keeps

theorem execDVsub_keeps {desk} {w} {s} {out} (e : execDVsub desk w s = .next out) : Keeps s out := by
  unfold execDVsub at e
  cases e
  all_goals have h := Keeps.refl s
  all_goals
    repeat' first
      | extract_lets +onlyGivenNames x
      | with_reducible exact h
      | with_reducible apply State.deskInstr_keeps

theorem execDXfer_keeps {desk} {w} {s} {out} (e : execDXfer desk w s = .next out) : Keeps s out := by
  unfold execDXfer at e
  cases e
  all_goals have h := Keeps.refl s
  all_goals
    repeat' first
      | extract_lets +onlyGivenNames x
      | with_reducible exact h
      | with_reducible apply State.deskInstr_keeps

theorem execDXor_keeps {desk} {w} {s} {out} (e : execDXor desk w s = .next out) : Keeps s out := by
  unfold execDXor at e
  cases e
  all_goals have h := Keeps.refl s
  all_goals
    repeat' first
      | extract_lets +onlyGivenNames x
      | with_reducible exact h
      | with_reducible apply State.deskInstr_keeps

theorem execDXwait_keeps {desk} {w} {s} {out} (e : execDXwait desk w s = .next out) : Keeps s out := by
  unfold execDXwait at e
  cases e
  all_goals have h := Keeps.refl s
  all_goals
    repeat' first
      | extract_lets +onlyGivenNames x
      | with_reducible exact h
      | with_reducible apply State.deskInstr_keeps

theorem execDeskClear_keeps {desk} {s} {out} (e : execDeskClear desk s = .next out) : Keeps s out := by
  unfold execDeskClear at e
  cases e
  all_goals have h := Keeps.refl s
  all_goals
    repeat' first
      | extract_lets +onlyGivenNames x
      | with_reducible exact h
      | with_reducible apply barWrite_keeps
      | with_reducible apply deskClear_keeps

theorem execDeskDbgDataWrite_keeps {desk} {v} {s} {out} (e : execDeskDbgDataWrite desk v s = .next out) : Keeps s out := by
  unfold execDeskDbgDataWrite at e
  cases e
  all_goals have h := Keeps.refl s
  all_goals
    repeat' first
      | extract_lets +onlyGivenNames x
      | with_reducible exact h
      | with_reducible apply barWrite_keeps
      | with_reducible apply deskDbg_keeps

theorem execDeskEnableWrite_keeps {desk} {v} {s} {out} (e : execDeskEnableWrite desk v s = .next out) : Keeps s out := by
  unfold execDeskEnableWrite at e
  cases e
  all_goals have h := Keeps.refl s
  all_goals
    repeat' first
      | extract_lets +onlyGivenNames x
      | with_reducible exact h
      | with_reducible apply barWrite_keeps
      | with_reducible apply deskCfg_keeps

theorem execDeskHalt_keeps {desk} {s} {out} (e : execDeskHalt desk s = .next out) : Keeps s out := by
  unfold execDeskHalt at e
  cases e
  all_goals have h := Keeps.refl s
  all_goals
    repeat' first
      | extract_lets +onlyGivenNames x
      | with_reducible exact h
      | with_reducible apply barWrite_keeps
      | with_reducible apply deskHalt_keeps

theorem execDeskPcWrite_keeps {desk} {v} {s} {out} (e : execDeskPcWrite desk v s = .next out) : Keeps s out := by
  unfold execDeskPcWrite at e
  cases e
  all_goals have h := Keeps.refl s
  all_goals
    repeat' first
      | extract_lets +onlyGivenNames x
      | with_reducible exact h
      | with_reducible apply barWrite_keeps
      | with_reducible apply deskPc_keeps

theorem execDeskRun_keeps {desk} {s} {out} (e : execDeskRun desk s = .next out) : Keeps s out := by
  unfold execDeskRun at e
  cases e
  all_goals have h := Keeps.refl s
  all_goals
    repeat' first
      | extract_lets +onlyGivenNames x
      | with_reducible exact h
      | with_reducible apply barWrite_keeps
      | with_reducible apply deskRun_keeps

theorem execDeskStep_keeps {desk} {s} {out} (e : execDeskStep desk s = .next out) : Keeps s out := by
  unfold execDeskStep at e
  cases e
  all_goals have h := Keeps.refl s
  all_goals
    repeat' first
      | extract_lets +onlyGivenNames x
      | with_reducible exact h
      | with_reducible apply barWrite_keeps
      | with_reducible apply deskStepOne_keeps

theorem execXferComplete_keeps {desk} {badWords} {s} {out} (e : execXferComplete desk badWords s = .next out) : Keeps s out := by
  unfold execXferComplete at e
  cases e
  all_goals have h := Keeps.refl s
  all_goals
    repeat' first
      | extract_lets +onlyGivenNames x
      | with_reducible exact h
      | with_reducible apply xferComplete_keeps

/-! ### Shelf -/

theorem execFlashSlotExamined_keeps {slot} {image} {s} {out} (e : execFlashSlotExamined slot image s = .next out) : Keeps s out := by
  unfold execFlashSlotExamined at e
  cases e
  all_goals have h := Keeps.refl s
  all_goals
    repeat' first
      | extract_lets +onlyGivenNames x
      | with_reducible exact h
      | with_reducible apply flashSlotExamined_keeps

theorem execShelfLoad_keeps {e} {s} {out} (e : execShelfLoad e s = .next out) : Keeps s out := by
  unfold execShelfLoad at e
  cases e
  all_goals have h := Keeps.refl s
  all_goals
    repeat' first
      | extract_lets +onlyGivenNames x
      | with_reducible exact h
      | with_reducible apply hostCommand_keeps
      | with_reducible apply shelfLoad_keeps

theorem execShelfLoadCopyEnd_keeps {slot} {x} {s} {out} (e : execShelfLoadCopyEnd slot x s = .next out) : Keeps s out := by
  unfold execShelfLoadCopyEnd at e
  cases e
  all_goals have h := Keeps.refl s
  all_goals
    repeat' first
      | extract_lets +onlyGivenNames x
      | with_reducible exact h
      | with_reducible apply shelfLoadCopyEnd_keeps

theorem execShelfSwitch_keeps {e} {s} {out} (e : execShelfSwitch e s = .next out) : Keeps s out := by
  unfold execShelfSwitch at e
  cases e
  all_goals have h := Keeps.refl s
  all_goals
    repeat' first
      | extract_lets +onlyGivenNames x
      | with_reducible exact h
      | with_reducible apply hostCommand_keeps
      | with_reducible apply shelfSwitch_keeps

theorem execShelfVerify_keeps {e} {s} {out} (e : execShelfVerify e s = .next out) : Keeps s out := by
  unfold execShelfVerify at e
  cases e
  all_goals have h := Keeps.refl s
  all_goals
    repeat' first
      | extract_lets +onlyGivenNames x
      | with_reducible exact h
      | with_reducible apply hostCommand_keeps
      | with_reducible apply shelfVerify_keeps

theorem execShelfVerifyEnd_keeps {slot} {x} {s} {out} (e : execShelfVerifyEnd slot x s = .next out) : Keeps s out := by
  unfold execShelfVerifyEnd at e
  cases e
  all_goals have h := Keeps.refl s
  all_goals
    repeat' first
      | extract_lets +onlyGivenNames x
      | with_reducible exact h
      | with_reducible apply shelfVerifyEnd_keeps

/-! ### RegRead -/

theorem execClearOnRead_keeps {off} {s} {out} (e : execClearOnRead off s = .next out) : Keeps s out := by
  unfold execClearOnRead at e
  repeat' split at e
  all_goals cases e
  all_goals have h := Keeps.refl s
  all_goals
    repeat' first
      | extract_lets +onlyGivenNames x
      | with_reducible exact h
      | with_reducible apply State.answered_keeps
      | with_reducible apply readReg_keeps

theorem execLowWordRead_keeps {m} {off} {s} {out} (e : execLowWordRead m off s = .next out) : Keeps s out := by
  unfold execLowWordRead at e
  repeat' split at e
  all_goals cases e
  all_goals have h := Keeps.refl s
  all_goals
    repeat' first
      | extract_lets +onlyGivenNames x
      | with_reducible exact h
      | with_reducible apply State.answered_keeps
      | with_reducible apply readReg_keeps

/-! ### Board -/

theorem execAlertResponse_keeps {changed} {s} {out} (e : execAlertResponse changed s = .next out) : Keeps s out := by
  unfold execAlertResponse at e
  cases e
  all_goals have h := Keeps.refl s
  all_goals
    repeat' first
      | extract_lets +onlyGivenNames x
      | with_reducible exact h
      | with_reducible apply alertResponse_keeps

theorem execJtagBypass_keeps {tdi} {s} {out} (e : execJtagBypass tdi s = .next out) : Keeps s out := by
  unfold execJtagBypass at e
  cases e
  all_goals have h := Keeps.refl s
  all_goals
    repeat' first
      | extract_lets +onlyGivenNames x
      | with_reducible exact h
      | with_reducible apply State.jtagRun_keeps

theorem execJtagClamp_keeps {s} {out} (e : execJtagClamp s = .next out) : Keeps s out := by
  unfold execJtagClamp at e
  cases e
  all_goals have h := Keeps.refl s
  all_goals
    repeat' first
      | extract_lets +onlyGivenNames x
      | with_reducible exact h
      | with_reducible apply State.jtagRun_keeps

theorem execJtagExtest_keeps {pins} {load} {s} {out} (e : execJtagExtest pins load s = .next out) : Keeps s out := by
  unfold execJtagExtest at e
  cases e
  all_goals have h := Keeps.refl s
  all_goals
    repeat' first
      | extract_lets +onlyGivenNames x
      | with_reducible exact h
      | with_reducible apply State.jtagRun_keeps

theorem execJtagHighz_keeps {s} {out} (e : execJtagHighz s = .next out) : Keeps s out := by
  unfold execJtagHighz at e
  cases e
  all_goals have h := Keeps.refl s
  all_goals
    repeat' first
      | extract_lets +onlyGivenNames x
      | with_reducible exact h
      | with_reducible apply State.jtagRun_keeps

theorem execJtagIdcode_keeps {s} {out} (e : execJtagIdcode s = .next out) : Keeps s out := by
  unfold execJtagIdcode at e
  cases e
  all_goals have h := Keeps.refl s
  all_goals
    repeat' first
      | extract_lets +onlyGivenNames x
      | with_reducible exact h
      | with_reducible apply State.jtagRun_keeps

theorem execJtagSamplePreload_keeps {pins} {load} {s} {out} (e : execJtagSamplePreload pins load s = .next out) : Keeps s out := by
  unfold execJtagSamplePreload at e
  cases e
  all_goals have h := Keeps.refl s
  all_goals
    repeat' first
      | extract_lets +onlyGivenNames x
      | with_reducible exact h
      | with_reducible apply State.jtagRun_keeps

theorem execJtagTrst_keeps {low} {s} {out} (e : execJtagTrst low s = .next out) : Keeps s out := by
  unfold execJtagTrst at e
  cases e
  all_goals have h := Keeps.refl s
  all_goals
    repeat' first
      | extract_lets +onlyGivenNames x
      | with_reducible exact h
      | with_reducible apply jtagTrst_keeps

theorem execSmbusReadBoot_keeps {s} {out} (e : execSmbusReadBoot s = .next out) : Keeps s out := by
  unfold execSmbusReadBoot at e
  cases e
  all_goals have h := Keeps.refl s
  all_goals
    repeat' first
      | extract_lets +onlyGivenNames x
      | with_reducible exact h
      | with_reducible apply State.smbAnswer_keeps

theorem execSmbusReadId_keeps {s} {out} (e : execSmbusReadId s = .next out) : Keeps s out := by
  unfold execSmbusReadId at e
  cases e
  all_goals have h := Keeps.refl s
  all_goals
    repeat' first
      | extract_lets +onlyGivenNames x
      | with_reducible exact h
      | with_reducible apply State.smbAnswer_keeps

theorem execSmbusReadStatus_keeps {s} {out} (e : execSmbusReadStatus s = .next out) : Keeps s out := by
  unfold execSmbusReadStatus at e
  cases e
  all_goals have h := Keeps.refl s
  all_goals
    repeat' first
      | extract_lets +onlyGivenNames x
      | with_reducible exact h
      | with_reducible apply State.smbAnswer_keeps

theorem execSmbusReadTemperature_keeps {s} {out} (e : execSmbusReadTemperature s = .next out) : Keeps s out := by
  unfold execSmbusReadTemperature at e
  cases e
  all_goals have h := Keeps.refl s
  all_goals
    repeat' first
      | extract_lets +onlyGivenNames x
      | with_reducible exact h
      | with_reducible apply smbTemperature_keeps

theorem execSmbusReadWakeCause_keeps {s} {out} (e : execSmbusReadWakeCause s = .next out) : Keeps s out := by
  unfold execSmbusReadWakeCause at e
  cases e
  all_goals have h := Keeps.refl s
  all_goals
    repeat' first
      | extract_lets +onlyGivenNames x
      | with_reducible exact h
      | with_reducible apply State.smbAnswer_keeps

theorem execSmbusUnknownRead_keeps {code} {s} {out} (e : execSmbusUnknownRead code s = .next out) : Keeps s out := by
  unfold execSmbusUnknownRead at e
  cases e
  all_goals have h := Keeps.refl s
  all_goals
    repeat' first
      | extract_lets +onlyGivenNames x
      | with_reducible exact h
      | with_reducible apply State.smbAnswer_keeps
      | with_reducible refine Keeps.ite (fun _ => ?_) (fun _ => ?_)

theorem execSmbusWrite_keeps {a0} {s} {out} (e : execSmbusWrite a0 s = .next out) : Keeps s out := by
  unfold execSmbusWrite at e
  cases e
  all_goals have h := Keeps.refl s
  all_goals
    repeat' first
      | extract_lets +onlyGivenNames x
      | with_reducible exact h
      | with_reducible apply State.smbAnswer_keeps

/-! ### Reset -/

theorem execAtticSelfBoot_keeps {straps} {s} {out} (e : execAtticSelfBoot straps s = .next out) : Keeps s out := by
  unfold execAtticSelfBoot at e
  cases e
  all_goals have h := Keeps.refl s
  all_goals
    repeat' first
      | extract_lets +onlyGivenNames x
      | with_reducible exact h
      | with_reducible apply watched_keeps
      | with_reducible apply atticSelfBoot_keeps

theorem execComparatorFire_keeps {k} {s} {out} (e : execComparatorFire k s = .next out) : Keeps s out := by
  unfold execComparatorFire at e
  cases e
  all_goals have h := Keeps.refl s
  all_goals
    repeat' first
      | extract_lets +onlyGivenNames x
      | with_reducible exact h
      | with_reducible apply comparatorFire_keeps

theorem execFuseBurnEnd_keeps {ok} {s} {out} (e : execFuseBurnEnd ok s = .next out) : Keeps s out := by
  unfold execFuseBurnEnd at e
  cases e
  all_goals have h := Keeps.refl s
  all_goals
    repeat' first
      | extract_lets +onlyGivenNames x
      | with_reducible exact h
      | with_reducible apply fuseBurnEnd_keeps

theorem execFuseBurnKeyHash_keeps {key} {s} {out} (e : execFuseBurnKeyHash key s = .next out) : Keeps s out := by
  unfold execFuseBurnKeyHash at e
  cases e
  all_goals have h := Keeps.refl s
  all_goals
    repeat' first
      | extract_lets +onlyGivenNames x
      | with_reducible exact h
      | with_reducible apply barWrite_keeps
      | with_reducible apply fuseCmd_keeps

theorem execFuseRollbackAdvance_keeps {key} {s} {out} (e : execFuseRollbackAdvance key s = .next out) : Keeps s out := by
  unfold execFuseRollbackAdvance at e
  cases e
  all_goals have h := Keeps.refl s
  all_goals
    repeat' first
      | extract_lets +onlyGivenNames x
      | with_reducible exact h
      | with_reducible apply barWrite_keeps
      | with_reducible apply fuseCmd_keeps

theorem execMainRailDrop_keeps {s} {out} (e : execMainRailDrop s = .next out) : Keeps s out := by
  unfold execMainRailDrop at e
  cases e
  all_goals have h := Keeps.refl s
  all_goals
    repeat' first
      | extract_lets +onlyGivenNames x
      | with_reducible exact h
      | with_reducible apply watched_keeps
      | with_reducible apply mainRailDrop_keeps

theorem execMainRailReturn_keeps {s} {out} (e : execMainRailReturn s = .next out) : Keeps s out := by
  unfold execMainRailReturn at e
  cases e
  all_goals have h := Keeps.refl s
  all_goals
    repeat' first
      | extract_lets +onlyGivenNames x
      | with_reducible exact h
      | with_reducible apply mainRailReturn_keeps

theorem execResetNAssert_keeps {s} {out} (e : execResetNAssert s = .next out) : Keeps s out := by
  unfold execResetNAssert at e
  cases e
  all_goals have h := Keeps.refl s
  all_goals
    repeat' first
      | extract_lets +onlyGivenNames x
      | with_reducible exact h
      | with_reducible apply watched_keeps
      | with_reducible apply resetNAssert_keeps

theorem execResetRelease_keeps {straps} {s} {out} (e : execResetRelease straps s = .next out) : Keeps s out := by
  unfold execResetRelease at e
  cases e
  all_goals have h := Keeps.refl s
  all_goals
    repeat' first
      | extract_lets +onlyGivenNames x
      | with_reducible exact h
      | with_reducible apply watched_keeps
      | with_reducible apply resetRelease_keeps

theorem execSoftReset_keeps {key} {soft} {s} {out} (e : execSoftReset key soft s = .next out) : Keeps s out := by
  unfold execSoftReset at e
  cases e
  all_goals have h := Keeps.refl s
  all_goals
    repeat' first
      | extract_lets +onlyGivenNames x
      | with_reducible exact h
      | with_reducible apply watched_keeps
      | with_reducible apply barWrite_keeps
      | with_reducible apply softReset_keeps

theorem execVddAtticDrop_keeps {s} {out} (e : execVddAtticDrop s = .next out) : Keeps s out := by
  unfold execVddAtticDrop at e
  cases e
  all_goals have h := Keeps.refl s
  all_goals
    repeat' first
      | extract_lets +onlyGivenNames x
      | with_reducible exact h
      | with_reducible apply watched_keeps
      | with_reducible apply vddAtticDrop_keeps

theorem execVddAtticRise_keeps {s} {out} (e : execVddAtticRise s = .next out) : Keeps s out := by
  unfold execVddAtticRise at e
  cases e
  all_goals have h := Keeps.refl s
  all_goals
    repeat' first
      | extract_lets +onlyGivenNames x
      | with_reducible exact h
      | with_reducible apply watched_keeps
      | with_reducible apply vddAtticRise_keeps

theorem execVddIo33Loss_keeps {s} {out} (e : execVddIo33Loss s = .next out) : Keeps s out := by
  unfold execVddIo33Loss at e
  cases e
  all_goals have h := Keeps.refl s
  all_goals
    repeat' first
      | extract_lets +onlyGivenNames x
      | with_reducible exact h
      | with_reducible apply State.setPwr_keeps

theorem execVddIo33Return_keeps {s} {out} (e : execVddIo33Return s = .next out) : Keeps s out := by
  unfold execVddIo33Return at e
  cases e
  all_goals have h := Keeps.refl s
  all_goals
    repeat' first
      | extract_lets +onlyGivenNames x
      | with_reducible exact h
      | with_reducible apply State.setPwr_keeps

theorem execWake_keeps {src} {s} {out} (e : execWake src s = .next out) : Keeps s out := by
  unfold execWake at e
  cases e
  all_goals have h := Keeps.refl s
  all_goals
    repeat' first
      | extract_lets +onlyGivenNames x
      | with_reducible exact h
      | with_reducible apply wake_keeps

theorem execXtalFault_keeps {s} {out} (e : execXtalFault s = .next out) : Keeps s out := by
  unfold execXtalFault at e
  cases e
  all_goals have h := Keeps.refl s
  all_goals
    repeat' first
      | extract_lets +onlyGivenNames x
      | with_reducible exact h
      | with_reducible apply watched_keeps
      | with_reducible apply xtalFault_keeps

theorem execXtalReturn_keeps {s} {out} (e : execXtalReturn s = .next out) : Keeps s out := by
  unfold execXtalReturn at e
  cases e
  all_goals have h := Keeps.refl s
  all_goals
    repeat' first
      | extract_lets +onlyGivenNames x
      | with_reducible exact h
      | with_reducible apply watched_keeps
      | with_reducible apply State.setPwr_keeps

/-! ### RegWrite -/

theorem execDmaNextPcWrite_keeps {c} {m} {hi} {sameCycle} {s} {out} (e : execDmaNextPcWrite c m hi sameCycle s = .next out) : Keeps s out := by
  unfold execDmaNextPcWrite at e
  cases e
  all_goals have h := Keeps.refl s
  all_goals
    repeat' first
      | extract_lets +onlyGivenNames x
      | with_reducible exact h
      | with_reducible apply barWrite_keeps
      | with_reducible apply dmaNextPcHigh_keeps

theorem execDskTaskSelWrite_keeps {v} {s} {out} (e : execDskTaskSelWrite v s = .next out) : Keeps s out := by
  unfold execDskTaskSelWrite at e
  cases e
  all_goals have h := Keeps.refl s
  all_goals
    repeat' first
      | extract_lets +onlyGivenNames x
      | with_reducible exact h
      | with_reducible apply barWrite_keeps
      | with_reducible apply dskTaskSel_keeps

theorem execEventEnableWrite_keeps {off} {v} {s} {out} (e : execEventEnableWrite off v s = .next out) : Keeps s out := by
  unfold execEventEnableWrite at e
  exact writeRow_keeps (fun u hu => by
    repeat' first
      | extract_lets +onlyGivenNames x
      | with_reducible exact hu
      | with_reducible apply enableWrite_keeps
      | with_reducible refine Keeps.record rfl rfl rfl rfl ?_) e

theorem execGeoLkSelWrite_keeps {v} {s} {out} (e : execGeoLkSelWrite v s = .next out) : Keeps s out := by
  unfold execGeoLkSelWrite at e
  cases e
  all_goals have h := Keeps.refl s
  all_goals
    repeat' first
      | extract_lets +onlyGivenNames x
      | with_reducible exact h
      | with_reducible apply barWrite_keeps
      | with_reducible apply geoLkSel_keeps

theorem execHighWordWrite_keeps {m} {off} {v} {s} {out} (e : execHighWordWrite m off v s = .next out) : Keeps s out := by
  unfold execHighWordWrite at e
  exact writeRow_keeps (fun u hu => by
    repeat' first
      | extract_lets +onlyGivenNames x
      | with_reducible exact hu
      | with_reducible apply writeReg_keeps
      | with_reducible refine Keeps.ite (fun _ => ?_) (fun _ => ?_)
      | with_reducible refine Keeps.record rfl rfl rfl rfl ?_) e

theorem execLowWordWrite_keeps {m} {off} {v} {s} {out} (e : execLowWordWrite m off v s = .next out) : Keeps s out := by
  unfold execLowWordWrite at e
  exact writeRow_keeps (fun u hu => by
    repeat' first
      | extract_lets +onlyGivenNames x
      | with_reducible exact hu
      | with_reducible apply writeReg_keeps
      | with_reducible refine Keeps.ite (fun _ => ?_) (fun _ => ?_)
      | with_reducible refine Keeps.record rfl rfl rfl rfl ?_) e

theorem execNetFlSelWrite_keeps {v} {s} {out} (e : execNetFlSelWrite v s = .next out) : Keeps s out := by
  unfold execNetFlSelWrite at e
  cases e
  all_goals have h := Keeps.refl s
  all_goals
    repeat' first
      | extract_lets +onlyGivenNames x
      | with_reducible exact h
      | with_reducible apply barWrite_keeps
      | with_reducible apply netFlSel_keeps

theorem execObjLkSelWrite_keeps {v} {s} {out} (e : execObjLkSelWrite v s = .next out) : Keeps s out := by
  unfold execObjLkSelWrite at e
  cases e
  all_goals have h := Keeps.refl s
  all_goals
    repeat' first
      | extract_lets +onlyGivenNames x
      | with_reducible exact h
      | with_reducible apply barWrite_keeps
      | with_reducible apply objLkSel_keeps

theorem execPthLkSelWrite_keeps {v} {s} {out} (e : execPthLkSelWrite v s = .next out) : Keeps s out := by
  unfold execPthLkSelWrite at e
  cases e
  all_goals have h := Keeps.refl s
  all_goals
    repeat' first
      | extract_lets +onlyGivenNames x
      | with_reducible exact h
      | with_reducible apply barWrite_keeps
      | with_reducible apply pthLkSel_keeps

theorem execPthProbeSelWrite_keeps {v} {s} {out} (e : execPthProbeSelWrite v s = .next out) : Keeps s out := by
  unfold execPthProbeSelWrite at e
  cases e
  all_goals have h := Keeps.refl s
  all_goals
    repeat' first
      | extract_lets +onlyGivenNames x
      | with_reducible exact h
      | with_reducible apply barWrite_keeps
      | with_reducible apply pthProbeSel_keeps

theorem execRegisterWrite_keeps {m} {off} {v} {s} {out} (e : execRegisterWrite m off v s = .next out) : Keeps s out := by
  unfold execRegisterWrite at e
  exact writeRow_keeps (fun u hu => by
    repeat' first
      | extract_lets +onlyGivenNames x
      | with_reducible exact hu
      | with_reducible apply writeReg_keeps
      | with_reducible refine Keeps.ite (fun _ => ?_) (fun _ => ?_)
      | with_reducible refine Keeps.record rfl rfl rfl rfl ?_) e

theorem execSpkFdSelWrite_keeps {v} {s} {out} (e : execSpkFdSelWrite v s = .next out) : Keeps s out := by
  unfold execSpkFdSelWrite at e
  cases e
  all_goals have h := Keeps.refl s
  all_goals
    repeat' first
      | extract_lets +onlyGivenNames x
      | with_reducible exact h
      | with_reducible apply barWrite_keeps
      | with_reducible apply spkFdSel_keeps

theorem execSysLedgerSelWrite_keeps {v} {s} {out} (e : execSysLedgerSelWrite v s = .next out) : Keeps s out := by
  unfold execSysLedgerSelWrite at e
  cases e
  all_goals have h := Keeps.refl s
  all_goals
    repeat' first
      | extract_lets +onlyGivenNames x
      | with_reducible exact h
      | with_reducible apply barWrite_keeps
      | with_reducible apply sysLedgerSel_keeps

theorem execW1cWrite_keeps {off} {v} {sameCycle} {s} {out} (e : execW1cWrite off v sameCycle s = .next out) : Keeps s out := by
  unfold execW1cWrite at e
  exact writeRow_keeps (fun u hu => by
    repeat' first
      | extract_lets +onlyGivenNames x
      | with_reducible exact hu
      | with_reducible apply w1c_keeps
      | with_reducible refine Keeps.record rfl rfl rfl rfl ?_) e

/-! ### Boot -/

theorem execAutoStart_keeps {s} {out} (e : execAutoStart s = .next out) : Keeps s out := by
  unfold execAutoStart at e
  cases e
  all_goals have h := Keeps.refl s
  all_goals
    repeat' first
      | extract_lets +onlyGivenNames x
      | with_reducible exact h
      | with_reducible apply watched_keeps
      | with_reducible apply autoStart_keeps

theorem execBootStageEnd_keeps {x} {s} {out} (e : execBootStageEnd x s = .next out) : Keeps s out := by
  unfold execBootStageEnd at e
  cases e
  all_goals have h := Keeps.refl s
  all_goals
    repeat' first
      | extract_lets +onlyGivenNames x
      | with_reducible exact h
      | with_reducible apply watched_keeps
      | with_reducible apply bootStageEnd_keeps

theorem execHostWaitExpiry_keeps {s} {out} (e : execHostWaitExpiry s = .next out) : Keeps s out := by
  unfold execHostWaitExpiry at e
  cases e
  all_goals have h := Keeps.refl s
  all_goals
    repeat' first
      | extract_lets +onlyGivenNames x
      | with_reducible exact h
      | with_reducible apply hostWaitExpiry_keeps

/-! ### Boundary -/

theorem execBlockBoundary_keeps {x} {s} {out} (e : execBlockBoundary x s = .next out) : Keeps s out := by
  unfold execBlockBoundary at e
  cases e
  all_goals have h := Keeps.refl s
  all_goals
    repeat' first
      | extract_lets +onlyGivenNames x
      | with_reducible exact h
      | with_reducible apply watched_keeps
      | with_reducible apply blockBoundary_keeps

theorem execSamplePeriodStart_keeps {x} {s} {out} (e : execSamplePeriodStart x s = .next out) : Keeps s out := by
  unfold execSamplePeriodStart at e
  cases e
  all_goals have h := Keeps.refl s
  all_goals
    repeat' first
      | extract_lets +onlyGivenNames x
      | with_reducible exact h
      | with_reducible apply samplePeriodStart_keeps

/-! ### Dma -/

theorem execDmaAbort_keeps {e} {s} {out} (e : execDmaAbort e s = .next out) : Keeps s out := by
  unfold execDmaAbort at e
  cases e
  all_goals have h := Keeps.refl s
  all_goals
    repeat' first
      | extract_lets +onlyGivenNames x
      | with_reducible exact h
      | with_reducible apply hostCommand_keeps
      | with_reducible apply dmaAbort_keeps

theorem execDmaEnd_keeps {c} {ins} {s} {out} (e : execDmaEnd c ins s = .next out) : Keeps s out := by
  unfold execDmaEnd at e
  cases e
  all_goals have h := Keeps.refl s
  all_goals
    repeat' first
      | extract_lets +onlyGivenNames x
      | with_reducible exact h
      | with_reducible apply dmaEnd_keeps

theorem execDmaJump_keeps {c} {ins} {s} {out} (e : execDmaJump c ins s = .next out) : Keeps s out := by
  unfold execDmaJump at e
  cases e
  all_goals have h := Keeps.refl s
  all_goals
    repeat' first
      | extract_lets +onlyGivenNames x
      | with_reducible exact h
      | with_reducible apply dmaJump_keeps

theorem execDmaLoop_keeps {c} {ins} {s} {out} (e : execDmaLoop c ins s = .next out) : Keeps s out := by
  unfold execDmaLoop at e
  cases e
  all_goals have h := Keeps.refl s
  all_goals
    repeat' first
      | extract_lets +onlyGivenNames x
      | with_reducible exact h
      | with_reducible apply dmaLoop_keeps

theorem execDmaMove_keeps {c} {ins} {s} {out} (e : execDmaMove c ins s = .next out) : Keeps s out := by
  unfold execDmaMove at e
  cases e
  all_goals have h := Keeps.refl s
  all_goals
    repeat' first
      | extract_lets +onlyGivenNames x
      | with_reducible exact h
      | with_reducible apply dmaMove_keeps

theorem execDmaMoveComplete_keeps {c} {x} {s} {out} (e : execDmaMoveComplete c x s = .next out) : Keeps s out := by
  unfold execDmaMoveComplete at e
  cases e
  all_goals have h := Keeps.refl s
  all_goals
    repeat' first
      | extract_lets +onlyGivenNames x
      | with_reducible exact h
      | with_reducible apply watched_keeps
      | with_reducible apply dmaMoveComplete_keeps

theorem execDmaPause_keeps {e} {s} {out} (e : execDmaPause e s = .next out) : Keeps s out := by
  unfold execDmaPause at e
  cases e
  all_goals have h := Keeps.refl s
  all_goals
    repeat' first
      | extract_lets +onlyGivenNames x
      | with_reducible exact h
      | with_reducible apply hostCommand_keeps
      | with_reducible apply dmaPause_keeps

theorem execDmaPauseEffect_keeps {c} {x} {s} {out} (e : execDmaPauseEffect c x s = .next out) : Keeps s out := by
  unfold execDmaPauseEffect at e
  cases e
  all_goals have h := Keeps.refl s
  all_goals
    repeat' first
      | extract_lets +onlyGivenNames x
      | with_reducible exact h
      | with_reducible apply watched_keeps
      | with_reducible apply dmaPauseEffect_keeps

theorem execDmaResume_keeps {e} {s} {out} (e : execDmaResume e s = .next out) : Keeps s out := by
  unfold execDmaResume at e
  cases e
  all_goals have h := Keeps.refl s
  all_goals
    repeat' first
      | extract_lets +onlyGivenNames x
      | with_reducible exact h
      | with_reducible apply hostCommand_keeps
      | with_reducible apply dmaResume_keeps

theorem execDmaSignal_keeps {c} {ins} {s} {out} (e : execDmaSignal c ins s = .next out) : Keeps s out := by
  unfold execDmaSignal at e
  cases e
  all_goals have h := Keeps.refl s
  all_goals
    repeat' first
      | extract_lets +onlyGivenNames x
      | with_reducible exact h
      | with_reducible apply dmaSignal_keeps

theorem execDmaStart_keeps {e} {s} {out} (e : execDmaStart e s = .next out) : Keeps s out := by
  unfold execDmaStart at e
  cases e
  all_goals have h := Keeps.refl s
  all_goals
    repeat' first
      | extract_lets +onlyGivenNames x
      | with_reducible exact h
      | with_reducible apply hostCommand_keeps
      | with_reducible apply dmaStart_keeps

theorem execDmaStop_keeps {c} {x} {s} {out} (e : execDmaStop c x s = .next out) : Keeps s out := by
  unfold execDmaStop at e
  cases e
  all_goals have h := Keeps.refl s
  all_goals
    repeat' first
      | extract_lets +onlyGivenNames x
      | with_reducible exact h
      | with_reducible apply watched_keeps
      | with_reducible apply dmaStop_keeps

theorem execDmaWait_keeps {c} {ins} {s} {out} (e : execDmaWait c ins s = .next out) : Keeps s out := by
  unfold execDmaWait at e
  cases e
  all_goals have h := Keeps.refl s
  all_goals
    repeat' first
      | extract_lets +onlyGivenNames x
      | with_reducible exact h
      | with_reducible apply dmaWait_keeps

theorem execDmaWaitSatisfied_keeps {c} {s} {out} (e : execDmaWaitSatisfied c s = .next out) : Keeps s out := by
  unfold execDmaWaitSatisfied at e
  cases e
  all_goals have h := Keeps.refl s
  all_goals
    repeat' first
      | extract_lets +onlyGivenNames x
      | with_reducible exact h
      | with_reducible apply dmaWaitSatisfied_keeps

end Sys2Proof.Machine
end

