-- ==== Sys2Proof/WellFormed.lean ====
section
/-!
DEFINITION. The commands that can be sent: what a command's operands must satisfy beyond their types. A
command that fails a check is one the row's source cannot produce.
-/
namespace Sys2Proof

/-- A time-stamp's fields lie in their ranges (R53). -/
def TimeStamp.wf (t : TimeStamp) : Bool := t.sec < 2 ^ 48 && t.ns < 1000000000 && t.sub < 65536

/-- An entry has 48 opcode-specific bytes and lies in a ring (R342, R349). -/
def Submission.wf (e : Submission) : Bool := e.body.length == 48 && e.index < 4096

def FetchedEntry.wf (e : FetchedEntry) : Bool := e.body.length == 48

/-- The frames of a sample period name ports, with at most 32 slots (R276, R278). -/
def SampleInput.wf (x : SampleInput) : Bool :=
  x.serial.all (fun p => p.1 < 64 && p.2.length ≤ 32)

/-- A path record that was not finished rendered fewer than 16 samples (R179). -/
def BoundaryInput.wf (x : BoundaryInput) : Bool :=
  x.overrun.all (fun r => r.1 < 1024 && r.2.2 < 16) && x.cellarErr.all (·.1 < 1536) && x.cellarDry.all (· < 1536)

def GeometryInput.wf (x : GeometryInput) : Bool := x.recordErr.all (fun r => r.1 < 1024 && r.2.1 < 2 && r.2.2 < 56)

/-- A cell carries four channel-blocks of 16 words and four counts (R311). -/
def Cell.wf (c : Cell) : Bool :=
  c.block % 16 == 0 && c.first % 4 == 0 && c.words.length == 4 && c.words.all (·.length == 16) &&
  c.contrib.length == 4 && c.contrib.all (· < 256)

def RollRecord.wf (r : RollRecord) : Bool :=
  r.position < 256 && r.budget ≤ 4096 && r.budget % 16 == 0 && r.pubs.all (· < 1024) && r.reads.all (· < 1024) &&
  r.sumIn.all (· < 512) && r.sumOut.all (· < 512)

/-- The pins sampled as straps have two bits each (R423). -/
def Straps.wf (p : Straps) : Bool := p.bootMode < 4 && p.profSel < 4

/-- The operation byte of a DMA instruction is the row's own, or a reserved one (R368). -/
def dmaOpOk (op : Nat) (ins : DmaBits) : Bool := fieldOf ins 0 8 == op || 6 ≤ fieldOf ins 0 8

/-- The words of a frame. -/
def slotsOk (ws : List SlotWord) : Bool := ws.length ≤ 128

/-- Which commands can be sent. -/
def Instr.wf : Instr → Bool
  | .nop e => e.wf
  | .versionSet e => e.wf
  | .modeSet e => e.wf
  | .shelfSwitch e => e.wf
  | .shelfLoad e => e.wf
  | .shelfVerify e => e.wf
  | .epochOpen e => e.wf
  | .epochCommit e => e.wf
  | .epochCancel e => e.wf
  | .bellSet e => e.wf
  | .bellCancel e => e.wf
  | .objConfig e => e.wf
  | .objPosition e => e.wf
  | .objGain e => e.wf
  | .objEq e => e.wf
  | .airSet e => e.wf
  | .matrixSet e => e.wf
  | .feedConfig e => e.wf
  | .firLoad e => e.wf
  | .limiterSet e => e.wf
  | .corridorSet e => e.wf
  | .flowAdd e => e.wf
  | .flowRemove e => e.wf
  | .chainConfig e => e.wf
  | .taskCreate e => e.wf
  | .taskSignal e => e.wf
  | .taskCancel e => e.wf
  | .dmaStart e => e.wf
  | .dmaAbort e => e.wf
  | .dmaPause e => e.wf
  | .dmaResume e => e.wf
  | .captureStart e => e.wf
  | .captureStop e => e.wf
  | .replaySet e => e.wf
  | .ledgerSnapshot e => e.wf
  | .statsSnapshot e => e.wf
  | .creditAudit e => e.wf
  | .sdacWrite e => e.wf
  | .sdacStrobe e => e.wf
  | .watchdogKick e => e.wf
  | .samplePeriodStart x => x.wf
  | .blockBoundary x => x.wf
  | .epochExpire _ => true
  | .epochMemberStaged _ _ => true
  | .epochSplit _ => true
  | .bellRing stream id => id < (if stream then 256 else 4096)
  | .geometryEvaluationDeadline x => x.wf
  | .pruneHoldEnd locker set speaker => locker < 1024 && set < 4 && speaker < 512
  | .probeCapture => true
  | .jumpCrossfadeEnd locker => locker < 1024
  | .xfadeDone => true
  | .lockerDisable locker => locker < 1024
  | .firCrossfadeEnd feed => feed < 512
  | .alignFadeOutEnd feed => feed < 512
  | .pilotWindowEnd feed => feed < 512
  | .inboxWritten task => task < 256
  | .taskDispatch _ => true
  | .taskCutoff task => task < 256
  | .runaway _ => true
  | .heldPostApply => true
  | .taskRemoval task => task < 256
  | .captureFrameWritten _ => true
  | .originStepApply => true
  | .slewEnd => true
  | .mediaChangeover => true
  | .revertTimeout => true
  | .mscValidate => true
  | .mscInvalidate => true
  | .ptpSync _ m => m.origin.wf && m.rx.wf
  | .ptpFollowUp _ m => m.precise.wf
  | .ptpDelayReq _ m => m.rx.wf
  | .ptpDelayResp _ m => m.receive.wf
  | .ptpAnnounce _ _ => true
  | .ptpUnsupportedMessage _ => true
  | .announceReceiptTimeout _ => true
  | .ptpSyncDue _ => true
  | .ptpDelayReqDue _ => true
  | .ptpAnnounceDue _ => true
  | .ptpEventTransmitted _ at_ => at_.wf
  | .timeBaseLocked _ => true
  | .timeBaseUnlock _ => true
  | .sourceLost _ => true
  | .ppsInPulse => true
  | .wclkMeasurement _ => true
  | .holdoverExpiry => true
  | .xtalFault => true
  | .xtalReturn => true
  | .atticTimeReload => true
  | .atticClkPresent => true
  | .atticClkAbsent => true
  | .tmbSnapGo => true
  | .forceSecondary => true
  | .forcePrimary => true
  | .tmbMediaCfgWrite _ => true
  | .tmbOriginWrite _ => true
  | .tmbTbCfgWrite _ _ => true
  | .tmbSetSecWrite _ _ => true
  | .tmbHoldoverLimitWrite _ => true
  | .flashSlotExamined slot _ => 4 ≤ slot && slot < 8
  | .shelfLoadCopyEnd slot _ => slot < 9
  | .shelfVerifyEnd slot _ => slot < 9
  | .overrideNChange => true
  | .muteNChange => true
  | .forceOvrWrite _ => true
  | .forceMuteWrite _ => true
  | .sdacLoadNFall => true
  | .sdacRangeClampEnd _ => true
  | .sdacCurrentLimit _ => true
  | .dNop _ _ => true
  | .dRetire _ _ => true
  | .dBr _ _ => true
  | .dCall _ _ => true
  | .dRet _ _ => true
  | .dLoop _ _ => true
  | .dRepeat _ _ => true
  | .dTrap _ _ => true
  | .dSignal _ _ => true
  | .dLi _ _ => true
  | .dAdd _ _ => true
  | .dSub _ _ => true
  | .dAnd _ _ => true
  | .dOr _ _ => true
  | .dXor _ _ => true
  | .dShl _ _ => true
  | .dShr _ _ => true
  | .dSar _ _ => true
  | .dMul _ _ => true
  | .dLds _ _ => true
  | .dSts _ _ => true
  | .dSetp _ _ => true
  | .dSetm _ _ => true
  | .dGetp _ _ => true
  | .dVld _ _ => true
  | .dVst _ _ => true
  | .dVldb _ _ => true
  | .dVins _ _ => true
  | .dVext _ _ => true
  | .dVadd _ _ => true
  | .dVsub _ _ => true
  | .dVmin _ _ => true
  | .dVmax _ _ => true
  | .dVabs _ _ => true
  | .dVneg _ _ => true
  | .dVmul _ _ => true
  | .dVshl _ _ => true
  | .dVsar _ _ => true
  | .dVclr _ _ => true
  | .dVmac _ _ => true
  | .dVmsu _ _ => true
  | .dVmacm _ _ => true
  | .dFtap _ _ => true
  | .dVsta _ _ => true
  | .dBexp _ _ => true
  | .dBfly _ _ => true
  | .dXfer _ _ => true
  | .dXwait _ _ => true
  | .xferComplete _ _ => true
  | .deskHalt _ => true
  | .deskRun _ => true
  | .deskStep _ => true
  | .deskClear _ => true
  | .deskEnableWrite _ _ => true
  | .deskDbgDataWrite _ _ => true
  | .deskPcWrite _ _ => true
  | .dmaMove _ ins => dmaOpOk 1 ins
  | .dmaMoveComplete _ _ => true
  | .dmaLoop _ ins => dmaOpOk 2 ins
  | .dmaWait _ ins => dmaOpOk 3 ins
  | .dmaWaitSatisfied _ => true
  | .dmaSignal _ ins => dmaOpOk 4 ins
  | .dmaJump _ ins => dmaOpOk 5 ins
  | .dmaEnd _ ins => dmaOpOk 0 ins
  | .dmaDoorbell _ => true
  | .dmaCtlAbort _ => true
  | .dmaStop _ _ => true
  | .dmaPauseEffect _ _ => true
  | .dmaNextPcWrite _ _ _ _ => true
  | .dmaModeWrite _ => true
  | .sqTailWrite _ _ => true
  | .cqHeadWrite _ _ => true
  | .queueEnable _ _ => true
  | .queueDisable _ _ => true
  | .queueDrainEnd _ => true
  | .entryFetch _ entries => match entries with
    | some l => l.length ≤ 8 && l.all (·.wf)
    | none => true
  | .completionWrite _ _ => true
  | .eventRecordWrite _ => true
  | .irqTimerExpiry _ => true
  | .msixUnmask _ => true
  | .irqTestWrite _ => true
  | .watchdogExpiry => true
  | .wdogCfgWrite _ => true
  | .pcieLinkLoss => true
  | .pcieLinkReturn => true
  | .badAccess _ => true
  | .sysLedgerSelWrite _ => true
  | .objLkSelWrite _ => true
  | .geoLkSelWrite _ => true
  | .pthLkSelWrite _ => true
  | .pthProbeSelWrite _ => true
  | .spkFdSelWrite _ => true
  | .netFlSelWrite _ => true
  | .dskTaskSelWrite _ => true
  | .w1cWrite off _ _ => off % 4 == 0 && off < 0x200000
  | .eventEnableWrite off _ => off % 4 == 0 && off < 0x200000
  | .lowWordRead _ off => off % 4 == 0 && off < 0x200000
  | .lowWordWrite _ off _ => off % 4 == 0 && off < 0x200000
  | .highWordWrite _ off _ => off % 4 == 0 && off < 0x200000
  | .clearOnRead off => off % 4 == 0 && off < 0x200000
  | .registerWrite _ off _ => off % 4 == 0 && off < 0x200000
  | .sapGroupCfgWrite _ _ => true
  | .sapPortCfgWrite _ _ => true
  | .sapEnableAct isPort idx => idx < (if isPort then 64 else 16)
  | .sapMaskctlWrite _ _ => true
  | .maskPairApply _ => true
  | .bclkLoss _ => true
  | .bclkReturn _ => true
  | .groupLock _ => true
  | .rateStep _ => true
  | .fsyncMissing _ words => slotsOk words
  | .fsyncGlitch _ => true
  | .netLinkChange _ _ => true
  | .autoSpeedTimeout _ => true
  | .rtpPacket _ _ => true
  | .rtpPacketSend flow => flow < 256
  | .arpRequest _ _ _ => true
  | .icmpEcho _ _ _ _ => true
  | .igmpQuery _ _ => true
  | .unsupportedPacket _ => true
  | .trosynData _ bytes => bytes.length ≤ 1440
  | .trosynHelloDue => true
  | .trosynSeqTimeout => true
  | .netTrsCfgWrite off _ => off % 4 == 0 && off < 0x200000
  | .moduleI2cGo _ _ => true
  | .moduleI2cDone _ _ _ => true
  | .ntkBlockLockLoss _ => true
  | .ntkTrainingDone _ => true
  | .ntkVersionAgreed _ verMin verMax total => verMin < 256 && verMax < 256 && total ≤ 2048
  | .objectCell _ cell => cell.wf
  | .sumCell _ cell => cell.wf
  | .ntkBlock _ _ _ _ => true
  | .ntkTime _ t _ _ => t.wf
  | .ntkCredit _ _ _ => true
  | .rollCall _ recs => recs.all (·.wf)
  | .rollReply _ recs _ => recs.all (·.wf)
  | .epochReport _ _ _ _ => true
  | .epochDecision _ _ _ _ => true
  | .ntkStep _ _ _ => true
  | .ntkAudit _ _ _ _ => true
  | .ntkJoin _ rec _ _ => rec.wf
  | .ntkLeave _ position reason => position < 256 && reason < 8
  | .linkDelay _ probe _ received => probe.wf && received.wf
  | .chainSourceLost => true
  | .chainReturn => true
  | .memberRemoval position => position < 255
  | .refreshInterval _ _ _ => true
  | .mr4Read _ _ => true
  | .refreshRateReturn _ => true
  | .activationWindowReset => true
  | .neighbourRefresh _ bank _ => bank < 32
  | .retrainDue _ => true
  | .retrainSlice _ ns => ns ≤ 2000
  | .retrainEnd _ _ => true
  | .retrainRetry _ => true
  | .alertNPulse _ _ _ => true
  | .dramScrub _ _ => true
  | .sramScrub _ => true
  | .modeChange => true
  | .standbyEntry => true
  | .standbyExit => true
  | .dormantEntry => true
  | .fallbackEntry => true
  | .temperatureMeasure _ => true
  | .thermalStep _ => true
  | .thermalEmergency => true
  | .comparatorFire _ => true
  | .wake _ => true
  | .atticSelfBoot straps => straps.wf
  | .vddAtticRise => true
  | .mainRailDrop => true
  | .mainRailReturn => true
  | .resetNAssert => true
  | .resetRelease straps => straps.wf
  | .softReset _ _ => true
  | .bootStageEnd _ => true
  | .autoStart => true
  | .hostWaitExpiry => true
  | .fuseBurnKeyHash _ => true
  | .fuseRollbackAdvance _ => true
  | .fuseBurnEnd _ => true
  | .smbusReadId => true
  | .smbusReadStatus => true
  | .smbusReadTemperature => true
  | .smbusReadWakeCause => true
  | .smbusReadBoot => true
  | .smbusWrite _ => true
  | .smbusUnknownRead c => 5 ≤ c.toNat
  | .alertResponse _ => true
  | .jtagBypass _ => true
  | .jtagIdcode => true
  | .jtagSamplePreload _ _ => true
  | .jtagExtest _ _ => true
  | .jtagHighz => true
  | .jtagClamp => true
  | .jtagTrst _ => true
  | .modulePresenceChange _ _ => true
  | .busMasterEnableChange _ => true
  | .frameStartEdge _ words => slotsOk words
  | .wholeSecond _ => true
  | .ppsWidthEnd => true
  | .vddAtticDrop => true
  | .sdacCurrentLimitEnd _ => true
  | .vddIo33Loss => true
  | .vddIo33Return => true

end Sys2Proof
end

