-- ==== Sys2Proof/Laws/PerInstr.lean ====
section
/-!
SUPPORT. Statements about every command as syntax: a well-formed host command carries an entry of a ring, with its 48
opcode-specific bytes (R342, R349).
-/
namespace Sys2Proof.Laws.WellFormed

/-- If the command is one of the host's, its checks are those of its entry, and a well-formed one has 48 opcode-specific bytes and an
index in the ring. -/
def Statement (i : Sys2Proof.Instr) : Prop :=
  ∀ op e, Sys2Proof.Machine.hostOf i = some (op, e) → i.wf = e.wf ∧ (i.wf = true → e.body.length = 48 ∧ e.index < 4096)

/-- The claim of a host command. -/
theorem of_entry {i : Sys2Proof.Instr} {op : Byte} {e : Submission} (h : Sys2Proof.Machine.hostOf i = some (op, e)) (w : i.wf = e.wf) :
    Statement i := by
  intro op2 e2 h2
  rw [h] at h2
  cases h2
  refine ⟨w, fun x => ?_⟩
  rw [w] at x
  simpa [Submission.wf] using x

/-- The claim of every other command. -/
theorem of_none {i : Sys2Proof.Instr} (h : Sys2Proof.Machine.hostOf i = none) : Statement i := by
  intro op e h2
  rw [h] at h2
  cases h2

theorem nop (e : Submission) : Statement (.nop e) := of_entry rfl rfl
theorem versionSet (e : Submission) : Statement (.versionSet e) := of_entry rfl rfl
theorem modeSet (e : Submission) : Statement (.modeSet e) := of_entry rfl rfl
theorem shelfSwitch (e : Submission) : Statement (.shelfSwitch e) := of_entry rfl rfl
theorem shelfLoad (e : Submission) : Statement (.shelfLoad e) := of_entry rfl rfl
theorem shelfVerify (e : Submission) : Statement (.shelfVerify e) := of_entry rfl rfl
theorem epochOpen (e : Submission) : Statement (.epochOpen e) := of_entry rfl rfl
theorem epochCommit (e : Submission) : Statement (.epochCommit e) := of_entry rfl rfl
theorem epochCancel (e : Submission) : Statement (.epochCancel e) := of_entry rfl rfl
theorem bellSet (e : Submission) : Statement (.bellSet e) := of_entry rfl rfl
theorem bellCancel (e : Submission) : Statement (.bellCancel e) := of_entry rfl rfl
theorem objConfig (e : Submission) : Statement (.objConfig e) := of_entry rfl rfl
theorem objPosition (e : Submission) : Statement (.objPosition e) := of_entry rfl rfl
theorem objGain (e : Submission) : Statement (.objGain e) := of_entry rfl rfl
theorem objEq (e : Submission) : Statement (.objEq e) := of_entry rfl rfl
theorem airSet (e : Submission) : Statement (.airSet e) := of_entry rfl rfl
theorem matrixSet (e : Submission) : Statement (.matrixSet e) := of_entry rfl rfl
theorem feedConfig (e : Submission) : Statement (.feedConfig e) := of_entry rfl rfl
theorem firLoad (e : Submission) : Statement (.firLoad e) := of_entry rfl rfl
theorem limiterSet (e : Submission) : Statement (.limiterSet e) := of_entry rfl rfl
theorem corridorSet (e : Submission) : Statement (.corridorSet e) := of_entry rfl rfl
theorem flowAdd (e : Submission) : Statement (.flowAdd e) := of_entry rfl rfl
theorem flowRemove (e : Submission) : Statement (.flowRemove e) := of_entry rfl rfl
theorem chainConfig (e : Submission) : Statement (.chainConfig e) := of_entry rfl rfl
theorem taskCreate (e : Submission) : Statement (.taskCreate e) := of_entry rfl rfl
theorem taskSignal (e : Submission) : Statement (.taskSignal e) := of_entry rfl rfl
theorem taskCancel (e : Submission) : Statement (.taskCancel e) := of_entry rfl rfl
theorem dmaStart (e : Submission) : Statement (.dmaStart e) := of_entry rfl rfl
theorem dmaAbort (e : Submission) : Statement (.dmaAbort e) := of_entry rfl rfl
theorem dmaPause (e : Submission) : Statement (.dmaPause e) := of_entry rfl rfl
theorem dmaResume (e : Submission) : Statement (.dmaResume e) := of_entry rfl rfl
theorem captureStart (e : Submission) : Statement (.captureStart e) := of_entry rfl rfl
theorem captureStop (e : Submission) : Statement (.captureStop e) := of_entry rfl rfl
theorem replaySet (e : Submission) : Statement (.replaySet e) := of_entry rfl rfl
theorem ledgerSnapshot (e : Submission) : Statement (.ledgerSnapshot e) := of_entry rfl rfl
theorem statsSnapshot (e : Submission) : Statement (.statsSnapshot e) := of_entry rfl rfl
theorem creditAudit (e : Submission) : Statement (.creditAudit e) := of_entry rfl rfl
theorem sdacWrite (e : Submission) : Statement (.sdacWrite e) := of_entry rfl rfl
theorem sdacStrobe (e : Submission) : Statement (.sdacStrobe e) := of_entry rfl rfl
theorem watchdogKick (e : Submission) : Statement (.watchdogKick e) := of_entry rfl rfl
theorem samplePeriodStart (x : SampleInput) : Statement (.samplePeriodStart x) := of_none rfl
theorem blockBoundary (x : BoundaryInput) : Statement (.blockBoundary x) := of_none rfl
theorem epochExpire (id : Word) : Statement (.epochExpire id) := of_none rfl
theorem epochMemberStaged (id : Word) (member : Nat) : Statement (.epochMemberStaged id member) := of_none rfl
theorem epochSplit (id : Word) : Statement (.epochSplit id) := of_none rfl
theorem bellRing (stream : Bool) (id : Nat) : Statement (.bellRing stream id) := of_none rfl
theorem geometryEvaluationDeadline (x : GeometryInput) : Statement (.geometryEvaluationDeadline x) := of_none rfl
theorem pruneHoldEnd (locker : Nat) (set : Nat) (speaker : Nat) : Statement (.pruneHoldEnd locker set speaker) := of_none rfl
theorem probeCapture : Statement .probeCapture := of_none rfl
theorem jumpCrossfadeEnd (locker : Nat) : Statement (.jumpCrossfadeEnd locker) := of_none rfl
theorem xfadeDone : Statement .xfadeDone := of_none rfl
theorem lockerDisable (locker : Nat) : Statement (.lockerDisable locker) := of_none rfl
theorem firCrossfadeEnd (feed : Nat) : Statement (.firCrossfadeEnd feed) := of_none rfl
theorem alignFadeOutEnd (feed : Nat) : Statement (.alignFadeOutEnd feed) := of_none rfl
theorem pilotWindowEnd (feed : Nat) : Statement (.pilotWindowEnd feed) := of_none rfl
theorem inboxWritten (task : Nat) : Statement (.inboxWritten task) := of_none rfl
theorem taskDispatch (desk : Fin 16) : Statement (.taskDispatch desk) := of_none rfl
theorem taskCutoff (task : Nat) : Statement (.taskCutoff task) := of_none rfl
theorem runaway (desk : Fin 16) : Statement (.runaway desk) := of_none rfl
theorem heldPostApply : Statement .heldPostApply := of_none rfl
theorem taskRemoval (task : Nat) : Statement (.taskRemoval task) := of_none rfl
theorem captureFrameWritten (dramError : Bool) : Statement (.captureFrameWritten dramError) := of_none rfl
theorem originStepApply : Statement .originStepApply := of_none rfl
theorem slewEnd : Statement .slewEnd := of_none rfl
theorem mediaChangeover : Statement .mediaChangeover := of_none rfl
theorem revertTimeout : Statement .revertTimeout := of_none rfl
theorem mscValidate : Statement .mscValidate := of_none rfl
theorem mscInvalidate : Statement .mscInvalidate := of_none rfl
theorem ptpSync (tb : Fin 4) (m : PtpSyncMsg) : Statement (.ptpSync tb m) := of_none rfl
theorem ptpFollowUp (tb : Fin 4) (m : PtpFollowUpMsg) : Statement (.ptpFollowUp tb m) := of_none rfl
theorem ptpDelayReq (tb : Fin 4) (m : PtpDelayReqMsg) : Statement (.ptpDelayReq tb m) := of_none rfl
theorem ptpDelayResp (tb : Fin 4) (m : PtpDelayRespMsg) : Statement (.ptpDelayResp tb m) := of_none rfl
theorem ptpAnnounce (tb : Fin 4) (m : PtpAnnounceMsg) : Statement (.ptpAnnounce tb m) := of_none rfl
theorem ptpUnsupportedMessage (port : Fin 2) : Statement (.ptpUnsupportedMessage port) := of_none rfl
theorem announceReceiptTimeout (tb : Fin 4) : Statement (.announceReceiptTimeout tb) := of_none rfl
theorem ptpSyncDue (tb : Fin 4) : Statement (.ptpSyncDue tb) := of_none rfl
theorem ptpDelayReqDue (tb : Fin 4) : Statement (.ptpDelayReqDue tb) := of_none rfl
theorem ptpAnnounceDue (tb : Fin 4) : Statement (.ptpAnnounceDue tb) := of_none rfl
theorem ptpEventTransmitted (port : Fin 2) (at_ : TimeStamp) : Statement (.ptpEventTransmitted port at_) := of_none rfl
theorem timeBaseLocked (tb : Fin 4) : Statement (.timeBaseLocked tb) := of_none rfl
theorem timeBaseUnlock (tb : Fin 4) : Statement (.timeBaseUnlock tb) := of_none rfl
theorem sourceLost (tb : Fin 4) : Statement (.sourceLost tb) := of_none rfl
theorem ppsInPulse : Statement .ppsInPulse := of_none rfl
theorem wclkMeasurement (offsetNs : Int) : Statement (.wclkMeasurement offsetNs) := of_none rfl
theorem holdoverExpiry : Statement .holdoverExpiry := of_none rfl
theorem xtalFault : Statement .xtalFault := of_none rfl
theorem xtalReturn : Statement .xtalReturn := of_none rfl
theorem atticTimeReload : Statement .atticTimeReload := of_none rfl
theorem atticClkPresent : Statement .atticClkPresent := of_none rfl
theorem atticClkAbsent : Statement .atticClkAbsent := of_none rfl
theorem tmbSnapGo : Statement .tmbSnapGo := of_none rfl
theorem forceSecondary : Statement .forceSecondary := of_none rfl
theorem forcePrimary : Statement .forcePrimary := of_none rfl
theorem tmbMediaCfgWrite (v : Word) : Statement (.tmbMediaCfgWrite v) := of_none rfl
theorem tmbOriginWrite (v : DWord) : Statement (.tmbOriginWrite v) := of_none rfl
theorem tmbTbCfgWrite (tb : Fin 4) (v : Word) : Statement (.tmbTbCfgWrite tb v) := of_none rfl
theorem tmbSetSecWrite (tb : Fin 4) (hi : Word) : Statement (.tmbSetSecWrite tb hi) := of_none rfl
theorem tmbHoldoverLimitWrite (v : Word) : Statement (.tmbHoldoverLimitWrite v) := of_none rfl
theorem flashSlotExamined (slot : Nat) (image : List Byte) : Statement (.flashSlotExamined slot image) := of_none rfl
theorem shelfLoadCopyEnd (slot : Nat) (x : ShelfCopy) : Statement (.shelfLoadCopyEnd slot x) := of_none rfl
theorem shelfVerifyEnd (slot : Nat) (x : ShelfCopy) : Statement (.shelfVerifyEnd slot x) := of_none rfl
theorem overrideNChange : Statement .overrideNChange := of_none rfl
theorem muteNChange : Statement .muteNChange := of_none rfl
theorem forceOvrWrite (on : Bool) : Statement (.forceOvrWrite on) := of_none rfl
theorem forceMuteWrite (on : Bool) : Statement (.forceMuteWrite on) := of_none rfl
theorem sdacLoadNFall : Statement .sdacLoadNFall := of_none rfl
theorem sdacRangeClampEnd (ch : Fin 8) : Statement (.sdacRangeClampEnd ch) := of_none rfl
theorem sdacCurrentLimit (ch : Fin 8) : Statement (.sdacCurrentLimit ch) := of_none rfl
theorem dNop (desk : Fin 16) (w : DeskBits) : Statement (.dNop desk w) := of_none rfl
theorem dRetire (desk : Fin 16) (w : DeskBits) : Statement (.dRetire desk w) := of_none rfl
theorem dBr (desk : Fin 16) (w : DeskBits) : Statement (.dBr desk w) := of_none rfl
theorem dCall (desk : Fin 16) (w : DeskBits) : Statement (.dCall desk w) := of_none rfl
theorem dRet (desk : Fin 16) (w : DeskBits) : Statement (.dRet desk w) := of_none rfl
theorem dLoop (desk : Fin 16) (w : DeskBits) : Statement (.dLoop desk w) := of_none rfl
theorem dRepeat (desk : Fin 16) (w : DeskBits) : Statement (.dRepeat desk w) := of_none rfl
theorem dTrap (desk : Fin 16) (w : DeskBits) : Statement (.dTrap desk w) := of_none rfl
theorem dSignal (desk : Fin 16) (w : DeskBits) : Statement (.dSignal desk w) := of_none rfl
theorem dLi (desk : Fin 16) (w : DeskBits) : Statement (.dLi desk w) := of_none rfl
theorem dAdd (desk : Fin 16) (w : DeskBits) : Statement (.dAdd desk w) := of_none rfl
theorem dSub (desk : Fin 16) (w : DeskBits) : Statement (.dSub desk w) := of_none rfl
theorem dAnd (desk : Fin 16) (w : DeskBits) : Statement (.dAnd desk w) := of_none rfl
theorem dOr (desk : Fin 16) (w : DeskBits) : Statement (.dOr desk w) := of_none rfl
theorem dXor (desk : Fin 16) (w : DeskBits) : Statement (.dXor desk w) := of_none rfl
theorem dShl (desk : Fin 16) (w : DeskBits) : Statement (.dShl desk w) := of_none rfl
theorem dShr (desk : Fin 16) (w : DeskBits) : Statement (.dShr desk w) := of_none rfl
theorem dSar (desk : Fin 16) (w : DeskBits) : Statement (.dSar desk w) := of_none rfl
theorem dMul (desk : Fin 16) (w : DeskBits) : Statement (.dMul desk w) := of_none rfl
theorem dLds (desk : Fin 16) (w : DeskBits) : Statement (.dLds desk w) := of_none rfl
theorem dSts (desk : Fin 16) (w : DeskBits) : Statement (.dSts desk w) := of_none rfl
theorem dSetp (desk : Fin 16) (w : DeskBits) : Statement (.dSetp desk w) := of_none rfl
theorem dSetm (desk : Fin 16) (w : DeskBits) : Statement (.dSetm desk w) := of_none rfl
theorem dGetp (desk : Fin 16) (w : DeskBits) : Statement (.dGetp desk w) := of_none rfl
theorem dVld (desk : Fin 16) (w : DeskBits) : Statement (.dVld desk w) := of_none rfl
theorem dVst (desk : Fin 16) (w : DeskBits) : Statement (.dVst desk w) := of_none rfl
theorem dVldb (desk : Fin 16) (w : DeskBits) : Statement (.dVldb desk w) := of_none rfl
theorem dVins (desk : Fin 16) (w : DeskBits) : Statement (.dVins desk w) := of_none rfl
theorem dVext (desk : Fin 16) (w : DeskBits) : Statement (.dVext desk w) := of_none rfl
theorem dVadd (desk : Fin 16) (w : DeskBits) : Statement (.dVadd desk w) := of_none rfl
theorem dVsub (desk : Fin 16) (w : DeskBits) : Statement (.dVsub desk w) := of_none rfl
theorem dVmin (desk : Fin 16) (w : DeskBits) : Statement (.dVmin desk w) := of_none rfl
theorem dVmax (desk : Fin 16) (w : DeskBits) : Statement (.dVmax desk w) := of_none rfl
theorem dVabs (desk : Fin 16) (w : DeskBits) : Statement (.dVabs desk w) := of_none rfl
theorem dVneg (desk : Fin 16) (w : DeskBits) : Statement (.dVneg desk w) := of_none rfl
theorem dVmul (desk : Fin 16) (w : DeskBits) : Statement (.dVmul desk w) := of_none rfl
theorem dVshl (desk : Fin 16) (w : DeskBits) : Statement (.dVshl desk w) := of_none rfl
theorem dVsar (desk : Fin 16) (w : DeskBits) : Statement (.dVsar desk w) := of_none rfl
theorem dVclr (desk : Fin 16) (w : DeskBits) : Statement (.dVclr desk w) := of_none rfl
theorem dVmac (desk : Fin 16) (w : DeskBits) : Statement (.dVmac desk w) := of_none rfl
theorem dVmsu (desk : Fin 16) (w : DeskBits) : Statement (.dVmsu desk w) := of_none rfl
theorem dVmacm (desk : Fin 16) (w : DeskBits) : Statement (.dVmacm desk w) := of_none rfl
theorem dFtap (desk : Fin 16) (w : DeskBits) : Statement (.dFtap desk w) := of_none rfl
theorem dVsta (desk : Fin 16) (w : DeskBits) : Statement (.dVsta desk w) := of_none rfl
theorem dBexp (desk : Fin 16) (w : DeskBits) : Statement (.dBexp desk w) := of_none rfl
theorem dBfly (desk : Fin 16) (w : DeskBits) : Statement (.dBfly desk w) := of_none rfl
theorem dXfer (desk : Fin 16) (w : DeskBits) : Statement (.dXfer desk w) := of_none rfl
theorem dXwait (desk : Fin 16) (w : DeskBits) : Statement (.dXwait desk w) := of_none rfl
theorem xferComplete (desk : Fin 16) (badWords : List Nat) : Statement (.xferComplete desk badWords) := of_none rfl
theorem deskHalt (desk : Fin 16) : Statement (.deskHalt desk) := of_none rfl
theorem deskRun (desk : Fin 16) : Statement (.deskRun desk) := of_none rfl
theorem deskStep (desk : Fin 16) : Statement (.deskStep desk) := of_none rfl
theorem deskClear (desk : Fin 16) : Statement (.deskClear desk) := of_none rfl
theorem deskEnableWrite (desk : Fin 16) (v : Word) : Statement (.deskEnableWrite desk v) := of_none rfl
theorem deskDbgDataWrite (desk : Fin 16) (v : Word) : Statement (.deskDbgDataWrite desk v) := of_none rfl
theorem deskPcWrite (desk : Fin 16) (v : Word) : Statement (.deskPcWrite desk v) := of_none rfl
theorem dmaMove (c : Fin 32) (ins : DmaBits) : Statement (.dmaMove c ins) := of_none rfl
theorem dmaMoveComplete (c : Fin 32) (x : MoveResult) : Statement (.dmaMoveComplete c x) := of_none rfl
theorem dmaLoop (c : Fin 32) (ins : DmaBits) : Statement (.dmaLoop c ins) := of_none rfl
theorem dmaWait (c : Fin 32) (ins : DmaBits) : Statement (.dmaWait c ins) := of_none rfl
theorem dmaWaitSatisfied (c : Fin 32) : Statement (.dmaWaitSatisfied c) := of_none rfl
theorem dmaSignal (c : Fin 32) (ins : DmaBits) : Statement (.dmaSignal c ins) := of_none rfl
theorem dmaJump (c : Fin 32) (ins : DmaBits) : Statement (.dmaJump c ins) := of_none rfl
theorem dmaEnd (c : Fin 32) (ins : DmaBits) : Statement (.dmaEnd c ins) := of_none rfl
theorem dmaDoorbell (c : Fin 32) : Statement (.dmaDoorbell c) := of_none rfl
theorem dmaCtlAbort (c : Fin 32) : Statement (.dmaCtlAbort c) := of_none rfl
theorem dmaStop (c : Fin 32) (x : StopInput) : Statement (.dmaStop c x) := of_none rfl
theorem dmaPauseEffect (c : Fin 32) (x : StopInput) : Statement (.dmaPauseEffect c x) := of_none rfl
theorem dmaNextPcWrite (c : Fin 32) (m : Master) (hi : Word) (sameCycle : Bool) : Statement (.dmaNextPcWrite c m hi sameCycle) := of_none rfl
theorem dmaModeWrite (v : Word) : Statement (.dmaModeWrite v) := of_none rfl
theorem sqTailWrite (q : Fin 16) (v : Word) : Statement (.sqTailWrite q v) := of_none rfl
theorem cqHeadWrite (q : Fin 16) (v : Word) : Statement (.cqHeadWrite q v) := of_none rfl
theorem queueEnable (q : Fin 16) (v : Word) : Statement (.queueEnable q v) := of_none rfl
theorem queueDisable (q : Fin 16) (v : Word) : Statement (.queueDisable q v) := of_none rfl
theorem queueDrainEnd (q : Fin 16) : Statement (.queueDrainEnd q) := of_none rfl
theorem entryFetch (q : Fin 16) (entries : Option (List FetchedEntry)) : Statement (.entryFetch q entries) := of_none rfl
theorem completionWrite (q : Fin 16) (linkOk : Bool) : Statement (.completionWrite q linkOk) := of_none rfl
theorem eventRecordWrite (linkOk : Bool) : Statement (.eventRecordWrite linkOk) := of_none rfl
theorem irqTimerExpiry (q : Fin 16) : Statement (.irqTimerExpiry q) := of_none rfl
theorem msixUnmask (v : Fin 32) : Statement (.msixUnmask v) := of_none rfl
theorem irqTestWrite (v : Word) : Statement (.irqTestWrite v) := of_none rfl
theorem watchdogExpiry : Statement .watchdogExpiry := of_none rfl
theorem wdogCfgWrite (v : Word) : Statement (.wdogCfgWrite v) := of_none rfl
theorem pcieLinkLoss : Statement .pcieLinkLoss := of_none rfl
theorem pcieLinkReturn : Statement .pcieLinkReturn := of_none rfl
theorem badAccess (isRead : Bool) : Statement (.badAccess isRead) := of_none rfl
theorem sysLedgerSelWrite (v : Word) : Statement (.sysLedgerSelWrite v) := of_none rfl
theorem objLkSelWrite (v : Word) : Statement (.objLkSelWrite v) := of_none rfl
theorem geoLkSelWrite (v : Word) : Statement (.geoLkSelWrite v) := of_none rfl
theorem pthLkSelWrite (v : Word) : Statement (.pthLkSelWrite v) := of_none rfl
theorem pthProbeSelWrite (v : Word) : Statement (.pthProbeSelWrite v) := of_none rfl
theorem spkFdSelWrite (v : Word) : Statement (.spkFdSelWrite v) := of_none rfl
theorem netFlSelWrite (v : Word) : Statement (.netFlSelWrite v) := of_none rfl
theorem dskTaskSelWrite (v : Word) : Statement (.dskTaskSelWrite v) := of_none rfl
theorem w1cWrite (off : Nat) (v : Word) (sameCycle : Word) : Statement (.w1cWrite off v sameCycle) := of_none rfl
theorem eventEnableWrite (off : Nat) (v : Word) : Statement (.eventEnableWrite off v) := of_none rfl
theorem lowWordRead (m : Master) (off : Nat) : Statement (.lowWordRead m off) := of_none rfl
theorem lowWordWrite (m : Master) (off : Nat) (v : Word) : Statement (.lowWordWrite m off v) := of_none rfl
theorem highWordWrite (m : Master) (off : Nat) (v : Word) : Statement (.highWordWrite m off v) := of_none rfl
theorem clearOnRead (off : Nat) : Statement (.clearOnRead off) := of_none rfl
theorem registerWrite (m : Master) (off : Nat) (v : Word) : Statement (.registerWrite m off v) := of_none rfl
theorem sapGroupCfgWrite (g : Fin 16) (v : Word) : Statement (.sapGroupCfgWrite g v) := of_none rfl
theorem sapPortCfgWrite (p : Fin 64) (v : Word) : Statement (.sapPortCfgWrite p v) := of_none rfl
theorem sapEnableAct (isPort : Bool) (idx : Nat) : Statement (.sapEnableAct isPort idx) := of_none rfl
theorem sapMaskctlWrite (p : Fin 64) (v : Word) : Statement (.sapMaskctlWrite p v) := of_none rfl
theorem maskPairApply (p : Fin 64) : Statement (.maskPairApply p) := of_none rfl
theorem bclkLoss (g : Fin 16) : Statement (.bclkLoss g) := of_none rfl
theorem bclkReturn (g : Fin 16) : Statement (.bclkReturn g) := of_none rfl
theorem groupLock (g : Fin 16) : Statement (.groupLock g) := of_none rfl
theorem rateStep (g : Fin 16) : Statement (.rateStep g) := of_none rfl
theorem fsyncMissing (g : Fin 16) (words : List SlotWord) : Statement (.fsyncMissing g words) := of_none rfl
theorem fsyncGlitch (g : Fin 16) : Statement (.fsyncGlitch g) := of_none rfl
theorem netLinkChange (port : Fin 2) (link : NetLink) : Statement (.netLinkChange port link) := of_none rfl
theorem autoSpeedTimeout (port : Fin 2) : Statement (.autoSpeedTimeout port) := of_none rfl
theorem rtpPacket (port : Fin 2) (p : RtpPacket) : Statement (.rtpPacket port p) := of_none rfl
theorem rtpPacketSend (flow : Nat) : Statement (.rtpPacketSend flow) := of_none rfl
theorem arpRequest (port : Fin 2) (target : Word) (sender : Word) : Statement (.arpRequest port target sender) := of_none rfl
theorem icmpEcho (port : Fin 2) (dest : Word) (sender : Word) (payload : List Byte) : Statement (.icmpEcho port dest sender payload) := of_none rfl
theorem igmpQuery (port : Fin 2) (v2 : Bool) : Statement (.igmpQuery port v2) := of_none rfl
theorem unsupportedPacket (port : Fin 2) : Statement (.unsupportedPacket port) := of_none rfl
theorem trosynData (port : Fin 2) (bytes : List Byte) : Statement (.trosynData port bytes) := of_none rfl
theorem trosynHelloDue : Statement .trosynHelloDue := of_none rfl
theorem trosynSeqTimeout : Statement .trosynSeqTimeout := of_none rfl
theorem netTrsCfgWrite (off : Nat) (v : Word) : Statement (.netTrsCfgWrite off v) := of_none rfl
theorem moduleI2cGo (mod_ : Fin 4) (v : Word) : Statement (.moduleI2cGo mod_ v) := of_none rfl
theorem moduleI2cDone (mod_ : Fin 4) (data : Byte) (nack : Bool) : Statement (.moduleI2cDone mod_ data nack) := of_none rfl
theorem ntkBlockLockLoss (n : Fin 2) : Statement (.ntkBlockLockLoss n) := of_none rfl
theorem ntkTrainingDone (n : Fin 2) : Statement (.ntkTrainingDone n) := of_none rfl
theorem ntkVersionAgreed (n : Fin 2) (verMin : Nat) (verMax : Nat) (total : Nat) : Statement (.ntkVersionAgreed n verMin verMax total) := of_none rfl
theorem objectCell (n : Fin 2) (cell : Cell) : Statement (.objectCell n cell) := of_none rfl
theorem sumCell (n : Fin 2) (cell : Cell) : Statement (.sumCell n cell) := of_none rfl
theorem ntkBlock (n : Fin 2) (msc : DWord) (chainState : Nat) (position : Nat) : Statement (.ntkBlock n msc chainState position) := of_none rfl
theorem ntkTime (n : Fin 2) (t : TimeStamp) (origin : DWord) (rate : Bool) : Statement (.ntkTime n t origin rate) := of_none rfl
theorem ntkCredit (n : Fin 2) (count : Nat) (total : DWord) : Statement (.ntkCredit n count total) := of_none rfl
theorem rollCall (n : Fin 2) (recs : List RollRecord) : Statement (.rollCall n recs) := of_none rfl
theorem rollReply (n : Fin 2) (recs : List RollRecord) (hops : List Nat) : Statement (.rollReply n recs hops) := of_none rfl
theorem epochReport (n : Fin 2) (id : Word) (position : Nat) (st : ReportState) : Statement (.epochReport n id position st) := of_none rfl
theorem epochDecision (n : Fin 2) (id : Word) (m : DWord) (outcome : Decision) : Statement (.epochDecision n id m outcome) := of_none rfl
theorem ntkStep (n : Fin 2) (k : Int) (boundary : DWord) : Statement (.ntkStep n k boundary) := of_none rfl
theorem ntkAudit (n : Fin 2) (boundary : DWord) (received : DWord) (free : Nat) : Statement (.ntkAudit n boundary received free) := of_none rfl
theorem ntkJoin (n : Fin 2) (rec : RollRecord) (place : Nat) (hops : List Nat) : Statement (.ntkJoin n rec place hops) := of_none rfl
theorem ntkLeave (n : Fin 2) (position : Nat) (reason : Nat) : Statement (.ntkLeave n position reason) := of_none rfl
theorem linkDelay (n : Fin 2) (probe : TimeStamp) (echo : Option TimeStamp) (received : TimeStamp) : Statement (.linkDelay n probe echo received) := of_none rfl
theorem chainSourceLost : Statement .chainSourceLost := of_none rfl
theorem chainReturn : Statement .chainReturn := of_none rfl
theorem memberRemoval (position : Nat) : Statement (.memberRemoval position) := of_none rfl
theorem refreshInterval (sub : Fin 4) (issued : Bool) (catchUp : Nat) : Statement (.refreshInterval sub issued catchUp) := of_none rfl
theorem mr4Read (ch : Fin 2) (doubled : Bool) : Statement (.mr4Read ch doubled) := of_none rfl
theorem refreshRateReturn (ch : Fin 2) : Statement (.refreshRateReturn ch) := of_none rfl
theorem activationWindowReset : Statement .activationWindowReset := of_none rfl
theorem neighbourRefresh (sub : Fin 4) (bank : Nat) (row : Nat) : Statement (.neighbourRefresh sub bank row) := of_none rfl
theorem retrainDue (ch : Fin 2) : Statement (.retrainDue ch) := of_none rfl
theorem retrainSlice (ch : Fin 2) (ns : Nat) : Statement (.retrainSlice ch ns) := of_none rfl
theorem retrainEnd (ch : Fin 2) (found : Bool) : Statement (.retrainEnd ch found) := of_none rfl
theorem retrainRetry (ch : Fin 2) : Statement (.retrainRetry ch) := of_none rfl
theorem alertNPulse (sub : Fin 4) (during : Bool) (recent : Nat) : Statement (.alertNPulse sub during recent) := of_none rfl
theorem dramScrub (addr : Nat) (outcome : EccOutcome) : Statement (.dramScrub addr outcome) := of_none rfl
theorem sramScrub (errors : List SramError) : Statement (.sramScrub errors) := of_none rfl
theorem modeChange : Statement .modeChange := of_none rfl
theorem standbyEntry : Statement .standbyEntry := of_none rfl
theorem standbyExit : Statement .standbyExit := of_none rfl
theorem dormantEntry : Statement .dormantEntry := of_none rfl
theorem fallbackEntry : Statement .fallbackEntry := of_none rfl
theorem temperatureMeasure (t : Int) : Statement (.temperatureMeasure t) := of_none rfl
theorem thermalStep (step : Fin 3) : Statement (.thermalStep step) := of_none rfl
theorem thermalEmergency : Statement .thermalEmergency := of_none rfl
theorem comparatorFire (k : Fin 4) : Statement (.comparatorFire k) := of_none rfl
theorem wake (src : Fin 5) : Statement (.wake src) := of_none rfl
theorem atticSelfBoot (straps : Straps) : Statement (.atticSelfBoot straps) := of_none rfl
theorem vddAtticRise : Statement .vddAtticRise := of_none rfl
theorem mainRailDrop : Statement .mainRailDrop := of_none rfl
theorem mainRailReturn : Statement .mainRailReturn := of_none rfl
theorem resetNAssert : Statement .resetNAssert := of_none rfl
theorem resetRelease (straps : Straps) : Statement (.resetRelease straps) := of_none rfl
theorem softReset (key : Byte) (soft : Bool) : Statement (.softReset key soft) := of_none rfl
theorem bootStageEnd (x : BootInput) : Statement (.bootStageEnd x) := of_none rfl
theorem autoStart : Statement .autoStart := of_none rfl
theorem hostWaitExpiry : Statement .hostWaitExpiry := of_none rfl
theorem fuseBurnKeyHash (key : Byte) : Statement (.fuseBurnKeyHash key) := of_none rfl
theorem fuseRollbackAdvance (key : Byte) : Statement (.fuseRollbackAdvance key) := of_none rfl
theorem fuseBurnEnd (ok : Bool) : Statement (.fuseBurnEnd ok) := of_none rfl
theorem smbusReadId : Statement .smbusReadId := of_none rfl
theorem smbusReadStatus : Statement .smbusReadStatus := of_none rfl
theorem smbusReadTemperature : Statement .smbusReadTemperature := of_none rfl
theorem smbusReadWakeCause : Statement .smbusReadWakeCause := of_none rfl
theorem smbusReadBoot : Statement .smbusReadBoot := of_none rfl
theorem smbusWrite (code : Byte) : Statement (.smbusWrite code) := of_none rfl
theorem smbusUnknownRead (code : Byte) : Statement (.smbusUnknownRead code) := of_none rfl
theorem alertResponse (changed : Bool) : Statement (.alertResponse changed) := of_none rfl
theorem jtagBypass (tdi : Bool) : Statement (.jtagBypass tdi) := of_none rfl
theorem jtagIdcode : Statement .jtagIdcode := of_none rfl
theorem jtagSamplePreload (pins : List Bool) (load : List Bool) : Statement (.jtagSamplePreload pins load) := of_none rfl
theorem jtagExtest (pins : List Bool) (load : List Bool) : Statement (.jtagExtest pins load) := of_none rfl
theorem jtagHighz : Statement .jtagHighz := of_none rfl
theorem jtagClamp : Statement .jtagClamp := of_none rfl
theorem jtagTrst (low : Bool) : Statement (.jtagTrst low) := of_none rfl
theorem modulePresenceChange (mod_ : Fin 4) (present : Bool) : Statement (.modulePresenceChange mod_ present) := of_none rfl
theorem busMasterEnableChange (on : Bool) : Statement (.busMasterEnableChange on) := of_none rfl
theorem frameStartEdge (g : Fin 16) (words : List SlotWord) : Statement (.frameStartEdge g words) := of_none rfl
theorem wholeSecond (tb : Fin 4) : Statement (.wholeSecond tb) := of_none rfl
theorem ppsWidthEnd : Statement .ppsWidthEnd := of_none rfl
theorem vddAtticDrop : Statement .vddAtticDrop := of_none rfl
theorem sdacCurrentLimitEnd (ch : Fin 8) : Statement (.sdacCurrentLimitEnd ch) := of_none rfl
theorem vddIo33Loss : Statement .vddIo33Loss := of_none rfl
theorem vddIo33Return : Statement .vddIo33Return := of_none rfl

end Sys2Proof.Laws.WellFormed
end

