-- ==== Sys2Proof/Tests/Slice0.lean ====
section
/-!
SUPPORT. Tests: each check of WellFormed refuses an ill-formed command; small facts of one command each, their expected values
taken from the manual's tables; and, for every statement with hypotheses, states and operands that meet them (`wit_…`).
-/
namespace Sys2Proof.Tests
open Sys2Proof Sys2Proof.Machine

/-! ### Helpers -/

/-- A submission entry of queue 0 with its first opcode-specific bytes. -/
def entry (b : List Byte) : Submission :=
  { queue := 0, index := 0, flags := 0, tag := 0x1234, epoch := 0, present := 0, body := b ++ List.replicate (48 - b.length) 0, records := none }

/-- A submission entry whose opcode-specific bytes differ from 0 at some offsets of the entry (the first one is at 16). -/
def entryAt (l : List (Nat × Nat)) : Submission :=
  { entry [] with body := (List.range 48).map (fun i => BitVec.ofNat 8 ((l.find? (fun p => p.1 == i + 16)).map Prod.snd |>.getD 0)) }

def stamp (sec ns : Nat) : TimeStamp := { sec := sec, ns := ns, sub := 0 }

def quietInput : SampleInput := { overrideN := true, muteN := true, serial := [], xtal := 0, atticIn := 0, atticOsc := 0 }

def quietBoundary : BoundaryInput := { overrun := [], cellarErr := [], cellarDry := [], sram := [] }

def cellOf (block first : Nat) (crcOk : Bool) : Cell :=
  { secondary := false, sender := 1, block := block, first := first, present := 1, incomplete := 0,
    words := List.replicate 4 (List.replicate 16 0), contrib := [0, 0, 0, 0], crcOk := crcOk }

def record (pos : Nat) : RollRecord :=
  { position := pos, verMin := 0x10, verMax := 0x11, rate96 := false, budget := 1024, ring := false, split := false, pubs := [], reads := [],
    sumIn := [], sumOut := [] }

/-! ### WellFormed refuses each kind of ill-formed command -/

theorem test_wf_entry : (Instr.nop (entry [])).wf = true := by decide
theorem test_wf_body_short : (Instr.nop { entry [] with body := [] }).wf = false := by decide
theorem test_wf_ring_index : (Instr.versionSet { entry [] with index := 4096 }).wf = false := by decide
theorem test_wf_overrun : (Instr.blockBoundary { quietBoundary with overrun := [(0, 0, 16)] }).wf = false := by decide
theorem test_wf_serial_port : (Instr.samplePeriodStart { quietInput with serial := [(64, [])] }).wf = false := by decide
theorem test_wf_serial_slots : (Instr.samplePeriodStart { quietInput with serial := [(0, List.replicate 33 0)] }).wf = false := by decide
theorem test_wf_cellar_line : (Instr.blockBoundary { quietBoundary with cellarErr := [(1536, 0)] }).wf = false := by decide
theorem test_wf_cellar_dry : (Instr.blockBoundary { quietBoundary with cellarDry := [1536] }).wf = false := by decide
theorem test_wf_geometry : (Instr.geometryEvaluationDeadline { stallUs := 0, recordErr := [(1024, 0, 0)] }).wf = false := by decide
theorem test_wf_bell : (Instr.bellRing false 4096).wf = false ∧ (Instr.bellRing true 256).wf = false ∧ (Instr.bellRing true 255).wf = true := by
  decide
theorem test_wf_hold : (Instr.pruneHoldEnd 0 4 0).wf = false ∧ (Instr.pruneHoldEnd 1024 0 0).wf = false ∧ (Instr.pruneHoldEnd 0 0 512).wf = false := by
  decide
theorem test_wf_locker : (Instr.jumpCrossfadeEnd 1024).wf = false ∧ (Instr.lockerDisable 1024).wf = false := by decide
theorem test_wf_feed : (Instr.firCrossfadeEnd 512).wf = false ∧ (Instr.alignFadeOutEnd 512).wf = false ∧ (Instr.pilotWindowEnd 512).wf = false := by
  decide
theorem test_wf_task : (Instr.inboxWritten 256).wf = false ∧ (Instr.taskCutoff 256).wf = false ∧ (Instr.taskRemoval 256).wf = false := by decide
theorem test_wf_stamp : (Instr.ptpEventTransmitted 0 (stamp 0 1000000000)).wf = false ∧ (Instr.ptpEventTransmitted 0 (stamp (2 ^ 48) 0)).wf = false := by
  decide
theorem test_wf_flash : (Instr.flashSlotExamined 3 []).wf = false ∧ (Instr.flashSlotExamined 8 []).wf = false := by decide
theorem test_wf_slot : (Instr.shelfLoadCopyEnd 9 ⟨[], false⟩).wf = false ∧ (Instr.shelfVerifyEnd 9 ⟨[], false⟩).wf = false := by decide
theorem test_wf_dma_op : (Instr.dmaMove 0 0).wf = false ∧ (Instr.dmaEnd 0 0).wf = true ∧ (Instr.dmaEnd 0 6).wf = true := by decide
theorem test_wf_fetch : (Instr.entryFetch 0 (some (List.replicate 9 ⟨0, 0, 0, 0, 0, List.replicate 48 0⟩))).wf = false ∧
    (Instr.entryFetch 0 (some [⟨0, 0, 0, 0, 0, []⟩])).wf = false := by decide
theorem test_wf_offset : (Instr.registerWrite .host 0x200000 0).wf = false ∧ (Instr.registerWrite .host 2 0).wf = false ∧
    (Instr.w1cWrite 2 0 0).wf = false ∧ (Instr.clearOnRead 2).wf = false := by decide
theorem test_wf_latches : (Instr.lowWordRead .host 2).wf = false ∧ (Instr.lowWordWrite .host 2 0).wf = false ∧
    (Instr.highWordWrite .host 2 0).wf = false ∧ (Instr.eventEnableWrite 2 0).wf = false := by decide
theorem test_wf_serial_enable : (Instr.sapEnableAct true 64).wf = false ∧ (Instr.sapEnableAct false 16).wf = false := by decide
theorem test_wf_frame : (Instr.frameStartEdge 0 (List.replicate 129 0)).wf = false := by simp [Instr.wf, slotsOk]
theorem test_wf_flow : (Instr.rtpPacketSend 256).wf = false := by decide
theorem test_wf_trosyn : (Instr.trosynData 0 (List.replicate 1441 0)).wf = false := by
  simp only [Instr.wf, List.length_replicate]
  decide
theorem test_wf_version : (Instr.ntkVersionAgreed 0 256 0 0).wf = false ∧ (Instr.ntkVersionAgreed 0 0 0 2049).wf = false := by decide
theorem test_wf_cell : (Instr.objectCell 0 (cellOf 8 0 true)).wf = false ∧ (Instr.sumCell 0 (cellOf 16 2 true)).wf = false ∧
    (Instr.sumCell 0 (cellOf 16 4 true)).wf = true := by decide
theorem test_wf_record : (Instr.rollCall 0 [record 256]).wf = false ∧ (Instr.ntkJoin 0 { record 1 with budget := 8 } 0 []).wf = false := by decide
theorem test_wf_leave : (Instr.ntkLeave 0 256 0).wf = false ∧ (Instr.ntkLeave 0 1 8).wf = false ∧ (Instr.memberRemoval 255).wf = false := by decide
theorem test_wf_bank : (Instr.neighbourRefresh 0 32 0).wf = false := by decide
theorem test_wf_slice : (Instr.retrainSlice 0 2001).wf = false := by decide
theorem test_wf_straps : (Instr.resetRelease ⟨4, 0, false⟩).wf = false ∧ (Instr.atticSelfBoot ⟨0, 4, false⟩).wf = false := by decide
theorem test_wf_smbus : (Instr.smbusUnknownRead 4).wf = false ∧ (Instr.smbusUnknownRead 5).wf = true := by decide

/-! ### States and operands that meet the hypotheses of the statements -/

/-- A clause about a command that acts whenever `hyp` holds: some state has it. -/
abbrev Can (_i : Instr) (hyp : State → Prop) : Prop := ∃ s, hyp s

/-- A clause about a host command: in some state it has its turn and `hyp` holds. -/
abbrev CanAct (_i : Instr) (op : Byte) (e : Submission) (hyp : CmdRef → State → Prop) : Prop :=
  ∃ s : State, s.ready op e = true ∧ hyp (s.refOf op e) s

/-- A clause about a desk instruction that computes: some desk takes it, the run stays under its limit, `hyp` holds and a next
instruction exists. -/
abbrev CanCompute (op : Nat) (hyp : DeskBits → Desk → Prop) (f : DeskBits → Desk → Desk × Nat) : Prop :=
  ∃ (d : Fin 16) (w : DeskBits) (s : State) (r : DeskRow) (k2 : Desk), deskRow op = some r ∧ s.deskTakes d.val r w ∧
    ((s.count (dskReg Reg.DSK_Dn_SAT d.val) (f w (s.desk d.val)).2).setDesk d.val k2).underLimit d.val = true ∧ hyp w (s.desk d.val) ∧ ((s.desk d.val).after op r w (f w (s.desk d.val)).1 0).advance = some k2

/-- A clause about a desk instruction that steers: some desk takes it, the run stays under its limit and `hyp` holds. -/
abbrev CanSteer (op : Nat) (hyp : Nat → DeskBits → State → Prop) (eff : Nat → DeskBits → DeskRow → State → State) : Prop :=
  ∃ (d : Fin 16) (w : DeskBits) (s : State) (r : DeskRow), deskRow op = some r ∧ s.deskTakes d.val r w ∧
    (eff d.val w r s).underLimit d.val = true ∧ hyp d.val w s

/-- The renderer in mode `m`, its link up, queue 0 RUNNING, DRAM trained and the MSC valid at `n`. -/
def upIn (m : Mode) (n : Nat) : State :=
  { State.reset with
    host := { State.reset.host with bme := true, queues := { st := .running, enable := true } :: List.replicate 15 {} }
    clock := { State.reset.clock with media := { valid := true, msc := n, cfgWritten := true } }
    memory := { State.reset.memory with config := 3, speed := 4, trained := true }
    pwr := { State.reset.pwr with mode := m, resetN := true } }

/-- In SETUP. -/
def up : State := upIn .setup 1024

/-- The same while the MSC is not valid. -/
def still : State := { up with clock := { up.clock with media := { up.clock.media with valid := false, msc := 0 } } }

/-- Desk 15 runs, otherwise as `k`. -/
def deskUp (k : Desk) : State := up.setDesk 15 { k with st := .running }
/-- The desk that stands at the next instruction. -/
def deskNextOf (op : Nat) (s : State) : Desk :=
  match deskRow op with
  | some r => (((s.desk 15).after op r 0 (s.desk 15) 0).advance).getD {}
  | none => {}

def at_ (e : Submission) (p : DWord) : Submission := { e with present := p }
def inEpoch (e : Submission) (x : Word) : Submission := { e with epoch := x }
def withRecords (e : Submission) (b : List Byte) : Submission := { e with records := some b }
def epochOf (x : Word) : Epoch := { id := x, st := .open_, deadline := 4 }
def bellOf (kind next : Nat) : Bell :=
  { kind := kind, msc := next, period := 0, count := 0, user := 0, task := 0, mask := 1, chan := 0, ring := 0, next := next, acted := 0, armed := true }
def upWith (q : Nat) (k : Queue) : State := up.setQueue q k
def refOf (op : Byte) : CmdRef := { queue := 0, tag := 1, opcode := op, suppress := false, order := 0 }
def inReady (r : ReadyItem) : State := { up with host := { up.host with ready := [(0, r)] } }
/-- A time base enabled with SOURCE `src`. -/
def tbUp (n src : Nat) (t : TimeBase) : State := (up.setTb n t).setReg (tbReg Reg.TMB_TBn_CFG n) (word (1 + 2 * src))
def ptpHead : PtpHeader := { port := 0, domain := 0, source := 9, seq := 5, correction := 0, logInterval := 0 }
def ptpLeader : PtpLeader := { port := 0, source := 9, msg := ⟨ptpHead, 9, 0, 0, 0, 0, 0, 0, 0, false, false, false⟩ }
def syncMsg (two : Bool) : PtpSyncMsg := ⟨ptpHead, two, stamp 1 0, stamp 1 5⟩
def cloakOne : CloakEntry := { tb := 3, kind := .sync, seq := 1, stamp := none }
def dmaUp (c : Nat) (k : DmaChan) : State := up.setDch c k
def sapUp (g : Nat) (k : Group) : State := up.setGroup g k
/-- Network port 0 is up and enabled. -/
def netUpSt : State := { (up.setReg (netReg Reg.NET_Pn_CFG 0) 1) with net := { up.net with ports := [{ link := .up10 }, {}] } }
def rxOf (f : Flow) : State := { netUpSt with net := { netUpSt.net with rx := [(5, f)] } }
def rtpOf (n : Nat) : RtpPacket :=
  { dest := 7, udpPort := 1024, source := 0, ssrc := 0, payloadType := 96, seq := 0, stamp := 3, payload := List.replicate n 0 }
def flowOne : FlowCfg := { addrA := 7, udpA := 1024, pkt := 6 }
/-- A position packet without records. -/
def trsPacket (seq : Nat) : List Byte :=
  let h := leBytes 4 0x4E535254 ++ [1, 0, 0, 0, 0, 0, 0, 0] ++ leBytes 4 seq ++ List.replicate 8 0 ++ [0, 0, 16, 0]
  h ++ leBytes 4 (crc32c h)
def trsUp (last : Option Nat) : State :=
  let s := netUpSt.setReg Reg.NET_TRS_CFG 3
  { s with net := { s.net with trs := { s.net.trs with last := last } } }
/-- Nitik port `n` is READY, in a chain of this state. -/
def ntkUp (n : Nat) (p : NtkPort) (c : ChainSt) : State :=
  { up with ntk := { ports := (([{}, {}] : List NtkPort).set n p), chain := c } }
def memberOf (pos : Nat) : ChainMember := { entry := record pos }
/-- The head of a chain that has itself as its member. -/
def headOf : ChainSt := { st := .member, head := true, position := 0, members := [memberOf 0] }
def sealedOf (x : Word) : Epoch := { epochOf x with st := .sealed, chain := true, m := 2048 }
/-- A change of mode to `m` waits for a boundary that has come, in its turn of step 2. -/
def waitOf (m : Mode) : ModeWait := { target := m, at_ := 1024, adj := false, cmd := refOf 8 }
def modeUp (s : State) (w : Option ModeWait) : State := { s with tail := true, pwr := { s.pwr with wait := w } }
def pwrUp (f : PwrSt → PwrSt) : State := { up with pwr := f up.pwr }
def memUp (f : MemSt → MemSt) : State := { up with memory := f up.memory }
/-- `n` bytes, 0 but for the listed ones. -/
def bytesOf (n : Nat) (l : List (Nat × Nat)) : List Byte :=
  (List.range n).map (fun i => BitVec.ofNat 8 ((l.find? (fun p => p.1 == i)).map Prod.snd |>.getD 0))
/-- A boot image without records (R425). -/
def bootImg : List Byte :=
  bytesOf 264 [(0, 0x47), (1, 0x44), (2, 0x42), (3, 0x54), (4, 1), (6, 64), (8, 8), (9, 1), (22, 1), (24, 1), (64, 4)]
/-- A GEOMETRY section with one voxel and one speaker (R137, R138). -/
def geoSection : List Byte :=
  bytesOf 192 [(0, 1), (2, 1), (4, 1), (6, 1), (22, 1), (26, 1), (30, 1), (36, 64), (40, 128), (44, 192), (84, 0x80), (85, 7), (87, 1), (92, 180)]
/-- A shelf image with that section alone (R93); `safe` as slot 8 needs it. -/
def shelfImg (safe : Nat) : List Byte :=
  let h := bytesOf 60 [(0, 0x47), (1, 0x44), (2, 0x53), (3, 0x48), (4, 1), (6, 64), (8, 0x40), (9, 1), (25, safe), (26, 1)]
  h ++ leBytes 4 (crc32c h) ++ bytesOf 24 [(0, 1), (3, 0x80), (4, 1), (8, 128), (16, 192)] ++ leBytes 4 (crc32c geoSection) ++
    List.replicate 36 0 ++ geoSection
def bootUp (stage : Nat) : State := pwrUp (fun p => { p with mode := .boot, bootStage := stage })
def bootIn (a b : Option (List Byte)) (sig trained : Bool) : BootInput :=
  { ms := 3, copyA := a, copyB := b, sigA := sig, sigB := sig, trained := trained, shelf := shelfImg 1 }
def bellsUp (l : Tbl Bell) : State := { up with bells := l }
def taskUp (k : Task) : State := { up with tasks := { up.tasks with tasks := [(255, k)] } }
def slotUp (k : Nat) (v : ShelfSlot) : State := { up with shelves := (List.replicate 9 ({} : ShelfSlot)).set k v }
def ovrUp (o : OvrSt) : State := { up with ovr := o }
def jobOf (load : Bool) : ShelfJob := { cmd := refOf 10, load := load, flash := none, length := 0 }

/-- A clause about an entry that is taken and that no FENCE holds. -/
abbrev CanCheck (p : CmdRef → Submission → State → Prop) : Prop :=
  ∃ (i : Instr) (op : Byte) (e : Submission) (s s1 : State) (c : CmdRef), hostOf i = some (op, e) ∧ s.admitEntry op e = some (c, s1) ∧
    s1.fenced e.queue.val e.flags c.order = false ∧ p c e s1

/-- No check of R88 ends the epoch before the readiness of its parts is asked. -/
abbrev fits (s : State) (e : Epoch) : Prop := e.defective = false ∧ s.noDram = false ∧ e.safe = false ∧ e.chain = false ∧
  e.members.any (fun m => m.switch.any (fun w => w.target == s.active)) = false

set_option Elab.async false

/-! ### For every statement with hypotheses, states and operands that meet those of each clause -/

theorem wit_HostCommandWaits :
  ((∃ (i : Instr) (op : Byte) (e : Submission) (s : State), hostOf i = some (op, e) ∧ s.admitEntry op e = none) ∧
    (∃ (i : Instr) (op : Byte) (e : Submission) (s s1 : State) (c : CmdRef), hostOf i = some (op, e) ∧ s.admitEntry op e = some (c, s1) ∧
    s1.fenced e.queue.val e.flags c.order = true)) :=
  ⟨⟨.nop (entry []), 0, entry [], State.reset, rfl, rfl⟩,
    ⟨.nop { entry [] with flags := 2 }, 0, { entry [] with flags := 2 },
    { upWith 0 { st := .running, out := [refOf 0x30] } with host := { (upWith 0 { st := .running, out := [refOf 0x30] }).host with fetchOrder := 1 } },
    _, _, rfl, rfl, by decide +kernel⟩⟩

theorem wit_HostChecksDecide :
  (CanCheck (fun c _ s1 => s1.dupTag c = true) ∧
    CanCheck (fun c _ s1 => s1.dupTag c = false ∧ ¬knownOpcodes.contains c.opcode.toNat) ∧
    CanCheck (fun c _ s1 => s1.dupTag c = false ∧ knownOpcodes.contains c.opcode.toNat ∧ adminOpcodes.contains c.opcode.toNat ∧ c.queue ≠ 0) ∧
    CanCheck (fun c e s1 => s1.dupTag c = false ∧ knownOpcodes.contains c.opcode.toNat ∧ ¬(adminOpcodes.contains c.opcode.toNat ∧ c.queue ≠ 0) ∧
    4 ≤ e.flags.toNat) ∧
    CanCheck (fun c e s1 => s1.dupTag c = false ∧ knownOpcodes.contains c.opcode.toNat ∧ ¬(adminOpcodes.contains c.opcode.toNat ∧ c.queue ≠ 0) ∧
    e.flags.toNat < 4 ∧ bitOf e.flags 0 ∧ s1.host.version = 1) ∧
    CanCheck (fun c e s1 => s1.dupTag c = false ∧ knownOpcodes.contains c.opcode.toNat ∧ ¬(adminOpcodes.contains c.opcode.toNat ∧ c.queue ≠ 0) ∧
    e.flags.toNat < 4 ∧ ¬(bitOf e.flags 0 ∧ s1.host.version = 1) ∧ e.epoch ≠ 0 ∧ ¬epochOpcodes.contains c.opcode.toNat)) :=
  ⟨⟨.nop (entry []), 0, entry [],
    { upWith 0 { st := .running, out := [{ refOf 0x30 with tag := 0x1234 }] } with
    host := { (upWith 0 { st := .running, out := [{ refOf 0x30 with tag := 0x1234 }] }).host with fetchOrder := 1 } },
    _, _, rfl, rfl, by decide +kernel, by decide +kernel⟩,
    ⟨.nop (entry []), 0, entry [],
    upWith 0 { st := .running, out := [refOf 0xFF], fetched := [(0, 0, ⟨0, 0, 0x1234, 0, 0, List.replicate 48 0⟩)] },
    _, _, rfl, rfl, by decide +kernel, by decide +kernel⟩,
    ⟨.modeSet { entry [] with queue := 1 }, 8, { entry [] with queue := 1 }, upWith 1 { st := .running }, _, _, rfl, rfl, by decide +kernel, by decide +kernel⟩,
    ⟨.nop { entry [] with flags := 4 }, 0, { entry [] with flags := 4 }, up, _, _, rfl, rfl, by decide +kernel, by decide +kernel⟩,
    ⟨.nop { entry [] with flags := 1 }, 0, { entry [] with flags := 1 }, up, _, _, rfl, rfl, by decide +kernel, by decide +kernel⟩,
    ⟨.nop (inEpoch (entry []) 7), 0, inEpoch (entry []) 7, up, _, _, rfl, rfl, by decide +kernel, by decide +kernel⟩⟩

theorem wit_NopAct :
  (∃ e, CanAct (.nop e) 0x00 e (fun _ _ => subZero e 24 40 ∧ e.present = 0)) ∧
  (∃ e, CanAct (.nop e) 0x00 e (fun _ s => subZero e 24 40 ∧ e.present ≠ 0 ∧ s.valid ∧ s.msc < upTo 16 (s.mscOf e.present))) ∧
  (∃ e, CanAct (.nop e) 0x00 e (fun _ s => subZero e 24 40 ∧ e.present ≠ 0 ∧ s.valid ∧ upTo 16 (s.mscOf e.present) ≤ s.msc)) ∧
  (∃ t : Timed, t.act = .nop) :=
  ⟨⟨entry [], up, by decide +kernel, by decide +kernel⟩,
   ⟨at_ (entry []) 2000, up, by decide +kernel, by decide +kernel⟩,
   ⟨at_ (entry []) 16, up, by decide +kernel, by decide +kernel⟩,
   ⟨⟨refOf 0, 16, false, .nop⟩, rfl⟩⟩

theorem wit_WatchdogKickRestarts :
  (∃ e, CanAct (.watchdogKick e) 0x78 e (fun _ _ => subZero e 24 40 ∧ e.present = 0)) ∧
  (∃ e, CanAct (.watchdogKick e) 0x78 e (fun _ _ => e.present ≠ 0)) ∧
  (∃ (e : Submission) (c : CmdRef) (s : State), c.opcode = 0x78 ∧ s.dupTag c = false ∧ e.flags.toNat < 4 ∧ ¬(bitOf e.flags 0 ∧ s.host.version = 1) ∧ e.epoch ≠ 0) :=
  ⟨⟨entry [], up, by decide +kernel, by decide +kernel⟩,
   ⟨at_ (entry []) 2000, up, by decide +kernel, by decide +kernel⟩,
   ⟨inEpoch (entry []) 7, refOf 0x78, up, by decide +kernel⟩⟩

theorem wit_AdminSnapshotsAct :
  (∃ e, CanAct (.versionSet e) 0x01 e (fun _ s => 1 ≤ sub e 16 1 ∧ sub e 16 1 ≤ sub e 17 1 ∧ sub e 17 1 ≤ 2 ∧ subZero e 18 46 ∧
      (∀ q ∈ List.range 16, q ≠ 0 → (s.queue q).st = .disabled) ∧
      s.host.freeSlots = (if (s.queue e.queue.val).fetched = [] then 512 else 511))) ∧
  (∃ e, CanAct (.ledgerSnapshot e) 0x68 e (fun c s => sub e 16 8 % 64 = 0 ∧ 52432 ≤ sub e 24 4 ∧ subZero e 28 36 ∧ s.valid ∧ e.present = 0 ∧ s.msc < upTo 16 (c.fetched + 1))) ∧
  (∃ e, CanAct (.statsSnapshot e) 0x69 e (fun _ s => sub e 16 8 % 64 = 0 ∧ 2728 ≤ sub e 24 4 ∧ subZero e 28 36 ∧ s.valid ∧ e.present ≠ 0 ∧ s.msc < upTo 16 (s.mscOf e.present))) ∧
  (∃ e, CanAct (.creditAudit e) 0x6A e (fun c s => subZero e 16 48 ∧ s.valid ∧ e.present = 0 ∧ s.msc < upTo 16 (c.fetched + 1))) ∧
  (∃ e, CanAct (.ledgerSnapshot e) 0x68 e (fun _ s => sub e 16 8 % 64 = 0 ∧ 52432 ≤ sub e 24 4 ∧ subZero e 28 36 ∧ s.valid = false)) ∧
  (∃ e, CanAct (.creditAudit e) 0x6A e (fun _ s => subZero e 16 48 ∧ s.valid = false)) :=
  ⟨⟨entry [1, 2], up, by decide +kernel, by decide +kernel⟩,
   ⟨entryAt [(25, 205)], up, by decide +kernel, by decide +kernel⟩,
   ⟨at_ (entryAt [(25, 205)]) 2000, up, by decide +kernel, by decide +kernel⟩,
   ⟨entry [], up, by decide +kernel, by decide +kernel⟩,
   ⟨entryAt [(25, 205)], still, by decide +kernel, by decide +kernel⟩,
   ⟨entry [], still, by decide +kernel, by decide +kernel⟩⟩

theorem wit_EpochCommandsAct :
  (∃ e, CanAct (.epochOpen e) 0x10 e (fun _ s => e.epoch ≠ 0 ∧ s.epochNamed e.epoch = none ∧ sub e 16 1 ≤ 64 ∧ sub e 17 1 = 0 ∧ subZero e 18 6 ∧ sub e 24 32 = 0 ∧ subZero e 56 8 ∧ s.entries < 64 ∧ s.pwr.mode ≠ Mode.standby)) ∧
  (∃ e p, CanAct (.epochCommit e) 0x11 e (fun _ s => sub e 16 1 ≤ 1 ∧ subZero e 17 47 ∧ s.openEpoch e = some p ∧ s.valid ∧ p.chain = false ∧ ((s.commitFor 128 (s.mscOf e.present)).2.2 = false ∨ sub e 16 1 = 1))) ∧
  (∃ e p, CanAct (.epochCommit e) 0x11 e (fun _ s => sub e 16 1 = 0 ∧ subZero e 17 47 ∧ s.openEpoch e = some p ∧ s.valid ∧ p.chain = false ∧ (s.commitFor 128 (s.mscOf e.present)).2.2)) ∧
  (∃ e p, CanAct (.epochCommit e) 0x11 e (fun _ s => sub e 16 1 ≤ 1 ∧ subZero e 17 47 ∧ s.openEpoch e = some p ∧ s.valid = false ∧ p.chain = false ∧ e.present = 0)) ∧
  (∃ e p, CanAct (.epochCancel e) 0x12 e (fun _ s => subZero e 16 48 ∧ s.boundary = false ∧ s.epochNamed e.epoch = some p ∧ p.expiring = false)) ∧
  (∃ e k, CanAct (.epochCancel e) 0x12 e (fun _ s => subZero e 16 48 ∧ s.boundary = false ∧ s.epochNamed e.epoch = none ∧ tget s.finals e.epoch.toNat = some k)) :=
  ⟨⟨inEpoch (entry [4]) 7, up, by decide +kernel, by decide +kernel⟩,
   ⟨inEpoch (entry [1]) 7, epochOf 7, { up with epochs := [epochOf 7] }, by decide +kernel, by decide +kernel⟩,
   ⟨at_ (inEpoch (entry []) 7) 16, epochOf 7, { up with epochs := [epochOf 7] }, by decide +kernel, by decide +kernel⟩,
   ⟨inEpoch (entry []) 7, epochOf 7, { still with epochs := [epochOf 7] }, by decide +kernel, by decide +kernel⟩,
   ⟨inEpoch (entry []) 7, epochOf 7, { up with epochs := [epochOf 7] }, by decide +kernel, by decide +kernel⟩,
   ⟨inEpoch (entry []) 7, 4, { up with finals := [(7, 4)] }, by decide +kernel, by decide +kernel⟩⟩

theorem wit_BellCommandsAct :
  (∃ e id late b, CanAct (.bellSet e) 0x18 e (fun _ s => parseBell (s.mscOf e.present) e = some (id, late, b) ∧ s.valid ∧ (∀ x, tget s.bells id = some x → (x.armed && x.stop.isNone) = false) ∧ s.msc < b.next)) ∧
  (∃ e id b, CanAct (.bellSet e) 0x18 e (fun _ s => parseBell (s.mscOf e.present) e = some (id, false, b) ∧ s.valid ∧ (∀ x, tget s.bells id = some x → (x.armed && x.stop.isNone) = false) ∧ b.next ≤ s.msc)) ∧
  (∃ e id b, CanAct (.bellSet e) 0x18 e (fun _ s => parseBell (s.mscOf e.present) e = some (id, true, b) ∧ s.valid ∧ (∀ x, tget s.bells id = some x → (x.armed && x.stop.isNone) = false) ∧ b.next ≤ s.msc)) ∧
  (∃ e b, CanAct (.bellCancel e) 0x19 e (fun _ s => sub e 16 2 < 4096 ∧ subZero e 18 46 ∧ tget s.bells (sub e 16 2) = some b ∧ b.due s.msc = 0 ∧ b.stop = none)) ∧
  (∃ e b, CanAct (.bellCancel e) 0x19 e (fun _ s => sub e 16 2 < 4096 ∧ subZero e 18 46 ∧ tget s.bells (sub e 16 2) = some b ∧ b.due s.msc ≠ 0 ∧ b.stop = none)) :=
  ⟨⟨at_ (entryAt [(16, 5)]) 4096, 5, false, { bellOf 0 4096 with mask := 0 }, up, by decide +kernel, rfl, by decide +kernel, (fun _ h => nomatch h), by decide +kernel⟩,
   ⟨at_ (entryAt [(16, 5)]) 96, 5, { bellOf 0 96 with mask := 0 }, up, by decide +kernel, rfl, by decide +kernel, (fun _ h => nomatch h), by decide +kernel⟩,
   ⟨at_ (entryAt [(16, 5), (19, 1)]) 96, 5, { bellOf 0 96 with mask := 0 }, up, by decide +kernel, rfl, by decide +kernel, (fun _ h => nomatch h), by decide +kernel⟩,
   ⟨entryAt [(16, 5)], bellOf 0 4096, { up with bells := [(5, bellOf 0 4096)] }, by decide +kernel, by decide +kernel⟩,
   ⟨entryAt [(16, 5)], bellOf 0 1008, { up with bells := [(5, bellOf 0 1008)] }, by decide +kernel, by decide +kernel⟩⟩

theorem wit_ObjectCommandsAct :
  (∃ e l late cfg, CanAct (.objConfig e) 0x20 e (fun _ s => parseLocker s.fs (entryByte e) = some (l, late, cfg) ∧ e.epoch = 0 ∧ s.valid ∧ e.present = 0)) ∧
  (∃ e, CanAct (.objGain e) 0x22 e (fun _ s => sub e 16 2 < 1024 ∧ sub e 18 1 = 0 ∧ subZero e 19 1 ∧ codeOk (sub e 20 2) ∧ rampOk (sub e 22 2) ∧ subZero e 24 40 ∧ e.epoch = 0 ∧ s.valid ∧ e.present = 0)) ∧
  (∃ e, CanAct (.objGain e) 0x22 e (fun _ s => sub e 16 2 < 1024 ∧ sub e 18 1 = 0 ∧ subZero e 19 1 ∧ codeOk (sub e 20 2) ∧ rampOk (sub e 22 2) ∧ subZero e 24 40 ∧ e.epoch = 0 ∧ s.valid = false ∧ e.present = 0)) ∧
  (∃ e r bs, CanAct (.objEq e) 0x23 e (fun _ s => sub e 16 2 < 1024 ∧ sub e 18 1 = 0 ∧ sub e 20 1 ≠ 0 ∧ sub e 19 1 + sub e 20 1 ≤ 8 ∧ subZero e 21 3 ∧ sub e 24 8 % 8 = 0 ∧ subZero e 32 32 ∧ e.records = some r ∧ parseBiquads (listByte r) 0 (sub e 20 1) = some bs ∧ e.epoch = 0 ∧ s.valid ∧ e.present = 0)) ∧
  (∃ e r ups, CanAct (.objPosition e) 0x21 e (fun _ s => sub e 16 8 % 16 = 0 ∧ 1 ≤ sub e 24 4 ∧ sub e 24 4 ≤ 4096 ∧ subZero e 28 36 ∧ e.records = some r ∧ parseBatch (listByte r) (sub e 24 4) = .inl ups ∧ s.pwr.freeze = false ∧ e.epoch = 0 ∧ s.valid ∧ e.present = 0)) ∧
  (∃ e, CanAct (.airSet e) 0x28 e (fun _ s => sub e 16 1 ≠ 0 ∧ subZero e 17 3 ∧ sub e 20 4 ≤ 3600000 ∧ -10240 ≤ signed 16 (sub e 24 2) ∧ signed 16 (sub e 24 2) ≤ 15360 ∧ sub e 26 2 ≤ 25600 ∧ subZero e 28 36 ∧ e.epoch = 0 ∧ s.valid ∧ e.present = 0)) :=
  ⟨⟨entryAt [(16, 3), (18, 1), (36, 1)], 3, false, { enable := true, prio := 0, gain := 0, ramp := 0, maxPaths := 1 }, up, by decide +kernel, by decide +kernel⟩,
   ⟨entryAt [(20, 1)], up, by decide +kernel, by decide +kernel⟩,
   ⟨entryAt [(20, 1)], still, by decide +kernel, by decide +kernel⟩,
   ⟨withRecords (entryAt [(20, 1)]) (List.replicate 24 0), _, _, up, by decide +kernel, by decide +kernel, by decide +kernel, by decide +kernel, by decide +kernel, by decide +kernel, by decide +kernel, by decide +kernel, rfl, rfl, by decide +kernel, by decide +kernel, by decide +kernel⟩,
   ⟨withRecords (entryAt [(24, 1)]) (List.replicate 16 0), _, _, up, by decide +kernel, by decide +kernel, by decide +kernel, by decide +kernel, by decide +kernel, rfl, rfl, by decide +kernel⟩,
   ⟨entryAt [(16, 1)], up, by decide +kernel, by decide +kernel⟩⟩

theorem wit_SpeakerCommandsAct :
  (∃ e r recs, CanAct (.matrixSet e) 0x30 e (fun _ s => sub e 17 1 = 0 ∧ rampOk (sub e 18 2) ∧ sub e 16 1 = 0 ∧ sub e 20 4 ≠ 0 ∧ sub e 20 4 ≤ 327680 ∧ sub e 24 8 % 8 = 0 ∧ subZero e 32 32 ∧ e.records = some r ∧ parseNodes (listByte r) (sub e 20 4) = .inl recs ∧ e.epoch = 0 ∧ s.valid ∧ e.present = 0)) ∧
  (∃ e, CanAct (.matrixSet e) 0x30 e (fun _ s => sub e 17 1 = 0 ∧ rampOk (sub e 18 2) ∧ sub e 16 1 = 2 ∧ sub e 20 2 < 512 ∧ sub e 22 2 ≠ 0 ∧ sub e 20 2 + sub e 22 2 ≤ 512 ∧ sub e 24 1 ≤ 2 ∧ subZero e 25 39 ∧ e.epoch = 0 ∧ s.valid ∧ e.present = 0)) ∧
  (∃ e r bs, CanAct (.feedConfig e) 0x31 e (fun _ s => sub e 17 1 = 0 ∧ rampOk (sub e 18 2) ∧ sub e 20 2 < 512 ∧ sub e 16 1 = 1 ∧ sub e 23 1 ≠ 0 ∧ sub e 22 1 + sub e 23 1 ≤ 16 ∧ sub e 24 8 % 8 = 0 ∧ subZero e 32 32 ∧ e.records = some r ∧ parseBiquads (listByte r) 0 (sub e 23 1) = some bs ∧ e.epoch = 0 ∧ s.valid ∧ e.present = 0)) ∧
  (∃ e p, CanAct (.feedConfig e) 0x31 e (fun _ s => sub e 17 1 = 0 ∧ rampOk (sub e 18 2) ∧ sub e 20 2 < 512 ∧ sub e 16 1 = 2 ∧ parsePilot s.fs (entryByte e) = some p ∧ subZero e 39 25 ∧ e.epoch = 0 ∧ s.valid ∧ e.present = 0)) ∧
  (∃ e f b, CanAct (.feedConfig e) 0x31 e (fun _ s => sub e 17 1 = 0 ∧ rampOk (sub e 18 2) ∧ sub e 20 2 < 512 ∧ sub e 16 1 = 0 ∧ parseFeed s.fs (entryByte e) = some (f, b) ∧ subZero e 40 24 ∧ s.feedMayHold f b ∧ b.align = (s.feed f).cfg.align ∧ e.epoch = 0 ∧ s.valid ∧ e.present = 0)) ∧
  (∃ e r, CanAct (.firLoad e) 0x32 e (fun _ s => sub e 16 2 < 512 ∧ sub e 18 1 = 0 ∧ subZero e 19 1 ∧ sub e 20 2 ≠ 0 ∧ sub e 20 2 ≤ 8192 ∧ sub e 20 2 % 16 = 0 ∧ rampOk (sub e 22 2) ∧ sub e 24 8 % 4 = 0 ∧ subZero e 32 32 ∧ e.records = some r ∧ e.epoch = 0 ∧ s.valid ∧ e.present = 0 ∧ firPoolNow s < s.firUsed + sub e 20 2)) ∧
  (∃ e r, CanAct (.firLoad e) 0x32 e (fun _ s => sub e 16 2 < 512 ∧ sub e 18 1 = 0 ∧ subZero e 19 1 ∧ sub e 20 2 ≠ 0 ∧ sub e 20 2 ≤ 8192 ∧ sub e 20 2 % 16 = 0 ∧
      rampOk (sub e 22 2) ∧ sub e 24 8 % 4 = 0 ∧ subZero e 32 32 ∧ e.records = some r ∧ e.epoch = 0 ∧ s.valid ∧ e.present = 0 ∧
      s.firUsed + sub e 20 2 ≤ firPoolNow s)) ∧
  (∃ e l, CanAct (.limiterSet e) 0x33 e (fun _ s => parseLimiter (entryByte e) = some l ∧ sub e 16 2 < 512 ∧ sub e 18 1 = 0 ∧ subZero e 19 1 ∧ subZero e 36 28 ∧ e.epoch = 0 ∧ s.valid ∧ e.present = 0)) ∧
  (∃ e r late k, CanAct (.corridorSet e) 0x38 e (fun _ s => parseRoute (entryByte e) = some (r, late, k) ∧ s.routeMayHold r k ∧ e.epoch = 0 ∧ s.valid ∧ e.present = 0)) :=
  ⟨⟨withRecords (entryAt [(20, 1)]) (List.replicate 8 0), _, _, up, by decide +kernel, by decide +kernel, by decide +kernel, by decide +kernel, by decide +kernel, by decide +kernel, by decide +kernel, by decide +kernel, rfl, rfl, by decide +kernel⟩,
   ⟨entryAt [(16, 2), (22, 1)], up, by decide +kernel, by decide +kernel⟩,
   ⟨withRecords (entryAt [(16, 1), (23, 1)]) (List.replicate 24 0), _, _, up, by decide +kernel, by decide +kernel, by decide +kernel, by decide +kernel, by decide +kernel, by decide +kernel, by decide +kernel, by decide +kernel, by decide +kernel, rfl, rfl, by decide +kernel⟩,
   ⟨entryAt [(16, 2), (25, 1), (38, 1)], { freq := 256, windows := 1 }, up, by decide +kernel, by decide +kernel⟩,
   ⟨entryAt [(20, 3), (22, 16)], 3, { sumOut := true, gain := 0 }, up, by decide +kernel, by decide +kernel⟩,
   ⟨withRecords (entryAt [(20, 16)]) [], [], { up with firUsed := 2097152 }, by decide +kernel, by decide +kernel⟩,
   ⟨withRecords (entryAt [(20, 16)]) [], [], up, by decide +kernel, by decide +kernel⟩,
   ⟨entryAt [(24, 1), (28, 1), (30, 10), (32, 10), (34, 1)], _, up, by decide +kernel, rfl, by decide +kernel⟩,
   ⟨entryAt [(16, 2), (17, 1)], _, _, _, up, by decide +kernel, rfl, by decide +kernel⟩⟩

theorem wit_ModeSetWaits :
  (∃ e m, CanAct (.modeSet e) 0x08 e (fun _ s => modeOf (sub e 16 1) = some m ∧ sub e 17 1 = 0 ∧ subZero e 18 46 ∧ m ≠ s.pwr.mode ∧ modeAllowed s.pwr.mode m ∧ s.leaveRefused m = false ∧ s.pwr.wait = none ∧ s.pwr.entering = none ∧ s.valid ∧ e.present = 0 ∧ s.pwr.mode ≠ Mode.standby)) ∧
  (∃ e m, CanAct (.modeSet e) 0x08 e (fun _ s => modeOf (sub e 16 1) = some m ∧ sub e 17 1 = 0 ∧ subZero e 18 46 ∧ m = s.pwr.mode)) ∧
  (∃ e m, CanAct (.modeSet e) 0x08 e (fun _ s => modeOf (sub e 16 1) = some m ∧ sub e 17 1 = 0 ∧ subZero e 18 46 ∧ m ≠ s.pwr.mode ∧ modeAllowed s.pwr.mode m = false)) :=
  ⟨⟨entryAt [(16, 5)], .show_, up, by decide +kernel, by decide +kernel⟩,
   ⟨entryAt [(16, 4)], .setup, up, by decide +kernel, by decide +kernel⟩,
   ⟨entryAt [(16, 2)], .dormant, upIn .show_ 1024, by decide +kernel, by decide +kernel⟩⟩

theorem wit_ShelfCommandsAct :
  (∃ e, CanAct (.shelfSwitch e) 0x09 e (fun _ s => sub e 16 1 ≤ 8 ∧ sub e 17 1 ≤ 1 ∧ sub e 18 2 = 0 ∧ subZero e 20 44 ∧ s.switchOk (sub e 16 1) ∧ e.epoch = 0 ∧ s.pwr.mode = Mode.standby)) ∧
  (∃ e, CanAct (.shelfLoad e) 0x0A e (fun _ s => sub e 16 1 = 1 ∧ 4 ≤ sub e 17 1 ∧ sub e 17 1 ≤ 8 ∧ subZero e 24 16 ∧ sub e 18 1 < 4 ∧ subZero e 19 5 ∧ subZero e 40 24 ∧ (s.slot (sub e 18 1)).st ≠ .active ∧ (s.slot (sub e 18 1)).st ≠ .fading ∧ (∀ j ∈ (s.slot (sub e 18 1)).jobs, j.load = false) ∧ s.pendingTargets.contains (sub e 18 1) = false ∧ s.pwr.mode ≠ Mode.standby ∧ s.noDram = false)) ∧
  (∃ e, CanAct (.shelfVerify e) 0x0B e (fun _ s => sub e 16 1 ≤ 8 ∧ subZero e 17 47 ∧ (s.slot (sub e 16 1)).st ≠ .empty ∧ (s.slot (sub e 16 1)).st ≠ .loading)) :=
  ⟨⟨entryAt [(16, 1)], { upIn .standby 1024 with shelves := (List.replicate 9 {}).set 1 { st := .verified } }, by decide +kernel, by decide +kernel⟩,
   ⟨entryAt [(16, 1), (17, 4), (18, 1)], up, by decide +kernel, by decide +kernel⟩,
   ⟨entryAt [(16, 1)], { up with shelves := (List.replicate 9 {}).set 1 { st := .verified } }, by decide +kernel, by decide +kernel⟩⟩

theorem wit_IoCommandsAct :
  (∃ e i late k, CanAct (.flowAdd e) 0x40 e (fun _ s => parseFlow s.fs e = some (i, late, k) ∧ k.tx ∧ s.stagedIn e = [] ∧ tget (s.flowsDue true) i = none ∧ s.flowFits e i k ∧ s.pwr.mode ≠ Mode.standby ∧ s.valid ∧ e.epoch = 0 ∧ e.present = 0)) ∧
  (∃ e, CanAct (.flowRemove e) 0x41 e (fun _ s => sub e 17 1 = 0 ∧ subZero e 18 46 ∧ (tget (s.flowsDue false) (sub e 16 1)).isSome ∧ (s.rxFlow (sub e 16 1)).isSome ∧ s.valid ∧ e.epoch = 0 ∧ e.present = 0)) ∧
  (∃ e, CanAct (.chainConfig e) 0x48 e (fun _ s => sub e 16 1 = 4 ∧ sub e 17 1 ≤ 2 ∧ sub e 19 1 ≤ 1 ∧ sub e 20 1 ≤ 1 ∧ subZero e 23 1 ∧ sub e 26 2 ≤ 1024 ∧ sub e 24 2 ≤ 4096 ∧ sub e 24 2 % 16 = 0 ∧ sub e 28 8 % 8 = 0 ∧ subZero e 36 28 ∧ e.epoch = 0 ∧ s.pwr.mode = Mode.setup)) ∧
  (∃ e w, CanAct (.sdacWrite e) 0x70 e (fun _ s => parseSdac s.fs e = some w ∧ e.present = 0)) ∧
  (∃ e, CanAct (.sdacStrobe e) 0x71 e (fun _ _ => sub e 16 1 ≠ 0 ∧ sub e 17 1 = 0 ∧ subZero e 18 46 ∧ e.present = 0)) ∧
  (∃ e, CanAct (.sdacStrobe e) 0x71 e (fun _ s => sub e 16 1 ≠ 0 ∧ sub e 17 1 = 0 ∧ subZero e 18 46 ∧ s.valid ∧ s.msc < s.mscOf e.present)) :=
  ⟨⟨entryAt [(16, 1), (17, 1), (20, 1), (21, 96), (22, 6), (24, 0xE0), (26, 1), (33, 4)], 1, false, _, up, by decide +kernel, rfl, by decide +kernel⟩,
   ⟨entryAt [(16, 1)], { up with net := { up.net with rx := [(1, { cfg := { channels := 1 } })] } }, by decide +kernel, by decide +kernel⟩,
   ⟨entryAt [(16, 4)], up, by decide +kernel, by decide +kernel⟩,
   ⟨entryAt [(16, 1), (20, 5)], _, up, by decide +kernel, rfl, by decide +kernel⟩,
   ⟨entryAt [(16, 1)], up, by decide +kernel, by decide +kernel⟩,
   ⟨at_ (entryAt [(16, 1)]) 2000, up, by decide +kernel, by decide +kernel⟩⟩

theorem wit_TaskCommandsAct :
  (∃ e t late k, CanAct (.taskCreate e) 0x50 e (fun _ s => parseTask e = some (t, late, k) ∧ s.task t = none ∧ s.taskClash k = false ∧ s.noTasks = false ∧ k.ip = 0 ∧ e.epoch = 0)) ∧
  (∃ e, CanAct (.taskSignal e) 0x51 e (fun _ s => sub e 16 2 < 256 ∧ sub e 18 1 = 0 ∧ subZero e 19 1 ∧ word (sub e 20 4) ≠ 0 ∧ subZero e 24 40 ∧ (s.task (sub e 16 2)).isSome ∧ s.noTasks = false ∧ e.present = 0 ∧ s.canPost (sub e 16 2) (word (sub e 20 4)))) ∧
  (∃ e, CanAct (.taskSignal e) 0x51 e (fun _ s => sub e 16 2 < 256 ∧ sub e 18 1 = 0 ∧ subZero e 19 1 ∧ word (sub e 20 4) ≠ 0 ∧ subZero e 24 40 ∧
      (s.task (sub e 16 2)).isSome ∧ s.noTasks = false ∧ e.present = 0 ∧ s.canPost (sub e 16 2) (word (sub e 20 4)) = false)) ∧
  (∃ e k, CanAct (.taskCancel e) 0x52 e (fun _ s => sub e 16 2 < 256 ∧ sub e 18 1 = 0 ∧ subZero e 19 45 ∧ s.task (sub e 16 2) = some k ∧ k.cfg.ip = 0 ∧ e.epoch = 0)) :=
  ⟨⟨entryAt [(16, 1), (24, 1)], 1, false, { wait := 1, xfade := 0 }, up, by decide +kernel, by decide +kernel⟩,
   ⟨entryAt [(16, 1), (20, 1)], { up with tasks := { up.tasks with tasks := [(1, { cfg := {} })] } }, by decide +kernel, by decide +kernel⟩,
   ⟨entryAt [(16, 1), (20, 1)], { up with tasks := { up.tasks with tasks := [(1, { cfg := {}, pending := 1 })] } }, by decide +kernel, by decide +kernel⟩,
   ⟨entryAt [(16, 1)], { cfg := {} }, { up with tasks := { up.tasks with tasks := [(1, { cfg := {} })] } }, by decide +kernel, by decide +kernel⟩⟩

theorem wit_DmaCommandsAct :
  (∃ e, CanAct (.dmaStart e) 0x58 e (fun _ s => sub e 16 1 < 28 ∧ sub e 17 1 = 0 ∧ sub e 18 1 ≤ 2 ∧ subZero e 19 5 ∧ sub e 24 8 % 32 = 0 ∧ subZero e 32 32 ∧ s.pwr.mode ≠ Mode.standby ∧ e.present = 0 ∧ (s.dch (sub e 16 1)).live = false)) ∧
  (∃ e, CanAct (.dmaStart e) 0x58 e (fun _ s => sub e 16 1 < 28 ∧ sub e 17 1 = 0 ∧ sub e 18 1 ≤ 2 ∧ subZero e 19 5 ∧ sub e 24 8 % 32 = 0 ∧ subZero e 32 32 ∧ s.pwr.mode ≠ Mode.standby ∧ e.present = 0 ∧ (s.dch (sub e 16 1)).live)) ∧
  (∃ e, CanAct (.dmaAbort e) 0x59 e (fun _ s => sub e 16 1 < 28 ∧ subZero e 17 47 ∧ e.present = 0 ∧ (s.dch (sub e 16 1)).live = false)) ∧
  (∃ e, CanAct (.dmaAbort e) 0x59 e (fun _ s => sub e 16 1 < 28 ∧ subZero e 17 47 ∧ e.present = 0 ∧ (s.dch (sub e 16 1)).live)) ∧
  (∃ e, CanAct (.dmaPause e) 0x5A e (fun _ s => 28 ≤ sub e 16 1 ∧ sub e 16 1 < 32 ∧ e.queue = 0 ∧ subZero e 17 47 ∧ e.present = 0 ∧ (s.dch (sub e 16 1)).st = .running)) ∧
  (∃ e, CanAct (.dmaResume e) 0x5B e (fun _ s => 28 ≤ sub e 16 1 ∧ sub e 16 1 < 32 ∧ e.queue = 0 ∧ subZero e 17 47 ∧ e.present = 0 ∧ (s.dch (sub e 16 1)).st = .paused ∧ (s.dch (sub e 16 1)).wait = none)) :=
  ⟨⟨entryAt [(16, 27)], up, by decide +kernel, by decide +kernel⟩,
   ⟨entryAt [(16, 27)], { up with dma := up.dma.set 27 { st := .running } }, by decide +kernel, by decide +kernel⟩,
   ⟨entryAt [(16, 27)], up, by decide +kernel, by decide +kernel⟩,
   ⟨entryAt [(16, 27)], { up with dma := up.dma.set 27 { st := .running } }, by decide +kernel, by decide +kernel⟩,
   ⟨entryAt [(16, 28)], { up with dma := up.dma.set 28 { st := .running } }, by decide +kernel, by decide +kernel⟩,
   ⟨entryAt [(16, 31)], { up with dma := up.dma.set 31 { st := .paused } }, by decide +kernel, by decide +kernel⟩⟩

theorem wit_RecorderCommandsAct :
  (∃ e r taps, CanAct (.captureStart e) 0x60 e (fun _ s => s.frameBuffer (sub e 24 8) (sub e 32 8) (sub e 16 2) ∧ sub e 18 1 < 2 ∧ sub e 19 1 = 0 ∧ subZero e 20 4 ∧ subZero e 48 16 ∧ e.records = some r ∧ allSome ((List.range (sub e 16 2)).map (fun k => parseTap (imgAt (listByte r) (4 * k)))) = some taps ∧ s.pwr.mode ≠ Mode.standby ∧ s.noDram = false ∧ s.valid ∧ s.capture.busy = false ∧ e.present = 0)) ∧
  (∃ e, CanAct (.captureStop e) 0x61 e (fun _ s => subZero e 16 3 ∧ sub e 19 1 = 0 ∧ subZero e 20 44 ∧ s.pwr.mode ≠ Mode.standby ∧ s.noDram = false ∧ s.valid ∧ s.capture.busy ∧ s.capture.stopAt = none ∧ e.present = 0 ∧ s.capture.start < s.nextMul 16 - 16)) ∧
  (∃ e, CanAct (.replaySet e) 0x62 e (fun _ s => replayFields e s ∧ sub e 16 1 = 2 ∧ s.replay.fill ≤ sub e 40 8 ∧ s.pwr.mode ≠ Mode.standby ∧ s.noDram = false ∧ s.valid)) ∧
  (∃ e, CanAct (.replaySet e) 0x62 e (fun _ s => replayFields e s ∧ sub e 16 1 = 1 ∧ s.pwr.mode ≠ Mode.standby ∧ s.noDram = false ∧ s.valid ∧ e.present = 0 ∧ s.replay.st = 0)) ∧
  (∃ e, CanAct (.replaySet e) 0x62 e (fun _ s => replayFields e s ∧ sub e 16 1 = 0 ∧ s.pwr.mode ≠ Mode.standby ∧ s.noDram = false ∧ s.valid ∧ s.replay.st ≠ 0)) :=
  ⟨⟨withRecords (entryAt [(16, 1), (27, 4), (32, 64)]) [0, 0, 0, 0], _, _, up, by decide +kernel, by decide +kernel, by decide +kernel, by decide +kernel, by decide +kernel, by decide +kernel, rfl, rfl, by decide +kernel⟩,
   ⟨entry [], { up with capture := { st := 2 } }, by decide +kernel, by decide +kernel⟩,
   ⟨entryAt [(16, 2)], up, by decide +kernel, by decide +kernel⟩,
   ⟨entryAt [(16, 1)], up, by decide +kernel, by decide +kernel⟩,
   ⟨entryAt [(18, 1), (27, 4), (32, 64)], { up with replay := { st := 2 } }, by decide +kernel, by decide +kernel⟩⟩

theorem wit_DoorbellsAct :
  (∃ q v, Can (.sqTailWrite q v) (fun s => s.pwr.mode.awake ∧ ((s.queue q.val).st = .running ∨ (s.queue q.val).st = .draining) ∧ v.toNat < 2 ^ (s.queue q.val).size)) ∧
  (∃ q v, Can (.sqTailWrite q v) (fun s => s.pwr.mode.awake ∧ ((s.queue q.val).st = .running ∨ (s.queue q.val).st = .draining) ∧ 2 ^ (s.queue q.val).size ≤ v.toNat)) ∧
  (∃ q v, Can (.sqTailWrite q v) (fun s => s.pwr.mode.awake ∧ ((s.queue q.val).st = .disabled ∨ (s.queue q.val).st = .error))) ∧
  (∃ q v, Can (.cqHeadWrite q v) (fun s => s.pwr.mode.awake ∧ ((s.queue q.val).st = .running ∨ (s.queue q.val).st = .draining) ∧ v.toNat < 2 ^ (s.queue q.val).size ∧
      ringDist (2 ^ (s.queue q.val).size) (s.queue q.val).cqHead v.toNat ≤
        ringDist (2 ^ (s.queue q.val).size) (s.queue q.val).cqHead (s.queue q.val).cqTail)) ∧
  (∃ q v, Can (.cqHeadWrite q v) (fun s => s.pwr.mode.awake ∧ ((s.queue q.val).st = .running ∨ (s.queue q.val).st = .draining) ∧ (2 ^ (s.queue q.val).size ≤ v.toNat ∨ ringDist (2 ^ (s.queue q.val).size) (s.queue q.val).cqHead (s.queue q.val).cqTail < ringDist (2 ^ (s.queue q.val).size) (s.queue q.val).cqHead v.toNat))) :=
  ⟨⟨0, 15, up, by decide +kernel⟩,
   ⟨0, 16, up, by decide +kernel⟩,
   ⟨15, 16, up, by decide +kernel⟩,
   ⟨0, 3, upWith 0 { st := .draining, cqTail := 3 }, by decide +kernel⟩,
   ⟨0, 4, upWith 0 { st := .draining, cqTail := 3 }, by decide +kernel⟩⟩

theorem wit_QueueStatesMove :
  (∃ q v, Can (.queueEnable q v) (fun s => s.pwr.mode.awake ∧ q ≠ 0 ∧ bitOf v 0 ∧ fieldOf v 1 2 = (s.queue q.val).prio ∧ fieldOf v 4 4 = (s.queue q.val).size ∧ (s.queue q.val).st = .disabled ∧ (s.queue q.val).sqBase.toNat % 4096 = 0 ∧ (s.queue q.val).cqBase.toNat % 4096 = 0 ∧ 4 ≤ (s.queue q.val).size ∧ (s.queue q.val).size ≤ 12)) ∧
  (∃ q v, Can (.queueEnable q v) (fun s => s.pwr.mode.awake ∧ q ≠ 0 ∧ bitOf v 0 ∧ fieldOf v 1 2 = (s.queue q.val).prio ∧ fieldOf v 4 4 = (s.queue q.val).size ∧ (s.queue q.val).st = .disabled ∧ (s.queue q.val).sqBase.toNat % 4096 ≠ 0)) ∧
  (∃ q v, Can (.queueDisable q v) (fun s => s.pwr.mode.awake ∧ q ≠ 0 ∧ bitOf v 0 = false ∧ fieldOf v 1 2 = (s.queue q.val).prio ∧ fieldOf v 4 4 = (s.queue q.val).size ∧ (s.queue q.val).st = .running)) ∧
  (∃ q, Can (.queueDrainEnd q) (fun s => (s.queue q.val).st = .draining ∧ (s.queue q.val).out = [])) ∧
  (∃ q l, Can (.entryFetch q (some l)) (fun s => s.pick = some q.val ∧ q ≠ 0)) ∧
  (∃ q, Can (.entryFetch q none) (fun s => s.pick = some q.val)) ∧
  (∃ q l, Can (.entryFetch q l) (fun s => s.pick ≠ some q.val)) :=
  ⟨⟨15, 0xC7, upWith 15 { prio := 3, size := 12 }, by decide +kernel⟩,
   ⟨15, 0x41, upWith 15 { sqBase := 64 }, by decide +kernel⟩,
   ⟨15, 0x40, upWith 15 { st := .running }, by decide +kernel⟩,
   ⟨15, upWith 15 { st := .draining }, by decide +kernel⟩,
   ⟨15, [], upWith 15 { st := .running, sqTail := 1 }, by decide +kernel⟩,
   ⟨0, upWith 0 { st := .running, sqTail := 1 }, by decide +kernel⟩,
   ⟨15, none, up, by decide +kernel⟩⟩

theorem wit_CompletionsAreWritten :
  (∃ q c st res v2 rest, Can (.completionWrite q true) (fun s => s.mayWrite q.val ∧ firstReady q.val s.host.ready = some (.completion c st res v2, rest))) ∧
  (∃ q c st res v2 rest, Can (.completionWrite q false) (fun s => s.mayWrite q.val ∧ firstReady q.val s.host.ready = some (.completion c st res v2, rest))) ∧
  (∃ kind ident res rest, Can (.eventRecordWrite true) (fun s => s.mayWrite 0 ∧ firstReady 0 s.host.ready = some (.record kind ident res, rest))) ∧
  (∃ q, Can (.irqTimerExpiry q) (fun s => 0 < (s.queue q.val).unsig ∧ s.passed (s.queue q.val).unsigAt (s.irqTimer q.val))) :=
  ⟨⟨0, refOf 0, 1, 7, false, [], inReady (.completion (refOf 0) 1 7 false), by decide +kernel⟩,
   ⟨0, refOf 0, 1, 7, false, [], inReady (.completion (refOf 0) 1 7 false), by decide +kernel⟩,
   ⟨1, 5, 7, [], inReady (.record 1 5 7), by decide +kernel⟩,
   ⟨15, upWith 15 { st := .running, unsig := 1 }, by decide +kernel⟩⟩

theorem wit_InterruptsAndWatchdog :
  (∃ v, Can (.msixUnmask v) (fun s => s.pwr.mode.awake)) ∧
  (∃ v, Can (.irqTestWrite v) (fun s => s.pwr.mode.awake)) ∧
  (∃ v, Can (.wdogCfgWrite v) (fun s => s.pwr.mode.awake)) ∧
  (Can .watchdogExpiry (fun s => s.host.wdogRun ∧ s.host.wdogLeft = 0 ∧ s.pwr.mode = Mode.show_ ∧ bitOf (s.reg Reg.HQ_WDOG_CFG) 1)) ∧
  (Can .watchdogExpiry (fun s => s.host.wdogRun ∧ s.host.wdogLeft = 0 ∧ s.pwr.mode = Mode.service)) ∧
  (Can .watchdogExpiry (fun s => s.host.wdogLeft ≠ 0)) ∧
  (Can (.badAccess false) (fun _ => True)) ∧
  (Can (.badAccess true) (fun _ => True)) ∧
  (∃ on, Can (.busMasterEnableChange on) (fun _ => True)) :=
  ⟨⟨31, up, by decide +kernel⟩,
   ⟨0xFFFFFFFF, up, by decide +kernel⟩,
   ⟨3, up, by decide +kernel⟩,
   ⟨{ upIn .show_ 1024 with host := { up.host with wdogRun := true }, regs := [(Reg.HQ_WDOG_CFG, 3)] }, by decide +kernel⟩,
   ⟨{ upIn .service 1024 with host := { up.host with wdogRun := true } }, by decide +kernel⟩,
   ⟨{ up with host := { up.host with wdogLeft := 1 } }, by decide +kernel⟩,
   ⟨up, trivial⟩,
   ⟨up, trivial⟩,
   ⟨true, up, trivial⟩⟩

theorem wit_LinkLossDropsCommands :
  (Can .pcieLinkLoss (fun s => s.host.linkUp)) ∧
  (Can .pcieLinkReturn (fun s => s.host.linkUp = false)) :=
  ⟨⟨up, by decide +kernel⟩,
   ⟨{ up with host := { up.host with linkUp := false } }, by decide +kernel⟩⟩

theorem wit_SelectsCapture :
  (∃ v, Can (.sysLedgerSelWrite v) (fun s => s.pwr.mode.awake ∧ isLedger (fieldOf v 0 11))) ∧
  (∃ v, Can (.sysLedgerSelWrite v) (fun s => s.pwr.mode.awake ∧ isLedger (fieldOf v 0 11) = false)) ∧
  (∃ v, Can (.objLkSelWrite v) (fun s => s.pwr.mode.awake)) ∧
  (∃ v, Can (.geoLkSelWrite v) (fun s => s.pwr.mode.awake)) ∧
  (∃ v, Can (.pthLkSelWrite v) (fun s => s.pwr.mode.awake)) ∧
  (∃ v, Can (.pthProbeSelWrite v) (fun s => s.pwr.mode.awake)) ∧
  (∃ v, Can (.spkFdSelWrite v) (fun s => s.pwr.mode.awake)) ∧
  (∃ v f, Can (.netFlSelWrite v) (fun s => s.pwr.mode.awake ∧ bitOf v 8 = false ∧ tget s.net.rx (fieldOf v 0 8) = some f)) ∧
  (∃ v k, Can (.dskTaskSelWrite v) (fun s => s.pwr.mode.awake ∧ s.task (fieldOf v 0 8) = some k)) ∧
  (∃ v, Can (.dskTaskSelWrite v) (fun s => s.pwr.mode.awake ∧ s.task (fieldOf v 0 8) = none)) :=
  ⟨⟨0x5FF, up, by decide +kernel⟩,
   ⟨0x600, up, by decide +kernel⟩,
   ⟨1023, up, by decide +kernel⟩,
   ⟨1023, up, by decide +kernel⟩,
   ⟨1023, up, by decide +kernel⟩,
   ⟨1023, up, by decide +kernel⟩,
   ⟨511, up, by decide +kernel⟩,
   ⟨255, { cfg := { channels := 1 } }, { up with net := { up.net with rx := [(255, { cfg := { channels := 1 } })] } }, by decide +kernel⟩,
   ⟨255, { cfg := {} }, { up with tasks := { up.tasks with tasks := [(255, { cfg := {} })] } }, by decide +kernel⟩,
   ⟨255, up, by decide +kernel⟩⟩

theorem wit_RegisterWritesStore :
  (∃ off v r, Can (.w1cWrite off v 0) (fun s => s.pwr.mode.awake ∧ ¬(inDbg off ∧ s.factory) ∧ regRow off = some r)) ∧
  (∃ off v same r, Can (.w1cWrite off v same) (fun s => s.pwr.mode.awake ∧ ¬(inDbg off ∧ s.factory) ∧ regRow off = some r ∧ evtRow off = none)) ∧
  (∃ off v e r, Can (.eventEnableWrite off v) (fun s => s.pwr.mode.awake ∧ ¬(inDbg off ∧ s.factory) ∧ evtRowByEn off = some e ∧ regRow off = some r)) ∧
  (∃ off v r, Can (.registerWrite .host off v) (fun s => s.pwr.mode.awake ∧ regRow off = some r ∧ (off / 0x10000 = 3 ∨ off / 0x10000 = 6 ∨ off / 0x10000 = 15) ∧ isWriteLow off = false ∧ isWriteLow (off - 4) = false ∧ evtRowByEn off = none ∧ r.w1c = 0 ∧ r.rw ≠ 0)) ∧
  (∃ (off : Nat) (s : State), s.pwr.mode.awake = false ∧ ¬(inDbg off ∧ s.factory)) ∧
  (∃ (off : Nat) (s : State), inDbg off ∧ s.factory) :=
  ⟨⟨Reg.TT_EVT, 5, _, up, by decide +kernel, by decide +kernel, rfl⟩,
   ⟨Reg.TT_STAT_SAT, 1, 1, _, up, by decide +kernel, by decide +kernel, rfl, by decide +kernel⟩,
   ⟨Reg.TT_EVT_EN, 3, _, _, up, by decide +kernel, by decide +kernel, rfl, rfl⟩,
   ⟨Reg.MEM_CFG, 1, _, up, by decide +kernel, rfl, by decide +kernel⟩,
   ⟨Reg.TT_EVT, State.reset, by decide +kernel⟩,
   ⟨0x10FFFC, { up with pwr := { up.pwr with straps := { bootMode := 3, profSel := 0, chainHead := false } } }, by decide +kernel⟩⟩

theorem wit_PairsGoThroughLatches :
  (∃ m off, Can (.lowWordRead m off) (fun s => s.readable ∧ mayReach m off ∧ off < 0xFFFFC ∧ isLow off ∧ isLow (off + 4) = false)) ∧
  (∃ m off v, Can (.lowWordWrite m off v) (fun s => s.pwr.mode.awake ∧ mayReach m off ∧ off < 0x100000 ∧ isWriteLow off)) ∧
  (∃ m lo v, Can (.highWordWrite m (lo + 4) v) (fun s => s.pwr.mode.awake ∧ mayReach m (lo + 4) ∧ lo + 4 < 0x100000 ∧ isWriteLow lo ∧ isWriteLow (lo + 4) = false)) ∧
  (Can (.clearOnRead Reg.PWR_TEMP) (fun s => s.readable)) ∧
  (Can (.clearOnRead Reg.MEM_PAUSE) (fun s => s.readable)) ∧
  (Can (.clearOnRead Reg.MEM_CELLAR_MIN) (fun s => s.readable)) ∧
  (∃ (c : Fin 32) (off : Nat) (s : State), s.pwr.mode.awake ∧ ¬(inDbg off ∧ s.factory) ∧ regBarred c.val off 4) :=
  ⟨⟨.host, Reg.TMB_MSC_LO, up, by decide +kernel⟩,
   ⟨.host, Reg.TMB_ORIGIN_LO, 1, up, by decide +kernel⟩,
   ⟨.host, Reg.TMB_ORIGIN_LO, 1, up, by decide +kernel⟩,
   ⟨up, by decide +kernel⟩,
   ⟨up, by decide +kernel⟩,
   ⟨up, by decide +kernel⟩,
   ⟨27, 0x40000, up, by decide +kernel⟩⟩

theorem wit_DeskScalarResults :
  (CanCompute 0x00 (fun _ _ => True) (fun _ k => (k, 0))) ∧
  (CanCompute 0x10 (fun _ _ => True) (fun w k => (k.setS (fD w) (fLow w), 0))) ∧
  (CanCompute 0x11 (fun _ _ => True) (fun w k => (k.setS (fD w) (k.sreg (fX w) + aluB w k), 0))) ∧
  (CanCompute 0x12 (fun _ _ => True) (fun w k => (k.setS (fD w) (k.sreg (fX w) - aluB w k), 0))) ∧
  (CanCompute 0x13 (fun _ _ => True) (fun w k => (k.setS (fD w) (k.sreg (fX w) &&& aluB w k), 0))) ∧
  (CanCompute 0x14 (fun _ _ => True) (fun w k => (k.setS (fD w) (k.sreg (fX w) ||| aluB w k), 0))) ∧
  (CanCompute 0x15 (fun _ _ => True) (fun w k => (k.setS (fD w) (k.sreg (fX w) ^^^ aluB w k), 0))) ∧
  (CanCompute 0x16 (fun _ _ => True) (fun w k => (k.setS (fD w) (k.sreg (fX w) <<< fieldOf (aluB w k) 0 5), 0))) ∧
  (CanCompute 0x17 (fun _ _ => True) (fun w k => (k.setS (fD w) (k.sreg (fX w) >>> fieldOf (aluB w k) 0 5), 0))) ∧
  (CanCompute 0x18 (fun _ _ => True) (fun w k => (k.setS (fD w) ((k.sreg (fX w)).sshiftRight (fieldOf (aluB w k) 0 5)), 0))) ∧
  (CanCompute 0x19 (fun _ _ => True) (fun w k => (k.setS (fD w) (k.sreg (fX w) * aluB w k), 0))) ∧
  (CanCompute 0x1C (fun _ _ => True) (fun w k => (k.setPtr (fPA w) (k.fold (fPA w) ((((k.sreg (fX w)).toNat + fImm w) % 131072 : Nat) : Int)), 0))) ∧
  (CanCompute 0x1D (fun w k => fieldOf (k.sreg (fX w)) 0 17 + fieldOf (k.sreg (fY w)) 0 18 ≤ 131072) (fun w k =>
      let b := fieldOf (k.sreg (fX w)) 0 17
      let l := fieldOf (k.sreg (fY w)) 0 18
      let k1 := { k with mb := k.mb.set (fPA w) b, ml := k.ml.set (fPA w) l }
      (if l = 0 ∨ (b ≤ k.ptr (fPA w) ∧ k.ptr (fPA w) < b + l) then k1 else k1.setPtr (fPA w) (k1.fold (fPA w) (k.ptr (fPA w))), 0))) ∧
  (CanCompute 0x1E (fun _ _ => True) (fun w k => (k.setS (fD w) (word (k.ptr (fPA w))), 0))) :=
  ⟨⟨15, 0, deskUp {}, _, _, rfl, by unfold State.deskTakes; decide +kernel, by decide +kernel, trivial, rfl⟩,
   ⟨15, 0, deskUp {}, _, _, rfl, by unfold State.deskTakes; decide +kernel, by decide +kernel, trivial, rfl⟩,
   ⟨15, 0, deskUp {}, _, _, rfl, by unfold State.deskTakes; decide +kernel, by decide +kernel, trivial, rfl⟩,
   ⟨15, 0, deskUp {}, _, _, rfl, by unfold State.deskTakes; decide +kernel, by decide +kernel, trivial, rfl⟩,
   ⟨15, 0, deskUp {}, _, _, rfl, by unfold State.deskTakes; decide +kernel, by decide +kernel, trivial, rfl⟩,
   ⟨15, 0, deskUp {}, _, _, rfl, by unfold State.deskTakes; decide +kernel, by decide +kernel, trivial, rfl⟩,
   ⟨15, 0, deskUp {}, _, _, rfl, by unfold State.deskTakes; decide +kernel, by decide +kernel, trivial, rfl⟩,
   ⟨15, 0, deskUp {}, _, _, rfl, by unfold State.deskTakes; decide +kernel, by decide +kernel, trivial, rfl⟩,
   ⟨15, 0, deskUp {}, _, _, rfl, by unfold State.deskTakes; decide +kernel, by decide +kernel, trivial, rfl⟩,
   ⟨15, 0, deskUp {}, _, _, rfl, by unfold State.deskTakes; decide +kernel, by decide +kernel, trivial, rfl⟩,
   ⟨15, 0, deskUp {}, _, _, rfl, by unfold State.deskTakes; decide +kernel, by decide +kernel, trivial, rfl⟩,
   ⟨15, 0, deskUp {}, _, _, rfl, by unfold State.deskTakes; decide +kernel, by decide +kernel, trivial, rfl⟩,
   ⟨15, 0, deskUp {}, _, _, rfl, by unfold State.deskTakes; decide +kernel, by decide +kernel, by decide +kernel, rfl⟩,
   ⟨15, 0, deskUp {}, _, _, rfl, by unfold State.deskTakes; decide +kernel, by decide +kernel, trivial, rfl⟩⟩

theorem wit_DeskMemoryResults :
  (∃ as, CanCompute 0x1A (fun w k => k.addrs (fPA w) 0 1 = some as ∧ as.any k.bad.contains = false) (fun w k => ((k.setS (fD w) ((k.load as).getD 0 0)).bump (fPA w) (fSA w), 0))) ∧
  (∃ as, CanCompute 0x1B (fun w k => k.addrs (fPA w) 0 1 = some as) (fun w k => ((k.store as [k.sreg (fX w)]).bump (fPA w) (fSA w), 0))) ∧
  (∃ as, CanCompute 0x20 (fun w k => k.addrs (fPA w) 0 8 = some as ∧ as.any k.bad.contains = false) (fun w k => ((k.setV (fD w) (k.load as)).bump (fPA w) (fSA w), 0))) ∧
  (∃ as, CanCompute 0x21 (fun w k => k.addrs (fPA w) 0 8 = some as) (fun w k => ((k.store as (k.vec (fX w))).bump (fPA w) (fSA w), 0))) ∧
  (∃ as, CanCompute 0x22 (fun w k => k.addrs (fPA w) 0 1 = some as ∧ as.any k.bad.contains = false) (fun w k => ((k.setV (fD w) (List.replicate 8 ((k.load as).getD 0 0))).bump (fPA w) (fSA w), 0))) :=
  ⟨⟨[0], 15, 0, deskUp {}, _, _, rfl, by unfold State.deskTakes; decide +kernel, by decide +kernel, by decide +kernel, rfl⟩,
   ⟨[0], 15, 0, deskUp {}, _, _, rfl, by unfold State.deskTakes; decide +kernel, by decide +kernel, by decide +kernel, rfl⟩,
   ⟨List.range 8, 15, 0, deskUp {}, _, _, rfl, by unfold State.deskTakes; decide +kernel, by decide +kernel, by decide +kernel, rfl⟩,
   ⟨List.range 8, 15, 0, deskUp {}, _, _, rfl, by unfold State.deskTakes; decide +kernel, by decide +kernel, by decide +kernel, rfl⟩,
   ⟨[0], 15, 0, deskUp {}, _, _, rfl, by unfold State.deskTakes; decide +kernel, by decide +kernel, by decide +kernel, rfl⟩⟩

theorem wit_DeskVectorResults :
  (
  let sats (k : Desk) (w : DeskBits) (xs : List Int) : Desk × Nat :=
    (k.setV (fD w) (xs.map (fun x => BitVec.ofInt 32 (sat32 x))), (xs.map sats32).sum)
  let two (f : Int → Int → Int) (w : DeskBits) (k : Desk) : Desk × Nat :=
    sats k w (((k.vec (fX w)).map BitVec.toInt).zipWith f ((k.vec (fY w)).map BitVec.toInt))
  let one (f : Int → Int) (w : DeskBits) (k : Desk) : Desk × Nat := sats k w (((k.vec (fX w)).map BitVec.toInt).map f)
  CanCompute 0x23 (fun _ _ => True) (fun w k => (k.setV (fD w) ((k.vec (fD w)).set (fImm w % 8) (k.sreg (fX w))), 0))) ∧
  (
  let sats (k : Desk) (w : DeskBits) (xs : List Int) : Desk × Nat :=
    (k.setV (fD w) (xs.map (fun x => BitVec.ofInt 32 (sat32 x))), (xs.map sats32).sum)
  let two (f : Int → Int → Int) (w : DeskBits) (k : Desk) : Desk × Nat :=
    sats k w (((k.vec (fX w)).map BitVec.toInt).zipWith f ((k.vec (fY w)).map BitVec.toInt))
  let one (f : Int → Int) (w : DeskBits) (k : Desk) : Desk × Nat := sats k w (((k.vec (fX w)).map BitVec.toInt).map f)
  CanCompute 0x24 (fun _ _ => True) (fun w k => (k.setS (fD w) (k.lane (fX w) (fImm w % 8)), 0))) ∧
  (
  let sats (k : Desk) (w : DeskBits) (xs : List Int) : Desk × Nat :=
    (k.setV (fD w) (xs.map (fun x => BitVec.ofInt 32 (sat32 x))), (xs.map sats32).sum)
  let two (f : Int → Int → Int) (w : DeskBits) (k : Desk) : Desk × Nat :=
    sats k w (((k.vec (fX w)).map BitVec.toInt).zipWith f ((k.vec (fY w)).map BitVec.toInt))
  let one (f : Int → Int) (w : DeskBits) (k : Desk) : Desk × Nat := sats k w (((k.vec (fX w)).map BitVec.toInt).map f)
  CanCompute 0x30 (fun _ _ => True) (two (· + ·))) ∧
  (
  let sats (k : Desk) (w : DeskBits) (xs : List Int) : Desk × Nat :=
    (k.setV (fD w) (xs.map (fun x => BitVec.ofInt 32 (sat32 x))), (xs.map sats32).sum)
  let two (f : Int → Int → Int) (w : DeskBits) (k : Desk) : Desk × Nat :=
    sats k w (((k.vec (fX w)).map BitVec.toInt).zipWith f ((k.vec (fY w)).map BitVec.toInt))
  let one (f : Int → Int) (w : DeskBits) (k : Desk) : Desk × Nat := sats k w (((k.vec (fX w)).map BitVec.toInt).map f)
  CanCompute 0x31 (fun _ _ => True) (two (· - ·))) ∧
  (
  let sats (k : Desk) (w : DeskBits) (xs : List Int) : Desk × Nat :=
    (k.setV (fD w) (xs.map (fun x => BitVec.ofInt 32 (sat32 x))), (xs.map sats32).sum)
  let two (f : Int → Int → Int) (w : DeskBits) (k : Desk) : Desk × Nat :=
    sats k w (((k.vec (fX w)).map BitVec.toInt).zipWith f ((k.vec (fY w)).map BitVec.toInt))
  let one (f : Int → Int) (w : DeskBits) (k : Desk) : Desk × Nat := sats k w (((k.vec (fX w)).map BitVec.toInt).map f)
  CanCompute 0x32 (fun _ _ => True) (two min)) ∧
  (
  let sats (k : Desk) (w : DeskBits) (xs : List Int) : Desk × Nat :=
    (k.setV (fD w) (xs.map (fun x => BitVec.ofInt 32 (sat32 x))), (xs.map sats32).sum)
  let two (f : Int → Int → Int) (w : DeskBits) (k : Desk) : Desk × Nat :=
    sats k w (((k.vec (fX w)).map BitVec.toInt).zipWith f ((k.vec (fY w)).map BitVec.toInt))
  let one (f : Int → Int) (w : DeskBits) (k : Desk) : Desk × Nat := sats k w (((k.vec (fX w)).map BitVec.toInt).map f)
  CanCompute 0x33 (fun _ _ => True) (two max)) ∧
  (
  let sats (k : Desk) (w : DeskBits) (xs : List Int) : Desk × Nat :=
    (k.setV (fD w) (xs.map (fun x => BitVec.ofInt 32 (sat32 x))), (xs.map sats32).sum)
  let two (f : Int → Int → Int) (w : DeskBits) (k : Desk) : Desk × Nat :=
    sats k w (((k.vec (fX w)).map BitVec.toInt).zipWith f ((k.vec (fY w)).map BitVec.toInt))
  let one (f : Int → Int) (w : DeskBits) (k : Desk) : Desk × Nat := sats k w (((k.vec (fX w)).map BitVec.toInt).map f)
  CanCompute 0x34 (fun _ _ => True) (one (fun x => (x.natAbs : Int)))) ∧
  (
  let sats (k : Desk) (w : DeskBits) (xs : List Int) : Desk × Nat :=
    (k.setV (fD w) (xs.map (fun x => BitVec.ofInt 32 (sat32 x))), (xs.map sats32).sum)
  let two (f : Int → Int → Int) (w : DeskBits) (k : Desk) : Desk × Nat :=
    sats k w (((k.vec (fX w)).map BitVec.toInt).zipWith f ((k.vec (fY w)).map BitVec.toInt))
  let one (f : Int → Int) (w : DeskBits) (k : Desk) : Desk × Nat := sats k w (((k.vec (fX w)).map BitVec.toInt).map f)
  CanCompute 0x35 (fun _ _ => True) (one (fun x => -x))) ∧
  (
  let sats (k : Desk) (w : DeskBits) (xs : List Int) : Desk × Nat :=
    (k.setV (fD w) (xs.map (fun x => BitVec.ofInt 32 (sat32 x))), (xs.map sats32).sum)
  let two (f : Int → Int → Int) (w : DeskBits) (k : Desk) : Desk × Nat :=
    sats k w (((k.vec (fX w)).map BitVec.toInt).zipWith f ((k.vec (fY w)).map BitVec.toInt))
  let one (f : Int → Int) (w : DeskBits) (k : Desk) : Desk × Nat := sats k w (((k.vec (fX w)).map BitVec.toInt).map f)
  CanCompute 0x36 (fun _ _ => True) (fun w k => two (fun x y => rdiv (x * y) (2 ^ (fImm w % 64))) w k)) ∧
  (
  let sats (k : Desk) (w : DeskBits) (xs : List Int) : Desk × Nat :=
    (k.setV (fD w) (xs.map (fun x => BitVec.ofInt 32 (sat32 x))), (xs.map sats32).sum)
  let two (f : Int → Int → Int) (w : DeskBits) (k : Desk) : Desk × Nat :=
    sats k w (((k.vec (fX w)).map BitVec.toInt).zipWith f ((k.vec (fY w)).map BitVec.toInt))
  let one (f : Int → Int) (w : DeskBits) (k : Desk) : Desk × Nat := sats k w (((k.vec (fX w)).map BitVec.toInt).map f)
  CanCompute 0x37 (fun _ _ => True) (fun w k => one (fun x => x * 2 ^ (fImm w % 32)) w k)) ∧
  (
  let sats (k : Desk) (w : DeskBits) (xs : List Int) : Desk × Nat :=
    (k.setV (fD w) (xs.map (fun x => BitVec.ofInt 32 (sat32 x))), (xs.map sats32).sum)
  let two (f : Int → Int → Int) (w : DeskBits) (k : Desk) : Desk × Nat :=
    sats k w (((k.vec (fX w)).map BitVec.toInt).zipWith f ((k.vec (fY w)).map BitVec.toInt))
  let one (f : Int → Int) (w : DeskBits) (k : Desk) : Desk × Nat := sats k w (((k.vec (fX w)).map BitVec.toInt).map f)
  CanCompute 0x38 (fun _ _ => True) (fun w k => one (fun x => rdiv x (2 ^ (fImm w % 32))) w k)) :=
  ⟨⟨15, 0, deskUp {}, _, _, rfl, by unfold State.deskTakes; decide +kernel, by decide +kernel, trivial, rfl⟩,
   ⟨15, 0, deskUp {}, _, _, rfl, by unfold State.deskTakes; decide +kernel, by decide +kernel, trivial, rfl⟩,
   ⟨15, 0, deskUp {}, _, _, rfl, by unfold State.deskTakes; decide +kernel, by decide +kernel, trivial, rfl⟩,
   ⟨15, 0, deskUp {}, _, _, rfl, by unfold State.deskTakes; decide +kernel, by decide +kernel, trivial, rfl⟩,
   ⟨15, 0, deskUp {}, _, _, rfl, by unfold State.deskTakes; decide +kernel, by decide +kernel, trivial, rfl⟩,
   ⟨15, 0, deskUp {}, _, _, rfl, by unfold State.deskTakes; decide +kernel, by decide +kernel, trivial, rfl⟩,
   ⟨15, 0, deskUp {}, _, _, rfl, by unfold State.deskTakes; decide +kernel, by decide +kernel, trivial, rfl⟩,
   ⟨15, 0, deskUp {}, _, _, rfl, by unfold State.deskTakes; decide +kernel, by decide +kernel, trivial, rfl⟩,
   ⟨15, 0, deskUp {}, _, _, rfl, by unfold State.deskTakes; decide +kernel, by decide +kernel, trivial, rfl⟩,
   ⟨15, 0, deskUp {}, _, _, rfl, by unfold State.deskTakes; decide +kernel, by decide +kernel, trivial, rfl⟩,
   ⟨15, 0, deskUp {}, _, _, rfl, by unfold State.deskTakes; decide +kernel, by decide +kernel, trivial, rfl⟩⟩

theorem wit_DeskAccumulatorResults :
  (
  let int (ws : List Word) : List Int := ws.map BitVec.toInt
  let acc (k : Desk) (w : DeskBits) (ps : List Int) : Desk × Nat :=
    let ys := (k.accs (fAC w)).zipWith (· + ·) ps
    (k.setAcc (fAC w) (ys.map satAcc), (ys.map satsAcc).sum)
  CanCompute 0x40 (fun _ _ => True) (fun w k => (k.setAcc (fAC w) (List.replicate 8 0), 0))) ∧
  (
  let int (ws : List Word) : List Int := ws.map BitVec.toInt
  let acc (k : Desk) (w : DeskBits) (ps : List Int) : Desk × Nat :=
    let ys := (k.accs (fAC w)).zipWith (· + ·) ps
    (k.setAcc (fAC w) (ys.map satAcc), (ys.map satsAcc).sum)
  CanCompute 0x41 (fun _ _ => True) (fun w k => acc k w ((int (k.vec (fX w))).zipWith (· * ·) (int (k.vec (fY w)))))) ∧
  (
  let int (ws : List Word) : List Int := ws.map BitVec.toInt
  let acc (k : Desk) (w : DeskBits) (ps : List Int) : Desk × Nat :=
    let ys := (k.accs (fAC w)).zipWith (· + ·) ps
    (k.setAcc (fAC w) (ys.map satAcc), (ys.map satsAcc).sum)
  CanCompute 0x42 (fun _ _ => True) (fun w k => acc k w ((int (k.vec (fX w))).zipWith (fun x y => -(x * y)) (int (k.vec (fY w)))))) ∧
  (
  let int (ws : List Word) : List Int := ws.map BitVec.toInt
  let acc (k : Desk) (w : DeskBits) (ps : List Int) : Desk × Nat :=
    let ys := (k.accs (fAC w)).zipWith (· + ·) ps
    (k.setAcc (fAC w) (ys.map satAcc), (ys.map satsAcc).sum)
  ∃ as bs, CanCompute 0x43 (fun w k => k.addrs (fPA w) 0 8 = some as ∧ as.any k.bad.contains = false ∧ k.addrs (fPB w) 0 8 = some bs ∧ bs.any k.bad.contains = false) (fun w k =>
      let r := acc k w ((int (k.load as)).zipWith (· * ·) (int (k.load bs)))
      ((r.1.bump (fPA w) (fSA w)).bump (fPB w) (fSB w), r.2))) ∧
  (
  let int (ws : List Word) : List Int := ws.map BitVec.toInt
  let acc (k : Desk) (w : DeskBits) (ps : List Int) : Desk × Nat :=
    let ys := (k.accs (fAC w)).zipWith (· + ·) ps
    (k.setAcc (fAC w) (ys.map satAcc), (ys.map satsAcc).sum)
  ∃ hs ts cs, CanCompute 0x44 (fun w k => k.addrs (fPA w) 0 8 = some hs ∧ hs.any k.bad.contains = false ∧ k.addrs (fPA w) 8 8 = some ts ∧
      k.addrs (fPB w) 0 (if fI w then 1 else 8) = some cs ∧ cs.any k.bad.contains = false) (fun w k =>
      let c := if fI w then List.replicate 8 ((k.load cs).getD 0 0) else k.load cs
      let r := acc k w ((int (k.load hs)).zipWith (· * ·) (int c))
      (((r.1.store ts (k.load hs)).bump (fPA w) (fSA w)).bump (fPB w) (fSB w), r.2))) ∧
  (
  let int (ws : List Word) : List Int := ws.map BitVec.toInt
  let acc (k : Desk) (w : DeskBits) (ps : List Int) : Desk × Nat :=
    let ys := (k.accs (fAC w)).zipWith (· + ·) ps
    (k.setAcc (fAC w) (ys.map satAcc), (ys.map satsAcc).sum)
  CanCompute 0x45 (fun _ _ => True) (fun w k =>
      let xs := (k.accs (fAC w)).map (fun x => rdiv x (2 ^ (fImm w % 64)))
      (k.setV (fD w) (xs.map (fun x => BitVec.ofInt 32 (sat32 x))), (xs.map sats32).sum))) ∧
  (
  let int (ws : List Word) : List Int := ws.map BitVec.toInt
  let acc (k : Desk) (w : DeskBits) (ps : List Int) : Desk × Nat :=
    let ys := (k.accs (fAC w)).zipWith (· + ·) ps
    (k.setAcc (fAC w) (ys.map satAcc), (ys.map satsAcc).sum)
  CanCompute 0x48 (fun w _ => fI w) (fun w k => (k.setS (fD w) (minRsb (k.sreg (fD w)) (k.vec (fX w))), 0))) ∧
  (
  let int (ws : List Word) : List Int := ws.map BitVec.toInt
  let acc (k : Desk) (w : DeskBits) (ps : List Int) : Desk × Nat :=
    let ys := (k.accs (fAC w)).zipWith (· + ·) ps
    (k.setAcc (fAC w) (ys.map satAcc), (ys.map satsAcc).sum)
  ∃ as, CanCompute 0x48 (fun w k => fI w = false ∧ k.addrs (fPA w) 0 8 = some as ∧ as.any k.bad.contains = false) (fun w k => ((k.setS (fD w) (minRsb (k.sreg (fD w)) (k.load as))).bump (fPA w) (fSA w), 0))) ∧
  (
  let int (ws : List Word) : List Int := ws.map BitVec.toInt
  let acc (k : Desk) (w : DeskBits) (ps : List Int) : Desk × Nat :=
    let ys := (k.accs (fAC w)).zipWith (· + ·) ps
    (k.setAcc (fAC w) (ys.map satAcc), (ys.map satsAcc).sum)
  ∃ as bs ts, CanCompute 0x49 (fun w k => fieldOf w 8 2 ≠ 3 ∧ k.addrs (fPA w) 0 8 = some as ∧ as.any k.bad.contains = false ∧
      k.addrs (fPB w) 0 8 = some bs ∧ bs.any k.bad.contains = false ∧ k.addrs (fX w % 8) 0 8 = some ts ∧ ts.any k.bad.contains = false) (fun w k =>
      let at_ (l : List Word) (i : Nat) : Int := (l.getD i 0).toInt
      let rs := (List.range 4).map (butterfly (fieldOf w 8 2) (at_ (k.load as)) (at_ (k.load bs)) (at_ (k.load ts)))
      let xa := (rs.map Prod.fst).flatten
      let xb := (rs.map Prod.snd).flatten
      let out (xs : List Int) : List Word := xs.map (fun x => BitVec.ofInt 32 (sat32 x))
      let k1 := k.setS (fD w) (minRsb (k.sreg (fD w)) (out xa ++ out xb))
      (((((k1.store as (out xa)).store bs (out xb)).bump (fPA w) (fSA w)).bump (fPB w) (fSB w)).bump (fX w % 8) (signed 8 (fieldOf w 0 8)),
        ((xa ++ xb).map sats32).sum))) :=
  ⟨⟨15, 0, deskUp {}, _, _, rfl, by unfold State.deskTakes; decide +kernel, by decide +kernel, trivial, rfl⟩,
   ⟨15, 0, deskUp {}, _, _, rfl, by unfold State.deskTakes; decide +kernel, by decide +kernel, trivial, rfl⟩,
   ⟨15, 0, deskUp {}, _, _, rfl, by unfold State.deskTakes; decide +kernel, by decide +kernel, trivial, rfl⟩,
   ⟨List.range 8, List.range 8, 15, 0, deskUp {}, _, _, rfl, by unfold State.deskTakes; decide +kernel, by decide +kernel, by decide +kernel, rfl⟩,
   ⟨List.range 8, (List.range 8).map (8 + ·), List.range 8, 15, 0, deskUp {}, _, _, rfl, by unfold State.deskTakes; decide +kernel, by decide +kernel, by decide +kernel, rfl⟩,
   ⟨15, 0, deskUp {}, _, _, rfl, by unfold State.deskTakes; decide +kernel, by decide +kernel, trivial, rfl⟩,
   ⟨15, BitVec.ofNat 56 (2 ^ 32), deskUp {}, _, _, rfl, by unfold State.deskTakes; decide +kernel, by decide +kernel, by decide +kernel, rfl⟩,
   ⟨List.range 8, 15, 0, deskUp {}, _, _, rfl, by unfold State.deskTakes; decide +kernel, by decide +kernel, by decide +kernel, rfl⟩,
   ⟨List.range 8, List.range 8, List.range 8, 15, 0, deskUp {}, _, _, rfl, by unfold State.deskTakes; decide +kernel, by decide +kernel, by decide +kernel, rfl⟩⟩

theorem wit_DeskControlResults :
  (CanSteer 0x02 (fun d w s => condition (fD w) ((s.desk d).sreg (fX w)) ((s.desk d).sreg (fY w)) = some true) (fun d w r s => s.setDesk d ((s.desk d).after 0x02 r w ((s.desk d).branch (fImm w)) 2))) ∧
  (CanCompute 0x02 (fun w k => condition (fD w) (k.sreg (fX w)) (k.sreg (fY w)) = some false) (fun _ k => (k, 0))) ∧
  (CanSteer 0x03 (fun d _ s => (s.desk d).calls.length < 8 ∧ (s.desk d).pc + 1 < 65536) (fun d w r s => s.setDesk d ((s.desk d).after 0x03 r w { s.desk d with calls := ((s.desk d).pc + 1) :: (s.desk d).calls, pc := fImm w } 0))) ∧
  (∃ a rest, CanSteer 0x04 (fun d _ s => (s.desk d).calls = a :: rest) (fun d w r s => s.setDesk d ((s.desk d).after 0x04 r w { s.desk d with calls := rest, pc := a } 0))) ∧
  (CanSteer 0x05 (fun d w s => (s.desk d).pc < fieldOf w 0 16 ∧ (s.desk d).loops.length < 4 ∧ (if fX w = 0 then fieldOf w 16 16 else fieldOf ((s.desk d).sreg (fX w)) 0 16) ≠ 0) (fun d w r s => s.setDesk d ((s.desk d).after 0x05 r w { s.desk d with loops := ((s.desk d).pc + 1, fieldOf w 0 16, if fX w = 0 then fieldOf w 16 16 else fieldOf ((s.desk d).sreg (fX w)) 0 16) :: (s.desk d).loops, pc := (s.desk d).pc + 1 } 0))) ∧
  (∃ k1, CanSteer 0x06 (fun d w s => fX w = 0 ∧ fImm w = 0 ∧ ∀ r, deskRow 0x06 = some r → ((s.desk d).after 0x06 r w (s.desk d) 0).advance = some k1) (fun d _ _ s => s.deskNext d k1)) ∧
  (∃ k1, CanSteer 0x07 (fun d w s => ∀ r, deskRow 0x07 = some r → ((s.desk d).after 0x07 r w (s.desk d) 0).advance = some k1) (fun d _ _ s => (s.setDesk d { k1 with st := .halted, passBrk := false }).evt Reg.DSK_DESK_EVT 1)) ∧
  (CanSteer 0x01 (fun _ _ _ => True) (fun d w r s => (s.setDesk d ((s.desk d).after 0x01 r w (s.desk d) 0)).retireTask d)) ∧
  (∃ t m, CanSteer 0x08 (fun d w s => t = fieldOf ((s.desk d).sreg (fX w)) 0 8 ∧ m = (s.desk d).sreg (fY w) ∧ m ≠ 0 ∧ (s.task t).isSome ∧ s.canPost t m) (fun d w r s => (s.applyPost t m).deskNext d ((s.desk d).after 0x08 r w (s.desk d) 0))) ∧
  (∃ t m, CanSteer 0x08 (fun d w s => t = fieldOf ((s.desk d).sreg (fX w)) 0 8 ∧ m = (s.desk d).sreg (fY w) ∧ m ≠ 0 ∧ (s.task t).isSome ∧ s.canPost t m = false) (fun d w r s => ((s.setDesk d { (s.desk d).after 0x08 r w (s.desk d) 0 with sigWait := true }).hold (.desk d) t m).count (dskReg Reg.DSK_Dn_SIG_STALLS d) 1)) ∧
  (∃ n o, CanSteer 0x50 (fun d w s => n = ((s.desk d).sreg (fY w)).toNat ∧ o = ((s.desk d).sreg (fX w)).toNat ∧ 0 < n ∧ n ≤ 16384 ∧ (s.desk d).ptr (fPA w) + n ≤ 131072 ∧ 4 * (o + n) ≤ s.spillSize d) (fun d w r s => s.deskNext d { (s.desk d).after 0x50 r w (s.desk d) 0 with xfer := some { spill := fI w, loc := (s.desk d).ptr (fPA w), off := o, todo := List.range n, len := n } })) ∧
  (CanCompute 0x51 (fun _ k => k.xfer = none) (fun _ k => (k, 0))) :=
  ⟨⟨15, 0, deskUp {}, _, rfl, by unfold State.deskTakes; decide +kernel, by decide +kernel, by decide +kernel⟩,
   ⟨15, BitVec.ofNat 56 (2 * 2 ^ 51), deskUp {}, _, _, rfl, by unfold State.deskTakes; decide +kernel, by decide +kernel, by decide +kernel, rfl⟩,
   ⟨15, 0, deskUp {}, _, rfl, by unfold State.deskTakes; decide +kernel, by decide +kernel, by decide +kernel⟩,
   ⟨7, [], 15, 0, deskUp { calls := [7] }, _, rfl, by unfold State.deskTakes; decide +kernel, by decide +kernel, by decide +kernel⟩,
   ⟨15, BitVec.ofNat 56 (2 ^ 16 + 1), deskUp {}, _, rfl, by unfold State.deskTakes; decide +kernel, by decide +kernel, by decide +kernel⟩,
   ⟨deskNextOf 0x06 (deskUp {}), 15, 0, deskUp {}, _, rfl, by unfold State.deskTakes; decide +kernel, by decide +kernel, by decide +kernel, by decide +kernel, fun r h => by cases h; decide +kernel⟩,
   ⟨deskNextOf 0x07 (deskUp {}), 15, 0, deskUp {}, _, rfl, by unfold State.deskTakes; decide +kernel, by decide +kernel, fun r h => by cases h; decide +kernel⟩,
   ⟨15, 0, deskUp {}, _, rfl, by unfold State.deskTakes; decide +kernel, by decide +kernel, trivial⟩,
   ⟨0, 1, 15, BitVec.ofNat 56 (2 ^ 41), { deskUp { s := [0, 1] } with tasks := { up.tasks with tasks := [(0, { cfg := {} })] } }, _, rfl, by unfold State.deskTakes; decide +kernel, by decide +kernel, by decide +kernel⟩,
   ⟨0, 1, 15, BitVec.ofNat 56 (2 ^ 41), { deskUp { s := [0, 1] } with tasks := { up.tasks with tasks := [(0, { cfg := {}, pending := 1 })] } }, _, rfl, by unfold State.deskTakes; decide +kernel, by decide +kernel, by decide +kernel⟩,
   ⟨1, 0, 15, BitVec.ofNat 56 (2 ^ 41), ((deskUp { s := [0, 1] }).setReg (dskReg Reg.DSK_Dn_SPILL_BASE_LO 15) 0x4000000).setReg (dskReg Reg.DSK_Dn_SPILL_SIZE 15) 64, _, rfl, by unfold State.deskTakes; decide +kernel, by decide +kernel, by decide +kernel⟩,
   ⟨15, 0, deskUp {}, _, _, rfl, by unfold State.deskTakes; decide +kernel, by decide +kernel, by decide +kernel, rfl⟩⟩

theorem wit_DeskFaultsStopTheTask :
  (CanSteer 0x04 (fun d _ s => (s.desk d).calls = []) (fun d _ _ s => s.deskFault d 3)) ∧
  (CanSteer 0x03 (fun d _ s => 8 ≤ (s.desk d).calls.length) (fun d _ _ s => s.deskFault d 3)) ∧
  (CanSteer 0x1A (fun d w s => (s.desk d).addrs (fPA w) 0 1 = none) (fun d _ _ s => s.deskFault d 2)) ∧
  (∃ as, CanSteer 0x1A (fun d w s => (s.desk d).addrs (fPA w) 0 1 = some as ∧ as.any (s.desk d).bad.contains) (fun d _ _ s => s.deskFault d 6)) ∧
  (CanSteer 0x06 (fun d w s => fX w ≠ 0 ∧ 4096 < ((s.desk d).sreg (fX w)).toNat) (fun d _ _ s => s.deskFault d 4)) ∧
  (CanSteer 0x50 (fun d w s => (s.desk d).ptr (fPA w) + ((s.desk d).sreg (fY w)).toNat ≤ 131072 ∧ s.spillSize d < 4 * (((s.desk d).sreg (fX w)).toNat + ((s.desk d).sreg (fY w)).toNat)) (fun d _ _ s => s.deskFault d 5)) ∧
  (CanSteer 0x05 (fun d w s => fieldOf w 0 16 ≤ (s.desk d).pc) (fun d _ _ s => s.deskFault d 1)) ∧
  (∃ (d : Fin 16), ∃ w, Can (.dNop d w) (fun s => (s.desk d.val).st = .running ∧ (s.desk d.val).sigWait = false ∧ s.brkHit d.val (s.desk d.val).pc = false ∧ (s.desk d.val).bad = [] ∧ strayBits [] w ∧ (deskRow ((s.desk d.val).fetchAt (s.desk d.val).pc).1).isSome ∧ (s.deskFault d.val 1).underLimit d.val)) ∧
  (∃ (d : Fin 16), ∃ w, Can (.dNop d w) (fun s => (s.desk d.val).st = .running ∧ (s.desk d.val).sigWait = false ∧ s.brkHit d.val (s.desk d.val).pc = false ∧ (s.desk d.val).bad = [] ∧ deskRow ((s.desk d.val).fetchAt (s.desk d.val).pc).1 = none ∧ (s.deskFault d.val 1).underLimit d.val)) ∧
  (∃ (d : Fin 16), ∃ w, ∃ r, ∃ k2, Can (.dNop d w) (fun s => deskRow 0 = some r ∧ s.deskTakes d.val r w ∧ ((s.desk d.val).after 0 r w (s.desk d.val) 0).advance = some k2 ∧ ((s.count (dskReg Reg.DSK_Dn_SAT d.val) 0).setDesk d.val k2).underLimit d.val = false)) ∧
  (∃ d : Fin 16, Can (.runaway d) (fun s => (s.desk d.val).st = .running ∧ s.reg (dskReg Reg.DSK_Dn_RUN_LIMIT d.val) ≠ 0 ∧ ((s.reg (dskReg Reg.DSK_Dn_RUN_LIMIT d.val)).toNat ≤ (s.desk d.val).cycles ∨ (s.desk d.val).sigWait ∨ (s.desk d.val).xferWait))) ∧
  (∃ (s : State) (d : Nat), d < s.desks.length ∧ (s.desk d).task = none) :=
  ⟨⟨15, 0, deskUp {}, _, rfl, by unfold State.deskTakes; decide +kernel, by decide +kernel, by decide +kernel⟩,
   ⟨15, 0, deskUp { calls := List.replicate 8 0 }, _, rfl, by unfold State.deskTakes; decide +kernel, by decide +kernel, by decide +kernel⟩,
   ⟨15, BitVec.ofNat 56 (2 ^ 38), deskUp { p := [0, 131072] }, _, rfl, by unfold State.deskTakes; decide +kernel, by decide +kernel, by decide +kernel⟩,
   ⟨[5], 15, BitVec.ofNat 56 (2 ^ 38), deskUp { p := [0, 5], bad := [5] }, _, rfl, by unfold State.deskTakes; decide +kernel, by decide +kernel, by decide +kernel⟩,
   ⟨15, BitVec.ofNat 56 (2 ^ 46), deskUp { s := [0, 4097] }, _, rfl, by unfold State.deskTakes; decide +kernel, by decide +kernel, by decide +kernel⟩,
   ⟨15, BitVec.ofNat 56 (2 ^ 41), deskUp { s := [0, 1] }, _, rfl, by unfold State.deskTakes; decide +kernel, by decide +kernel, by decide +kernel⟩,
   ⟨15, 0, deskUp {}, _, rfl, by unfold State.deskTakes; decide +kernel, by decide +kernel, by decide +kernel⟩,
   ⟨15, 1, deskUp {}, by decide +kernel⟩,
   ⟨15, 0, deskUp { mem := [(1, 0xFF000000)] }, by decide +kernel⟩,
   ⟨15, 0, _, _, (deskUp { task := some 1 }).setReg (dskReg Reg.DSK_Dn_RUN_LIMIT 15) 1, rfl, by unfold State.deskTakes; decide +kernel, rfl, by decide +kernel⟩,
   ⟨15, (deskUp { cycles := 5 }).setReg (dskReg Reg.DSK_Dn_RUN_LIMIT 15) 5, by decide +kernel⟩,
   ⟨up, 15, by decide +kernel⟩⟩

theorem wit_DeskDebugActs :
  (∃ d : Fin 16, Can (.deskHalt d) (fun s => s.pwr.mode.awake ∧ ((s.desk d.val).st = .running ∨ (s.desk d.val).st = .idle))) ∧
  (∃ d : Fin 16, Can (.deskRun d) (fun s => s.pwr.mode.awake ∧ (s.desk d.val).st = .halted ∧ (s.desk d.val).task.isSome)) ∧
  (∃ d : Fin 16, Can (.deskRun d) (fun s => s.pwr.mode.awake ∧ (s.desk d.val).st = .halted ∧ (s.desk d.val).task = none)) ∧
  (∃ d : Fin 16, Can (.deskStep d) (fun s => s.pwr.mode.awake ∧ (s.desk d.val).st = .halted ∧ (s.desk d.val).task.isSome ∧ (s.desk d.val).sigWait = false ∧
      (s.desk d.val).stepWait = false)) ∧
  (∃ d : Fin 16, Can (.deskClear d) (fun s => s.pwr.mode.awake ∧ (s.desk d.val).st = .fault)) ∧
  (∃ (d : Fin 16), ∃ v, Can (.deskEnableWrite d v) (fun s => s.pwr.mode.awake ∧ bitOf v 0 ∧ (s.desk d.val).st = .off ∧ fieldOf v 1 2 = (s.desk d.val).group)) ∧
  (∃ (d : Fin 16), ∃ v, Can (.deskEnableWrite d v) (fun s => s.pwr.mode.awake ∧ bitOf v 0 = false ∧ (s.desk d.val).st = .idle ∧ fieldOf v 1 2 = (s.desk d.val).group)) ∧
  (∃ (d : Fin 16), ∃ v, Can (.deskPcWrite d v) (fun s => s.pwr.mode.awake ∧ (s.desk d.val).st = .halted)) ∧
  (∃ (d : Fin 16), ∃ v, Can (.deskDbgDataWrite d v) (fun s => s.pwr.mode.awake ∧ (s.desk d.val).st = .halted)) ∧
  (∃ (d : Fin 16), ∃ v, Can (.deskPcWrite d v) (fun s => (s.desk d.val).st ≠ .halted)) ∧
  (∃ (d : Fin 16), ∃ v, Can (.deskDbgDataWrite d v) (fun s => (s.desk d.val).st ≠ .halted)) ∧
  (∃ (d : Fin 16), ∃ x, Can (.xferComplete d []) (fun s => (s.desk d.val).xfer = some x ∧ (s.desk d.val).stepWait = false)) ∧
  (∃ (d : Fin 16), ∃ x, ∃ b, Can (.xferComplete d [b]) (fun s => (s.desk d.val).xfer = some x ∧ (s.desk d.val).stepWait = false ∧ x.spill = false ∧ b < x.len)) :=
  ⟨⟨15, deskUp {}, by decide +kernel⟩,
   ⟨15, up.setDesk 15 { st := .halted, task := some 1 }, by decide +kernel⟩,
   ⟨15, up.setDesk 15 { st := .halted }, by decide +kernel⟩,
   ⟨15, up.setDesk 15 { st := .halted, task := some 1 }, by decide +kernel⟩,
   ⟨15, up.setDesk 15 { st := .fault }, by decide +kernel⟩,
   ⟨15, 1, up, by decide +kernel⟩,
   ⟨15, 0, up.setDesk 15 { st := .idle }, by decide +kernel⟩,
   ⟨15, 0, up.setDesk 15 { st := .halted }, by decide +kernel⟩,
   ⟨15, 0, up.setDesk 15 { st := .halted }, by decide +kernel⟩,
   ⟨15, 0, up, by decide +kernel⟩,
   ⟨15, 0, up, by decide +kernel⟩,
   ⟨15, ⟨false, 0, 0, [], 0⟩, up.setDesk 15 { xfer := some ⟨false, 0, 0, [], 0⟩ }, by decide +kernel⟩,
   ⟨15, ⟨false, 0, 0, [], 1⟩, 0, up.setDesk 15 { xfer := some ⟨false, 0, 0, [], 1⟩ }, by decide +kernel⟩⟩

theorem wit_DmaInstructionsAct :
  (
  let takes (c : Fin 32) (op : Nat) (ins : DmaBits) (s : State) : Prop :=
    (s.dch c.val).ready ∧ fieldOf ins 0 8 = op ∧ s.dmaFetchFault c.val = none
  let got (c : Fin 32) (s : State) : State := s.setDch c.val { s.dch c.val with afterMove := false }
  ∃ c ins, Can (.dmaMove c ins) (fun s =>
      let p := movePlan ins ((got c s).dch c.val).iter
      takes c 1 ins s ∧ moveOk ins ∧ p.1.len % 4 = 0 ∧ (got c s).sideOk c.val p.1.srcSpace p.2.1 p.1.len p.1.srcFixed false ∧
      (got c s).sideOk c.val p.1.dstSpace p.2.2 p.1.len p.1.dstFixed true ∧
      (got c s).spaceDown p.1.srcSpace = none ∧ (got c s).spaceDown p.1.dstSpace = none)) ∧
  (
  let takes (c : Fin 32) (op : Nat) (ins : DmaBits) (s : State) : Prop :=
    (s.dch c.val).ready ∧ fieldOf ins 0 8 = op ∧ s.dmaFetchFault c.val = none
  let got (c : Fin 32) (s : State) : State := s.setDch c.val { s.dch c.val with afterMove := false }
  ∃ c ins, Can (.dmaLoop c ins) (fun s => takes c 2 ins s ∧ loopOk ins ∧ fieldOf ins 32 32 = 0)) ∧
  (
  let takes (c : Fin 32) (op : Nat) (ins : DmaBits) (s : State) : Prop :=
    (s.dch c.val).ready ∧ fieldOf ins 0 8 = op ∧ s.dmaFetchFault c.val = none
  let got (c : Fin 32) (s : State) : State := s.setDch c.val { s.dch c.val with afterMove := false }
  ∃ c ins, Can (.dmaLoop c ins) (fun s => takes c 2 ins s ∧ loopOk ins ∧ fieldOf ins 32 32 ≠ 0 ∧ ((got c s).dch c.val).loops.length < 2)) ∧
  (
  let takes (c : Fin 32) (op : Nat) (ins : DmaBits) (s : State) : Prop :=
    (s.dch c.val).ready ∧ fieldOf ins 0 8 = op ∧ s.dmaFetchFault c.val = none
  let got (c : Fin 32) (s : State) : State := s.setDch c.val { s.dch c.val with afterMove := false }
  ∃ c ins t, Can (.dmaWait c ins) (fun s => takes c 3 ins s ∧ waitOk ins ∧ fieldOf ins 8 8 = 0 ∧
      t = (((fieldOf ins 64 64 : Int) + ((got c s).dch c.val).iter * signed 64 (fieldOf ins 128 64)) % 2 ^ 64).toNat ∧ s.valid ∧ t ≤ s.msc)) ∧
  (
  let takes (c : Fin 32) (op : Nat) (ins : DmaBits) (s : State) : Prop :=
    (s.dch c.val).ready ∧ fieldOf ins 0 8 = op ∧ s.dmaFetchFault c.val = none
  let got (c : Fin 32) (s : State) : State := s.setDch c.val { s.dch c.val with afterMove := false }
  ∃ c ins t, Can (.dmaWait c ins) (fun s => takes c 3 ins s ∧ waitOk ins ∧ fieldOf ins 8 8 = 0 ∧
      t = (((fieldOf ins 64 64 : Int) + ((got c s).dch c.val).iter * signed 64 (fieldOf ins 128 64)) % 2 ^ 64).toNat ∧ s.msc < t)) ∧
  (
  let takes (c : Fin 32) (op : Nat) (ins : DmaBits) (s : State) : Prop :=
    (s.dch c.val).ready ∧ fieldOf ins 0 8 = op ∧ s.dmaFetchFault c.val = none
  let got (c : Fin 32) (s : State) : State := s.setDch c.val { s.dch c.val with afterMove := false }
  ∃ c ins, Can (.dmaSignal c ins) (fun s => takes c 4 ins s ∧ signalOk ins ∧ (s.task (fieldOf ins 16 16)).isSome ∧ s.canPost (fieldOf ins 16 16) (word (fieldOf ins 32 32)))) ∧
  (
  let takes (c : Fin 32) (op : Nat) (ins : DmaBits) (s : State) : Prop :=
    (s.dch c.val).ready ∧ fieldOf ins 0 8 = op ∧ s.dmaFetchFault c.val = none
  let got (c : Fin 32) (s : State) : State := s.setDch c.val { s.dch c.val with afterMove := false }
  ∃ c ins, Can (.dmaSignal c ins) (fun s => takes c 4 ins s ∧ signalOk ins ∧ (s.task (fieldOf ins 16 16)).isSome ∧
      s.canPost (fieldOf ins 16 16) (word (fieldOf ins 32 32)) = false)) ∧
  (
  let takes (c : Fin 32) (op : Nat) (ins : DmaBits) (s : State) : Prop :=
    (s.dch c.val).ready ∧ fieldOf ins 0 8 = op ∧ s.dmaFetchFault c.val = none
  let got (c : Fin 32) (s : State) : State := s.setDch c.val { s.dch c.val with afterMove := false }
  ∃ c ins, Can (.dmaSignal c ins) (fun s => takes c 4 ins s ∧ signalOk ins ∧ s.task (fieldOf ins 16 16) = none)) ∧
  (
  let takes (c : Fin 32) (op : Nat) (ins : DmaBits) (s : State) : Prop :=
    (s.dch c.val).ready ∧ fieldOf ins 0 8 = op ∧ s.dmaFetchFault c.val = none
  let got (c : Fin 32) (s : State) : State := s.setDch c.val { s.dch c.val with afterMove := false }
  ∃ c ins, Can (.dmaJump c ins) (fun s => takes c 5 ins s ∧ fieldOf ins 8 24 = 0 ∧ fieldOf ins 32 32 ≠ 0)) :=
  ⟨⟨31, BitVec.ofNat 256 (1 + 4 * 2 ^ 8 + 4 * 2 ^ 32), dmaUp 31 { st := .running }, by decide +kernel⟩,
   ⟨31, BitVec.ofNat 256 (2 + 4096 * 2 ^ 16), dmaUp 31 { st := .running }, by decide +kernel⟩,
   ⟨31, BitVec.ofNat 256 (2 + 2 ^ 16 + 5 * 2 ^ 32), dmaUp 31 { st := .running }, by decide +kernel⟩,
   ⟨31, BitVec.ofNat 256 (3 + 1024 * 2 ^ 64), 1024, dmaUp 31 { st := .running }, by decide +kernel⟩,
   ⟨31, BitVec.ofNat 256 (3 + 1025 * 2 ^ 64), 1025, dmaUp 31 { st := .running }, by decide +kernel⟩,
   ⟨31, BitVec.ofNat 256 (4 + 255 * 2 ^ 16 + 2 ^ 32), { dmaUp 31 { st := .running } with tasks := { up.tasks with tasks := [(255, { cfg := {} })] } }, by decide +kernel⟩,
   ⟨31, BitVec.ofNat 256 (4 + 255 * 2 ^ 16 + 2 ^ 32), { dmaUp 31 { st := .running } with tasks := { up.tasks with tasks := [(255, { cfg := {}, pending := 1 })] } }, by decide +kernel⟩,
   ⟨31, BitVec.ofNat 256 (4 + 255 * 2 ^ 16 + 2 ^ 32), dmaUp 31 { st := .running }, by decide +kernel⟩,
   ⟨31, BitVec.ofNat 256 (5 + (2 ^ 32 - 1) * 2 ^ 32), dmaUp 31 { st := .running }, by decide +kernel⟩⟩

theorem wit_DmaChannelsStartAndStop :
  (∃ c ins, Can (.dmaEnd c ins) (fun s => (s.dch c.val).ready ∧ fieldOf ins 0 8 = 0 ∧ s.dmaFetchFault c.val = none)) ∧
  (∃ (c : Fin 32) (s : State), (s.dch c.val).shadowValid) ∧
  (∃ (c : Fin 32) (s : State), (s.dch c.val).shadowValid = false ∧ (s.dch c.val).dbPending) ∧
  (∃ (c : Fin 32) (s : State), c.val < s.dma.length ∧ (s.dch c.val).shadowValid = false ∧ (s.dch c.val).dbPending = false) ∧
  (∃ c, Can (.dmaDoorbell c) (fun s => s.pwr.mode.awake ∧ c.val < 28 ∧ s.runs ∧ ((s.dch c.val).st = .idle ∨ (s.dch c.val).st = .fault))) ∧
  (∃ c, Can (.dmaDoorbell c) (fun s => s.pwr.mode.awake ∧ c.val < 28 ∧ s.runs ∧ (s.dch c.val).st = .idleAtEnd)) ∧
  (∃ c, Can (.dmaDoorbell c) (fun s => s.pwr.mode.awake ∧ c.val < 28 ∧ s.runs ∧ (s.dch c.val).live)) ∧
  (∃ c, Can (.dmaCtlAbort c) (fun s => s.pwr.mode.awake ∧ c.val < 28)) ∧
  (∃ c, Can (.dmaCtlAbort c) (fun s => s.pwr.mode.awake ∧ 28 ≤ c.val)) ∧
  (∃ c x, Can (.dmaStop c x) (fun s => (s.dch c.val).aborting ∧ (s.dch c.val).late = false ∧ (s.dch c.val).st ≠ .running)) ∧
  (∃ c x, Can (.dmaStop c x) (fun s => (s.dch c.val).aborting ∧ (s.dch c.val).late ∧ s.dmaFetchFault c.val = none ∧ s.dmaOpAt (s.dch c.val) x.hostData = 0)) ∧
  (∃ c x, Can (.dmaPauseEffect c x) (fun s => (s.dch c.val).pausing ∧ (s.dch c.val).aborting = false ∧ (s.dch c.val).st = .running ∧ (s.moveOn c.val x.moved x.hostData).2 = none)) ∧
  (∃ c x m, Can (.dmaMoveComplete c x) (fun s =>
      let k := s.dch c.val
      let r := s.moveOn c.val m.len x.hostData
      k.move = some m ∧ k.st = .running ∧ k.aborting = false ∧ k.pausing = false ∧ s.spaceDown m.srcSpace = none ∧
      s.spaceDown m.dstSpace = none ∧ x.failedAt = none ∧ r.2 = none ∧ (r.1.dch c.val).aborting = false ∧ (r.1.dch c.val).pausing = false)) ∧
  (∃ c w, Can (.dmaWaitSatisfied c) (fun s => (s.dch c.val).wait = some w ∧ (s.dch c.val).st = .waiting ∧ (s.dch c.val).aborting = false ∧ (s.dmaHolds c.val w).1)) ∧
  (∃ c m hi, Can (.dmaNextPcWrite c m hi false) (fun s => s.pwr.mode.awake ∧ c.val < 28)) ∧
  (∃ c m hi, Can (.dmaNextPcWrite c m hi true) (fun s => s.pwr.mode.awake ∧ c.val < 28)) ∧
  (∃ v, Can (.dmaModeWrite v) (fun s => s.pwr.mode.awake ∧ s.dma.any DmaChan.live = false)) ∧
  (∃ v, Can (.dmaModeWrite v) (fun s => s.pwr.mode.awake ∧ s.dma.any DmaChan.live)) :=
  ⟨⟨31, 0, dmaUp 31 { st := .running }, by decide +kernel⟩,
   ⟨31, dmaUp 31 { shadowValid := true }, by decide +kernel⟩,
   ⟨31, dmaUp 31 { dbPending := true }, by decide +kernel⟩,
   ⟨31, up, by decide +kernel⟩,
   ⟨27, up, by decide +kernel⟩,
   ⟨27, dmaUp 27 { st := .idleAtEnd }, by decide +kernel⟩,
   ⟨27, dmaUp 27 { st := .paused }, by decide +kernel⟩,
   ⟨27, up, by decide +kernel⟩,
   ⟨28, up, by decide +kernel⟩,
   ⟨31, ⟨[], 0⟩, dmaUp 31 { st := .waiting, aborting := true }, by decide +kernel⟩,
   ⟨31, ⟨[], 0⟩, dmaUp 31 { st := .running, aborting := true, late := true }, by decide +kernel⟩,
   ⟨31, ⟨[], 0⟩, dmaUp 31 { st := .running, pausing := true }, by decide +kernel⟩,
   ⟨31, ⟨[], none⟩, ⟨4, 0, false, false, 4, 0, 0, 7, 0⟩, dmaUp 31 { st := .running, move := some ⟨4, 0, false, false, 4, 0, 0, 7, 0⟩ }, by decide +kernel⟩,
   ⟨31, .msc 1024, dmaUp 31 { st := .waiting, wait := some (.msc 1024) }, by decide +kernel⟩,
   ⟨27, .host, 0, up, by decide +kernel⟩,
   ⟨27, .host, 0, up, by decide +kernel⟩,
   ⟨0, up, by decide +kernel⟩,
   ⟨0, dmaUp 31 { st := .running }, by decide +kernel⟩⟩

theorem wit_TimeBasesFollowTheirSources :
  (∃ n : Fin 4, Can (.timeBaseLocked n) (fun s => (s.tb n.val).st = .acquiring ∧ 8 ≤ (s.tb n.val).good ∧ s.clock.media.active ≠ n)) ∧
  (∃ n : Fin 4, Can (.timeBaseLocked n) (fun s => (s.tb n.val).st = .acquiring ∧ 8 ≤ (s.tb n.val).good ∧ n.val < s.clock.tb.length)) ∧
  (∃ n : Fin 4, Can (.timeBaseLocked n) (fun s => (s.tb n.val).good < 8)) ∧
  (∃ n : Fin 4, Can (.timeBaseUnlock n) (fun s => (s.tb n.val).st = .locked ∧ 4 ≤ (s.tb n.val).bad ∧ s.clock.media.active ≠ n)) ∧
  (∃ n : Fin 4, Can (.sourceLost n) (fun s => ((s.tb n.val).st = .acquiring ∨ (s.tb n.val).st = .locked) ∧ s.clock.media.active ≠ n ∧ s.primaryTb ≠ n.val ∧ s.tbSource n.val ≠ 4 ∧ s.silent n.val)) ∧
  (∃ n : Fin 4, Can (.sourceLost n) (fun s => ((s.tb n.val).st = .acquiring ∨ (s.tb n.val).st = .locked) ∧ n.val < s.clock.tb.length ∧ s.tbSource n.val ≠ 4 ∧ s.silent n.val)) ∧
  (∃ n, Can .ppsInPulse (fun s => s.tbWith 2 = some n)) ∧
  (∃ n d, Can (.wclkMeasurement d) (fun s => s.tbWith 3 = some n)) ∧
  (∃ (s : State) (n : Nat) (off : Int), (s.tb n).st = .acquiring ∧ 50000 * 65536 < off.natAbs) ∧
  (∃ (n : Fin 4), ∃ v, ∃ src, Can (.tmbTbCfgWrite n v) (fun s => s.pwr.mode.awake ∧ bitOf v 0 ∧ src = fieldOf (v &&& tbCfgMask) 1 3 ∧ src < 5 ∧ n.val < s.clock.tb.length ∧ (∀ k, k < 4 → k ≠ n.val → (s.tb k).st = .disabled))) ∧
  (∃ (n : Fin 4), ∃ v, Can (.tmbTbCfgWrite n v) (fun s => s.pwr.mode.awake ∧ bitOf v 0 = false ∧ n.val < s.clock.tb.length)) ∧
  (∃ (n : Fin 4), ∃ hi, Can (.tmbSetSecWrite n hi) (fun s => s.pwr.mode.awake ∧ (s.tbSource n.val = 0 ∨ s.tbSource n.val = 2 ∨ s.tbSource n.val = 3))) ∧
  (∃ (n : Fin 4), ∃ x, Can (.wholeSecond n) (fun s => (s.tb n.val).second ∧ (s.tb n.val).setSec = some x ∧ s.ppsOn = false)) ∧
  (∃ n : Fin 4, Can (.wholeSecond n) (fun s => (s.tb n.val).second ∧ s.valid ∧ bitOf (s.reg Reg.TMB_IO_CFG) 4 ∧ fieldOf (s.reg Reg.TMB_IO_CFG) 5 2 = n.val)) ∧
  (Can .ppsWidthEnd (fun s => s.ppsWidth ≤ (s.tb s.ppsTb).tod % second16)) ∧
  (Can .tmbSnapGo (fun s => s.pwr.mode.awake)) ∧
  (Can .atticTimeReload (fun s => s.clock.atticDue)) ∧
  (Can .atticClkPresent (fun _ => True)) ∧
  (Can .atticClkAbsent (fun _ => True)) :=
  ⟨⟨3, tbUp 3 1 { st := .acquiring, good := 8 }, by decide +kernel⟩,
   ⟨3, tbUp 3 1 { st := .acquiring, good := 8 }, by decide +kernel⟩,
   ⟨3, up, by decide +kernel⟩,
   ⟨3, tbUp 3 1 { st := .locked, bad := 4 }, by decide +kernel⟩,
   ⟨3, tbUp 3 2 { st := .locked, run := 2 ^ 80 }, by decide +kernel⟩,
   ⟨3, tbUp 3 2 { st := .locked, run := 2 ^ 80 }, by decide +kernel⟩,
   ⟨3, tbUp 3 2 { st := .locked }, by decide +kernel⟩,
   ⟨3, 0, tbUp 3 3 { st := .locked }, by decide +kernel⟩,
   ⟨tbUp 3 1 { st := .acquiring }, 3, -50000 * 65536 - 1, by decide +kernel⟩,
   ⟨3, 9, 4, up, by decide +kernel, by decide +kernel, by decide +kernel, by decide +kernel, by decide +kernel, by decide +kernel⟩,
   ⟨3, 0, up, by decide +kernel⟩,
   ⟨3, 0, up, by decide +kernel⟩,
   ⟨3, 7, tbUp 3 0 { st := .locked, second := true, setSec := some 7 }, by decide +kernel⟩,
   ⟨3, (tbUp 3 0 { st := .locked, second := true }).setReg Reg.TMB_IO_CFG 0x70, by decide +kernel⟩,
   ⟨up.setTb 0 { tod := 65536 * 1000000000 - 1 }, by decide +kernel⟩,
   ⟨up, by decide +kernel⟩,
   ⟨{ up with clock := { up.clock with atticDue := true } }, by decide +kernel⟩,
   ⟨up, trivial⟩,
   ⟨up, trivial⟩⟩

theorem wit_MediaClockActs :
  (∃ k b r, Can .originStepApply (fun s => s.clock.media.step = some (k, b, r) ∧ s.valid ∧ s.boundary ∧ b ≤ s.msc)) ∧
  (∃ s : State, s.clock.media.unmuteAtStep = false) ∧
  (Can .slewEnd (fun s => s.clock.media.slewLeft = 1)) ∧
  (∃ n, Can .mediaChangeover (fun s => s.boundary ∧ s.msc % 128 = 0 ∧ s.changeoverTo = some n)) ∧
  (∃ s : State, s.mediaBit 5 ∧ s.clock.media.active.val = s.primaryTb ∧ s.secondaryTb ≠ s.primaryTb ∧ (s.tb s.secondaryTb).st = .locked ∧
    (s.mediaBit 6 ∧ s.clock.media.primLost ∨ s.clock.media.force = some true)) ∧
  (∃ s : State, s.clock.media.active.val ≠ s.primaryTb ∧ (s.tb s.primaryTb).st = .locked ∧
    ((s.clock.media.revertDue ∧ s.mediaBit 7) ∨ s.clock.media.force = some false)) ∧
  (Can .revertTimeout (fun s => s.mediaBit 7 ∧ s.clock.media.active.val ≠ s.primaryTb ∧ 10 * s.fs ≤ s.clock.media.primGood)) ∧
  (Can .forceSecondary (fun s => s.pwr.mode.awake)) ∧
  (Can .forcePrimary (fun s => s.pwr.mode.awake)) ∧
  (Can .holdoverExpiry (fun s => s.clock.media.timerOn ∧ s.holdLimit * s.fs ≤ s.clock.media.holdFor * 1000 ∧ s.mediaBit 8 = false)) ∧
  (Can .holdoverExpiry (fun s => s.clock.media.timerOn ∧ s.holdLimit * s.fs ≤ s.clock.media.holdFor * 1000 ∧ s.mediaBit 8)) ∧
  (∃ v, Can (.tmbHoldoverLimitWrite v) (fun s => s.pwr.mode.awake)) ∧
  (∃ v, Can (.tmbOriginWrite v) (fun s => s.pwr.mode.awake ∧ s.valid)) ∧
  (∃ v, Can (.tmbOriginWrite v) (fun s => s.pwr.mode.awake ∧ s.valid = false)) ∧
  (∃ v, Can (.tmbMediaCfgWrite v) (fun s => s.pwr.mode = .setup ∧ s.valid = false)) ∧
  (∃ v, Can (.tmbMediaCfgWrite v) (fun s => (s.pwr.mode = .show_ ∨ s.pwr.mode = .standby) ∧ s.valid)) :=
  ⟨⟨-3, 1024, 0, { up.setMedia { up.clock.media with step := some (-3, 1024, 0) } with boundary := true }, by decide +kernel⟩,
   ⟨up, rfl⟩,
   ⟨up.setMedia { up.clock.media with slewLeft := 1 }, by decide +kernel⟩,
   ⟨0, { ((tbUp 0 0 { st := .locked }).setMedia { up.clock.media with active := 1, revertDue := true }).setReg Reg.TMB_MEDIA_CFG 0x84 with boundary := true }, by decide +kernel⟩,
   ⟨((tbUp 1 0 { st := .locked }).setMedia { up.clock.media with primLost := true }).setReg Reg.TMB_MEDIA_CFG 0x60, by decide +kernel⟩,
   ⟨(tbUp 0 0 { st := .locked }).setMedia { up.clock.media with active := 1, force := some false }, by decide +kernel⟩,
   ⟨(up.setMedia { up.clock.media with active := 1, primGood := 480000 }).setReg Reg.TMB_MEDIA_CFG 0x80, by decide +kernel⟩,
   ⟨up, by decide +kernel⟩,
   ⟨up, by decide +kernel⟩,
   ⟨(up.setMedia { up.clock.media with timerOn := true, holdFor := 60000 * 96 }).setReg Reg.TMB_MEDIA_CFG 0, by decide +kernel⟩,
   ⟨(up.setMedia { up.clock.media with timerOn := true, holdFor := 60000 * 96 }).setReg Reg.TMB_MEDIA_CFG 0x100, by decide +kernel⟩,
   ⟨0, up, by decide +kernel⟩,
   ⟨0, up, by decide +kernel⟩,
   ⟨0, still, by decide +kernel⟩,
   ⟨0, still, by decide +kernel⟩,
   ⟨0, upIn .show_ 1024, by decide +kernel⟩⟩

theorem wit_PtpMessagesAct :
  (∃ (n : Fin 4), ∃ m, Can (.ptpSync n m) (fun s => s.ptpMine n.val m.h ∧ (s.tb n.val).isLeader = false ∧ (s.tb n.val).follows m.h ∧ m.twoStep = false)) ∧
  (∃ (n : Fin 4), ∃ m, Can (.ptpSync n m) (fun s => s.ptpMine n.val m.h ∧ (s.tb n.val).isLeader = false ∧ (s.tb n.val).follows m.h ∧ m.twoStep)) ∧
  (∃ (n : Fin 4), ∃ m, ∃ y, Can (.ptpFollowUp n m) (fun s => (s.tb n.val).sync = some y ∧ s.ptpMine n.val m.h ∧ (s.tb n.val).follows m.h ∧ y.h.seq = m.h.seq)) ∧
  (∃ (n : Fin 4), ∃ m, ∃ q, ∃ (sent : TimeStamp), Can (.ptpDelayResp n m) (fun s => (s.tb n.val).reqOut = some (q, some sent) ∧ s.ptpMine n.val m.h ∧ (s.tb n.val).follows m.h ∧ m.requester = Config.ownIdentity ∧ m.h.seq = q)) ∧
  (∃ (n : Fin 4), ∃ m, Can (.ptpDelayReq n m) (fun s => s.ptpMine n.val m.h ∧ (s.tb n.val).isLeader)) ∧
  (∃ (n : Fin 4), ∃ m, Can (.ptpAnnounce n m) (fun s => s.ptpMine n.val m.h)) ∧
  (∃ (n : Fin 4), ∃ l, Can (.announceReceiptTimeout n) (fun s => (s.tb n.val).leader = some l ∧ s.ptpRuns n.val ∧ ((s.tb n.val).foreign.filter (fun x => !(x.port == l.port && x.source == l.source))) = [] ∧ s.ptpRole n.val = 0 ∧ (s.tb n.val).isLeader = false ∧ (s.tb n.val).waitFrom + s.receiptSpan n.val ≤ (s.tb n.val).run ∧ n.val < s.clock.tb.length)) ∧
  (∃ n : Fin 4, Can (.ptpSyncDue n) (fun s => s.ptpRuns n.val ∧ (s.tb n.val).isLeader)) ∧
  (∃ (n : Fin 4), ∃ l, Can (.ptpDelayReqDue n) (fun s => (s.tb n.val).leader = some l ∧ s.ptpRuns n.val ∧ s.stillHeld l.port n.val .delayReq)) ∧
  (∃ (n : Fin 4), ∃ l, Can (.ptpDelayReqDue n) (fun s => (s.tb n.val).leader = some l ∧ s.ptpRuns n.val ∧ s.stillHeld l.port n.val .delayReq = false)) ∧
  (∃ n : Fin 4, Can (.ptpAnnounceDue n) (fun s => s.ptpRuns n.val ∧ (s.tb n.val).isLeader)) ∧
  (∃ (s : State) (p : Fin 2), (s.cloak p.val).entries.length < 64) ∧
  (∃ (s : State) (p : Fin 2), 64 ≤ (s.cloak p.val).entries.length) ∧
  (∃ p at_ e, Can (.ptpEventTransmitted p at_) (fun s => (s.cloak p.val).entries.find? (fun e => e.stamp.isNone) = some e ∧ e.kind = .sync)) ∧
  (∃ p, Can (.ptpUnsupportedMessage p) (fun _ => True)) :=
  ⟨⟨3, syncMsg false, tbUp 3 1 { st := .locked, leader := some ptpLeader }, by decide +kernel⟩,
   ⟨3, syncMsg true, tbUp 3 1 { st := .locked, leader := some ptpLeader }, by decide +kernel⟩,
   ⟨3, ⟨ptpHead, stamp 1 0⟩, syncMsg true, tbUp 3 1 { st := .locked, leader := some ptpLeader, sync := some (syncMsg true) }, by decide +kernel⟩,
   ⟨3, ⟨ptpHead, stamp 1 0, Config.ownIdentity⟩, 5, stamp 1 0,
    tbUp 3 1 { st := .locked, leader := some ptpLeader, reqOut := some (5, some (stamp 1 0)) }, rfl, by decide +kernel, by decide +kernel, rfl, rfl⟩,
   ⟨3, ⟨ptpHead, stamp 1 0⟩, tbUp 3 1 { st := .locked, isLeader := true }, by decide +kernel⟩,
   ⟨3, ptpLeader.msg, tbUp 3 1 { st := .locked }, by decide +kernel⟩,
   ⟨3, ptpLeader, tbUp 3 1 { st := .holdover, leader := some ptpLeader, foreign := [ptpLeader], run := 2 ^ 80 }, by decide +kernel⟩,
   ⟨3, tbUp 3 1 { st := .locked, isLeader := true }, by decide +kernel⟩,
   ⟨3, ptpLeader, let s := tbUp 3 1 { st := .locked, leader := some ptpLeader }
    s.setCloak 0 { s.cloak 0 with held := [{ cloakOne with kind := .delayReq }] }, by decide +kernel⟩,
   ⟨3, ptpLeader, tbUp 3 1 { st := .locked, leader := some ptpLeader }, by decide +kernel⟩,
   ⟨3, tbUp 3 1 { st := .locked, isLeader := true }, by decide +kernel⟩,
   ⟨up, 1, by decide +kernel⟩,
   ⟨up.setCloak 1 { up.cloak 1 with entries := List.replicate 64 cloakOne }, 1, by decide +kernel⟩,
   ⟨1, stamp 1 0, cloakOne, up.setCloak 1 { up.cloak 1 with entries := [cloakOne] }, by decide +kernel⟩,
   ⟨1, up, trivial⟩⟩

theorem wit_SerialCommandsAct :
  (
  let gc (g : Nat) : Nat := gReg Reg.SAP_Gg_CFG g
  let pc (p : Nat) : Nat := pReg Reg.SAP_Pp_CFG p
  ∃ (g : Fin 16), ∃ v, Can (.sapGroupCfgWrite g v) (fun s => s.pwr.mode.awake ∧ bitOf (s.reg (gc g.val)) 0 = false ∧ bitOf (v &&& 0x7FFFF) 0 ∧ (s.setReg (gc g.val) (v &&& 0x7FFFF)).groupOk g.val ∧
      s.groups.length = 16)) ∧
  (
  let gc (g : Nat) : Nat := gReg Reg.SAP_Gg_CFG g
  let pc (p : Nat) : Nat := pReg Reg.SAP_Pp_CFG p
  ∃ (g : Fin 16), ∃ v, Can (.sapGroupCfgWrite g v) (fun s => s.pwr.mode.awake ∧ bitOf (s.reg (gc g.val)) 0 = false ∧ bitOf (v &&& 0x7FFFF) 0 ∧
      (s.setReg (gc g.val) (v &&& 0x7FFFF)).groupOk g.val = false ∧ s.groups.length = 16)) ∧
  (
  let gc (g : Nat) : Nat := gReg Reg.SAP_Gg_CFG g
  let pc (p : Nat) : Nat := pReg Reg.SAP_Pp_CFG p
  ∃ (g : Fin 16), ∃ v, Can (.sapGroupCfgWrite g v) (fun s => s.pwr.mode.awake ∧ bitOf (s.reg (gc g.val)) 0 ∧ bitOf v 0 = false ∧ s.valid = false ∧ s.groups.length = 16)) ∧
  (
  let gc (g : Nat) : Nat := gReg Reg.SAP_Gg_CFG g
  let pc (p : Nat) : Nat := pReg Reg.SAP_Pp_CFG p
  ∃ (p : Fin 64), ∃ v, Can (.sapPortCfgWrite p v) (fun s => s.pwr.mode.awake ∧ bitOf (s.reg (pc p.val)) 0 = false ∧ bitOf (v &&& 0xF) 0 ∧ (s.setReg (pc p.val) (v &&& 0xF)).portOk p.val ∧
      (s.group (p.val / 4)).st ≠ .off)) ∧
  (
  let gc (g : Nat) : Nat := gReg Reg.SAP_Gg_CFG g
  let pc (p : Nat) : Nat := pReg Reg.SAP_Pp_CFG p
  ∃ (p : Fin 64), ∃ v, Can (.sapPortCfgWrite p v) (fun s => s.pwr.mode.awake ∧ bitOf (s.reg (pc p.val)) 0 = false ∧ bitOf (v &&& 0xF) 0 ∧
      (s.setReg (pc p.val) (v &&& 0xF)).portOk p.val = false ∧ (s.group (p.val / 4)).st ≠ .off ∧ s.valid = false)) ∧
  (
  let gc (g : Nat) : Nat := gReg Reg.SAP_Gg_CFG g
  let pc (p : Nat) : Nat := pReg Reg.SAP_Pp_CFG p
  ∃ (i : Fin 64), ∃ v, ∃ at_, Can (.sapEnableAct true i.val) (fun s => (s.port i.val).wait = some (v, at_) ∧ (s.group (i.val / 4)).st ≠ .off ∧ s.streamTurn ∧ s.portDue s.msc i.val)) ∧
  (
  let gc (g : Nat) : Nat := gReg Reg.SAP_Gg_CFG g
  let pc (p : Nat) : Nat := pReg Reg.SAP_Pp_CFG p
  ∃ (g : Fin 16), ∃ v, ∃ at_, Can (.sapEnableAct false g.val) (fun s => (s.group g.val).wait = some (v, at_) ∧ s.streamTurn ∧ s.groupDue s.msc g.val)) ∧
  (
  let gc (g : Nat) : Nat := gReg Reg.SAP_Gg_CFG g
  let pc (p : Nat) : Nat := pReg Reg.SAP_Pp_CFG p
  ∃ (p : Fin 64), ∃ v, Can (.sapMaskctlWrite p v) (fun s => s.pwr.mode.awake)) ∧
  (
  let gc (g : Nat) : Nat := gReg Reg.SAP_Gg_CFG g
  let pc (p : Nat) : Nat := pReg Reg.SAP_Pp_CFG p
  ∃ (p : Fin 64), ∃ mask, ∃ compact, Can (.maskPairApply p) (fun s => (s.port p.val).pend = some (mask, compact) ∧ (s.group (p.val / 4)).st.frames ∧ maskOk (cfgSlots (s.gCfg (p.val / 4))) mask compact ∧
      cfgFollow (s.gCfg (p.val / 4)) = false)) ∧
  (
  let gc (g : Nat) : Nat := gReg Reg.SAP_Gg_CFG g
  let pc (p : Nat) : Nat := pReg Reg.SAP_Pp_CFG p
  ∃ (p : Fin 64), ∃ mask, ∃ compact, Can (.maskPairApply p) (fun s => (s.port p.val).pend = some (mask, compact) ∧ (s.group (p.val / 4)).st.frames ∧
      maskOk (cfgSlots (s.gCfg (p.val / 4))) mask compact = false)) ∧
  (
  let gc (g : Nat) : Nat := gReg Reg.SAP_Gg_CFG g
  let pc (p : Nat) : Nat := pReg Reg.SAP_Pp_CFG p
  ∃ g : Fin 16, Can (.groupLock g) (fun s => (s.group g.val).st = .acquiring ∧ s.valid)) ∧
  (
  let gc (g : Nat) : Nat := gReg Reg.SAP_Gg_CFG g
  let pc (p : Nat) : Nat := pReg Reg.SAP_Pp_CFG p
  ∃ g : Fin 16, Can (.rateStep g) (fun s => (s.group g.val).st = .locked)) ∧
  (∃ (s : State) (g : Nat), (s.group g).fadeIn.isSome) ∧
  (
  let gc (g : Nat) : Nat := gReg Reg.SAP_Gg_CFG g
  let pc (p : Nat) : Nat := pReg Reg.SAP_Pp_CFG p
  ∃ g : Fin 16, Can (.bclkLoss g) (fun s => (s.group g.val).st = .locked ∧ (s.group g.val).fadeIn.isSome)) ∧
  (
  let gc (g : Nat) : Nat := gReg Reg.SAP_Gg_CFG g
  let pc (p : Nat) : Nat := pReg Reg.SAP_Pp_CFG p
  ∃ g : Fin 16, Can (.bclkLoss g) (fun s => (s.group g.val).st = .acquiring)) ∧
  (
  let gc (g : Nat) : Nat := gReg Reg.SAP_Gg_CFG g
  let pc (p : Nat) : Nat := pReg Reg.SAP_Pp_CFG p
  ∃ g : Fin 16, Can (.bclkReturn g) (fun s => (s.group g.val).st = .lost)) ∧
  (
  let gc (g : Nat) : Nat := gReg Reg.SAP_Gg_CFG g
  let pc (p : Nat) : Nat := pReg Reg.SAP_Pp_CFG p
  
  let running (s : State) (g : Nat) : Prop := (s.group g).st = .locked ∨ (s.group g).st = .acquiring
  ∃ (g : Fin 16), ∃ ws, Can (.frameStartEdge g ws) (fun s => running s g.val)) ∧
  (
  let gc (g : Nat) : Nat := gReg Reg.SAP_Gg_CFG g
  let pc (p : Nat) : Nat := pReg Reg.SAP_Pp_CFG p
  
  let running (s : State) (g : Nat) : Prop := (s.group g).st = .locked ∨ (s.group g).st = .acquiring
  ∃ (g : Fin 16), ∃ ws, Can (.fsyncMissing g ws) (fun s => running s g.val ∧ (s.group g.val).faults = 0)) ∧
  (
  let gc (g : Nat) : Nat := gReg Reg.SAP_Gg_CFG g
  let pc (p : Nat) : Nat := pReg Reg.SAP_Pp_CFG p
  
  let running (s : State) (g : Nat) : Prop := (s.group g).st = .locked ∨ (s.group g).st = .acquiring
  ∃ (g : Fin 16), ∃ ws, Can (.fsyncMissing g ws) (fun s => (s.group g.val).st = .locked ∧ 1 ≤ (s.group g.val).faults)) ∧
  (
  let gc (g : Nat) : Nat := gReg Reg.SAP_Gg_CFG g
  let pc (p : Nat) : Nat := pReg Reg.SAP_Pp_CFG p
  
  let running (s : State) (g : Nat) : Prop := (s.group g).st = .locked ∨ (s.group g).st = .acquiring
  ∃ g : Fin 16, Can (.fsyncGlitch g) (fun s => running s g.val ∧ (s.group g.val).faults = 0)) ∧
  (
  let gc (g : Nat) : Nat := gReg Reg.SAP_Gg_CFG g
  let pc (p : Nat) : Nat := pReg Reg.SAP_Pp_CFG p
  
  let running (s : State) (g : Nat) : Prop := (s.group g).st = .locked ∨ (s.group g).st = .acquiring
  ∃ g : Fin 16, Can (.fsyncGlitch g) (fun s => (s.group g.val).st = .locked ∧ 1 ≤ (s.group g.val).faults)) :=
  ⟨⟨15, 0x21, up, by decide +kernel⟩,
   ⟨15, 0x301, up, by decide +kernel⟩,
   ⟨15, 0, still.setReg (gReg Reg.SAP_Gg_CFG 15) 1, by decide +kernel⟩,
   ⟨63, 1, sapUp 15 { st := .locked }, by decide +kernel⟩,
   ⟨63, 5, (still.setGroup 15 { st := .locked }).setReg (gReg Reg.SAP_Gg_CFG 15) 0x300, by decide +kernel⟩,
   ⟨63, true, 1024, { (sapUp 15 { st := .locked }).setPort 63 { wait := some (true, 1024) } with tail := true }, by decide +kernel⟩,
   ⟨15, true, 1024, { sapUp 15 { wait := some (true, 1024) } with tail := true }, by decide +kernel⟩,
   ⟨63, 1, up, by decide +kernel⟩,
   ⟨63, 3, false, (sapUp 15 { st := .locked }).setPort 63 { pend := some (3, false) }, by decide +kernel⟩,
   ⟨63, 0xFFFFFFFF, false, ((sapUp 15 { st := .locked }).setPort 63 { pend := some (0xFFFFFFFF, false) }).setReg (gReg Reg.SAP_Gg_CFG 15) 0x21, by decide +kernel⟩,
   ⟨15, sapUp 15 { st := .acquiring }, by decide +kernel⟩,
   ⟨15, sapUp 15 { st := .locked }, by decide +kernel⟩,
   ⟨sapUp 15 { fadeIn := some 0 }, 15, by decide +kernel⟩,
   ⟨15, sapUp 15 { st := .locked, fadeIn := some 0 }, by decide +kernel⟩,
   ⟨15, sapUp 15 { st := .acquiring }, by decide +kernel⟩,
   ⟨15, sapUp 15 { st := .lost }, by decide +kernel⟩,
   ⟨15, [], sapUp 15 { st := .locked }, by decide +kernel⟩,
   ⟨15, [], sapUp 15 { st := .acquiring }, by decide +kernel⟩,
   ⟨15, [], sapUp 15 { st := .locked, faults := 1 }, by decide +kernel⟩,
   ⟨15, sapUp 15 { st := .locked }, by decide +kernel⟩,
   ⟨15, sapUp 15 { st := .locked, faults := 1 }, by decide +kernel⟩⟩

theorem wit_NetworkEventsAct :
  (∃ (n : Fin 2), ∃ link, Can (.netLinkChange n link) (fun s => (s.netPort n.val).link ≠ link ∧ link ≠ .down ∧ bitOf (s.reg (netReg Reg.NET_Pn_CFG n.val)) 0 ∧ link = (if fieldOf (s.reg (netReg Reg.NET_Pn_CFG n.val)) 1 2 = 1 ∨ (fieldOf (s.reg (netReg Reg.NET_Pn_CFG n.val)) 1 2 = 2 ∧ (s.netPort n.val).tryLow) then .up1 else .up10))) ∧
  (∃ (n : Fin 2), ∃ link, Can (.netLinkChange n link) (fun s => link ≠ .down ∧ (bitOf (s.reg (netReg Reg.NET_Pn_CFG n.val)) 0 = false ∨ link ≠ s.netLayer n.val))) ∧
  (∃ n : Fin 2, Can (.netLinkChange n .down) (fun s => (s.netPort n.val).link ≠ .down)) ∧
  (∃ n : Fin 2, Can (.autoSpeedTimeout n) (fun s => bitOf (s.reg (netReg Reg.NET_Pn_CFG n.val)) 0 ∧ fieldOf (s.reg (netReg Reg.NET_Pn_CFG n.val)) 1 2 = 2 ∧ (s.netPort n.val).link = .down ∧ s.passed (s.netPort n.val).triedAt (if (s.netPort n.val).tryLow then 2000000 else 500000))) ∧
  (∃ n ip who, Can (.arpRequest n ip who) (fun s => s.forMe n.val ip)) ∧
  (∃ n ip who, Can (.arpRequest n ip who) (fun s => s.forMe n.val ip = false)) ∧
  (∃ n ip who x, Can (.icmpEcho n ip who x) (fun s => s.forMe n.val ip)) ∧
  (∃ n ip who x, Can (.icmpEcho n ip who x) (fun s => s.forMe n.val ip = false)) ∧
  (∃ n v2, Can (.igmpQuery n v2) (fun s => s.netUp n.val ∧ s.net.rx = [] ∧ bitOf (s.reg Reg.NET_TRS_CFG) 0 = false)) ∧
  (∃ n v2 i f, Can (.igmpQuery n v2) (fun s => s.netUp n.val ∧ s.net.rx = [(i, f)] ∧ f.cfg.dual = false ∧ Fin.ofNat 2 f.cfg.port = n ∧ s.net.ports.length = 2 ∧
      bitOf (s.reg Reg.NET_TRS_CFG) 0 = false)) ∧
  (∃ n v2, Can (.igmpQuery n v2) (fun s => s.netUp n.val ∧ s.net.rx = [] ∧ s.netUp (1 - n).val = false ∧ bitOf (s.reg Reg.NET_TRS_CFG) 0 ∧ bitOf (s.reg Reg.NET_TRS_CFG) (1 + n.val) ∧ s.net.ports.length = 2)) ∧
  (∃ n, Can (.unsupportedPacket n) (fun s => s.netUp n.val)) ∧
  (∃ n p i f, Can (.rtpPacket n p) (fun s => s.netUp n.val ∧ s.net.rx.find? (fun f => f.2.cfg.matches n p) = some (i, f) ∧ s.rxTakes i ∧ f.cfg.malformed p)) ∧
  (∃ n p i f, Can (.rtpPacket n p) (fun s => s.netUp n.val ∧ s.net.rx.find? (fun f => f.2.cfg.matches n p) = some (i, f) ∧ s.rxTakes i ∧ f.cfg.malformed p = false ∧ f.seen.any (fun x => x.stamp == p.stamp))) ∧
  (∃ n p i f, Can (.rtpPacket n p) (fun s => s.netUp n.val ∧ s.net.rx.find? (fun f => f.2.cfg.matches n p) = some (i, f) ∧ s.rxTakes i ∧ f.cfg.malformed p = false ∧
      f.seen.any (fun x => x.stamp == p.stamp) = false ∧ s.rtpRows i f p (s.rtpIndex f.cfg p.stamp) ≠ [])) ∧
  (∃ n p i f, Can (.rtpPacket n p) (fun s => s.netUp n.val ∧ s.net.rx.find? (fun f => f.2.cfg.matches n p) = some (i, f) ∧ s.rxTakes i ∧ f.cfg.malformed p = false ∧ f.seen.any (fun x => x.stamp == p.stamp) = false ∧ s.rtpRows i f p (s.rtpIndex f.cfg p.stamp) = [])) ∧
  (∃ i f k0 row rest, Can (.rtpPacketSend i) (fun s => tget s.net.tx i = some f ∧ f.buf = (k0, row) :: rest ∧ s.valid ∧ (k0 - f.from_) % f.cfg.pkt = 0 ∧ k0 + f.cfg.pkt ≤ s.msc ∧ f.cfg.dual = false ∧ s.netUp (Fin.ofNat 2 f.cfg.port).val)) ∧
  (
  let hears (s : State) (n : Fin 2) : Prop := bitOf (s.reg Reg.NET_TRS_CFG) 0 ∧ bitOf (s.reg Reg.NET_TRS_CFG) (1 + n.val) ∧ s.netUp n.val ∧ s.runs
   let data (b : List Byte) : Prop := imgNat (listByte b) 5 1 ≠ 1
   let seq (b : List Byte) : Nat := imgNat (listByte b) 12 4
   let ver (b : List Byte) : Nat := imgNat (listByte b) 4 1
   let reads (b : List Byte) : Option (List PosUpdate × List (Nat × Nat × Bell)) := trsRecords (ver b) (imgNat (listByte b) 24 2) (listByte b)
  ∃ n b, Can (.trosynData n b) (fun s => hears s n ∧ data b ∧ s.pwr.freeze)) ∧
  (
  let hears (s : State) (n : Fin 2) : Prop := bitOf (s.reg Reg.NET_TRS_CFG) 0 ∧ bitOf (s.reg Reg.NET_TRS_CFG) (1 + n.val) ∧ s.netUp n.val ∧ s.runs
   let data (b : List Byte) : Prop := imgNat (listByte b) 5 1 ≠ 1
   let seq (b : List Byte) : Nat := imgNat (listByte b) 12 4
   let ver (b : List Byte) : Nat := imgNat (listByte b) 4 1
   let reads (b : List Byte) : Option (List PosUpdate × List (Nat × Nat × Bell)) := trsRecords (ver b) (imgNat (listByte b) 24 2) (listByte b)
  ∃ n b, Can (.trosynData n b) (fun s => hears s n ∧ data b ∧ s.pwr.freeze = false ∧ (s.trsHeader b = false ∨ reads b = none))) ∧
  (
  let hears (s : State) (n : Fin 2) : Prop := bitOf (s.reg Reg.NET_TRS_CFG) 0 ∧ bitOf (s.reg Reg.NET_TRS_CFG) (1 + n.val) ∧ s.netUp n.val ∧ s.runs
   let data (b : List Byte) : Prop := imgNat (listByte b) 5 1 ≠ 1
   let seq (b : List Byte) : Nat := imgNat (listByte b) 12 4
   let ver (b : List Byte) : Nat := imgNat (listByte b) 4 1
   let reads (b : List Byte) : Option (List PosUpdate × List (Nat × Nat × Bell)) := trsRecords (ver b) (imgNat (listByte b) 24 2) (listByte b)
  ∃ n b x l, Can (.trosynData n b) (fun s => hears s n ∧ data b ∧ s.pwr.freeze = false ∧ s.trsHeader b ∧ reads b = some x ∧ fieldOf (s.reg Reg.NET_TRS_CFG) 1 2 ≠ 3 ∧
       s.net.trs.last = some l ∧ seqLater (seq b) l = false ∧ s.net.trs.old < 7)) ∧
  (
  let hears (s : State) (n : Fin 2) : Prop := bitOf (s.reg Reg.NET_TRS_CFG) 0 ∧ bitOf (s.reg Reg.NET_TRS_CFG) (1 + n.val) ∧ s.netUp n.val ∧ s.runs
   let data (b : List Byte) : Prop := imgNat (listByte b) 5 1 ≠ 1
   let seq (b : List Byte) : Nat := imgNat (listByte b) 12 4
   let ver (b : List Byte) : Nat := imgNat (listByte b) 4 1
   let reads (b : List Byte) : Option (List PosUpdate × List (Nat × Nat × Bell)) := trsRecords (ver b) (imgNat (listByte b) 24 2) (listByte b)
  ∃ n b x l, Can (.trosynData n b) (fun s => hears s n ∧ data b ∧ s.pwr.freeze = false ∧ s.trsHeader b ∧ reads b = some x ∧ fieldOf (s.reg Reg.NET_TRS_CFG) 1 2 ≠ 3 ∧
       s.net.trs.last = some l ∧ seqLater (seq b) l)) ∧
  (Can .trosynHelloDue (fun s => bitOf (s.reg Reg.NET_TRS_CFG) 0 ∧ s.net.trs.helloAt = none)) ∧
  (Can .trosynSeqTimeout (fun s => s.passed s.net.trs.lastAt 1000000)) ∧
  (∃ v, Can (.netTrsCfgWrite Reg.NET_TRS_ID v) (fun s => s.pwr.mode.awake)) ∧
  (∃ (k : Fin 4), ∃ v, Can (.moduleI2cGo k v) (fun s => s.pwr.mode.awake ∧ bitOf (s.reg (moduleReg k.val)) 25 = false ∧ bitOf v 24)) ∧
  (∃ (k : Fin 4), ∃ d, Can (.moduleI2cDone k d false) (fun s => bitOf (s.reg (moduleReg k.val)) 25 ∧ bitOf (s.reg (moduleReg k.val)) 23)) ∧
  (∃ (k : Fin 4), ∃ d, Can (.moduleI2cDone k d true) (fun s => bitOf (s.reg (moduleReg k.val)) 25)) ∧
  (∃ (k : Fin 4), ∃ b, Can (.modulePresenceChange k b) (fun _ => k.val < 2)) ∧
  (∃ k : Fin 4, Can (.modulePresenceChange k true) (fun s => 2 ≤ k.val ∧ (s.setNtkPort (k.val - 2) { s.ntkPort (k.val - 2) with module := true }).ntkEnabled (k.val - 2) = false)) ∧
  (∃ k : Fin 4, Can (.modulePresenceChange k false) (fun _ => 2 ≤ k.val)) :=
  ⟨⟨0, .up10, { netUpSt with net := { netUpSt.net with ports := [{}, {}] } }, by decide +kernel⟩,
   ⟨1, .up10, netUpSt, by decide +kernel⟩,
   ⟨0, netUpSt, by decide +kernel⟩,
   ⟨1, { up.setReg (netReg Reg.NET_Pn_CFG 1) 5 with samples := 24000 }, by decide +kernel⟩,
   ⟨0, 0, 9, netUpSt, by decide +kernel⟩,
   ⟨0, 1, 9, netUpSt, by decide +kernel⟩,
   ⟨0, 0, 9, [], netUpSt, by decide +kernel⟩,
   ⟨0, 1, 9, [], netUpSt, by decide +kernel⟩,
   ⟨0, true, netUpSt, by decide +kernel⟩,
   ⟨0, false, 5, { cfg := flowOne }, rxOf { cfg := flowOne }, by decide +kernel⟩,
   ⟨0, true, netUpSt.setReg Reg.NET_TRS_CFG 3, by decide +kernel⟩,
   ⟨0, netUpSt, by decide +kernel⟩,
   ⟨0, rtpOf 0, 5, { cfg := flowOne }, rxOf { cfg := flowOne }, by decide +kernel⟩,
   ⟨0, rtpOf 12, 5, { cfg := flowOne, seen := [⟨3, true, false, 0⟩] }, rxOf { cfg := flowOne, seen := [⟨3, true, false, 0⟩] }, by decide +kernel⟩,
   ⟨0, rtpOf 12, 5, { cfg := flowOne }, rxOf { cfg := flowOne }, by decide +kernel⟩,
   ⟨0, rtpOf 12, 5, { cfg := flowOne, from_ := 9000 }, rxOf { cfg := flowOne, from_ := 9000 }, by decide +kernel⟩,
   ⟨255, { cfg := flowOne, buf := [(0, [0])] }, 0, [0], [], { netUpSt with net := { netUpSt.net with tx := [(255, { cfg := flowOne, buf := [(0, [0])] })] } }, by decide +kernel⟩,
   ⟨0, [], { trsUp none with pwr := { up.pwr with freeze := true } }, by decide +kernel⟩,
   ⟨0, [], trsUp none, by decide +kernel⟩,
   ⟨0, trsPacket 5, _, 5, trsUp (some 5), by decide +kernel, by decide +kernel, by decide +kernel, by decide +kernel, rfl, by decide +kernel, by decide +kernel⟩,
   ⟨0, trsPacket 6, _, 5, trsUp (some 5), by decide +kernel, by decide +kernel, by decide +kernel, by decide +kernel, rfl, by decide +kernel, by decide +kernel⟩,
   ⟨trsUp none, by decide +kernel⟩,
   ⟨{ up with samples := 48000 }, by decide +kernel⟩,
   ⟨3, up, by decide +kernel⟩,
   ⟨3, 0x1000000, up, by decide +kernel⟩,
   ⟨3, 0, up.setReg (moduleReg 3) 0x2800000, by decide +kernel⟩,
   ⟨3, 0, up.setReg (moduleReg 3) 0x2000000, by decide +kernel⟩,
   ⟨1, true, up, by decide +kernel⟩,
   ⟨3, up, by decide +kernel⟩,
   ⟨3, up, by decide +kernel⟩⟩

theorem wit_NitikLinksAct :
  (∃ n : Fin 2, Can (.ntkTrainingDone n) (fun s => s.ntkEnabled n.val ∧ ((s.ntkPort n.val).link = .down ∨ (s.ntkPort n.val).link = .training))) ∧
  (∃ (n : Fin 2), ∃ lo, ∃ hi, ∃ total, Can (.ntkVersionAgreed n lo hi total) (fun s => (s.ntkPort n.val).link = .up ∧ agreeVersion (s.chain.verMin, s.chain.verMax) (lo, hi) = 0)) ∧
  (∃ (n : Fin 2), ∃ lo, ∃ hi, ∃ total, Can (.ntkVersionAgreed n lo hi total) (fun s => (s.ntkPort n.val).link = .up ∧ agreeVersion (s.chain.verMin, s.chain.verMax) (lo, hi) ≠ 0 ∧ s.ntk.ports.length = 2 ∧ s.chain.st = .alone)) ∧
  (∃ n : Fin 2, Can (.ntkBlockLockLoss n) (fun s => (s.ntkPort n.val).link ≠ .down)) ∧
  (∃ (s : State) (n : Nat), (s.ntkPort n).link ≠ .down ∧ s.chain.ring = false ∧ n < s.ntk.ports.length) ∧
  (∃ (n : Fin 2), ∃ m, ∃ st, ∃ pos, Can (.ntkBlock n m st pos) (fun s => s.ntkReady n.val ∧ s.neighbour n.val = some pos ∧ s.chain.head ∧ s.chain.ring = false)) ∧
  (∃ (n : Fin 2), ∃ t, ∃ o, ∃ r, ∃ k, Can (.ntkTime n t o r) (fun s => s.ntkReady n.val ∧ s.follows ∧ n.val = s.timePort ∧ s.valid = false ∧ s.tbWith 4 = some k)) ∧
  (∃ (n : Fin 2), ∃ c, ∃ total, Can (.ntkCredit n c total) (fun s => s.ntkReady n.val)) ∧
  (∃ (n : Fin 2), ∃ probe, ∃ e, ∃ got, Can (.linkDelay n probe (some e) got) (fun s => s.ntkReady n.val)) ∧
  (∃ (n : Fin 2), ∃ k, ∃ b, Can (.ntkStep n k b) (fun s => s.ntkReady n.val ∧ s.follows ∧ s.valid ∧ s.tbSource s.clock.media.active.val = 4)) ∧
  (
  let told (s : State) (n b d : Nat) (p : NtkPort) (mis : List Nat) : State :=
     let rest := p.auditAt.filter (fun a => a.1 != b)
     let s1 := s.setNtkPort n { p with auditAt := rest, backs := if rest.isEmpty then [] else p.backs }
     let audits := s1.led.audits.map (fun a => if a.at_ = b then { a with found := a.found.set n (some d) } else a)
     State.auditDone { s1 with led := { s1.led with mismatch := mis, audits := audits } }
  ∃ (n : Fin 2), ∃ b, ∃ got, ∃ free, ∃ sent, ∃ credits, Can (.ntkAudit n b got free) (fun s => s.ntkReady n.val ∧ (s.ntkPort n.val).auditAt.find? (fun a => a.1 == s.mscOf b) = some (s.mscOf b, sent, credits) ∧
       (s.ntkPort n.val).creditsAt credits (got.toNat - free) + (sent - got.toNat) + free = (s.ntkPort n.val).total)) ∧
  (
  let told (s : State) (n b d : Nat) (p : NtkPort) (mis : List Nat) : State :=
     let rest := p.auditAt.filter (fun a => a.1 != b)
     let s1 := s.setNtkPort n { p with auditAt := rest, backs := if rest.isEmpty then [] else p.backs }
     let audits := s1.led.audits.map (fun a => if a.at_ = b then { a with found := a.found.set n (some d) } else a)
     State.auditDone { s1 with led := { s1.led with mismatch := mis, audits := audits } }
  ∃ (n : Fin 2), ∃ b, ∃ got, ∃ free, ∃ sent, ∃ credits, ∃ d, Can (.ntkAudit n b got free) (fun s => s.ntkReady n.val ∧ (s.ntkPort n.val).auditAt.find? (fun a => a.1 == s.mscOf b) = some (s.mscOf b, sent, credits) ∧ 0 < d ∧
       (s.ntkPort n.val).creditsAt credits (got.toNat - free) + (sent - got.toNat) + free = (s.ntkPort n.val).total + d)) ∧
  (Can .chainSourceLost (fun s => s.follows ∧ 4 ≤ (s.ntkPort s.timePort).silent ∧ s.chain.st = .member ∧ s.tbWith 4 = none)) ∧
  (Can .chainReturn (fun s => s.chain.st = .cut ∧ 8 ≤ s.chain.good)) :=
  ⟨⟨1, (ntkUp 1 { module := true } {}).setReg (ntkReg Reg.NTK_Pn_CFG 1) 1, by decide +kernel⟩,
   ⟨1, 64, 80, 5, ntkUp 1 { link := .up } {}, by decide +kernel⟩,
   ⟨1, 16, 16, 5, ntkUp 1 { link := .up } {}, by decide +kernel⟩,
   ⟨1, ntkUp 1 { link := .ready } {}, by decide +kernel⟩,
   ⟨ntkUp 1 { link := .ready } {}, 1, by decide +kernel⟩,
   ⟨1, 0, 3, 7, ntkUp 1 { link := .ready } { st := .member, head := true, position := 0, members := [⟨record 0, 0⟩, ⟨record 7, 0⟩] }, by decide +kernel⟩,
   ⟨0, stamp 1 0, 0, false, 3, { (still.setTb 3 { st := .locked }).setReg (tbReg Reg.TMB_TBn_CFG 3) 9 with ntk := (ntkUp 0 { link := .ready } { st := .member }).ntk }, by decide +kernel⟩,
   ⟨1, 0, 0, ntkUp 1 { link := .ready } {}, by decide +kernel⟩,
   ⟨1, stamp 0 0, stamp 0 0, stamp 0 0, ntkUp 1 { link := .ready } {}, by decide +kernel⟩,
   ⟨0, 3, 1152, { (up.setTb 0 { st := .locked }).setReg (tbReg Reg.TMB_TBn_CFG 0) 9 with ntk := (ntkUp 0 { link := .ready } { st := .member }).ntk }, by decide +kernel⟩,
   ⟨1, 1024, 3, 9, 6, 4, ntkUp 1 { link := .ready, auditAt := [(1024, 6, 4)], total := 16 } {}, by decide +kernel⟩,
   ⟨1, 1024, 3, 9, 6, 4, 1, ntkUp 1 { link := .ready, auditAt := [(1024, 6, 4)], total := 15 } {}, by decide +kernel⟩,
   ⟨ntkUp 0 { link := .ready, silent := 4 } { st := .member }, by decide +kernel⟩,
   ⟨ntkUp 0 {} { st := .cut, good := 8 }, by decide +kernel⟩⟩

theorem wit_ChainCellsAndRecordsAct :
  (
  let clips (x : Cell) : Nat := ((channelsOf x).map (fun k => ((x.words.getD k.1 []).filter (fun w => decide (2 ^ 27 ≤ w.natAbs))).length)).sum
  ∃ (n : Fin 2), ∃ x, Can (.objectCell n x) (fun s => s.ntkReady n.val ∧ x.crcOk = false)) ∧
  (
  let clips (x : Cell) : Nat := ((channelsOf x).map (fun k => ((x.words.getD k.1 []).filter (fun w => decide (2 ^ 27 ≤ w.natAbs))).length)).sum
  ∃ (n : Fin 2), ∃ x, Can (.sumCell n x) (fun s => s.ntkReady n.val ∧ x.crcOk = false)) ∧
  (
  let clips (x : Cell) : Nat := ((channelsOf x).map (fun k => ((x.words.getD k.1 []).filter (fun w => decide (2 ^ 27 ≤ w.natAbs))).length)).sum
  ∃ (n : Fin 2), ∃ x, Can (.objectCell n x) (fun s => s.ntkReady n.val ∧ x.crcOk ∧ s.chainRuns ∧ s.chain.ring = false ∧ s.msc < x.block + s.chain.hold + 16)) ∧
  (
  let clips (x : Cell) : Nat := ((channelsOf x).map (fun k => ((x.words.getD k.1 []).filter (fun w => decide (2 ^ 27 ≤ w.natAbs))).length)).sum
  ∃ (n : Fin 2), ∃ x, Can (.objectCell n x) (fun s => s.ntkReady n.val ∧ x.crcOk ∧ s.chainRuns ∧ s.chain.ring = false ∧ x.block + s.chain.hold + 16 ≤ s.msc ∧ channelsOf x ≠ [])) ∧
  (
  let clips (x : Cell) : Nat := ((channelsOf x).map (fun k => ((x.words.getD k.1 []).filter (fun w => decide (2 ^ 27 ≤ w.natAbs))).length)).sum
  ∃ (n : Fin 2), ∃ x, Can (.sumCell n x) (fun s => s.ntkReady n.val ∧ x.crcOk ∧ s.chainRuns ∧ s.msc < x.block + s.chain.hold + 64)) ∧
  (
  let clips (x : Cell) : Nat := ((channelsOf x).map (fun k => ((x.words.getD k.1 []).filter (fun w => decide (2 ^ 27 ≤ w.natAbs))).length)).sum
  ∃ (n : Fin 2), ∃ recs, Can (.rollCall n recs) (fun s => n = 0 ∧ s.ntkReady 0 ∧ s.chain.head = false ∧ s.chain.st ≠ .alone ∧ s.chain.st ≠ .joining)) ∧
  (
  let clips (x : Cell) : Nat := ((channelsOf x).map (fun k => ((x.words.getD k.1 []).filter (fun w => decide (2 ^ 27 ≤ w.natAbs))).length)).sum
  ∃ (n : Fin 2), ∃ recs, ∃ hops, Can (.rollReply n recs hops) (fun s => s.ntkReady n.val ∧ s.chain.head ∧ s.chain.calling)) ∧
  (∃ r : Roll, r.assigned.fail = 0) ∧
  (∃ r : Roll, r.assigned.fail ≠ 0) ∧
  (
  let clips (x : Cell) : Nat := ((channelsOf x).map (fun k => ((x.words.getD k.1 []).filter (fun w => decide (2 ^ 27 ≤ w.natAbs))).length)).sum
  ∃ (n : Fin 2), ∃ id, ∃ p, ∃ st, ∃ e, Can (.epochReport n id p st) (fun s => s.ntkReady n.val ∧ s.chain.head ∧ s.chainEpoch id = some e ∧ e.st ≠ .open_)) ∧
  (
  let clips (x : Cell) : Nat := ((channelsOf x).map (fun k => ((x.words.getD k.1 []).filter (fun w => decide (2 ^ 27 ≤ w.natAbs))).length)).sum
  ∃ (n : Fin 2), ∃ id, ∃ p, ∃ st, Can (.epochReport n id p st) (fun s => s.ntkReady n.val ∧ s.chain.head ∧ s.chainEpoch id = none)) ∧
  (
  let clips (x : Cell) : Nat := ((channelsOf x).map (fun k => ((x.words.getD k.1 []).filter (fun w => decide (2 ^ 27 ≤ w.natAbs))).length)).sum
  ∃ (n : Fin 2), ∃ id, ∃ p, ∃ st, Can (.epochReport n id p st) (fun s => s.ntkReady n.val ∧ s.chain.head = false)) ∧
  (
  let clips (x : Cell) : Nat := ((channelsOf x).map (fun k => ((x.words.getD k.1 []).filter (fun w => decide (2 ^ 27 ≤ w.natAbs))).length)).sum
  ∃ (n : Fin 2), ∃ id, ∃ (m : DWord), ∃ e, Can (.epochDecision n id m .commit) (fun s => s.ntkReady n.val ∧ s.chain.head = false ∧ (s.passOn n.val 1 (.epochDecision id (s.mscOf m) .commit)).chainEpoch id = some e ∧
      (e.st = .sealed ∨ e.st = .waiting) ∧ e.expiring = false ∧ (s.passOn n.val 1 (.epochDecision id (s.mscOf m) .commit)).msc + 128 < s.mscOf m)) ∧
  (
  let clips (x : Cell) : Nat := ((channelsOf x).map (fun k => ((x.words.getD k.1 []).filter (fun w => decide (2 ^ 27 ≤ w.natAbs))).length)).sum
  ∃ (n : Fin 2), ∃ id, ∃ (m : DWord), ∃ e, Can (.epochDecision n id m .expire) (fun s => s.ntkReady n.val ∧ s.chain.head = false ∧ (s.passOn n.val 1 (.epochDecision id (s.mscOf m) .expire)).chainEpoch id = some e ∧
      (e.st = .sealed ∨ e.st = .waiting) ∧ e.expiring = false)) ∧
  (
  let clips (x : Cell) : Nat := ((channelsOf x).map (fun k => ((x.words.getD k.1 []).filter (fun w => decide (2 ^ 27 ≤ w.natAbs))).length)).sum
  ∃ (n : Fin 2), ∃ id, ∃ (m : DWord), ∃ e, Can (.epochDecision n id m .defer) (fun s => s.ntkReady n.val ∧ s.chain.head = false ∧ (s.passOn n.val 1 (.epochDecision id (s.mscOf m) .defer)).chainEpoch id = some e ∧
      (e.st = .sealed ∨ e.st = .waiting) ∧ e.expiring = false ∧ e.m ≠ s.mscOf m)) ∧
  (
  let clips (x : Cell) : Nat := ((channelsOf x).map (fun k => ((x.words.getD k.1 []).filter (fun w => decide (2 ^ 27 ≤ w.natAbs))).length)).sum
  ∃ (n : Fin 2), ∃ id, ∃ (m : DWord), ∃ e, Can (.epochDecision n id m .wait) (fun s => s.ntkReady n.val ∧ s.chain.head = false ∧ (s.passOn n.val 1 (.epochDecision id (s.mscOf m) .wait)).chainEpoch id = some e ∧
      e.st = .sealed ∧ e.expiring = false)) ∧
  (
  let clips (x : Cell) : Nat := ((channelsOf x).map (fun k => ((x.words.getD k.1 []).filter (fun w => decide (2 ^ 27 ≤ w.natAbs))).length)).sum
  ∃ (n : Fin 2), ∃ rec, ∃ place, ∃ hops, Can (.ntkJoin n rec place hops) (fun s => s.ntkReady n.val ∧ s.chain.st ≠ .alone ∧ s.chain.head ∧
      ({ ring := s.chain.ring, fs := s.fs, recs := (s.chain.members.map (fun m => m.entry)).take place ++ [rec] ++
          (s.chain.members.map (fun m => m.entry)).drop place, hops := hops } : Roll).assigned.fail = 6)) ∧
  (
  let clips (x : Cell) : Nat := ((channelsOf x).map (fun k => ((x.words.getD k.1 []).filter (fun w => decide (2 ^ 27 ≤ w.natAbs))).length)).sum
  ∃ (n : Fin 2), ∃ rec, ∃ place, ∃ hops, Can (.ntkJoin n rec place hops) (fun s => s.ntkReady n.val ∧ s.chain.st ≠ .alone ∧ s.chain.head ∧
      (let a := ({ ring := s.chain.ring, fs := s.fs, recs := (s.chain.members.map (fun m => m.entry)).take place ++ [rec] ++
          (s.chain.members.map (fun m => m.entry)).drop place, hops := hops } : Roll).assigned
       a.fail = 0 ∧ a.recs.any (fun m => decide (m.verMax < 0x11)) = false ∧ (a.recs.getD place rec) = rec))) ∧
  (
  let clips (x : Cell) : Nat := ((channelsOf x).map (fun k => ((x.words.getD k.1 []).filter (fun w => decide (2 ^ 27 ≤ w.natAbs))).length)).sum
  ∃ (n : Fin 2), ∃ p, ∃ reason, ∃ m, Can (.ntkLeave n p reason) (fun s => s.ntkReady n.val ∧ n = 0 ∧ s.chain.st = .member ∧ s.chain.head = false ∧ p ≠ 0 ∧
      s.chain.members.find? (fun m => m.entry.position == p) = some m)) ∧
  (
  let clips (x : Cell) : Nat := ((channelsOf x).map (fun k => ((x.words.getD k.1 []).filter (fun w => decide (2 ^ 27 ≤ w.natAbs))).length)).sum
  ∃ p, Can (.memberRemoval p) (fun s => s.chain.head ∧ s.chain.members.any (fun m => m.entry.position == p && decide (64 ≤ m.silent)))) :=
  ⟨⟨1, cellOf 1024 0 false, ntkUp 1 { link := .ready } {}, by decide +kernel⟩,
   ⟨1, cellOf 1024 0 false, ntkUp 1 { link := .ready } {}, by decide +kernel⟩,
   ⟨1, cellOf 1024 0 true, ntkUp 1 { link := .ready } { st := .member }, by decide +kernel⟩,
   ⟨1, cellOf 1008 0 true, ntkUp 1 { link := .ready } { st := .member }, by decide +kernel⟩,
   ⟨1, cellOf 976 0 true, ntkUp 1 { link := .ready } { st := .member }, by decide +kernel⟩,
   ⟨0, [], ntkUp 0 { link := .ready } { st := .forming }, by decide +kernel⟩,
   ⟨1, [], [], ntkUp 1 { link := .ready } { headOf with calling := true }, by decide +kernel⟩,
   ⟨{ ring := false, fs := 48000, recs := [record 0, record 7], hops := [100] }, by decide +kernel⟩,
   ⟨{ ring := false, fs := 48000, recs := [record 7, record 7], hops := [100] }, by decide +kernel⟩,
   ⟨1, 7, 7, .staged, sealedOf 7, { ntkUp 1 { link := .ready } headOf with epochs := [sealedOf 7] }, by decide +kernel⟩,
   ⟨1, 7, 7, .staged, ntkUp 1 { link := .ready } headOf, by decide +kernel⟩,
   ⟨1, 7, 7, .staged, ntkUp 1 { link := .ready } { st := .member }, by decide +kernel⟩,
   ⟨0, 7, 1153, sealedOf 7, { ntkUp 0 { link := .ready } { st := .member } with epochs := [sealedOf 7] }, by decide +kernel⟩,
   ⟨0, 7, 1153, sealedOf 7, { ntkUp 0 { link := .ready } { st := .member } with epochs := [sealedOf 7] }, by decide +kernel⟩,
   ⟨0, 7, 2176, sealedOf 7, { ntkUp 0 { link := .ready } { st := .member } with epochs := [sealedOf 7] }, by decide +kernel⟩,
   ⟨0, 7, 1152, sealedOf 7, { ntkUp 0 { link := .ready } { st := .member } with epochs := [sealedOf 7] }, by decide +kernel⟩,
   ⟨1, { record 7 with reads := [0] }, 1, [1000000000], ntkUp 1 { link := .ready } { headOf with members := [{ entry := { record 0 with pubs := [0] } }] }, by decide +kernel⟩,
   ⟨1, record 7, 1, [100], ntkUp 1 { link := .ready } headOf, by decide +kernel⟩,
   ⟨0, 7, 1, memberOf 7, ntkUp 0 { link := .ready } { st := .member, members := [memberOf 0, memberOf 7] }, by decide +kernel⟩,
   ⟨7, ntkUp 1 {} { headOf with members := [memberOf 0, { memberOf 7 with silent := 64 }] }, by decide +kernel⟩⟩

theorem wit_MemoryMaintenanceActs :
  (∃ n : Fin 4, Can (.refreshInterval n true 0) (fun s => s.dramUp ∧ (s.subChan n.val).debt ≤ 4)) ∧
  (∃ n : Fin 4, Can (.refreshInterval n false 0) (fun s => s.dramUp ∧ (s.subChan n.val).debt < 4)) ∧
  (∃ (n : Fin 4), ∃ k, Can (.refreshInterval n true k) (fun s => s.dramUp ∧ 4 < (s.subChan n.val).debt ∧ 0 < k ∧ k ≤ (s.subChan n.val).debt - 4)) ∧
  (∃ c : Fin 2, Can (.mr4Read c true) (fun s => s.dramUp ∧ (s.dramChan c.val).x2 = false ∧ 2 * (s.subChan (2 * c.val)).debt ≤ 4 ∧ 2 * (s.subChan (2 * c.val + 1)).debt ≤ 4 ∧ s.memory.sub.length = 4)) ∧
  (∃ c : Fin 2, Can (.mr4Read c false) (fun s => s.dramUp)) ∧
  (∃ c : Fin 2, Can (.refreshRateReturn c) (fun s => (s.dramChan c.val).x2 ∧ (s.dramChan c.val).hot = false ∧ s.passed (s.dramChan c.val).coolFrom 32000)) ∧
  (Can .activationWindowReset (fun _ => True)) ∧
  (∃ (n : Fin 4), ∃ bank, ∃ row, Can (.neighbourRefresh n bank row) (fun _ => True)) ∧
  (∃ c : Fin 2, Can (.retrainDue c) (fun s => s.chanUp c.val ∧ bitOf (s.reg Reg.MEM_CFG) 1 ∧ (s.dramChan c.val).retrain = none ∧ (s.passed (s.dramChan c.val).trainedAt (max 10 (fieldOf (s.reg Reg.MEM_CFG) 8 8) * 1000000) ∨ 2560 < (s.pwr.temp - (s.dramChan c.val).trainTemp).natAbs))) ∧
  (∃ (c : Fin 2), ∃ ns, ∃ k, Can (.retrainSlice c ns) (fun s => s.chanUp c.val ∧ (s.dramChan c.val).retrain = some k ∧ k < 64)) ∧
  (∃ c : Fin 2, Can (.retrainEnd c true) (fun s => s.chanUp c.val ∧ (s.dramChan c.val).retrain = some 64)) ∧
  (∃ c : Fin 2, Can (.retrainEnd c false) (fun s => s.chanUp c.val ∧ (s.dramChan c.val).retrain = some 64 ∧ (s.dramChan c.val).forced = false)) ∧
  (∃ c : Fin 2, Can (.retrainEnd c false) (fun s => s.chanUp c.val ∧ (s.dramChan c.val).retrain = some 64 ∧ (s.dramChan c.val).forced)) ∧
  (∃ c : Fin 2, Can (.retrainRetry c) (fun s => s.chanUp c.val ∧ (s.dramChan c.val).marginLost ∧ (s.dramChan c.val).retrain = none ∧ (s.dramChan c.val).retries < 8 ∧ s.passed (s.dramChan c.val).trainedAt 1000000)) ∧
  (∃ n : Fin 4, Can (.alertNPulse n false 0) (fun s => s.chanUp (n.val / 2))) ∧
  (∃ n : Fin 4, Can (.alertNPulse n true 0) (fun s => s.chanUp (n.val / 2) ∧ (s.subChan n.val).fails = 2 ∧ n.val / 2 < s.memory.chan.length)) ∧
  (∃ a, Can (.dramScrub a .corrected) (fun s => bitOf (s.reg Reg.MEM_CFG) 0 ∧ s.dramUp ∧ a < s.dramCap ∧ s.poisoned a 1 = false)) ∧
  (∃ a, Can (.dramScrub a .uncorrectable) (fun s => bitOf (s.reg Reg.MEM_CFG) 0 ∧ s.dramUp ∧ a < s.dramCap)) ∧
  (∃ (s : State) (a : Nat), (s.dramChan (s.chanOf a)).marginLost) ∧
  (∃ u r, Can (.sramScrub (u :: r)) (fun _ => True)) :=
  ⟨⟨3, up, by decide +kernel⟩,
   ⟨3, up.setSub 3 { debt := 3 }, by decide +kernel⟩,
   ⟨3, 1, up.setSub 3 { debt := 5 }, by decide +kernel⟩,
   ⟨1, up.setSub 3 { debt := 2 }, by decide +kernel⟩,
   ⟨1, up, by decide +kernel⟩,
   ⟨1, { up.setDramChan 1 { x2 := true } with samples := 1536 }, by decide +kernel⟩,
   ⟨up, trivial⟩,
   ⟨3, 31, 0, up, trivial⟩,
   ⟨1, (up.setDramChan 1 { trainTemp := 2561 }).setReg Reg.MEM_CFG 2, by decide +kernel⟩,
   ⟨1, 100, 63, up.setDramChan 1 { retrain := some 63 }, by decide +kernel⟩,
   ⟨1, up.setDramChan 1 { retrain := some 64 }, by decide +kernel⟩,
   ⟨1, up.setDramChan 1 { retrain := some 64 }, by decide +kernel⟩,
   ⟨1, up.setDramChan 1 { retrain := some 64, forced := true }, by decide +kernel⟩,
   ⟨1, { up.setDramChan 1 { marginLost := true, retries := 7 } with samples := 48000 }, by decide +kernel⟩,
   ⟨3, up, by decide +kernel⟩,
   ⟨3, up.setSub 3 { fails := 2 }, by decide +kernel⟩,
   ⟨64, up.setReg Reg.MEM_CFG 1, by decide +kernel⟩,
   ⟨64, up.setReg Reg.MEM_CFG 1, by decide +kernel⟩,
   ⟨up.setDramChan 0 { marginLost := true }, 0, by decide +kernel⟩,
   ⟨⟨.desk, 0, 0, true⟩, [], up, trivial⟩⟩

theorem wit_ModesChange :
  (Can .mscValidate (fun s => s.valid = false ∧ s.pwr.mode.awake ∧ s.clock.media.cfgWritten ∧ s.tbGood ∧ (s.mediaCount - (s.originAt s.mediaCount).1) % 128 = 0)) ∧
  (∃ s : State, s.clock.media.originWritten = none ∧ s.clock.media.seedOrigin = none) ∧
  (∃ (s : State) (n o : Nat), s.clock.media.originWritten = none ∧ s.clock.media.seedOrigin = some (o, s.clock.media.rate96) ∧ s.mediaBit 9 ∧ o ≤ n) ∧
  (∃ (s : State) (n o : Nat), s.clock.media.originWritten = some o ∧ o ≤ n) ∧
  (∃ (s : State) (n o : Nat), s.clock.media.originWritten = some o ∧ n < o) ∧
  (Can .mscInvalidate (fun s => s.valid ∧ s.clock.media.rateChange ∧ s.modeTurn)) ∧
  (∃ w, Can .modeChange (fun s => s.pwr.auto = none ∧ s.waitDue = some w ∧ s.pwr.mode ≠ .standby ∧ s.clock.media.rateChange = false ∧ w.target.runs)) ∧
  (∃ w, Can .modeChange (fun s => s.pwr.auto = none ∧ s.waitDue = some w ∧ s.pwr.mode ≠ .standby ∧ s.clock.media.rateChange = false ∧ w.target = .standby)) ∧
  (∃ e, Can .standbyEntry (fun s => s.pwr.entering = some e ∧ s.modeTurn ∧ e.at_ ≤ s.msc ∧ s.fallbackDue s.msc = false ∧ s.clock.media.rateChange = false)) ∧
  (∃ w, Can .standbyExit (fun s => s.waitDue = some w ∧ s.pwr.mode = .standby ∧ w.target ≠ .dormant)) ∧
  (∃ w, Can .dormantEntry (fun s => s.waitDue = some w ∧ w.target = .dormant)) ∧
  (Can .fallbackEntry (fun s => s.fallbackDue s.msc ∧ (s.valid = false ∨ s.modeTurn))) ∧
  (Can .autoStart (fun s => s.modeTurn ∧ s.autoDue s.msc ∧ s.fallbackDue s.msc = false ∧ s.clock.media.rateChange = false)) ∧
  (Can .hostWaitExpiry (fun s => s.pwr.mode = .setup ∧ s.pwr.straps.bootMode = 2 ∧ s.pwr.hostSeen = false ∧ s.passed s.pwr.setupAt (imgNat (listByte s.pwr.image) 24 2 * 1000000))) :=
  ⟨⟨{ (still.setTb 0 { st := .locked }) with clock := { (still.setTb 0 { st := .locked }).clock with media := { still.clock.media with cfgWritten := true } } }, by decide +kernel⟩,
   ⟨up, by decide +kernel⟩,
   ⟨(up.setMedia { seedOrigin := some (5, false) }).setReg Reg.TMB_MEDIA_CFG 0x200, 5, 5, by decide +kernel⟩,
   ⟨up.setMedia { originWritten := some 5 }, 5, 5, by decide +kernel⟩,
   ⟨up.setMedia { originWritten := some 5 }, 4, 5, by decide +kernel⟩,
   ⟨{ up.setMedia { up.clock.media with rateChange := true } with tail := true }, by decide +kernel⟩,
   ⟨waitOf .show_, modeUp up (some (waitOf .show_)), by decide +kernel⟩,
   ⟨waitOf .standby, modeUp up (some (waitOf .standby)), by decide +kernel⟩,
   ⟨⟨1024, none, true⟩, { up with tail := true, pwr := { up.pwr with entering := some ⟨1024, none, true⟩ } }, by decide +kernel⟩,
   ⟨waitOf .setup, modeUp (upIn .standby 1024) (some (waitOf .setup)), by decide +kernel⟩,
   ⟨waitOf .dormant, modeUp (upIn .standby 1024) (some (waitOf .dormant)), by decide +kernel⟩,
   ⟨{ still with pwr := { up.pwr with pendDram := true } }, by decide +kernel⟩,
   ⟨{ up with tail := true, pwr := { up.pwr with autoArmed := true } }, by decide +kernel⟩,
   ⟨pwrUp (fun p => { p with straps := { bootMode := 2, profSel := 0, chainHead := false } }), by decide +kernel⟩⟩

theorem wit_TemperatureAndAtticAct :
  (∃ t, Can (.temperatureMeasure t) (fun s => s.mainUp)) ∧
  (Can (.thermalStep 0) (fun s => s.pwr.stepOn.getD 0 false = false ∧ 3 ≤ s.pwr.hot.getD 0 0)) ∧
  (Can (.thermalStep 1) (fun s => s.pwr.stepOn.getD 1 false = false ∧ 3 ≤ s.pwr.hot.getD 1 0 ∧ s.runs)) ∧
  (Can (.thermalStep 2) (fun s => s.pwr.stepOn.getD 2 false = false ∧ 3 ≤ s.pwr.hot.getD 2 0 ∧ s.runs ∧ s.valid)) ∧
  (∃ k : Fin 3, Can (.thermalStep k) (fun s => s.pwr.stepOn.getD k.val false ∧ k.val < 2 ∧ 3 ≤ s.pwr.cold.getD k.val 0)) ∧
  (Can .thermalEmergency (fun s => s.pwr.stepOn.getD 1 false ∧ s.wdogMode ∧ fieldOf (s.reg Reg.PWR_CFG) 8 8 ≠ 0 ∧ 1000 * fieldOf (s.reg Reg.PWR_CFG) 8 8 ≤ s.pwr.hotFor)) ∧
  (∃ k : Fin 4, Can (.comparatorFire k) (fun s => s.pwr.atticUp ∧ k.val ≠ 3 ∧ s.mainUp)) ∧
  (Can (.comparatorFire 3) (fun s => s.pwr.atticUp ∧ s.pwr.attic.wakeSec ≤ s.pwr.attic.tod / second16 ∧ s.mainUp = false)) ∧
  (∃ src : Fin 5, Can (.wake src) (fun s => s.pwr.mode = .dormant ∧ bitOf s.pwr.attic.cfg src.val ∧ s.pwr.woken = false)) ∧
  (∃ x, Can (.atticSelfBoot x) (fun s => s.supplied ∧ s.pwr.mode = .dormant ∧ s.pwr.woken ∧ s.pwr.resetN)) ∧
  (Can (.fuseBurnKeyHash 0xA5) (fun s => s.pwr.mode = .setup ∧ s.pwr.fuses.busy = none ∧ s.pwr.fuses.keyBlank)) ∧
  (Can (.fuseRollbackAdvance 0xA5) (fun s => s.pwr.mode = .setup ∧ s.pwr.fuses.busy = none ∧ s.pwr.fuses.rollback < 64)) ∧
  (Can (.fuseBurnEnd true) (fun s => s.pwr.fuses.busy = some 1)) ∧
  (Can (.fuseBurnEnd true) (fun s => s.pwr.fuses.busy = some 2)) ∧
  (∃ op, Can (.fuseBurnEnd false) (fun s => s.pwr.fuses.busy = some op)) ∧
  (Can .smbusReadId (fun s => s.smbUp)) ∧
  (Can .smbusReadStatus (fun s => s.smbUp)) ∧
  (Can .smbusReadTemperature (fun s => s.smbUp ∧ s.pwr.mode ≠ .dormant)) ∧
  (Can .smbusReadTemperature (fun s => s.smbUp ∧ s.pwr.mode = .dormant)) ∧
  (Can .smbusReadWakeCause (fun s => s.smbUp)) ∧
  (Can .smbusReadBoot (fun s => s.smbUp)) ∧
  (∃ b, Can (.smbusWrite b) (fun _ => True)) ∧
  (∃ b, Can (.smbusUnknownRead b) (fun _ => 5 ≤ b.toNat)) ∧
  (∃ b, Can (.alertResponse b) (fun s => s.smbUp ∧ s.pwr.alertN = false)) ∧
  (
  let live (s : State) : Prop := s.pwr.mode ≠ .dormant ∧ s.pwr.jtag.held = false
  ∃ b, Can (.jtagBypass b) live) ∧
  (
  let live (s : State) : Prop := s.pwr.mode ≠ .dormant ∧ s.pwr.jtag.held = false
  Can .jtagIdcode live) ∧
  (
  let live (s : State) : Prop := s.pwr.mode ≠ .dormant ∧ s.pwr.jtag.held = false
  ∃ p l, Can (.jtagSamplePreload p l) live) ∧
  (
  let live (s : State) : Prop := s.pwr.mode ≠ .dormant ∧ s.pwr.jtag.held = false
  ∃ p l, Can (.jtagExtest p l) live) ∧
  (
  let live (s : State) : Prop := s.pwr.mode ≠ .dormant ∧ s.pwr.jtag.held = false
  Can .jtagHighz live) ∧
  (
  let live (s : State) : Prop := s.pwr.mode ≠ .dormant ∧ s.pwr.jtag.held = false
  Can .jtagClamp live) ∧
  (
  let live (s : State) : Prop := s.pwr.mode ≠ .dormant ∧ s.pwr.jtag.held = false
  Can (.jtagTrst true) (fun _ => True)) ∧
  (
  let live (s : State) : Prop := s.pwr.mode ≠ .dormant ∧ s.pwr.jtag.held = false
  Can (.jtagTrst false) (fun _ => True)) :=
  ⟨⟨25600, up, by decide +kernel⟩,
   ⟨pwrUp (fun p => { p with hot := [3, 0, 0] }), by decide +kernel⟩,
   ⟨pwrUp (fun p => { p with hot := [0, 3, 0] }), by decide +kernel⟩,
   ⟨pwrUp (fun p => { p with hot := [0, 0, 3] }), by decide +kernel⟩,
   ⟨1, pwrUp (fun p => { p with stepOn := [false, true, false], cold := [0, 3, 0] }), by decide +kernel⟩,
   ⟨({ upIn .show_ 1024 with pwr := { (upIn .show_ 1024).pwr with stepOn := [false, true, false], hotFor := 1000 } } : State).setReg Reg.PWR_CFG 0x100, by decide +kernel⟩,
   ⟨2, up, by decide +kernel⟩,
   ⟨pwrUp (fun p => { p with mode := .dormant }), by decide +kernel⟩,
   ⟨4, pwrUp (fun p => { p with mode := .dormant, attic := { p.attic with cfg := 0x10 } }), by decide +kernel⟩,
   ⟨⟨0, 0, false⟩, pwrUp (fun p => { p with mode := .dormant, woken := true }), by decide +kernel⟩,
   ⟨up, by decide +kernel⟩,
   ⟨pwrUp (fun p => { p with fuses := { p.fuses with rollback := 63 } }), by decide +kernel⟩,
   ⟨pwrUp (fun p => { p with fuses := { p.fuses with busy := some 1 } }), by decide +kernel⟩,
   ⟨pwrUp (fun p => { p with fuses := { p.fuses with busy := some 2 } }), by decide +kernel⟩,
   ⟨2, pwrUp (fun p => { p with fuses := { p.fuses with busy := some 2 } }), by decide +kernel⟩,
   ⟨up, by decide +kernel⟩,
   ⟨up, by decide +kernel⟩,
   ⟨up, by decide +kernel⟩,
   ⟨pwrUp (fun p => { p with mode := .dormant }), by decide +kernel⟩,
   ⟨up, by decide +kernel⟩,
   ⟨up, by decide +kernel⟩,
   ⟨5, up, trivial⟩,
   ⟨5, up, by decide +kernel⟩,
   ⟨true, pwrUp (fun p => { p with alertN := false }), by decide +kernel⟩,
   ⟨true, up, ⟨nofun, rfl⟩⟩,
   ⟨up, ⟨nofun, rfl⟩⟩,
   ⟨[], [], up, ⟨nofun, rfl⟩⟩,
   ⟨[], [], up, ⟨nofun, rfl⟩⟩,
   ⟨up, ⟨nofun, rfl⟩⟩,
   ⟨up, ⟨nofun, rfl⟩⟩,
   ⟨up, trivial⟩,
   ⟨up, trivial⟩⟩

theorem wit_ResetsAndBootAct :
  (
  let up (f : State → State) : State → State := watched f
  let scratch := Reg.SYS_SCRATCH
  Can .xtalFault (fun s => s.pwr.mode ≠ .dormant ∧ s.pwr.xtalFault = false)) ∧
  (
  let up (f : State → State) : State → State := watched f
  let scratch := Reg.SYS_SCRATCH
  Can .xtalReturn (fun _ => True)) ∧
  (
  let up (f : State → State) : State → State := watched f
  let scratch := Reg.SYS_SCRATCH
  Can .resetNAssert (fun s => s.pwr.mode ≠ .dormant)) ∧
  (
  let up (f : State → State) : State → State := watched f
  let scratch := Reg.SYS_SCRATCH
  Can (.softReset 0xB0 true) (fun s => s.pwr.mode.awake)) ∧
  (
  let up (f : State → State) : State → State := watched f
  let scratch := Reg.SYS_SCRATCH
  ∃ key on, Can (.softReset key on) (fun s => (key ≠ 0xB0 ∨ on = false) ∧ s.pwr.alertN = true)) ∧
  (
  let up (f : State → State) : State → State := watched f
  let scratch := Reg.SYS_SCRATCH
  Can .mainRailDrop (fun s => s.pwr.mode ≠ .dormant)) ∧
  (
  let up (f : State → State) : State → State := watched f
  let scratch := Reg.SYS_SCRATCH
  Can .mainRailReturn (fun s => s.pwr.railsUp = false ∧ s.pwr.mode ≠ .dormant)) ∧
  (
  let up (f : State → State) : State → State := watched f
  let scratch := Reg.SYS_SCRATCH
  Can .vddAtticDrop (fun _ => True)) ∧
  (
  let up (f : State → State) : State → State := watched f
  let scratch := Reg.SYS_SCRATCH
  Can .vddAtticRise (fun s => s.pwr.atticUp = false)) ∧
  (
  let up (f : State → State) : State → State := watched f
  let scratch := Reg.SYS_SCRATCH
  Can .vddIo33Loss (fun _ => True)) ∧
  (
  let up (f : State → State) : State → State := watched f
  let scratch := Reg.SYS_SCRATCH
  Can .vddIo33Return (fun _ => True)) ∧
  (
  let up (f : State → State) : State → State := watched f
  let scratch := Reg.SYS_SCRATCH
  ∃ x, Can (.resetRelease x) (fun s => s.supplied ∧ s.pwr.mode = .reset)) ∧
  (∀ k, k = 0 ∨ k = 1 ∨ k = 3 → ∃ s : State, s.pwr.mode = .boot ∧ s.pwr.bootHeld = false ∧ s.pwr.bootStage = k) ∧
  (
  let up (f : State → State) : State → State := watched f
  let scratch := Reg.SYS_SCRATCH
  
  let at_ (s : State) (k : Nat) : Prop := s.pwr.mode = .boot ∧ s.pwr.bootHeld = false ∧ s.pwr.bootStage = k
   let image (b : List Byte) (second : Bool) (s : State) : State :=
     (s.setPwr { s.pwr with image := b, imageB := second, bootStage := 3 }).setMemory
       { s.memory with config := imgNat (listByte b) 22 1, speed := imgNat (listByte b) 23 1 }
  ∃ x b, Can (.bootStageEnd x) (fun s => at_ s 2 ∧ x.copyA = some b ∧ s.bootCopyOk x.copyA x.sigA)) ∧
  (
  let up (f : State → State) : State → State := watched f
  let scratch := Reg.SYS_SCRATCH
  
  let at_ (s : State) (k : Nat) : Prop := s.pwr.mode = .boot ∧ s.pwr.bootHeld = false ∧ s.pwr.bootStage = k
   let image (b : List Byte) (second : Bool) (s : State) : State :=
     (s.setPwr { s.pwr with image := b, imageB := second, bootStage := 3 }).setMemory
       { s.memory with config := imgNat (listByte b) 22 1, speed := imgNat (listByte b) 23 1 }
  ∃ x b, Can (.bootStageEnd x) (fun s => at_ s 2 ∧ s.bootCopyOk x.copyA x.sigA = false ∧ x.copyB = some b ∧ s.bootCopyOk x.copyB x.sigB)) ∧
  (
  let up (f : State → State) : State → State := watched f
  let scratch := Reg.SYS_SCRATCH
  
  let at_ (s : State) (k : Nat) : Prop := s.pwr.mode = .boot ∧ s.pwr.bootHeld = false ∧ s.pwr.bootStage = k
   let image (b : List Byte) (second : Bool) (s : State) : State :=
     (s.setPwr { s.pwr with image := b, imageB := second, bootStage := 3 }).setMemory
       { s.memory with config := imgNat (listByte b) 22 1, speed := imgNat (listByte b) 23 1 }
  ∃ x, Can (.bootStageEnd x) (fun s => at_ s 2 ∧ s.bootCopyOk x.copyA x.sigA = false ∧ s.bootCopyOk x.copyB x.sigB = false)) ∧
  (
  let up (f : State → State) : State → State := watched f
  let scratch := Reg.SYS_SCRATCH
  
  let at_ (s : State) (k : Nat) : Prop := s.pwr.mode = .boot ∧ s.pwr.bootHeld = false ∧ s.pwr.bootStage = k
   let image (b : List Byte) (second : Bool) (s : State) : State :=
     (s.setPwr { s.pwr with image := b, imageB := second, bootStage := 3 }).setMemory
       { s.memory with config := imgNat (listByte b) 22 1, speed := imgNat (listByte b) 23 1 }
  ∃ x, Can (.bootStageEnd x) (fun s => at_ s 4 ∧ x.trained)) ∧
  (
  let up (f : State → State) : State → State := watched f
  let scratch := Reg.SYS_SCRATCH
  
  let at_ (s : State) (k : Nat) : Prop := s.pwr.mode = .boot ∧ s.pwr.bootHeld = false ∧ s.pwr.bootStage = k
   let image (b : List Byte) (second : Bool) (s : State) : State :=
     (s.setPwr { s.pwr with image := b, imageB := second, bootStage := 3 }).setMemory
       { s.memory with config := imgNat (listByte b) 22 1, speed := imgNat (listByte b) 23 1 }
  ∃ x, Can (.bootStageEnd x) (fun s => at_ s 4 ∧ x.trained = false)) ∧
  (
  let up (f : State → State) : State → State := watched f
  let scratch := Reg.SYS_SCRATCH
  
  let at_ (s : State) (k : Nat) : Prop := s.pwr.mode = .boot ∧ s.pwr.bootHeld = false ∧ s.pwr.bootStage = k
   let image (b : List Byte) (second : Bool) (s : State) : State :=
     (s.setPwr { s.pwr with image := b, imageB := second, bootStage := 3 }).setMemory
       { s.memory with config := imgNat (listByte b) 22 1, speed := imgNat (listByte b) 23 1 }
  ∃ x, Can (.bootStageEnd x) (fun s => at_ s 5 ∧ s.verifyImage 8 (listByte (shelfBytes x.shelf)) x.shelf.length = 0xFF)) ∧
  (
  let up (f : State → State) : State → State := watched f
  let scratch := Reg.SYS_SCRATCH
  
  let at_ (s : State) (k : Nat) : Prop := s.pwr.mode = .boot ∧ s.pwr.bootHeld = false ∧ s.pwr.bootStage = k
   let image (b : List Byte) (second : Bool) (s : State) : State :=
     (s.setPwr { s.pwr with image := b, imageB := second, bootStage := 3 }).setMemory
       { s.memory with config := imgNat (listByte b) 22 1, speed := imgNat (listByte b) 23 1 }
  ∃ x, Can (.bootStageEnd x) (fun s => at_ s 5 ∧ s.verifyImage 8 (listByte (shelfBytes x.shelf)) x.shelf.length ≠ 0xFF)) ∧
  (
  let up (f : State → State) : State → State := watched f
  let scratch := Reg.SYS_SCRATCH
  
  let at_ (s : State) (k : Nat) : Prop := s.pwr.mode = .boot ∧ s.pwr.bootHeld = false ∧ s.pwr.bootStage = k
   let image (b : List Byte) (second : Bool) (s : State) : State :=
     (s.setPwr { s.pwr with image := b, imageB := second, bootStage := 3 }).setMemory
       { s.memory with config := imgNat (listByte b) 22 1, speed := imgNat (listByte b) 23 1 }
  ∃ x, Can (.bootStageEnd x) (fun s => at_ s 6)) ∧
  (
  let up (f : State → State) : State → State := watched f
  let scratch := Reg.SYS_SCRATCH
  
  let at_ (s : State) (k : Nat) : Prop := s.pwr.mode = .boot ∧ s.pwr.bootHeld = false ∧ s.pwr.bootStage = k
   let image (b : List Byte) (second : Bool) (s : State) : State :=
     (s.setPwr { s.pwr with image := b, imageB := second, bootStage := 3 }).setMemory
       { s.memory with config := imgNat (listByte b) 22 1, speed := imgNat (listByte b) 23 1 }
  ∃ x, Can (.bootStageEnd x) (fun s => at_ s 7)) ∧
  (∃ s : State, s.pwr.straps.bootMode = 3) :=
  ⟨⟨up, by decide +kernel⟩,
   ⟨up, trivial⟩,
   ⟨up, by decide +kernel⟩,
   ⟨up, by decide +kernel⟩,
   ⟨0xB1, true, up, by decide +kernel⟩,
   ⟨up, by decide +kernel⟩,
   ⟨pwrUp (fun p => { p with railsUp := false }), by decide +kernel⟩,
   ⟨up, trivial⟩,
   ⟨pwrUp (fun p => { p with atticUp := false }), by decide +kernel⟩,
   ⟨up, trivial⟩,
   ⟨up, trivial⟩,
   ⟨⟨0, 0, false⟩, State.reset, by decide +kernel⟩,
   (fun k _ => ⟨bootUp k, rfl, rfl, rfl⟩),
   ⟨bootIn (some bootImg) none true true, bootImg, bootUp 2, ⟨rfl, rfl, rfl⟩, rfl, by decide +kernel⟩,
   ⟨bootIn none (some bootImg) true true, bootImg, bootUp 2, ⟨rfl, rfl, rfl⟩, by decide +kernel⟩,
   ⟨bootIn (some bootImg) (some bootImg) false true, bootUp 2, ⟨rfl, rfl, rfl⟩, by decide +kernel⟩,
   ⟨bootIn none none true true, bootUp 4, ⟨rfl, rfl, rfl⟩, by decide +kernel⟩,
   ⟨bootIn none none true false, bootUp 4, ⟨rfl, rfl, rfl⟩, by decide +kernel⟩,
   ⟨bootIn none none true true, bootUp 5, ⟨rfl, rfl, rfl⟩, by decide +kernel⟩,
   ⟨{ bootIn none none true true with shelf := [] }, bootUp 5, ⟨rfl, rfl, rfl⟩, by decide +kernel⟩,
   ⟨bootIn none none true true, bootUp 6, rfl, rfl, rfl⟩,
   ⟨bootIn none none true true, bootUp 7, rfl, rfl, rfl⟩,
   ⟨pwrUp (fun p => { p with straps := ⟨3, 0, false⟩ }), rfl⟩⟩

theorem wit_TimeDrivesThePipeline :
  (∃ x, Can (.samplePeriodStart x) (fun s => s.boundary = false ∧ s.tail = false ∧ s.pwr.atticUp = false ∧ s.pwr.mode.awake ∧ s.valid = false)) ∧
  (∃ x, Can (.samplePeriodStart x) (fun s => s.boundary = false ∧ s.tail = false ∧ s.pwr.atticUp = false ∧ s.pwr.mode.awake ∧ s.clock.media.valid ∧ s.clock.media.starting = false)) ∧
  (∃ x, Can (.samplePeriodStart x) (fun s => s.boundary = false ∧ s.tail = false ∧ s.pwr.atticUp = false ∧ s.pwr.mode.awake ∧ s.clock.media.valid ∧ s.clock.media.starting)) ∧
  (∃ (s : State) (n : Nat), n < s.clock.tb.length) ∧
  (∃ b : TimeBase, b.st ≠ .disabled) ∧
  (∃ x, Can (.blockBoundary x) (fun s => s.boundary ∧ s.valid ∧ s.piping ∧ ({ (s.pipeBoundary s.msc x).framesSend s.msc with boundary := false } : State).tailDue s.msc = false)) ∧
  (∃ x, Can (.blockBoundary x) (fun s => s.boundary ∧ s.valid ∧ s.piping = false ∧ ({ (s.stillBoundary s.msc).framesSend s.msc with boundary := false } : State).tailDue s.msc = false)) ∧
  (∃ x, Can (.blockBoundary x) (fun s => s.boundary ∧ s.valid ∧ s.piping ∧ ({ (s.pipeBoundary s.msc x).framesSend s.msc with boundary := false } : State).tailDue s.msc)) :=
  ⟨⟨quietInput, { still with pwr := { up.pwr with atticUp := false } }, by decide +kernel⟩,
   ⟨quietInput, pwrUp (fun p => { p with atticUp := false }), by decide +kernel⟩,
   ⟨quietInput, { up.setMedia { up.clock.media with starting := true } with pwr := { up.pwr with atticUp := false } }, by decide +kernel⟩,
   ⟨up, 3, by decide +kernel⟩,
   ⟨{ st := .free }, nofun⟩,
   ⟨quietBoundary, { up with boundary := true }, by decide +kernel⟩,
   ⟨quietBoundary, { upIn .standby 1024 with boundary := true }, by decide +kernel⟩,
   ⟨quietBoundary, { up.setMedia { up.clock.media with rateChange := true } with boundary := true }, by decide +kernel⟩⟩

theorem wit_EpochChecksDecide :
  (∃ e : Epoch, e.defective) ∧
  (∃ (s : State) (e : Epoch), e.safe = false ∧ e.members.any (fun m => m.switch.any (fun w => w.target == s.active))) ∧
  (∃ (s : State) (e : Epoch), fits s e ∧ s.switchMayStart e ∧ s.allStaged e ∧ s.heldBack e = false) ∧
  (∃ (s : State) (e : Epoch), fits s e ∧ s.switchMayStart e = false ∧ e.st ≠ .waiting) ∧
  (∃ (s : State) (e : Epoch), fits s e ∧ s.switchMayStart e ∧ (s.allStaged e = false ∨ s.heldBack e) ∧ e.deferrals < e.deadline) ∧
  (∃ (s : State) (e : Epoch), fits s e ∧ s.switchMayStart e ∧ (s.allStaged e = false ∨ s.heldBack e) ∧ e.deadline ≤ e.deferrals) ∧
  (∃ e : Epoch, e.own = false ∧ e.safe = false) ∧
  (∃ id e, Can (.epochExpire id) (fun s => s.pickEpoch id (fun e => e.expiring) = some e)) ∧
  (∃ id e, Can (.epochSplit id) (fun s => s.pickEpoch id (fun e => e.chain && e.undecided && !s.ntk.chain.head && (e.m == 0 || decide (e.m ≤ s.msc + 128))) = some e)) ∧
  (∃ id k e m m1 s1, Can (.epochMemberStaged id k) (fun s => s.stageWork.pickEpoch id (fun e => e.undecided && (match e.members[k]? with | some m => !m.staged | none => false)) = some e ∧ e.members[k]? = some m ∧ (m.geo = false ∨ (s.stageWork.stagePaid e m ∧ s.stageWork.epochs.any (fun d => d.undecided && decide (d.order < e.order) && d.members.any (fun n => n.geo && !n.staged)) = false)) ∧ s.stageWork.reserve m = some (m1, s1))) :=
  ⟨⟨{ epochOf 7 with defective := true }, rfl⟩,
   ⟨up, { epochOf 7 with members := [⟨[], some ⟨up.active, 0, false⟩, false, false, (0, 0), 0⟩] }, by decide +kernel⟩,
   ⟨up, epochOf 7, by decide +kernel⟩,
   ⟨{ up with active := 2, xfades := [⟨1000, 480, some 4, 2⟩] }, { epochOf 7 with members := [⟨[], some ⟨3, 0, false⟩, false, false, (0, 0), 0⟩] }, by decide +kernel⟩,
   ⟨up, { epochOf 7 with members := [⟨[], none, false, false, (0, 0), 0⟩] }, by decide +kernel⟩,
   ⟨up, { epochOf 7 with deferrals := 4, members := [⟨[], none, false, false, (0, 0), 0⟩] }, by decide +kernel⟩,
   ⟨epochOf 7, rfl, rfl⟩,
   ⟨7, { epochOf 7 with expiring := true }, { up with epochs := [{ epochOf 7 with expiring := true }] }, by decide +kernel⟩,
   ⟨7, { sealedOf 7 with m := 1152 }, { up with epochs := [{ sealedOf 7 with m := 1152 }] }, by decide +kernel⟩,
   ⟨7, 0, { sealedOf 7 with members := [⟨[], none, false, false, (0, 0), 0⟩] }, ⟨[], none, false, false, (0, 0), 0⟩, _, _,
    { up with epochs := [{ sealedOf 7 with members := [⟨[], none, false, false, (0, 0), 0⟩] }] }, by decide +kernel, rfl, by decide +kernel, rfl⟩⟩

theorem wit_BellsRingAndHold :
  (∃ st id b, Can (.bellRing st id) (fun s => s.bellOf st id = some b ∧ s.bellTurn st id b ∧ s.bellSkips st b)) ∧
  (∃ st id b, Can (.bellRing st id) (fun s => s.bellOf st id = some b ∧ s.bellTurn st id b ∧ s.bellSkips st b = false ∧ b.kind = 0)) ∧
  (∃ st id b, Can (.bellRing st id) (fun s => s.bellOf st id = some b ∧ s.bellTurn st id b ∧ s.bellSkips st b = false ∧ b.kind = 1 ∧ s.canPost b.task b.mask)) ∧
  (∃ st id b, Can (.bellRing st id) (fun s => s.bellOf st id = some b ∧ s.bellTurn st id b ∧ s.bellSkips st b = false ∧ b.kind = 1 ∧ s.canPost b.task b.mask = false)) ∧
  (∃ st id b, Can (.bellRing st id) (fun s => s.bellOf st id = some b ∧ s.bellTurn st id b ∧ s.bellSkips st b = false ∧ b.kind = 2)) ∧
  (∃ st id b, Can (.bellRing st id) (fun s => s.bellOf st id = some b ∧ s.bellTurn st id b ∧ s.bellSkips st b = false ∧ 2 < b.kind)) ∧
  (∃ (s : State) (id : Nat) (b : Bell), tget s.bells id = some b) ∧
  (∃ b : Bell, b.period ≠ 0 ∧ (b.count = 0 ∨ b.ring + 1 < b.count)) ∧
  (∃ b : Bell, b.period = 0 ∨ (b.count ≠ 0 ∧ b.count ≤ b.ring + 1)) :=
  ⟨⟨false, 4095, bellOf 1 1024, bellsUp [(4095, bellOf 1 1024)], by decide +kernel⟩,
   ⟨true, 255, bellOf 0 1024, { up with cues := [(255, bellOf 0 1024)] }, by decide +kernel⟩,
   ⟨false, 4095, { bellOf 1 1024 with task := 255 }, { taskUp { cfg := {} } with bells := [(4095, { bellOf 1 1024 with task := 255 })] }, by decide +kernel⟩,
   ⟨false, 4095, { bellOf 1 1024 with task := 255 }, { taskUp { cfg := {}, pending := 1 } with bells := [(4095, { bellOf 1 1024 with task := 255 })] }, by decide +kernel⟩,
   ⟨false, 4095, bellOf 2 1024, bellsUp [(4095, bellOf 2 1024)], by decide +kernel⟩,
   ⟨false, 4095, bellOf 3 1024, bellsUp [(4095, bellOf 3 1024)], by decide +kernel⟩,
   ⟨bellsUp [(4095, bellOf 1 1024)], 4095, bellOf 1 1024, rfl⟩,
   ⟨{ bellOf 0 1024 with period := 128, count := 2 }, by decide +kernel⟩,
   ⟨{ bellOf 0 1024 with period := 128, count := 1 }, by decide +kernel⟩⟩

theorem wit_GeometryAndFadesEnd :
  (∃ x fr rest, Can (.geometryEvaluationDeadline x) (fun s => s.geo.frozen = fr :: rest ∧ s.piping ∧ fr.frame + 16 ≤ s.msc)) ∧
  (∃ l k sp, Can (.pruneHoldEnd l k sp) (fun _ => True)) ∧
  (∃ k l f j, Can (.jumpCrossfadeEnd k) (fun s => tget s.lockers k = some l ∧ l.jump = some (f, j) ∧ f + j + 32 ≤ s.msc ∧ s.boundary = false)) ∧
  (∃ x rest o, Can .xfadeDone (fun s => s.xfades = x :: rest ∧ x.m + x.len + 32 ≤ s.msc ∧ s.boundary = false ∧ x.old = some o ∧ o < s.shelves.length ∧ (s.shelves.getD o {}).st = .fading)) ∧
  (∃ k l, Can (.lockerDisable k) (fun s => tget s.lockers k = some l ∧ l.live ∧ l.cfg.enable = false ∧ l.gain.busy = false)) ∧
  (∃ f old w, Can (.firCrossfadeEnd f) (fun s => (s.feed f).firOld = some (old, w) ∧ w.busy = false)) ∧
  (∃ f, ∃ (x : Fade), Can (.alignFadeOutEnd f) (fun s => x ∈ (s.feed f).fades ∧ x.rise = none ∧ x.fall + fadeLen s.clock.media.rate96 + 64 ≤ s.msc)) ∧
  (∃ f, Can (.pilotWindowEnd f) (fun s => (s.feed f).pilot.supEn ∧ 4096 ≤ (s.feed f).win.length)) ∧
  (∃ m, Can .probeCapture (fun s => s.path.probeFrom = some m ∧ s.piping ∧ m ≤ s.msc ∧ s.boundary = false ∧ (s.locker (fieldOf (s.reg Reg.PTH_PROBE_SEL) 0 10)).sets = [])) :=
  ⟨⟨⟨0, []⟩, ⟨1008, [], 0, [], []⟩, [], { up with geo := { up.geo with frozen := [⟨1008, [], 0, [], []⟩] } }, by decide +kernel⟩,
   ⟨0, 0, 0, up, trivial⟩,
   ⟨1023, { jump := some (512, 480) }, 512, 480, { up with lockers := [(1023, { jump := some (512, 480) })] }, by decide +kernel⟩,
   ⟨⟨512, 480, some 3, 2⟩, [], 3, { slotUp 3 { st := .fading } with xfades := [⟨512, 480, some 3, 2⟩] }, by decide +kernel⟩,
   ⟨1023, { live := true }, { up with lockers := [(1023, { live := true })] }, by decide +kernel⟩,
   ⟨511, [], {}, { up with feeds := [(511, { firOld := some ([], {}) })] }, by decide +kernel⟩,
   ⟨511, ⟨0, 720, none, false⟩, { up with feeds := [(511, { fades := [⟨0, 720, none, false⟩] })] }, by decide +kernel⟩,
   ⟨511, { up with feeds := [(511, { pilot := { supEn := true }, win := List.replicate 4096 0 })] }, by decide +kernel⟩,
   ⟨1024, { up with path := { up.path with probeFrom := some 1024 } }, by decide +kernel⟩⟩

theorem wit_TasksRunAndEnd :
  (∃ t k b xs, Can (.inboxWritten t) (fun s => s.task t = some k ∧ k.inboxDue = some (b, xs) ∧ k.st = .waiting ∧
      s.tasks.tasks.all (fun p => !(s.sameCycle k p.2) || decide (p.2.cfg.ip < k.cfg.ip) || (p.2.cfg.ip == k.cfg.ip && decide (t ≤ p.1))))) ∧
  (∃ t k u, Can (.inboxWritten t) (fun s => s.task t = some k ∧ k.inboxDue.isSome ∧ k.st = .waiting ∧ u.2.cfg.ip ∈ [4, 3, 2, 1] ∧ s.tasks.tasks.filter (fun p => s.sameCycle k p.2 && (decide (k.cfg.ip < p.2.cfg.ip) || (p.2.cfg.ip == k.cfg.ip && decide (p.1 < t)))) = [u])) ∧
  (∃ (d : Fin 16), ∃ t, ∃ k, Can (.taskDispatch d) (fun s => d.val < s.desks.length ∧ ((List.range d.val).all (fun j => (s.desk j).group != (s.desk d.val).group || (s.desk j).st != .idle || !(s.desk j).enable)) ∧ (s.desk d.val).st = .idle ∧ (s.desk d.val).enable ∧ s.dispatching ∧ s.pickTask d.val = some t ∧ s.task t = some k)) ∧
  (∃ d : Fin 16, Can (.taskDispatch d) (fun s => ((List.range d.val).all (fun j => (s.desk j).group != (s.desk d.val).group || (s.desk j).st != .idle || !(s.desk j).enable)) ∧ (s.desk d.val).st = .idle ∧ (s.desk d.val).enable ∧ s.dispatching ∧ s.pickTask d.val = none)) ∧
  (∃ (d : Fin 16), ∃ j, Can (.taskDispatch d) (fun s => (s.desk d.val).st = .idle ∧ (s.desk d.val).enable ∧ (List.range d.val).filter (fun j => (s.desk j).group == (s.desk d.val).group) = [j])) ∧
  (∃ t k b, Can (.taskCutoff t) (fun s => s.task t = some k ∧ k.released = some b ∧ k.st = .ready)) ∧
  (∃ t k b, Can (.taskCutoff t) (fun s => s.task t = some k ∧ k.released = some b ∧ k.st = .waiting)) ∧
  (∃ t k b d, Can (.taskCutoff t) (fun s => s.task t = some k ∧ k.released = some b ∧ k.st = .running ∧ s.runner t = some d ∧ (s.desk d).st ≠ .halted)) ∧
  (∃ (s : State) (t : Nat) (k : Task), s.task t = some k ∧ s.tasksStill = false) ∧
  (∃ h, Can .heldPostApply (fun s => s.tasks.held.find? (fun h => s.heldSkips h || s.heldMayApply h) = some h ∧ s.heldSkips h)) ∧
  (∃ h, Can .heldPostApply (fun s => s.tasks.held.find? (fun h => s.heldSkips h || s.heldMayApply h) = some h ∧ s.heldSkips h = false)) ∧
  (∃ t k, Can (.taskRemoval t) (fun s => s.task t = some k ∧ k.gone)) ∧
  (∃ xs, Can (.captureFrameWritten false) (fun s => s.capture.st = 2 ∧ s.capture.frameAt (s.capture.start + s.capture.frames) = some xs ∧ s.capture.frames < s.capture.size ∧ s.capture.cmd = none ∧ s.capture.stopAt = none ∧ s.capture.oneShot = false)) :=
  ⟨⟨255, { cfg := {}, inboxDue := some (5, []) }, 5, [], taskUp { cfg := {}, inboxDue := some (5, []) }, by decide +kernel⟩,
   ⟨255, { cfg := { ip := 1 }, inboxDue := some (0, []), released := some 0 }, (5, { cfg := { ip := 1 }, inboxDue := some (0, []), released := some 0 }),
    { up with tasks := { up.tasks with tasks := [(5, { cfg := { ip := 1 }, inboxDue := some (0, []), released := some 0 }), (255, { cfg := { ip := 1 }, inboxDue := some (0, []), released := some 0 })] } }, by decide +kernel⟩,
   ⟨15, 255, { cfg := {} }, { (taskUp { cfg := {} }).setDesk 15 { st := .idle, enable := true } with tasks := { up.tasks with tasks := [(255, { cfg := {} })], lists := [(7, [255])] } }, by decide +kernel⟩,
   ⟨15, up.setDesk 15 { st := .idle, enable := true }, by decide +kernel⟩,
   ⟨1, 0, up.setDesk 1 { st := .idle, enable := true }, by decide +kernel⟩,
   ⟨255, { cfg := {}, released := some 5, st := .ready }, 5, taskUp { cfg := {}, released := some 5, st := .ready }, by decide +kernel⟩,
   ⟨255, { cfg := {}, released := some 5 }, 5, taskUp { cfg := {}, released := some 5 }, by decide +kernel⟩,
   ⟨255, { cfg := {}, released := some 5, st := .running }, 5, 15, (taskUp { cfg := {}, released := some 5, st := .running }).setDesk 15 { st := .running, task := some 255 }, by decide +kernel⟩,
   ⟨taskUp { cfg := {} }, 255, { cfg := {} }, by decide +kernel⟩,
   ⟨⟨.bell false 5, 0, 1⟩, { upIn .standby 1024 with tasks := { up.tasks with held := [⟨.bell false 5, 0, 1⟩] } }, by decide +kernel⟩,
   ⟨⟨.dma 3, 255, 1⟩, { taskUp { cfg := {} } with tasks := { up.tasks with tasks := [(255, { cfg := {} })], held := [⟨.dma 3, 255, 1⟩] } }, by decide +kernel⟩,
   ⟨255, { cfg := {}, detaching := true }, taskUp { cfg := {}, detaching := true }, by decide +kernel⟩,
   ⟨[7], { up with capture := { st := 2, length := 8, taps := [(0, 0)], start := 16, frames := 1, data := [((17, 0), 7)] } }, by decide +kernel⟩⟩

theorem wit_ShelfSlotsAreJudged :
  (∃ k image, Can (.flashSlotExamined k image) (fun s => k < s.shelves.length ∧ (s.slot k).examine ∧ (List.range k).any (fun i => (s.slot i).examine) = false ∧ (s.slot k).jobs = [])) ∧
  (∃ k x j rest, Can (.shelfLoadCopyEnd k x) (fun s => (s.slot k).jobs = j :: rest ∧ j.load ∧ s.jobWaits k j = false)) ∧
  (∃ (k : Nat) (x : ShelfCopy), k < 8 ∧ x.err) ∧
  (∃ k x j rest, Can (.shelfVerifyEnd k x) (fun s => (s.slot k).jobs = j :: rest ∧ j.load = false ∧ s.jobWaits k j = false)) ∧
  (∃ (s : State) (k : Nat) (x : ShelfCopy), (s.slot k).st = .verified ∧ x.err) ∧
  (∃ (s : State) (k : Nat) (x : ShelfCopy), (s.slot k).st = .active ∧ x.err) ∧
  (∃ (s : State) (k : Nat) (x : ShelfCopy), (s.slot k).st = .failed ∧ x.err = false ∧ s.verifyCode k x = 0xFF) :=
  ⟨⟨7, [], slotUp 7 { examine := true }, by decide +kernel⟩,
   ⟨3, ⟨[], false⟩, jobOf true, [], slotUp 3 { st := .loading, jobs := [jobOf true] }, by decide +kernel⟩,
   ⟨7, ⟨[], true⟩, by decide +kernel⟩,
   ⟨8, ⟨[], false⟩, jobOf false, [], slotUp 8 { st := .verified, jobs := [jobOf false] }, by decide +kernel⟩,
   ⟨slotUp 8 { st := .verified }, 8, ⟨[], true⟩, by decide +kernel⟩,
   ⟨slotUp 8 { st := .active }, 8, ⟨[], true⟩, by decide +kernel⟩,
   ⟨slotUp 7 { st := .failed }, 7, ⟨shelfImg 0, false⟩, by decide +kernel⟩⟩

theorem wit_OverrideMuteAndSdacAct :
  (Can .overrideNChange (fun s => s.ovr.ovrEff ∧ s.ovr.ovrOn = false)) ∧
  (Can .overrideNChange (fun s => s.ovr.ovrEff = false ∧ s.ovr.ovrOn)) ∧
  (Can .overrideNChange (fun s => s.ovr.ovrEff = s.ovr.ovrOn)) ∧
  (Can .muteNChange (fun s => s.ovr.muteEff ∧ s.ovr.muteOn = false)) ∧
  (Can .muteNChange (fun s => s.ovr.muteEff = false ∧ s.ovr.muteOn)) ∧
  (∃ on, Can (.forceOvrWrite on) (fun s => s.pwr.mode.awake)) ∧
  (∃ on, Can (.forceMuteWrite on) (fun s => s.pwr.mode.awake ∧ (s.reg Reg.SPK_OVR_CMD).toNat < 4)) ∧
  (Can .sdacLoadNFall (fun s => s.pwr.mode.awake)) ∧
  (∃ c : SdacCh, c.stream = false ∧ c.pending = none ∧ c.holdRange ≠ c.range) ∧
  (∃ k : Fin 8, Can (.sdacRangeClampEnd k) (fun _ => True)) ∧
  (∃ k : Fin 8, Can (.sdacCurrentLimit k) (fun s => (s.sdacCh k.val).ilim = false)) ∧
  (∃ k : Fin 8, Can (.sdacCurrentLimitEnd k) (fun _ => True)) :=
  ⟨⟨ovrUp { ovrPin := true }, by decide +kernel⟩,
   ⟨ovrUp { ovrOn := true }, by decide +kernel⟩,
   ⟨up, by decide +kernel⟩,
   ⟨ovrUp { forceMute := true }, by decide +kernel⟩,
   ⟨ovrUp { muteOn := true }, by decide +kernel⟩,
   ⟨true, up, by decide +kernel⟩,
   ⟨true, up, by decide +kernel⟩,
   ⟨up, by decide +kernel⟩,
   ⟨{ holdRange := true }, by decide +kernel⟩,
   ⟨7, up, trivial⟩,
   ⟨7, up, by decide +kernel⟩,
   ⟨7, up, trivial⟩⟩

theorem wit_StepRunsFront :
  (∃ (c : Instr) (s : State) (rest : List Instr), s.pending = c :: rest) :=
  ⟨.ppsInPulse, { up with pending := [.ppsInPulse] }, [], rfl⟩

theorem wit_MemoriesReadBack :
  (∃ s : State, Memory.wf s.dram = true ∧ Memory.wf s.host.mem = true) ∧
  (∃ s : State, Memory.wf s.host.mem = true) ∧
  (∃ s : State, Memory.wf s.dram = true) ∧
  (∃ s : State, Memory.wf s.host.mem = true) :=
  ⟨⟨up, by decide +kernel⟩,
   ⟨up, rfl⟩,
   ⟨up, rfl⟩,
   ⟨up, rfl⟩⟩

theorem wit_EventsSetTheirBit :
  (∃ off k : Nat, noCounter off ∧ k < 32) ∧
  (∃ (s : State) (o j : Nat), noCounter o ∧ bitOf (s.reg o) j = true) ∧
  (∃ (s : State) (off k : Nat), bitOf (s.reg off) k = true) :=
  ⟨⟨Reg.TT_EVT, 31, ⟨by decide +kernel, by decide +kernel⟩, by decide +kernel⟩,
   ⟨up.setReg Reg.TT_EVT 1, Reg.TT_EVT, 0, ⟨by decide +kernel, by decide +kernel⟩, by decide +kernel⟩,
   ⟨up.setReg Reg.TT_EVT 1, Reg.TT_EVT, 0, by decide +kernel⟩⟩

theorem wit_CountersSaturate :
  (∃ (s : State) (off n : Nat), 0 < n ∧ (s.reg off).toNat + n < 0xFFFFFFFF) ∧
  (∃ (s : State) (off : Nat), noCounter off ∧ s.reg off = 0xFFFFFFFF#32) ∧
  (∃ (s : State) (off n so b e eb : Nat), 0 < n ∧ 0xFFFFFFFF ≤ (s.reg off).toNat + n ∧ satOf off = some (so, b, e, eb) ∧ noCounter so ∧ b < 32) ∧
  (∃ (s : State) (off n so b e eb : Nat), satOf off = some (so, b, e, eb) ∧ so ≠ off ∧ 0 < n ∧ bitOf (s.reg so) b = true) :=
  ⟨⟨up.setReg Reg.TT_EXPIRED 0xFFFFFFFD, Reg.TT_EXPIRED, 1, by decide +kernel⟩,
   ⟨up.setReg Reg.TT_EXPIRED 0xFFFFFFFF, Reg.TT_EXPIRED, ⟨by decide +kernel, by decide +kernel⟩, by decide +kernel⟩,
   ⟨up.setReg Reg.TT_EXPIRED 0xFFFFFFFE, Reg.TT_EXPIRED, 1, _, _, _, _, by decide +kernel, by decide +kernel, rfl, ⟨by decide +kernel, by decide +kernel⟩, by decide +kernel⟩,
   ⟨up.setReg Reg.TT_STAT_SAT 0xFFFFFFFF, Reg.TT_EXPIRED, 1, _, _, _, _, rfl, by decide +kernel, by decide +kernel, by decide +kernel⟩⟩

theorem wit_StepIdles : (∃ s : State, s.pending = []) := ⟨up, rfl⟩

theorem wit_StepKeepsSound : (∃ s t : State, s.sound ∧ s.pending ≠ [] ∧ step s = .next t) :=
  ⟨{ up with pending := [.ppsInPulse] }, _, ⟨⟨rfl, rfl, rfl⟩, nofun⟩, nofun, rfl⟩

theorem wit_ExecLeavesQueue : (∃ (i : Instr) (s t : State), exec i s = .next t) := ⟨.ppsInPulse, up, _, rfl⟩


/-! ### Facts of one command or one operation, with values taken from the manual -/

/-- The state that a command answers. -/
def after (i : Instr) (s : State) : State := match exec i s with
  | .next t => t
  | _ => s

/-- R4: ties go away from zero. -/
theorem test_rounding : rdiv 3 2 = 2 ∧ rdiv (-3) 2 = -2 ∧ rdiv 5 4 = 1 ∧ rdiv (-5) 4 = -1 := by decide
/-- R27: a word of exactly +1.0 saturates by one least significant bit. -/
theorem test_pcm_one : pcmOut 24 (2 ^ 27) = 2 ^ 23 - 1 ∧ pcmOut 24 (-2 ^ 27) = -2 ^ 23 := by decide
/-- R5: code 0 is off, code 1,920 is 0 dB, 2,304 is the last. -/
theorem test_gain_codes : gain427 0 = 0 ∧ gain427 1920 = 2 ^ 27 ∧ codeOk 2304 = true ∧ codeOk 2305 = false := by decide +kernel
/-- The check value of CRC-32C. -/
theorem test_crc : crc32c [0x31, 0x32, 0x33, 0x34, 0x35, 0x36, 0x37, 0x38, 0x39] = 0xE3069283 := by decide +kernel
/-- R34, R411: a block is 16 samples, a control frame 128; the next multiple is after the present period. -/
theorem test_next_multiple : up.nextMul 16 = 1040 ∧ up.nextMul 128 = 1152 ∧ upTo 16 1024 = 1024 := by decide +kernel
/-- R356: the result is bytes 16–23 of the entry. -/
theorem test_nop_result : ((after (.nop (entryAt [(16, 0x34), (23, 0x12)])) up).host.ready.any (fun p => match p.2 with
    | .completion _ st res _ => st == 0 && res == 0x1200000000000034
    | .record _ _ _ => false)) = true := by decide +kernel
/-- R350, R356: a byte that must be 0 gives BAD_PARAM, 0x11. -/
theorem test_gain_bad_code : ((after (.objGain (entryAt [(20, 1), (21, 9)])) up).host.ready.any (fun p => match p.2 with
    | .completion _ st _ _ => st == 0x11
    | .record _ _ _ => false)) = true := by decide +kernel
/-- R206: FEED_FLAGS bit 3 is SUM_IN, bit 4 SUM_OUT; bit 1 is reserved. -/
theorem test_feed_flags : ((parseFeed 48000 (entryByte (entryAt [(22, 0x18)]))).map (fun r => (r.2.sumIn, r.2.sumOut))) = some (true, true) ∧
    parseFeed 48000 (entryByte (entryAt [(22, 2)])) = none := by decide +kernel
/-- R10, R11: W1C clears the bits written 1, but for those set in the same cycle. -/
theorem test_w1c : (after (.w1cWrite Reg.TT_EVT 0x7 0) (up.setReg Reg.TT_EVT 0xF)).reg Reg.TT_EVT = 8 ∧
    (after (.w1cWrite Reg.TT_EVT 0x7 2) (up.setReg Reg.TT_EVT 0xF)).reg Reg.TT_EVT = 0xA := by decide +kernel
/-- R345: SQ_TAIL moves the submission tail. -/
theorem test_sq_tail : ((after (.sqTailWrite 0 5) up).queue 0).sqTail = 5 := by decide +kernel
/-- R9: reserved bits of a register are not stored. -/
theorem test_reserved_bits : (after (.registerWrite .host Reg.TT_EVT_EN 0xFFFFFFFF) up).reg Reg.TT_EVT_EN = 0xFF := by decide +kernel
/-- R244: ADD wraps modulo 2³². -/
theorem test_desk_add_wraps : (((after (.dAdd 15 (BitVec.ofNat 56 (3 * 2 ^ 51 + 2 ^ 46 + 2 * 2 ^ 41)))
    (deskUp { s := [0, 0xFFFFFFFF, 2] ++ List.replicate 29 0 })).desk 15).sreg 3) = 1 := by decide +kernel
/-- R244: SAR keeps the sign. -/
theorem test_desk_sar : (((after (.dSar 15 (BitVec.ofNat 56 (3 * 2 ^ 51 + 2 ^ 46 + 2 * 2 ^ 41)))
    (deskUp { s := [0, 0x80000000, 4] ++ List.replicate 29 0 })).desk 15).sreg 3) = 0xF8000000 := by decide +kernel
/-- A vector sum saturates, and each lane that saturates counts. -/
theorem test_desk_vadd_saturates :
    let t := after (.dVadd 15 (BitVec.ofNat 56 (2 * 2 ^ 51 + 2 ^ 41)))
      (deskUp { v := List.replicate 8 0x7FFFFFFF ++ List.replicate 8 1 ++ List.replicate 240 0 })
    (t.desk 15).lane 2 7 = 0x7FFFFFFF ∧ t.reg (dskReg Reg.DSK_Dn_SAT 15) = 8 := by decide +kernel
/-- R248: a CALL pushes the index of the next instruction, RET pops it. -/
theorem test_desk_call : (((after (.dCall 15 9) (deskUp { pc := 4 })).desk 15).pc) = 9 ∧ ((after (.dCall 15 9) (deskUp { pc := 4 })).desk 15).calls = [5] := by
  decide +kernel
/-- JUMP: 32 bytes for each instruction, backwards with a negative offset. -/
theorem test_dma_jump : ((after (.dmaJump 31 (BitVec.ofNat 256 (5 + (2 ^ 32 - 1) * 2 ^ 32))) (dmaUp 31 { st := .running, pc := 64 })).dch 31).pc = 32 := by
  decide +kernel
/-- R280: a group that was ACQUIRING locks. -/
theorem test_group_lock : ((after (.groupLock 15) (sapUp 15 { st := .acquiring })).group 15).st = .locked := by decide +kernel
/-- R294: a change of link sets NET_EVT bit 0. -/
theorem test_net_link : bitOf ((after (.netLinkChange 0 .down) netUpSt).reg Reg.NET_EVT) 0 = true := by decide +kernel
/-- R305: SEQ is compared modulo 2³². -/
theorem test_trosyn_seq : seqLater 0 0xFFFFFFFF = true ∧ seqLater 5 5 = false ∧ seqLater 4 5 = false := by decide +kernel
/-- R315: a position that repeats fails the roll call with code 3. -/
theorem test_roll_repeat : ({ ring := false, fs := 48000, recs := [record 7, record 7], hops := [100] } : Roll).fail = 3 := by decide +kernel
/-- R397: an interval whose refreshes are not all issued adds one to the debt. -/
theorem test_refresh_debt : ((after (.refreshInterval 3 false 0) up).subChan 3).debt = 1 := by decide +kernel
/-- R463: the next sample period's MSC is one more. -/
theorem test_sample_period : (after (.samplePeriodStart quietInput) (pwrUp (fun p => { p with atticUp := false }))).msc = 1025 := by decide +kernel
/-- R72: a NOTIFY bell sets TT_EVT.BELL, bit 0. -/
theorem test_bell_notify : bitOf ((after (.bellRing false 5) (bellsUp [(5, bellOf 0 1024)])).reg Reg.TT_EVT) 0 = true := by decide +kernel
/-- R95, R96: an image with a valid GEOMETRY section passes; its CRC decides. -/
theorem test_shelf_image : up.verifyImage 3 (listByte (shelfImg 0)) 320 = 0xFF ∧ up.verifyImage 3 (listByte (shelfImg 1)) 320 = 0xFE := by decide +kernel
/-- R427: the key 0xA5 starts a burn in SETUP, another does not. -/
theorem test_fuse_key : (after (.fuseBurnKeyHash 0xA5) up).pwr.fuses.busy = some 1 ∧ (after (.fuseBurnKeyHash 0xA4) up).pwr.fuses.busy = none := by
  decide +kernel
/-- R457: code 0x00 answers SYS_ID little-endian, then 0xB0. -/
theorem test_smbus_id : (after .smbusReadId up).pwr.smb = some [0x10, 0x64, 0x47, 0x4A, 0xB0] := by decide +kernel
/-- R441: an enabled event raises the vector of its block; R18 of the reset values: TT_EVT_EN resets to 0xBE. -/
theorem test_reset_values : State.reset.reg Reg.TT_EVT_EN = 0xBE ∧ State.reset.reg Reg.SYS_ID = 0x4A476410 := by decide +kernel

end Sys2Proof.Tests
end

section
/-!
PROOFS for the scope family (R8–R12, R435–R444): counters that saturate, register writes by the type of the bit, and
64-bit pairs that go through latches.
-/

namespace Sys2Proof.Machine

/-! ### Counters (R8, R443) -/

/-- A STAT_SAT bit that is set reports nothing; one that is clear is set and reports its event (R443). -/
theorem applyFxF_sat (fuel : Nat) (s : State) (so b e eb : Nat) :
    applyFxF (fuel + 1) s (.sat so b e eb) =
      if bitOf (s.reg so) b then s else applyFxF fuel (s.orReg so (2 ^ b)) (.evt e eb) := rfl

@[simp] theorem State.count_zero (s : State) (off : Nat) : s.count off 0 = s := rfl

theorem State.count_of_lt {s : State} {off n : Nat} (hn : 0 < n) (h : (s.reg off).toNat + n < 0xFFFFFFFF) :
    s.count off n = s.setReg off (word ((s.reg off).toNat + n)) := by
  have hmin : min ((s.reg off).toNat + n) 0xFFFFFFFF = (s.reg off).toNat + n := by omega
  unfold State.count State.fx
  rw [applyFxF]
  simp only [if_neg (Nat.ne_of_gt hn), hmin, if_neg (Nat.ne_of_lt h)]

theorem State.count_of_ge {s : State} {off n so b e eb : Nat} (hn : 0 < n) (h : 0xFFFFFFFF ≤ (s.reg off).toNat + n)
    (hs : satOf off = some (so, b, e, eb)) :
    s.count off n = applyFxF 9 (s.setReg off 0xFFFFFFFF#32) (.sat so b e eb) := by
  unfold State.count State.fx
  conv => lhs; rw [applyFxF]
  simp only [if_neg (Nat.ne_of_gt hn), Nat.min_eq_right h, hs, if_pos]

theorem State.count_of_ge_of_none {s : State} {off n : Nat} (hn : 0 < n) (h : 0xFFFFFFFF ≤ (s.reg off).toNat + n)
    (hs : satOf off = none) : s.count off n = s.setReg off 0xFFFFFFFF#32 := by
  unfold State.count State.fx
  rw [applyFxF]
  simp only [if_neg (Nat.ne_of_gt hn), Nat.min_eq_right h, hs, if_pos]

theorem State.bitOf_orReg (s : State) (off : Nat) {b : Nat} (hb : b < 32) :
    bitOf ((s.orReg off (2 ^ b)).reg off) b = true := by
  unfold State.orReg
  rw [State.reg_setReg, if_pos rfl, bitOf, BitVec.getLsbD_or, BitVec.getLsbD_ofNat, Nat.testBit_two_pow_self]
  simp [hb]

/-- A report of saturation leaves its STAT_SAT bit set. -/
theorem applyFxF_sat_bit {so b : Nat} (hso : noCounter so) (hb : b < 32) (fuel : Nat) (s : State) (e eb : Nat) :
    bitOf ((applyFxF (fuel + 1) s (.sat so b e eb)).reg so) b = true := by
  rw [applyFxF_sat]
  split
  · assumption
  · exact applyFxF_keepsBit hso _ _ _ trivial (s.bitOf_orReg so hb)

theorem eq_allOnes_of_bitOf {w : Word} (h : ∀ k < 32, bitOf w k = true) : w = 0xFFFFFFFF#32 := by
  refine BitVec.eq_of_getLsbD_eq (y := BitVec.allOnes 32) fun k hk => ?_
  rw [BitVec.getLsbD_allOnes, decide_eq_true hk]
  exact h k hk

/-- A chain of reports that counts nothing in a register leaves it at 0xFFFF_FFFF. -/
theorem applyFxF_keepsOnes {off : Nat} (ho : noCounter off) (fuel : Nat) {s : State} {f : Fx} (hf : f.spares off)
    (h : s.reg off = 0xFFFFFFFF#32) : (applyFxF fuel s f).reg off = 0xFFFFFFFF#32 := by
  refine eq_allOnes_of_bitOf fun k hk => applyFxF_keepsBit ho fuel s f hf ?_
  rw [h]
  exact (BitVec.getLsbD_allOnes (v := 32)).trans (decide_eq_true hk)

theorem State.count_keepsOnes {s : State} {off : Nat} (n : Nat) (ho : noCounter off) (h : s.reg off = 0xFFFFFFFF#32) :
    (s.count off n).reg off = 0xFFFFFFFF#32 := by
  rcases Nat.eq_zero_or_pos n with rfl | hn
  · exact h
  · have hge : 0xFFFFFFFF ≤ (s.reg off).toNat + n := by rw [h]; exact Nat.le_add_right _ _
    cases hs : satOf off with
    | none => simp [State.count_of_ge_of_none hn hge hs]
    | some x =>
      obtain ⟨so, b, e, eb⟩ := x
      rw [State.count_of_ge hn hge hs]
      exact applyFxF_keepsOnes ho _ trivial (by simp)

theorem State.count_of_sticky {s : State} {off n so b e eb : Nat} (hs : satOf off = some (so, b, e, eb)) (hne : so ≠ off)
    (hn : 0 < n) (hb : bitOf (s.reg so) b = true) :
    s.count off n = s.setReg off (word (min ((s.reg off).toNat + n) 0xFFFFFFFF)) := by
  rcases Nat.lt_or_ge ((s.reg off).toNat + n) 0xFFFFFFFF with h | h
  · rw [State.count_of_lt hn h, Nat.min_eq_left (Nat.le_of_lt h)]
  · rw [State.count_of_ge hn h hs, applyFxF_sat, State.reg_setReg, if_neg (Ne.symm hne), if_pos hb, Nat.min_eq_right h]

/-! ### The rows of register writes (R435, R436) -/

/-- SMB_ALERT_N stays where a write changes nothing of what it reports. -/
theorem watched_of_same {k : State → State} {s : State} (hf : (k s).faultLow = s.faultLow)
    (ht : (k s).thermNow = s.thermNow) : watched k s = k s := by
  unfold watched
  exact if_pos ⟨hf, ht⟩

theorem watched_of_fixed {k : State → State} {s : State} (h : k s = s) : watched k s = s := by
  rw [watched_of_same (by rw [h]) (by rw [h]), h]

theorem barWrite_asleep {k : State → State} {s : State} (h : s.pwr.mode.awake = false) : barWrite k s = s := by
  unfold barWrite
  rw [h]
  rfl

theorem barWrite_of_fixed {k : State → State} {s : State} (h : k s = s) : barWrite k s = s := by
  unfold barWrite
  rw [h, ite_self]

section
variable {off : Nat} {k : State → State} {s : State}

theorem writeRow_refused (hd : inDbg off = true) (hf : s.factory = true) :
    writeRow off k s = .refused .factoryTestBlock := if_pos ⟨hd, hf⟩

theorem writeRow_awake {eff : State → State} (hd : ¬(inDbg off = true ∧ s.factory = true))
    (ha : s.pwr.mode.awake = true) (h : k s = eff s) : writeRow off k s = .next (watched eff s) := by
  unfold writeRow watched
  rw [if_neg hd, barWrite_awake ha, h]

theorem writeRow_asleep (hd : ¬(inDbg off = true ∧ s.factory = true)) (ha : s.pwr.mode.awake = false) :
    writeRow off k s = .next s := by
  unfold writeRow
  rw [if_neg hd, watched_of_fixed (barWrite_asleep ha)]

theorem writeRow_of_fixed (hd : ¬(inDbg off = true ∧ s.factory = true)) (h : k s = s) :
    writeRow off k s = .next s := by
  unfold writeRow
  rw [if_neg hd, watched_of_fixed (barWrite_of_fixed h)]

end

theorem inDbg_of_lt {off : Nat} (h : off < 0x100000) : inDbg off = false := decide_eq_false (by omega)

/-- An offset below the DBG block is outside the factory test block. -/
theorem not_factory_of_lt {off : Nat} (s : State) (h : off < 0x100000) : ¬(inDbg off = true ∧ s.factory = true) := by
  simp [inDbg_of_lt h]

/-! ### What the write instructions execute -/

theorem exec_w1cWrite (off : Nat) (v same : Word) (s : State) :
    exec (.w1cWrite off v same) s = writeRow off (w1c off v same) s := rfl

theorem exec_eventEnableWrite (off : Nat) (v : Word) (s : State) :
    exec (.eventEnableWrite off v) s = writeRow off (enableWrite off v) s := rfl

theorem exec_lowWordRead (m : Master) (off : Nat) (s : State) :
    exec (.lowWordRead m off) s = execLowWordRead m off s := rfl

theorem exec_clearOnRead (off : Nat) (s : State) : exec (.clearOnRead off) s = execClearOnRead off s := rfl

theorem exec_read_refused {m : Master} {off : Nat} {i : Instr} {s : State}
    (hi : i ∈ [Instr.lowWordRead m off, .clearOnRead off]) (hd : inDbg off = true) (hf : s.factory = true) :
    exec i s = .refused .factoryTestBlock := by
  simp only [List.mem_cons, List.not_mem_nil, or_false] at hi
  obtain rfl | rfl := hi
  · rw [exec_lowWordRead, execLowWordRead, if_pos ⟨hd, hf⟩]
  · rw [exec_clearOnRead, execClearOnRead, if_pos ⟨hd, hf⟩]

/-- A write by a master: without effect on a register out of the master's reach (R367). -/
def reachWrite (m : Master) (off : Nat) (v : Word) (s : State) : State := if mayReach m off then writeReg false m off v s else s

/-- The three writes by a master do the same. -/
theorem exec_reachWrite {m : Master} {off : Nat} {v : Word} {i : Instr}
    (hi : i ∈ [Instr.lowWordWrite m off v, .highWordWrite m off v, .registerWrite m off v]) (s : State) :
    exec i s = writeRow off (reachWrite m off v) s := by
  simp only [List.mem_cons, List.not_mem_nil, or_false] at hi
  obtain rfl | rfl | rfl := hi <;> rfl

theorem exec_reachWrite_awake {m : Master} {off : Nat} {v : Word} {i : Instr} {s : State}
    (hi : i ∈ [Instr.lowWordWrite m off v, .highWordWrite m off v, .registerWrite m off v])
    {eff : State → State} (hb : off < 0x100000) (ha : s.pwr.mode.awake = true) (hr : mayReach m off = true)
    (h : writeReg false m off v s = eff s) : exec i s = .next (watched eff s) := by
  rw [exec_reachWrite hi]
  exact writeRow_awake (not_factory_of_lt s hb) ha ((if_pos hr).trans h)

theorem exec_reachWrite_barred {m : Master} {off : Nat} {v : Word} {i : Instr} {s : State}
    (hi : i ∈ [Instr.lowWordWrite m off v, .highWordWrite m off v, .registerWrite m off v])
    (hd : ¬(inDbg off = true ∧ s.factory = true)) (hr : ¬mayReach m off = true) : exec i s = .next s := by
  rw [exec_reachWrite hi]
  exact writeRow_of_fixed hd (if_neg hr)

/-- Every register write is a write row. -/
theorem exec_eq_writeRow {m : Master} {off : Nat} {v same : Word} {i : Instr}
    (hi : i ∈ [Instr.w1cWrite off v same, .eventEnableWrite off v, .lowWordWrite m off v, .highWordWrite m off v,
      .registerWrite m off v]) : ∃ k, ∀ s, exec i s = writeRow off k s := by
  rcases List.mem_cons.mp hi with rfl | hi
  · exact ⟨_, exec_w1cWrite off v same⟩
  rcases List.mem_cons.mp hi with rfl | hi
  · exact ⟨_, exec_eventEnableWrite off v⟩
  exact ⟨_, exec_reachWrite hi⟩

/-! ### W1C bits and plain registers (R10, R11) -/

theorem w1c_of_no_event {off : Nat} {r : RegRow} (v same : Word) (s : State) (hr : regRow off = some r)
    (he : evtRow off = none) :
    w1c off v same s =
      s.setReg off ((s.reg off &&& ~~~(v &&& word r.w1c)) ||| (v &&& word r.w1c &&& same) ||| s.standing off) := by
  unfold w1c
  rw [hr, he]

theorem setBits_zero : setBits 0#32 = [] := by decide

theorem w1c_of_none_same {off : Nat} {r : RegRow} (v : Word) (s : State) (hr : regRow off = some r) :
    w1c off v 0 s = s.setReg off ((s.reg off &&& ~~~(v &&& word r.w1c)) ||| s.standing off) := by
  unfold w1c
  rw [hr]
  cases evtRow off with
  | none => simp
  | some e => simp [setBits_zero]

theorem enableWrite_eq {off : Nat} {e : EvtRow} {r : RegRow} (v : Word) (s : State) (he : evtRowByEn off = some e)
    (hr : regRow off = some r) :
    enableWrite off v s = (setBits ((v &&& word r.rw) &&& ~~~(s.reg off) &&& s.reg e.evt)).foldl (fun s b => s.arm e.evt b)
      (s.setReg off (v &&& word r.rw)) := by
  unfold enableWrite
  rw [he, hr]

theorem store_eq {off : Nat} {r : RegRow} (v : Word) (s : State) (hr : regRow off = some r) (hw : r.rw ≠ 0) :
    store off v s = s.setReg off ((s.reg off &&& ~~~(word r.rw)) ||| (v &&& word r.rw)) := by
  unfold store
  rw [hr]
  exact if_neg hw

/-- The timetable, memory and service-converter blocks hold plain registers alone. -/
theorem writePlain_eq_store {off : Nat} (h : off / 0x10000 = 3 ∨ off / 0x10000 = 6 ∨ off / 0x10000 = 15)
    (taken : Bool) (v : Word) (s : State) : writePlain taken off v s = store off v s := by
  unfold writePlain
  obtain h | h | h := h <;> rw [h] <;> rfl

/-! ### Which register a write or a read is of (R12, R438) -/

section
variable {off lo : Nat} (m : Master) (v : Word) (s : State)

theorem writeReg_plain (hb : off < 0x100000) (hl : isWriteLow off = false) (hh : isWriteLow (off - 4) = false)
    (he : evtRowByEn off = none) {r : RegRow} (hr : regRow off = some r) (hw : r.w1c = 0) :
    writeReg false m off v s = writePlain false off v s := by
  simp [writeReg, Nat.not_le.mpr hb, hl, hh, he, hr, hw]

theorem writeReg_low (hb : off < 0x100000) (hl : isWriteLow off = true) :
    writeReg false m off v s = lowWrite m off v s := by
  simp [writeReg, Nat.not_le.mpr hb, hl]

theorem writeReg_high (hb : lo + 4 < 0x100000) (hl : isWriteLow lo = true) (hh : isWriteLow (lo + 4) = false) :
    writeReg false m (lo + 4) v s = pairStore lo ((latchGet s.wlatch (lo, m)).toNat + 2 ^ 32 * v.toNat) s := by
  simp [writeReg, Nat.not_le.mpr hb, hl, hh, highWrite]

theorem readReg_low (hb : off < 0x100000) (hl : isLow off = true) : readReg m off s = lowRead m off s := by
  simp [readReg, Nat.not_le.mpr hb, hl]

theorem readReg_high (hb : lo + 4 < 0x100000) (hl : isLow lo = true) (hh : isLow (lo + 4) = false) :
    readReg m (lo + 4) s = (latchGet s.rlatch (lo, m), s) := by
  simp [readReg, Nat.not_le.mpr hb, hl, hh]

theorem readReg_plain (hb : off < 0x100000) (hl : isLow off = false) (hh : isLow (off - 4) = false) :
    readReg m off s = ((s.live off).getD (s.reg off), clearRead off s) := by
  simp [readReg, Nat.not_le.mpr hb, hl, hh]

end

@[simp] theorem latchGet_latchSet (l : List ((Nat × Master) × Word)) (k : Nat × Master) (v : Word) :
    latchGet (latchSet l k v) k = v := by
  simp [latchGet, latchSet]

@[simp] theorem State.answered_rlatch (s : State) (m : Master) (v : Word) : (s.answered m v).rlatch = s.rlatch := by
  unfold State.answered
  split <;> rfl

theorem State.answered_host (s : State) (v : Word) : (s.answered .host v).host.answer = some v := rfl

/-- An answer changes nothing but what the host's last read returned. -/
theorem State.answered_frame (s : State) (m : Master) (v : Word) :
    s.answered m v = { s with host := { s.host with answer := (s.answered m v).host.answer } } := by
  cases m <;> rfl

theorem exec_lowWordRead_low {m : Master} {off : Nat} {s : State} (hb : off < 0x100000) (hr : s.readable = true)
    (hm : mayReach m off = true) (hl : isLow off = true) :
    exec (.lowWordRead m off) s = .next ((lowRead m off s).2.answered m (word (s.pairVal off))) := by
  rw [exec_lowWordRead, execLowWordRead, if_neg (not_factory_of_lt s hb), hr, hm, readReg_low m s hb hl]
  rfl

theorem exec_clearOnRead_plain {off : Nat} {s t : State} (hb : off < 0x100000) (hr : s.readable = true)
    (hl : isLow off = false) (hh : isLow (off - 4) = false) (hc : clearRead off s = t) :
    exec (.clearOnRead off) s = .next (t.answered .host ((s.live off).getD (s.reg off))) := by
  rw [exec_clearOnRead, execClearOnRead, if_neg (not_factory_of_lt s hb), if_pos hr, readReg_plain .host s hb hl hh, hc]

/-! ### The statements of the family -/

/-- Settles O59: a count that stays below the ceiling only stores; one that reaches it stores 0xFFFF_FFFF and reports to
STAT_SAT, and no later link of that chain clears a bit. -/
theorem countersSaturate : Obligations.CountersSaturate := by
  unfold Obligations.CountersSaturate
  refine ⟨fun s off n hn h => State.count_of_lt hn h, fun s off n ho h => State.count_keepsOnes n ho h, ?_,
    fun s off n so b e eb hs hne hn hb => State.count_of_sticky hs hne hn hb⟩
  intro s off n so b e eb hn hge hs hso hb
  rw [State.count_of_ge hn hge hs]
  exact applyFxF_sat_bit hso hb _ _ _ _

/-- Settles O22, clause by clause: each write is a write row, whose meaning is given by the type of the bit. -/
theorem registerWritesStore : Obligations.RegisterWritesStore := by
  unfold Obligations.RegisterWritesStore
  refine ⟨?_, ?_, ?_, ?_, ?_, ?_⟩
  · rintro off v r s ⟨ha, hd, hr⟩
    rw [exec_w1cWrite]
    exact writeRow_awake hd ha (w1c_of_none_same v s hr)
  · rintro off v same r s ⟨ha, hd, hr, he⟩
    rw [exec_w1cWrite]
    exact writeRow_awake hd ha (w1c_of_no_event v same s hr he)
  · rintro off v e r s ⟨ha, hd, he, hr⟩
    rw [exec_eventEnableWrite]
    exact writeRow_awake hd ha (enableWrite_eq v s he hr)
  · rintro off v r s ⟨ha, hr, hblock, hl, hh, he, hw, hrw⟩
    have hb : off < 0x100000 := by omega
    refine exec_reachWrite_awake (m := .host) (v := v) (by simp) hb ha rfl ?_
    rw [writeReg_plain _ v s hb hl hh he hr hw, writePlain_eq_store hblock, store_eq v s hr hrw]
  · rintro m off v same i hi s ⟨ha, hd⟩
    obtain ⟨k, hk⟩ := exec_eq_writeRow hi
    rw [hk, writeRow_asleep hd ha, id]
  · intro m off v same i hi s hd hf
    rcases (List.mem_append (s := [_, _, _, _, _]) (t := [_, _])).mp hi with hi | hi
    · obtain ⟨k, hk⟩ := exec_eq_writeRow hi
      rw [hk, writeRow_refused hd hf]
    · exact exec_read_refused hi hd hf

/-- Settles O23, clause by clause: which register a read or a write is of, and what the latch then holds. -/
theorem pairsGoThroughLatches : Obligations.PairsGoThroughLatches := by
  unfold Obligations.PairsGoThroughLatches
  refine ⟨?_, ?_, ?_, fun s hr => exec_clearOnRead_plain (by decide) hr (by decide) (by decide) rfl,
    fun s hr => exec_clearOnRead_plain (by decide) hr (by decide) (by decide) rfl,
    fun s hr => exec_clearOnRead_plain (by decide) hr (by decide) (by decide) rfl, ?_⟩
  · rintro m off s ⟨hr, hm, hb, hl, hh⟩
    refine ⟨_, exec_lowWordRead_low (by omega) hr hm hl, ?_, ?_, ?_⟩
    · rintro rfl
      exact State.answered_host _ _
    · simp [readReg_high m _ (by omega) hl hh, lowRead]
    · rw [State.answered_rlatch]
      exact State.answered_frame _ _ _
  · rintro m off v s ⟨ha, hm, hb, hl⟩
    refine ⟨lowWrite m off v s, ?_, ?_, rfl⟩
    · rw [exec_reachWrite_awake (m := m) (v := v) (by simp) hb ha hm (writeReg_low m v s hb hl), watched_of_same rfl rfl]
    · exact latchGet_latchSet _ _ _
  · rintro m lo v s ⟨ha, hm, hb, hl, hh⟩
    exact exec_reachWrite_awake (m := m) (v := v) (by simp) hb ha hm (writeReg_high m v s hb hl hh)
  · rintro c off v i hi s ⟨-, hd, hc⟩
    exact exec_reachWrite_barred hi hd (by simp [mayReach, hc])

end Sys2Proof.Machine
end

section
/-!
PROOFS for the render-pipeline and ledger family (R30–R38, R440): the queue of waiting commands, the balance of the ledgers
and the canonical form of the memories over every step, and what a write of a select register captures.
-/

namespace Sys2Proof.Machine

/-! ### Every command, then every step (R30–R34) -/

/-- Every command leaves the queue alone and keeps `State.sound`, row by row of the command table. -/
theorem exec_keeps {i : Instr} {s t : State} (h : exec i s = .next t) : Keeps s t :=
  match i with
  | .nop _ => execNop_keeps h
  | .versionSet _ => execVersionSet_keeps h
  | .modeSet _ => execModeSet_keeps h
  | .shelfSwitch _ => execShelfSwitch_keeps h
  | .shelfLoad _ => execShelfLoad_keeps h
  | .shelfVerify _ => execShelfVerify_keeps h
  | .epochOpen _ => execEpochOpen_keeps h
  | .epochCommit _ => execEpochCommit_keeps h
  | .epochCancel _ => execEpochCancel_keeps h
  | .bellSet _ => execBellSet_keeps h
  | .bellCancel _ => execBellCancel_keeps h
  | .objConfig _ => execObjConfig_keeps h
  | .objPosition _ => execObjPosition_keeps h
  | .objGain _ => execObjGain_keeps h
  | .objEq _ => execObjEq_keeps h
  | .airSet _ => execAirSet_keeps h
  | .matrixSet _ => execMatrixSet_keeps h
  | .feedConfig _ => execFeedConfig_keeps h
  | .firLoad _ => execFirLoad_keeps h
  | .limiterSet _ => execLimiterSet_keeps h
  | .corridorSet _ => execCorridorSet_keeps h
  | .flowAdd _ => execFlowAdd_keeps h
  | .flowRemove _ => execFlowRemove_keeps h
  | .chainConfig _ => execChainConfig_keeps h
  | .taskCreate _ => execTaskCreate_keeps h
  | .taskSignal _ => execTaskSignal_keeps h
  | .taskCancel _ => execTaskCancel_keeps h
  | .dmaStart _ => execDmaStart_keeps h
  | .dmaAbort _ => execDmaAbort_keeps h
  | .dmaPause _ => execDmaPause_keeps h
  | .dmaResume _ => execDmaResume_keeps h
  | .captureStart _ => execCaptureStart_keeps h
  | .captureStop _ => execCaptureStop_keeps h
  | .replaySet _ => execReplaySet_keeps h
  | .ledgerSnapshot _ => execLedgerSnapshot_keeps h
  | .statsSnapshot _ => execStatsSnapshot_keeps h
  | .creditAudit _ => execCreditAudit_keeps h
  | .sdacWrite _ => execSdacWrite_keeps h
  | .sdacStrobe _ => execSdacStrobe_keeps h
  | .watchdogKick _ => execWatchdogKick_keeps h
  | .samplePeriodStart _ => execSamplePeriodStart_keeps h
  | .blockBoundary _ => execBlockBoundary_keeps h
  | .epochExpire _ => execEpochExpire_keeps h
  | .epochMemberStaged _ _ => execEpochMemberStaged_keeps h
  | .epochSplit _ => execEpochSplit_keeps h
  | .bellRing _ _ => execBellRing_keeps h
  | .geometryEvaluationDeadline _ => execGeometryEvaluationDeadline_keeps h
  | .pruneHoldEnd _ _ _ => execPruneHoldEnd_keeps h
  | .probeCapture => execProbeCapture_keeps h
  | .jumpCrossfadeEnd _ => execJumpCrossfadeEnd_keeps h
  | .xfadeDone => execXfadeDone_keeps h
  | .lockerDisable _ => execLockerDisable_keeps h
  | .firCrossfadeEnd _ => execFirCrossfadeEnd_keeps h
  | .alignFadeOutEnd _ => execAlignFadeOutEnd_keeps h
  | .pilotWindowEnd _ => execPilotWindowEnd_keeps h
  | .inboxWritten _ => execInboxWritten_keeps h
  | .taskDispatch _ => execTaskDispatch_keeps h
  | .taskCutoff _ => execTaskCutoff_keeps h
  | .runaway _ => execRunaway_keeps h
  | .heldPostApply => execHeldPostApply_keeps h
  | .taskRemoval _ => execTaskRemoval_keeps h
  | .captureFrameWritten _ => execCaptureFrameWritten_keeps h
  | .originStepApply => execOriginStepApply_keeps h
  | .slewEnd => execSlewEnd_keeps h
  | .mediaChangeover => execMediaChangeover_keeps h
  | .revertTimeout => execRevertTimeout_keeps h
  | .mscValidate => execMscValidate_keeps h
  | .mscInvalidate => execMscInvalidate_keeps h
  | .ptpSync _ _ => execPtpSync_keeps h
  | .ptpFollowUp _ _ => execPtpFollowUp_keeps h
  | .ptpDelayReq _ _ => execPtpDelayReq_keeps h
  | .ptpDelayResp _ _ => execPtpDelayResp_keeps h
  | .ptpAnnounce _ _ => execPtpAnnounce_keeps h
  | .ptpUnsupportedMessage _ => execPtpUnsupportedMessage_keeps h
  | .announceReceiptTimeout _ => execAnnounceReceiptTimeout_keeps h
  | .ptpSyncDue _ => execPtpSyncDue_keeps h
  | .ptpDelayReqDue _ => execPtpDelayReqDue_keeps h
  | .ptpAnnounceDue _ => execPtpAnnounceDue_keeps h
  | .ptpEventTransmitted _ _ => execPtpEventTransmitted_keeps h
  | .timeBaseLocked _ => execTimeBaseLocked_keeps h
  | .timeBaseUnlock _ => execTimeBaseUnlock_keeps h
  | .sourceLost _ => execSourceLost_keeps h
  | .ppsInPulse => execPpsInPulse_keeps h
  | .wclkMeasurement _ => execWclkMeasurement_keeps h
  | .holdoverExpiry => execHoldoverExpiry_keeps h
  | .xtalFault => execXtalFault_keeps h
  | .xtalReturn => execXtalReturn_keeps h
  | .atticTimeReload => execAtticTimeReload_keeps h
  | .atticClkPresent => execAtticClkPresent_keeps h
  | .atticClkAbsent => execAtticClkAbsent_keeps h
  | .tmbSnapGo => execTmbSnapGo_keeps h
  | .forceSecondary => execForceSecondary_keeps h
  | .forcePrimary => execForcePrimary_keeps h
  | .tmbMediaCfgWrite _ => execTmbMediaCfgWrite_keeps h
  | .tmbOriginWrite _ => execTmbOriginWrite_keeps h
  | .tmbTbCfgWrite _ _ => execTmbTbCfgWrite_keeps h
  | .tmbSetSecWrite _ _ => execTmbSetSecWrite_keeps h
  | .tmbHoldoverLimitWrite _ => execTmbHoldoverLimitWrite_keeps h
  | .flashSlotExamined _ _ => execFlashSlotExamined_keeps h
  | .shelfLoadCopyEnd _ _ => execShelfLoadCopyEnd_keeps h
  | .shelfVerifyEnd _ _ => execShelfVerifyEnd_keeps h
  | .overrideNChange => execOverrideNChange_keeps h
  | .muteNChange => execMuteNChange_keeps h
  | .forceOvrWrite _ => execForceOvrWrite_keeps h
  | .forceMuteWrite _ => execForceMuteWrite_keeps h
  | .sdacLoadNFall => execSdacLoadNFall_keeps h
  | .sdacRangeClampEnd _ => execSdacRangeClampEnd_keeps h
  | .sdacCurrentLimit _ => execSdacCurrentLimit_keeps h
  | .dNop _ _ => execDNop_keeps h
  | .dRetire _ _ => execDRetire_keeps h
  | .dBr _ _ => execDBr_keeps h
  | .dCall _ _ => execDCall_keeps h
  | .dRet _ _ => execDRet_keeps h
  | .dLoop _ _ => execDLoop_keeps h
  | .dRepeat _ _ => execDRepeat_keeps h
  | .dTrap _ _ => execDTrap_keeps h
  | .dSignal _ _ => execDSignal_keeps h
  | .dLi _ _ => execDLi_keeps h
  | .dAdd _ _ => execDAdd_keeps h
  | .dSub _ _ => execDSub_keeps h
  | .dAnd _ _ => execDAnd_keeps h
  | .dOr _ _ => execDOr_keeps h
  | .dXor _ _ => execDXor_keeps h
  | .dShl _ _ => execDShl_keeps h
  | .dShr _ _ => execDShr_keeps h
  | .dSar _ _ => execDSar_keeps h
  | .dMul _ _ => execDMul_keeps h
  | .dLds _ _ => execDLds_keeps h
  | .dSts _ _ => execDSts_keeps h
  | .dSetp _ _ => execDSetp_keeps h
  | .dSetm _ _ => execDSetm_keeps h
  | .dGetp _ _ => execDGetp_keeps h
  | .dVld _ _ => execDVld_keeps h
  | .dVst _ _ => execDVst_keeps h
  | .dVldb _ _ => execDVldb_keeps h
  | .dVins _ _ => execDVins_keeps h
  | .dVext _ _ => execDVext_keeps h
  | .dVadd _ _ => execDVadd_keeps h
  | .dVsub _ _ => execDVsub_keeps h
  | .dVmin _ _ => execDVmin_keeps h
  | .dVmax _ _ => execDVmax_keeps h
  | .dVabs _ _ => execDVabs_keeps h
  | .dVneg _ _ => execDVneg_keeps h
  | .dVmul _ _ => execDVmul_keeps h
  | .dVshl _ _ => execDVshl_keeps h
  | .dVsar _ _ => execDVsar_keeps h
  | .dVclr _ _ => execDVclr_keeps h
  | .dVmac _ _ => execDVmac_keeps h
  | .dVmsu _ _ => execDVmsu_keeps h
  | .dVmacm _ _ => execDVmacm_keeps h
  | .dFtap _ _ => execDFtap_keeps h
  | .dVsta _ _ => execDVsta_keeps h
  | .dBexp _ _ => execDBexp_keeps h
  | .dBfly _ _ => execDBfly_keeps h
  | .dXfer _ _ => execDXfer_keeps h
  | .dXwait _ _ => execDXwait_keeps h
  | .xferComplete _ _ => execXferComplete_keeps h
  | .deskHalt _ => execDeskHalt_keeps h
  | .deskRun _ => execDeskRun_keeps h
  | .deskStep _ => execDeskStep_keeps h
  | .deskClear _ => execDeskClear_keeps h
  | .deskEnableWrite _ _ => execDeskEnableWrite_keeps h
  | .deskDbgDataWrite _ _ => execDeskDbgDataWrite_keeps h
  | .deskPcWrite _ _ => execDeskPcWrite_keeps h
  | .dmaMove _ _ => execDmaMove_keeps h
  | .dmaMoveComplete _ _ => execDmaMoveComplete_keeps h
  | .dmaLoop _ _ => execDmaLoop_keeps h
  | .dmaWait _ _ => execDmaWait_keeps h
  | .dmaWaitSatisfied _ => execDmaWaitSatisfied_keeps h
  | .dmaSignal _ _ => execDmaSignal_keeps h
  | .dmaJump _ _ => execDmaJump_keeps h
  | .dmaEnd _ _ => execDmaEnd_keeps h
  | .dmaDoorbell _ => execDmaDoorbell_keeps h
  | .dmaCtlAbort _ => execDmaCtlAbort_keeps h
  | .dmaStop _ _ => execDmaStop_keeps h
  | .dmaPauseEffect _ _ => execDmaPauseEffect_keeps h
  | .dmaNextPcWrite _ _ _ _ => execDmaNextPcWrite_keeps h
  | .dmaModeWrite _ => execDmaModeWrite_keeps h
  | .sqTailWrite _ _ => execSqTailWrite_keeps h
  | .cqHeadWrite _ _ => execCqHeadWrite_keeps h
  | .queueEnable _ _ => execQueueEnable_keeps h
  | .queueDisable _ _ => execQueueDisable_keeps h
  | .queueDrainEnd _ => execQueueDrainEnd_keeps h
  | .entryFetch _ _ => execEntryFetch_keeps h
  | .completionWrite _ _ => execCompletionWrite_keeps h
  | .eventRecordWrite _ => execEventRecordWrite_keeps h
  | .irqTimerExpiry _ => execIrqTimerExpiry_keeps h
  | .msixUnmask _ => execMsixUnmask_keeps h
  | .irqTestWrite _ => execIrqTestWrite_keeps h
  | .watchdogExpiry => execWatchdogExpiry_keeps h
  | .wdogCfgWrite _ => execWdogCfgWrite_keeps h
  | .pcieLinkLoss => execPcieLinkLoss_keeps h
  | .pcieLinkReturn => execPcieLinkReturn_keeps h
  | .badAccess _ => execBadAccess_keeps h
  | .sysLedgerSelWrite _ => execSysLedgerSelWrite_keeps h
  | .objLkSelWrite _ => execObjLkSelWrite_keeps h
  | .geoLkSelWrite _ => execGeoLkSelWrite_keeps h
  | .pthLkSelWrite _ => execPthLkSelWrite_keeps h
  | .pthProbeSelWrite _ => execPthProbeSelWrite_keeps h
  | .spkFdSelWrite _ => execSpkFdSelWrite_keeps h
  | .netFlSelWrite _ => execNetFlSelWrite_keeps h
  | .dskTaskSelWrite _ => execDskTaskSelWrite_keeps h
  | .w1cWrite _ _ _ => execW1cWrite_keeps h
  | .eventEnableWrite _ _ => execEventEnableWrite_keeps h
  | .lowWordRead _ _ => execLowWordRead_keeps h
  | .lowWordWrite _ _ _ => execLowWordWrite_keeps h
  | .highWordWrite _ _ _ => execHighWordWrite_keeps h
  | .clearOnRead _ => execClearOnRead_keeps h
  | .registerWrite _ _ _ => execRegisterWrite_keeps h
  | .sapGroupCfgWrite _ _ => execSapGroupCfgWrite_keeps h
  | .sapPortCfgWrite _ _ => execSapPortCfgWrite_keeps h
  | .sapEnableAct _ _ => execSapEnableAct_keeps h
  | .sapMaskctlWrite _ _ => execSapMaskctlWrite_keeps h
  | .maskPairApply _ => execMaskPairApply_keeps h
  | .bclkLoss _ => execBclkLoss_keeps h
  | .bclkReturn _ => execBclkReturn_keeps h
  | .groupLock _ => execGroupLock_keeps h
  | .rateStep _ => execRateStep_keeps h
  | .fsyncMissing _ _ => execFsyncMissing_keeps h
  | .fsyncGlitch _ => execFsyncGlitch_keeps h
  | .netLinkChange _ _ => execNetLinkChange_keeps h
  | .autoSpeedTimeout _ => execAutoSpeedTimeout_keeps h
  | .rtpPacket _ _ => execRtpPacket_keeps h
  | .rtpPacketSend _ => execRtpPacketSend_keeps h
  | .arpRequest _ _ _ => execArpRequest_keeps h
  | .icmpEcho _ _ _ _ => execIcmpEcho_keeps h
  | .igmpQuery _ _ => execIgmpQuery_keeps h
  | .unsupportedPacket _ => execUnsupportedPacket_keeps h
  | .trosynData _ _ => execTrosynData_keeps h
  | .trosynHelloDue => execTrosynHelloDue_keeps h
  | .trosynSeqTimeout => execTrosynSeqTimeout_keeps h
  | .netTrsCfgWrite _ _ => execNetTrsCfgWrite_keeps h
  | .moduleI2cGo _ _ => execModuleI2cGo_keeps h
  | .moduleI2cDone _ _ _ => execModuleI2cDone_keeps h
  | .ntkBlockLockLoss _ => execNtkBlockLockLoss_keeps h
  | .ntkTrainingDone _ => execNtkTrainingDone_keeps h
  | .ntkVersionAgreed _ _ _ _ => execNtkVersionAgreed_keeps h
  | .objectCell _ _ => execObjectCell_keeps h
  | .sumCell _ _ => execSumCell_keeps h
  | .ntkBlock _ _ _ _ => execNtkBlock_keeps h
  | .ntkTime _ _ _ _ => execNtkTime_keeps h
  | .ntkCredit _ _ _ => execNtkCredit_keeps h
  | .rollCall _ _ => execRollCall_keeps h
  | .rollReply _ _ _ => execRollReply_keeps h
  | .epochReport _ _ _ _ => execEpochReport_keeps h
  | .epochDecision _ _ _ _ => execEpochDecision_keeps h
  | .ntkStep _ _ _ => execNtkStep_keeps h
  | .ntkAudit _ _ _ _ => execNtkAudit_keeps h
  | .ntkJoin _ _ _ _ => execNtkJoin_keeps h
  | .ntkLeave _ _ _ => execNtkLeave_keeps h
  | .linkDelay _ _ _ _ => execLinkDelay_keeps h
  | .chainSourceLost => execChainSourceLost_keeps h
  | .chainReturn => execChainReturn_keeps h
  | .memberRemoval _ => execMemberRemoval_keeps h
  | .refreshInterval _ _ _ => execRefreshInterval_keeps h
  | .mr4Read _ _ => execMr4Read_keeps h
  | .refreshRateReturn _ => execRefreshRateReturn_keeps h
  | .activationWindowReset => execActivationWindowReset_keeps h
  | .neighbourRefresh _ _ _ => execNeighbourRefresh_keeps h
  | .retrainDue _ => execRetrainDue_keeps h
  | .retrainSlice _ _ => execRetrainSlice_keeps h
  | .retrainEnd _ _ => execRetrainEnd_keeps h
  | .retrainRetry _ => execRetrainRetry_keeps h
  | .alertNPulse _ _ _ => execAlertNPulse_keeps h
  | .dramScrub _ _ => execDramScrub_keeps h
  | .sramScrub _ => execSramScrub_keeps h
  | .modeChange => execModeChange_keeps h
  | .standbyEntry => execStandbyEntry_keeps h
  | .standbyExit => execStandbyExit_keeps h
  | .dormantEntry => execDormantEntry_keeps h
  | .fallbackEntry => execFallbackEntry_keeps h
  | .temperatureMeasure _ => execTemperatureMeasure_keeps h
  | .thermalStep _ => execThermalStep_keeps h
  | .thermalEmergency => execThermalEmergency_keeps h
  | .comparatorFire _ => execComparatorFire_keeps h
  | .wake _ => execWake_keeps h
  | .atticSelfBoot _ => execAtticSelfBoot_keeps h
  | .vddAtticRise => execVddAtticRise_keeps h
  | .mainRailDrop => execMainRailDrop_keeps h
  | .mainRailReturn => execMainRailReturn_keeps h
  | .resetNAssert => execResetNAssert_keeps h
  | .resetRelease _ => execResetRelease_keeps h
  | .softReset _ _ => execSoftReset_keeps h
  | .bootStageEnd _ => execBootStageEnd_keeps h
  | .autoStart => execAutoStart_keeps h
  | .hostWaitExpiry => execHostWaitExpiry_keeps h
  | .fuseBurnKeyHash _ => execFuseBurnKeyHash_keeps h
  | .fuseRollbackAdvance _ => execFuseRollbackAdvance_keeps h
  | .fuseBurnEnd _ => execFuseBurnEnd_keeps h
  | .smbusReadId => execSmbusReadId_keeps h
  | .smbusReadStatus => execSmbusReadStatus_keeps h
  | .smbusReadTemperature => execSmbusReadTemperature_keeps h
  | .smbusReadWakeCause => execSmbusReadWakeCause_keeps h
  | .smbusReadBoot => execSmbusReadBoot_keeps h
  | .smbusWrite code => execSmbusWrite_keeps (a0 := code) h
  | .smbusUnknownRead _ => execSmbusUnknownRead_keeps h
  | .alertResponse _ => execAlertResponse_keeps h
  | .jtagBypass _ => execJtagBypass_keeps h
  | .jtagIdcode => execJtagIdcode_keeps h
  | .jtagSamplePreload _ _ => execJtagSamplePreload_keeps h
  | .jtagExtest _ _ => execJtagExtest_keeps h
  | .jtagHighz => execJtagHighz_keeps h
  | .jtagClamp => execJtagClamp_keeps h
  | .jtagTrst _ => execJtagTrst_keeps h
  | .modulePresenceChange _ _ => execModulePresenceChange_keeps h
  | .busMasterEnableChange _ => execBusMasterEnableChange_keeps h
  | .frameStartEdge _ _ => execFrameStartEdge_keeps h
  | .wholeSecond _ => execWholeSecond_keeps h
  | .ppsWidthEnd => execPpsWidthEnd_keeps h
  | .vddAtticDrop => execVddAtticDrop_keeps h
  | .sdacCurrentLimitEnd _ => execSdacCurrentLimitEnd_keeps h
  | .vddIo33Loss => execVddIo33Loss_keeps h
  | .vddIo33Return => execVddIo33Return_keeps h

theorem step_nil {s : State} (h : s.pending = []) : step s = .next s := by
  unfold step
  rw [h]

theorem step_cons {c : Instr} {rest : List Instr} {s : State} (h : s.pending = c :: rest) :
    step s = exec c { s with pending := rest } := by
  unfold step
  rw [h]

/-! ### What a write of registers captures (R38, R440) -/

theorem State.setRegs_cons (s : State) (p : Nat × Word) (l : List (Nat × Word)) :
    s.setRegs (p :: l) = (s.setReg p.1 p.2).setRegs l := rfl

theorem State.setRegs_frame (s : State) (l : List (Nat × Word)) : s.setRegs l = { s with regs := (s.setRegs l).regs } := by
  induction l generalizing s with
  | nil => rfl
  | cons p l ih => exact ih (s.setReg p.1 p.2)

/-- A register reads as the last entry of the list for it says, and as before where it has none. -/
theorem State.reg_setRegs (s : State) (l : List (Nat × Word)) (o : Nat) :
    (s.setRegs l).reg o = (l.reverse.lookup o).getD (s.reg o) := by
  induction l generalizing s with
  | nil => rfl
  | cons p l ih =>
    obtain ⟨a, v⟩ := p
    rw [State.setRegs_cons, ih, State.reg_setReg, List.reverse_cons, List.lookup_append]
    cases l.reverse.lookup o with
    | some w => rfl
    | none =>
      rw [Option.getD_none, Option.none_or]
      by_cases h : a = o
      · rw [h, if_pos rfl, List.lookup_cons_self, Option.getD_some]
      · rw [if_neg h]
        simp only [List.lookup_cons, beq_false_of_ne (Ne.symm h), List.lookup_nil, Option.getD_none]

/-- A register write that acts in the modes that take it leads to what its effect leaves. -/
theorem Leads.of_barWrite {i : Instr} {k : State → State} {hyp : State → Prop} {p : State → State → Prop}
    (hi : ∀ s, exec i s = .next (barWrite k s)) (h : ∀ s, hyp s → s.pwr.mode.awake = true ∧ p s (k s)) : Leads i hyp p := by
  intro s hs
  obtain ⟨ha, hp⟩ := h s hs
  exact ⟨k s, by rw [hi, barWrite_awake ha], hp⟩

/-! ### SYS_LEDGER_SEL (R38) -/

theorem b2n_le_one (b : Bool) : b2n b ≤ 1 := by cases b <;> decide

/-- INDEX, EXISTS and ACTIVE do not overlap. -/
theorem toNat_bits_ledgerSel {i : Nat} (hi : i < 2 ^ 11) (e a : Bool) :
    (bits [(0, i), (16, b2n e), (17, b2n a)]).toNat = i + b2n e * 2 ^ 16 + b2n a * 2 ^ 17 := by
  have he := b2n_le_one e
  have ha := b2n_le_one a
  have hlt : i + b2n e * 2 ^ 16 + b2n a * 2 ^ 17 < 2 ^ 32 := by omega
  rw [bits, List.foldl_cons, List.foldl_cons, List.foldl_cons, List.foldl_nil, BitVec.toNat_ofNat, Nat.zero_add, Nat.pow_zero,
    Nat.mul_one, Nat.mod_eq_of_lt hlt]

theorem bits_ledgerSel {i : Nat} (hi : i < 2 ^ 11) (e a : Bool) :
    fieldOf (bits [(0, i), (16, b2n e), (17, b2n a)]) 0 11 = i ∧ bitOf (bits [(0, i), (16, b2n e), (17, b2n a)]) 16 = e := by
  have he := b2n_le_one e
  have ha := b2n_le_one a
  rw [fieldOf, bitOf, BitVec.getLsbD, toNat_bits_ledgerSel hi, Nat.testBit_eq_decide_div_mod_eq, Nat.shiftRight_zero]
  constructor
  · omega
  · have hbit : (i + b2n e * 2 ^ 16 + b2n a * 2 ^ 17) / 2 ^ 16 % 2 = b2n e := by omega
    rw [hbit]
    cases e <;> decide

/-- SYS_LEDGER_SEL reads the index back, with EXISTS where it names a ledger. -/
theorem sysLedgerSel_sel (v : Word) (s : State) :
    fieldOf ((sysLedgerSel v s).reg Reg.SYS_LEDGER_SEL) 0 11 = fieldOf v 0 11 ∧
      bitOf ((sysLedgerSel v s).reg Reg.SYS_LEDGER_SEL) 16 = isLedger (fieldOf v 0 11) := by
  have h : (sysLedgerSel v s).reg Reg.SYS_LEDGER_SEL = _ := State.reg_setRegs ..
  rw [h]
  exact bits_ledgerSel (Nat.mod_lt _ (Nat.two_pow_pos 11)) _ _

/-! ### The other select registers (R440) -/

/-- DONE reads 0 after a write of PTH_PROBE_SEL. -/
theorem pthProbeSel_done (v : Word) (s : State) : bitOf ((pthProbeSel v s).reg Reg.PTH_PROBE_STAT) 0 = false := by
  have h : (pthProbeSel v s).reg Reg.PTH_PROBE_STAT = s.reg Reg.PTH_PROBE_STAT &&& ~~~1#32 := State.reg_setRegs ..
  have hmask : (~~~1#32).getLsbD 0 = false := by decide
  rw [h, bitOf, BitVec.getLsbD_and, hmask, Bool.and_false]

theorem netFlSel_of_rx {v : Word} {s : State} {f : Flow} (hb : bitOf v 8 = false) (hf : tget s.net.rx (fieldOf v 0 8) = some f) :
    netFlSel v s = s.setRegs ((Reg.NET_FL_SEL, v &&& 0x1FF#32) ::
      (List.range 6).map (fun j => (Reg.NET_FL_LATE + 4 * j, f.n.getD j 0))) := by
  simp only [netFlSel, hb, hf, Bool.false_eq_true, if_false, Option.getD_some]

/-! ### The statements of the family -/

/-- Settles O55: an idle step changes nothing, and any other is a command, which keeps `State.sound`. -/
theorem stepKeepsSound : Obligations.StepKeepsSound := by
  unfold Obligations.StepKeepsSound
  intro s t hs h
  cases hp : s.pending with
  | nil =>
    rw [step_nil hp] at h
    cases h
    exact hs
  | cons c rest =>
    rw [step_cons hp] at h
    exact (exec_keeps h).sound hs

/-- Settles O56, by what every command keeps. -/
theorem execLeavesQueue : Obligations.ExecLeavesQueue := fun _ _ _ h => (exec_keeps h).pending

/-- Settles O51, the case of `step` with a command in front. -/
theorem stepRunsFront : Obligations.StepRunsFront := fun _ _ _ => step_cons

/-- Settles O52, the case of `step` with an empty queue. -/
theorem stepIdles : Obligations.StepIdles := fun _ => step_nil

/-- Settles O54: at reset the three memories and the table of ledgers are empty. -/
theorem resetIsSound : Obligations.ResetIsSound := ⟨⟨rfl, rfl, rfl⟩, fun _ h => absurd h List.not_mem_nil⟩

/-- Settles O21, clause by clause: each write stores a list of registers, and a register reads as its entry says. -/
theorem selectsCapture : Obligations.SelectsCapture := by
  unfold Obligations.SelectsCapture
  refine ⟨fun v => ?_, fun v => ?_, fun v => ?_, fun v => ?_, fun v => ?_, fun v => ?_, fun v => ?_, fun v f => ?_, fun v k => ?_,
    fun v => ?_⟩
  · refine .of_barWrite (fun _ => rfl) fun s ⟨ha, hi⟩ => ?_
    obtain ⟨hidx, hex⟩ := sysLedgerSel_sel v s
    refine ⟨ha, hidx, hex.trans hi, ?_⟩
    simp only [sysLedgerSel, if_pos hi]
    exact ⟨State.reg_setRegs .., State.reg_setRegs .., State.reg_setRegs .., State.reg_setRegs .., State.reg_setRegs ..,
      State.setRegs_frame ..⟩
  · refine .of_barWrite (fun _ => rfl) fun s ⟨ha, hi⟩ => ?_
    refine ⟨ha, (sysLedgerSel_sel v s).2.trans hi, ?_⟩
    simp only [sysLedgerSel, hi]
    exact ⟨State.reg_setRegs .., State.reg_setRegs .., State.reg_setRegs .., State.setRegs_frame ..⟩
  · exact .of_barWrite (fun _ => rfl) fun s ha => ⟨ha, State.reg_setRegs .., State.reg_setRegs .., State.reg_setRegs ..,
      State.reg_setRegs .., State.reg_setRegs .., State.setRegs_frame ..⟩
  · exact .of_barWrite (fun _ => rfl) fun s ha => ⟨ha, State.reg_setRegs .., State.reg_setRegs .., State.setRegs_frame ..⟩
  · exact .of_barWrite (fun _ => rfl) fun s ha => ⟨ha, State.reg_setRegs .., State.reg_setRegs .., State.setRegs_frame ..⟩
  · exact .of_barWrite (fun _ => rfl) fun s ha => ⟨ha, State.reg_setRegs .., pthProbeSel_done v s, rfl⟩
  · exact .of_barWrite (fun _ => rfl) fun s ha => ⟨ha, State.reg_setRegs .., State.reg_setRegs .., State.reg_setRegs ..,
      State.setRegs_frame ..⟩
  · refine .of_barWrite (fun _ => rfl) fun s ⟨ha, hb, hf⟩ => ⟨ha, ?_⟩
    rw [netFlSel_of_rx hb hf]
    exact ⟨State.reg_setRegs .., State.reg_setRegs .., State.reg_setRegs .., State.setRegs_frame ..⟩
  · refine .of_barWrite (fun _ => rfl) fun s ⟨ha, hk⟩ => ⟨ha, ?_⟩
    simp only [dskTaskSel, hk]
    exact ⟨State.reg_setRegs .., State.reg_setRegs .., State.reg_setRegs .., State.reg_setRegs .., State.setRegs_frame ..⟩
  · refine .of_barWrite (fun _ => rfl) fun s ⟨ha, hk⟩ => ⟨ha, ?_⟩
    simp only [dskTaskSel, hk]
    exact ⟨State.reg_setRegs .., State.reg_setRegs .., State.reg_setRegs .., State.setRegs_frame ..⟩

end Sys2Proof.Machine
end

section
/-!
PROOFS for the time-base and media-clock family (R45–R69, R409–R430): what time bases, the media clock, the PTP engine, changes
of mode, resets and BOOT do to the state.
-/

namespace Sys2Proof.Machine

/-! ### How a claim about a row follows from the meaning of the row -/

section
variable {i : Instr} {k eff : State → State} {hyp : State → Prop} {p : State → State → Prop}

/-- A row answers the state that its meaning gives. -/
theorem Moves.of (hi : ∀ s, exec i s = .next (k s)) (h : ∀ s, hyp s → k s = eff s) : Moves i hyp eff :=
  fun s hs => (hi s).trans (congrArg _ (h s hs))

/-- A register write does so in the modes that take it (R435). -/
theorem Moves.of_barWrite (hi : ∀ s, exec i s = .next (barWrite k s)) (h : ∀ s, hyp s → s.pwr.mode.awake = true ∧ k s = eff s) :
    Moves i hyp eff := .of hi fun s hs => (barWrite_awake (h s hs).1).trans (h s hs).2

theorem watched_congr {s : State} (h : k s = eff s) : watched k s = watched eff s := by
  unfold watched
  rw [h]

/-- A row whose pins are watched does so with the pins watched (R457). -/
theorem Moves.of_watched (hi : ∀ s, exec i s = .next (watched k s)) (h : ∀ s, hyp s → k s = eff s) : Moves i hyp (watched eff) :=
  .of hi fun s hs => watched_congr (h s hs)

theorem Leads.of (hi : ∀ s, exec i s = .next (k s)) (h : ∀ s, hyp s → p s (k s)) : Leads i hyp p :=
  fun s hs => ⟨k s, hi s, h s hs⟩

end

/-! ### What reports leave alone -/

theorem Side.clock {s t : State} (h : Side s t) : t.clock = s.clock := by
  obtain ⟨r, a, l, rfl⟩ := h
  rfl

theorem Side.pwr {s t : State} (h : Side s t) : t.pwr = s.pwr := by
  obtain ⟨r, a, l, rfl⟩ := h
  rfl

theorem Side.active {s t : State} (h : Side s t) : t.active = s.active := by
  obtain ⟨r, a, l, rfl⟩ := h
  rfl

section
variable (s : State)

@[simp] theorem State.evt_clock (off b : Nat) : (s.evt off b).clock = s.clock := (s.evt_side off b).clock
@[simp] theorem State.evt_pwr (off b : Nat) : (s.evt off b).pwr = s.pwr := (s.evt_side off b).pwr
@[simp] theorem State.evt_active (off b : Nat) : (s.evt off b).active = s.active := (s.evt_side off b).active
@[simp] theorem State.count_clock (off n : Nat) : (s.count off n).clock = s.clock := (s.count_side off n).clock

@[simp] theorem State.complete_pwr (c : CmdRef) (st : Byte) (r : Nat) : (s.complete c st r).pwr = s.pwr :=
  (s.complete_side c st r).pwr

@[simp] theorem State.complete_clock (c : CmdRef) (st : Byte) (r : Nat) : (s.complete c st r).clock = s.clock :=
  (s.complete_side c st r).clock

end

/-! ### Reading a time base -/

@[simp] theorem State.setTb_media (s : State) (n : Nat) (t : TimeBase) : (s.setTb n t).clock.media = s.clock.media := rfl

theorem State.tb_setTb (s : State) (n : Nat) (t : TimeBase) (j : Nat) (h : n < s.clock.tb.length) :
    (s.setTb n t).tb j = if n = j then t else s.tb j := getD_set _ _ _ _ _ h

theorem State.tb_setTb_self {s : State} {n : Nat} (t : TimeBase) (h : n < s.clock.tb.length) : (s.setTb n t).tb n = t := by
  rw [State.tb_setTb s n t n h, if_pos rfl]

theorem State.setTb_tbLength (s : State) (n : Nat) (t : TimeBase) : (s.setTb n t).clock.tb.length = s.clock.tb.length :=
  List.length_set

/-- A time base reads alike in states with the same clock. -/
theorem State.tb_congr {s t : State} (h : s.clock = t.clock) (n : Nat) : s.tb n = t.tb n := by
  unfold State.tb
  rw [h]

/-- Holdover's start and end write the media clock's fields of holdover alone (R63, R64). -/
theorem State.checkHold_frame (s : State) : ∃ hold on for_ ex ret, s.checkHold = s.setMedia { s.clock.media with
    holding := hold, timerOn := on, holdFor := for_, expired := ex, returned := ret } := by
  unfold State.checkHold
  dsimp only
  split
  · exact ⟨_, _, _, _, _, rfl⟩
  · split <;> split <;> exact ⟨_, _, _, _, _, rfl⟩

theorem State.checkHold_clockTb (s : State) : s.checkHold.clock.tb = s.clock.tb := by
  obtain ⟨_, _, _, _, _, h⟩ := s.checkHold_frame
  rw [h]
  rfl

theorem State.checkHold_reg (s : State) (off : Nat) : s.checkHold.reg off = s.reg off := by
  obtain ⟨_, _, _, _, _, h⟩ := s.checkHold_frame
  rw [h]
  rfl

theorem State.checkHold_msc (s : State) : s.checkHold.msc = s.msc ∧ s.checkHold.valid = s.valid := by
  obtain ⟨_, _, _, _, _, h⟩ := s.checkHold_frame
  rw [h]
  exact ⟨rfl, rfl⟩

/-- The time bases, and a register, are alike where holdover is checked only if the active time base is concerned. -/
theorem State.holdIf_clockTb (s : State) (c : Prop) [Decidable c] : (if c then s.checkHold else s).clock.tb = s.clock.tb := by
  split
  · exact s.checkHold_clockTb
  · rfl

theorem State.holdIf_tb (s : State) (c : Prop) [Decidable c] (n : Nat) : (if c then s.checkHold else s).tb n = s.tb n := by
  unfold State.tb
  rw [State.holdIf_clockTb]

theorem State.holdIf_reg (s : State) (c : Prop) [Decidable c] (off : Nat) : (if c then s.checkHold else s).reg off = s.reg off := by
  split
  · exact s.checkHold_reg off
  · rfl

/-! ### Time bases lock, unlock and lose their source (R47) -/

section
variable {s : State} {n : Nat}

theorem timeBaseLocked_of_few (hg : (s.tb n).good < 8) : timeBaseLocked n s = s := if_neg fun h => absurd h.2 (by omega)

/-- A time base that is not the active one locks without touching holdover. -/
theorem timeBaseLocked_inactive (hst : (s.tb n).st = .acquiring) (hg : 8 ≤ (s.tb n).good) (hn : n ≠ s.clock.media.active.val) :
    timeBaseLocked n s = ((s.setTb n { s.tb n with st := .locked, bad := 0 }).setMedia
      { s.clock.media with primLost := s.clock.media.primLost && decide (n ≠ s.primaryTb) }).evt Reg.TMB_EVT 0 := by
  simp only [timeBaseLocked, hst, hg, and_self, if_true, if_neg hn, decide_eq_true hn, Bool.and_true]

theorem timeBaseLocked_locks (hst : (s.tb n).st = .acquiring) (hg : 8 ≤ (s.tb n).good) (hl : n < s.clock.tb.length) :
    ((timeBaseLocked n s).tb n).st = .locked := by
  have hevt : ∀ m off b, (((s.setTb n { s.tb n with st := .locked, bad := 0 }).setMedia m).evt off b).tb n =
      { s.tb n with st := .locked, bad := 0 } := fun m off b =>
    (State.tb_congr (State.evt_clock ..) n).trans (State.tb_setTb_self _ hl)
  unfold timeBaseLocked
  rw [if_pos ⟨hst, hg⟩]
  dsimp only
  rw [State.holdIf_tb, hevt]

theorem timeBaseUnlock_inactive (hst : (s.tb n).st = .locked) (hb : 4 ≤ (s.tb n).bad) (hn : n ≠ s.clock.media.active.val) :
    timeBaseUnlock n s = s.setTb n { s.tb n with st := .acquiring, good := 0, bad := 0 } := by
  unfold timeBaseUnlock
  rw [if_pos ⟨hst, hb⟩]
  exact if_neg hn

/-- HOLDOVER of a time base that is neither the active one nor PRIMARY. -/
theorem State.loseTb_other (hn : n ≠ s.clock.media.active.val) (hp : n ≠ s.primaryTb) :
    s.loseTb n = ((s.setTb n { s.tb n with st := .holdover }).count (tbReg Reg.TMB_TBn_LOSSES n) 1).evt Reg.TMB_EVT 1 := by
  simp only [State.loseTb, State.primaryTb, State.evt_clock, State.count_clock, State.setTb_media]
  rw [if_neg hn]
  exact if_neg fun h => hp h.1

/-- A time base that loses its source is in HOLDOVER, and nothing else of it changes. -/
theorem State.loseTb_tb (hl : n < s.clock.tb.length) : (s.loseTb n).tb n = { s.tb n with st := .holdover } := by
  have hu : ∀ c o e b, (((s.setTb n { s.tb n with st := .holdover }).count c o).evt e b).tb n = { s.tb n with st := .holdover } :=
    fun c o e b => (State.tb_congr (by rw [State.evt_clock, State.count_clock]) n).trans (State.tb_setTb_self _ hl)
  have hm : ∀ (u : State) m (c : Prop) [Decidable c], (if c then u.setMedia m else u).tb n = u.tb n := by
    intro u m c _
    split <;> rfl
  exact (State.holdIf_tb _ _ n).trans ((hm _ _ _).trans (hu _ _ _ _))

theorem State.dropSource_of_runs (h : (s.tb n).st = .acquiring ∨ (s.tb n).st = .locked) : s.dropSource n = s.loseTb n := if_pos h

theorem sourceLost_of_silent (h : (s.tb n).st = .acquiring ∨ (s.tb n).st = .locked) (h4 : s.tbSource n ≠ 4)
    (hq : s.silent n = true) : sourceLost n s = s.loseTb n := (if_pos ⟨h4, hq⟩).trans (State.dropSource_of_runs h)

/-! ### Measurements (R47, R48, R67) -/

theorem ppsInPulse_of_some (h : s.tbWith 2 = some n) : ppsInPulse s =
    s.measureTb n (((((s.tb n).tod + second16 / 2) % second16 : Nat) : Int) - ((second16 / 2 : Nat) : Int)) := by
  unfold ppsInPulse
  rw [h]

theorem exec_wclkMeasurement_of_some {d : Int} (h : s.tbWith 3 = some n) :
    exec (.wclkMeasurement d) s = .next (s.measureTb n (d * 65536)) := by
  have hd : exec (.wclkMeasurement d) s = execWclkMeasurement d s := rfl
  rw [hd, execWclkMeasurement, h]

/-- Beyond 50,000 ns an ACQUIRING time base steps, and what it measured is not good (R48). -/
theorem State.measureTb_steps {off : Int} (hst : (s.tb n).st = .acquiring) (ho : 50000 * 65536 < off.natAbs) :
    s.measureTb n off = s.setTb n { s.tb n with
      seen := (s.tb n).run, offset := rdiv off 65536, tod := ((s.tb n).tod - off).toNat, good := 0 } := by
  have hbad : ¬off.natAbs ≤ 1000 * 65536 := by omega
  simp only [State.measureTb, TimeBase.heard, hst, reduceCtorEq, if_false, if_true, decide_eq_true ho, if_neg hbad]

/-! ### Configuration of a time base (R45, R46) -/

/-- No time base is in the way where every other one is DISABLED. -/
theorem State.tbConflict_of_disabled {src : Nat} (h : ∀ k, k < 4 → k ≠ n → (s.tb k).st = .disabled) : s.tbConflict n src = false := by
  unfold State.tbConflict
  rw [Bool.and_eq_false_iff]
  refine .inr (List.any_eq_false.mpr fun k hk => ?_)
  by_cases hkn : k = n
  · simp [hkn]
  · simp [h k (List.mem_range.mp hk) hkn]

/-- What a write of CFG stores is what the time base's fields then say. -/
theorem State.tbCfg_setReg (s : State) (n : Nat) (v : Word) : (s.setReg (tbReg Reg.TMB_TBn_CFG n) v).tbCfg n = v := by
  rw [State.tbCfg, State.reg_setReg, if_pos rfl]

/-- SOURCE is read from what a write of CFG has stored. -/
theorem State.tbSource_setReg (s : State) (n : Nat) (v : Word) :
    (s.setReg (tbReg Reg.TMB_TBn_CFG n) v).tbSource n = fieldOf v 1 3 := by
  rw [State.tbSource, State.tbCfg_setReg]

theorem tmbTbCfgWrite_enables {v : Word} {src : Nat} (hv : bitOf v 0 = true) (hs : src = fieldOf (v &&& tbCfgMask) 1 3) (h5 : src < 5)
    (hl : n < s.clock.tb.length) (hd : ∀ k, k < 4 → k ≠ n → (s.tb k).st = .disabled) :
    (tmbTbCfgWrite n v s).tbCfg n = v &&& tbCfgMask ∧
      ((tmbTbCfgWrite n v s).tb n).st = (if src = 0 then .free else .acquiring) ∧ ((tmbTbCfgWrite n v s).tb n).good = 0 := by
  have hl' : n < (s.setReg (tbReg Reg.TMB_TBn_CFG n) (v &&& tbCfgMask)).clock.tb.length := hl
  have hg : ¬(¬bitOf v 0 = true ∨ 5 ≤ src) := fun h => h.elim (fun hb => hb hv) (fun h5' => absurd h5' (by omega))
  have hc : ((s.setReg (tbReg Reg.TMB_TBn_CFG n) (v &&& tbCfgMask)).tbConflict n src) ≠ true :=
    ne_true_of_eq_false (State.tbConflict_of_disabled hd)
  unfold tmbTbCfgWrite
  dsimp only
  rw [State.tbSource_setReg, ← hs, if_neg hg, if_neg hc, State.tbCfg, State.holdIf_reg, State.holdIf_tb]
  by_cases h0 : src = 0
  · rw [if_pos h0, if_pos h0, State.tb_setTb_self _ hl']
    exact ⟨s.tbCfg_setReg n _, rfl, rfl⟩
  · rw [if_neg h0, if_neg h0, State.tb_setTb_self _ hl']
    exact ⟨s.tbCfg_setReg n _, rfl, rfl⟩

theorem tmbTbCfgWrite_disables {v : Word} (hv : bitOf v 0 = false) (hl : n < s.clock.tb.length) :
    ((tmbTbCfgWrite n v s).tb n).st = .disabled := by
  have hg : ¬bitOf v 0 = true ∨ 5 ≤ (s.setReg (tbReg Reg.TMB_TBn_CFG n) (v &&& tbCfgMask)).tbSource n :=
    .inl (by rw [hv]; exact Bool.false_ne_true)
  have hl' : n < (s.setReg (tbReg Reg.TMB_TBn_CFG n) (v &&& tbCfgMask)).clock.tb.length := hl
  unfold tmbTbCfgWrite
  dsimp only
  rw [if_pos hg, State.holdIf_tb, State.tb_setTb_self _ hl']

/-! ### Whole seconds and the pins (R45, R66) -/

/-- A whole second takes the seconds that wait for it. -/
theorem wholeSecond_of_setSec {x : Nat} (h : (s.tb n).second = true) (hx : (s.tb n).setSec = some x) (hp : s.ppsOn = false) :
    wholeSecond n s = s.setTb n { s.tb n with tod := x * second16 + (s.tb n).tod % second16, setSec := none, second := false } := by
  unfold wholeSecond
  simp only [h, hx, hp, if_true, Bool.false_eq_true, false_and, if_false]

/-- PPS_OUT rises with the second of the time base that it follows. -/
theorem wholeSecond_ppsHigh (h : (s.tb n).second = true) (hp : s.ppsOn = true) (hn : s.ppsTb = n) :
    (wholeSecond n s).clock.ppsHigh = true := by
  unfold wholeSecond
  rw [if_pos h]
  dsimp only
  rw [if_pos ⟨hp, hn⟩]

end

/-! ### Steps and slews of the origin (R58, R59) -/

section
variable {s : State} {k : Int} {b : Nat} {r : Int}

theorem originStepApply_of_reached (h : s.clock.media.step = some (k, b, r)) (hr : s.valid = true ∧ s.boundary = true ∧ b ≤ s.msc) :
    originStepApply s = (s.stepOrigin k r).shiftFlows k := by
  unfold originStepApply
  rw [h]
  exact if_pos hr

/-- A step moves ORIGIN, ends, and starts the slew of its residual; the reports that it makes leave the clock alone. -/
theorem State.stepOrigin_media (h : s.clock.media.unmuteAtStep = false) :
    (s.stepOrigin k r).clock.media = { s.clock.media with
      origin := ((s.clock.media.origin + k) % 2 ^ 64).toNat, step := none, slewLeft := slewFor r } := by
  unfold State.stepOrigin
  dsimp only
  rw [if_neg (ne_true_of_eq_false h), State.evt_clock, State.count_clock]
  rfl

end

/-! ### Changeover (R61, R62) -/

section
variable {s : State}

theorem State.changeoverTo_secondary (h5 : s.mediaBit 5 = true) (ha : s.clock.media.active.val = s.primaryTb)
    (hne : s.secondaryTb ≠ s.primaryTb) (hst : (s.tb s.secondaryTb).st = .locked)
    (hw : s.mediaBit 6 = true ∧ s.clock.media.primLost = true ∨ s.clock.media.force = some true) :
    s.changeoverTo = some s.secondaryTb := by
  have hwant : (s.mediaBit 6 && s.clock.media.primLost || s.clock.media.force == some true) = true := by simpa using hw
  unfold State.changeoverTo
  dsimp only
  rw [if_pos]
  rw [h5, ha, hst, hwant, bne_iff_ne.mpr hne]
  simp

theorem State.changeoverTo_primary (ha : s.clock.media.active.val ≠ s.primaryTb) (hst : (s.tb s.primaryTb).st = .locked)
    (hw : (s.clock.media.revertDue = true ∧ s.mediaBit 7 = true) ∨ s.clock.media.force = some false) :
    s.changeoverTo = some s.primaryTb := by
  have hon : (s.clock.media.active.val == s.primaryTb) = false := beq_eq_false_iff_ne.mpr ha
  have hwant : (s.clock.media.revertDue && s.mediaBit 7 || s.clock.media.force == some false) = true := by simpa using hw
  unfold State.changeoverTo
  dsimp only
  rw [hon, hst, hwant, if_neg (by simp)]
  rfl

theorem mediaChangeover_of_some {n : Nat} (hb : s.boundary = true ∧ s.msc % 128 = 0) (h : s.changeoverTo = some n) :
    mediaChangeover s = (s.setMedia { s.clock.media with
      active := Fin.ofNat 4 n, force := none, revertDue := false, primGood := 0 }).checkHold.evt Reg.TMB_EVT 3 := by
  unfold mediaChangeover
  rw [if_pos hb, h]

/-! ### Holdover's timer (R63) -/

/-- At its limit the timer reports; HOLDOVER_PLAY, bit 8, decides whether the outputs are muted. -/
theorem holdoverExpiry_of_limit (hon : s.clock.media.timerOn = true) (hl : s.holdLimit * s.fs ≤ s.clock.media.holdFor * 1000) :
    holdoverExpiry s = (s.setMedia { s.clock.media with
      timerOn := false, expired := true,
      outMute := if s.mediaBit 8 then s.clock.media.outMute else s.clock.media.outMute.start 0 s.len50 }).evt Reg.TMB_EVT 2 := by
  unfold holdoverExpiry
  dsimp only
  rw [hon, decide_eq_true hl]
  rfl

/-! ### TMB_MEDIA_CFG (R57, R61) -/

/-- A write that may set RATE takes every field at once while the MSC is not valid. -/
theorem mediaCfg_of_invalid (v : Word) (hv : s.valid = false) : mediaCfg true v s =
    (s.setReg Reg.TMB_MEDIA_CFG (v &&& 0x3FF)).setMedia { s.clock.media with
      cfgWritten := true, rate96 := bitOf (v &&& 0x3FF) 0, primary := fieldOf (v &&& 0x3FF) 1 2, secondary := fieldOf (v &&& 0x3FF) 3 2,
      active := Fin.ofNat 4 (fieldOf (v &&& 0x3FF) 1 2) } := by
  have hm : ¬(s.setReg Reg.TMB_MEDIA_CFG (v &&& 0x3FF)).clock.media.valid = true := ne_true_of_eq_false hv
  unfold mediaCfg
  dsimp only
  rw [if_pos rfl, if_neg hm, Bool.or_true]
  rfl

/-- A write that may not set RATE keeps it, and the MSC goes on. -/
theorem mediaCfg_of_valid (v : Word) (hv : s.valid = true) :
    (mediaCfg false v s).reg Reg.TMB_MEDIA_CFG = (v &&& 0x3FE) ||| (s.reg Reg.TMB_MEDIA_CFG &&& 1) ∧
      (mediaCfg false v s).msc = s.msc ∧ (mediaCfg false v s).valid = true := by
  have hm : (s.setReg Reg.TMB_MEDIA_CFG ((v &&& 0x3FE) ||| (s.reg Reg.TMB_MEDIA_CFG &&& 1))).clock.media.valid = true := hv
  unfold mediaCfg
  dsimp only
  rw [if_neg Bool.false_ne_true, if_pos hm, State.checkHold_reg, (State.checkHold_msc _).1, (State.checkHold_msc _).2]
  refine ⟨?_, rfl, hv⟩
  exact (State.reg_setReg s _ _ _).trans (if_pos rfl)

end

/-! ### Sync and the path delay (R47, R49, R51) -/

section
variable {s : State} {n : Nat}

theorem ptpSync_of_followed {m : PtpSyncMsg} (hm : s.ptpMine n m.h = true) (hl : (s.tb n).isLeader = false)
    (hf : (s.tb n).follows m.h = true) : ptpSync n m s =
      if m.twoStep then s.setTb n { s.tb n with sync := some m } else s.syncMeasured n m m.origin m.h.correction := by
  unfold ptpSync
  dsimp only
  rw [hm, hl, hf]
  rfl

theorem ptpFollowUp_of_sync {m : PtpFollowUpMsg} {y : PtpSyncMsg} (hy : (s.tb n).sync = some y) (hm : s.ptpMine n m.h = true)
    (hf : (s.tb n).follows m.h = true) (hq : y.h.seq = m.h.seq) :
    ptpFollowUp n m s = s.syncMeasured n y m.precise (y.h.correction + m.h.correction) := by
  unfold ptpFollowUp
  rw [hy]
  dsimp only
  rw [hm, hf, hq, beq_self_eq_true]
  rfl

theorem ptpDelayResp_of_request {n : Fin 4} {m : PtpDelayRespMsg} {q : Nat} {sent : TimeStamp}
    (hr : (s.tb n.val).reqOut = some (q, some sent)) (hm : s.ptpMine n.val m.h = true) (hf : (s.tb n.val).follows m.h = true)
    (ho : m.requester = Config.ownIdentity) (hq : m.h.seq = q) :
    ptpDelayResp n m s = (s.setTb n.val { s.tb n.val with
      pathDelay := rdiv ((s.tb n.val).msDelay + ((unitsOf m.receive : Int) - unitsOf sent - m.h.correction)) 2, reqOut := none }).retireCloak
        m.h.port (fun e => e.tb == n && e.kind == .delayReq && e.seq == q) := by
  unfold ptpDelayResp
  dsimp only
  rw [hr]
  dsimp only
  rw [hm, hf, ho, hq, beq_self_eq_true, beq_self_eq_true]
  rfl

/-! ### The best leader (R49, R51) -/

/-- With no leader heard, a time base whose role is to follow has none. -/
theorem State.bmcaChoice_of_silence (alone : Bool) (hf : (s.tb n).foreign = []) (hr : s.ptpRole n = 0) :
    s.bmcaChoice n alone = (none, false) := by
  have hb : bestLeader (s.tb n).candidates = none := by
    rw [TimeBase.candidates, hf]
    rfl
  unfold State.bmcaChoice
  dsimp only
  rw [hr, hb]
  rfl

/-- The BMCA writes its own time base: the leader is the one chosen, and the leaders heard stay. -/
theorem State.bmca_clockTb (s : State) (n : Nat) (alone : Bool) : ∃ x : TimeBase, (s.bmca n alone).clock.tb = s.clock.tb.set n x ∧
    x.leader = (s.bmcaChoice n alone).1 ∧ x.foreign = (s.tb n).foreign := by
  unfold State.bmca
  dsimp only
  split
  · exact ⟨_, rfl, rfl, rfl⟩
  · rw [State.holdIf_clockTb, State.evt_clock]
    split <;> exact ⟨_, rfl, rfl, rfl⟩

theorem State.bmca_of_silence (alone : Bool) (hl : n < s.clock.tb.length) (hf : (s.tb n).foreign = []) (hr : s.ptpRole n = 0) :
    n < (s.bmca n alone).clock.tb.length ∧ ((s.bmca n alone).tb n).leader = none ∧ ((s.bmca n alone).tb n).foreign = [] := by
  obtain ⟨x, hx, hleader, hforeign⟩ := s.bmca_clockTb n alone
  have hn : (s.bmca n alone).tb n = x := by
    rw [State.tb, hx, getD_set _ _ _ _ _ hl, if_pos rfl]
  rw [hn, hx, List.length_set, hleader, hforeign, State.bmcaChoice_of_silence alone hf hr]
  exact ⟨hl, rfl, hf⟩

theorem State.dropSource_tb (hl : n < s.clock.tb.length) :
    ((s.dropSource n).tb n).leader = (s.tb n).leader ∧ ((s.dropSource n).tb n).foreign = (s.tb n).foreign := by
  unfold State.dropSource
  split
  · rw [State.loseTb_tb hl]
    exact ⟨rfl, rfl⟩
  · exact ⟨rfl, rfl⟩

/-- At its timeout the chosen leader is forgotten, and with none left the source is lost. -/
theorem announceReceiptTimeout_of_leader {l : PtpLeader} {s1 : State} (h : (s.tb n).leader = some l)
    (hw : s.ptpRuns n = true ∧ ¬(s.tb n).isLeader = true ∧ (s.tb n).waitFrom + s.receiptSpan n ≤ (s.tb n).run)
    (h1 : s1 = (s.setTb n { s.tb n with
      foreign := (s.tb n).foreign.filter (fun x => !(x.port == l.port && x.source == l.source)) }).bmca n true)
    (hnone : (s1.tb n).leader = none) : announceReceiptTimeout n s = s1.dropSource n := by
  unfold announceReceiptTimeout
  dsimp only
  rw [if_pos hw]
  split
  · next h' => cases h'.symm.trans h
  · next l' h' =>
    cases h'.symm.trans h
    rw [← h1, hnone]
    rfl

/-- The timeout of the only leader heard leaves a time base whose role is to follow with none. -/
theorem announceReceiptTimeout_of_only {l : PtpLeader} (h : (s.tb n).leader = some l) (hp : s.ptpRuns n = true)
    (hf : ((s.tb n).foreign.filter (fun x => !(x.port == l.port && x.source == l.source))) = []) (hr : s.ptpRole n = 0)
    (hi : (s.tb n).isLeader = false) (hw : (s.tb n).waitFrom + s.receiptSpan n ≤ (s.tb n).run) (hl : n < s.clock.tb.length) :
    ((announceReceiptTimeout n s).tb n).leader = none ∧ ((announceReceiptTimeout n s).tb n).foreign = [] := by
  have hempty : ((s.setTb n { s.tb n with foreign := [] }).tb n).foreign = [] := by rw [State.tb_setTb_self _ hl]
  obtain ⟨hlen, hleader, hforeign⟩ := State.bmca_of_silence true (by rw [State.setTb_tbLength]; exact hl) hempty hr
  obtain ⟨hdl, hdf⟩ := State.dropSource_tb hlen
  rw [announceReceiptTimeout_of_leader h ⟨hp, ne_true_of_eq_false hi, hw⟩ (by rw [hf]) hleader]
  exact ⟨hdl.trans hleader, hdf.trans hforeign⟩

end

/-! ### Due messages and the cloakroom (R50, R55) -/

section
variable {s : State} {n : Fin 4} {l : PtpLeader}

theorem ptpDelayReqDue_of_held (h : (s.tb n.val).leader = some l) (hp : s.ptpRuns n.val = true)
    (hh : s.stillHeld l.port n.val .delayReq = true) :
    ptpDelayReqDue n s = s.both (Reg.TMB_CLOAK_SKIPp + 4 * l.port.val) Reg.TMB_EVT 7 := by
  unfold ptpDelayReqDue
  rw [h]
  dsimp only
  rw [if_pos hp, if_pos hh]
  rfl

/-- The new request's number is awaited, and a request that was sent and never answered gives its entry back. -/
theorem ptpDelayReqDue_of_free (h : (s.tb n.val).leader = some l) (hp : s.ptpRuns n.val = true)
    (hh : s.stillHeld l.port n.val .delayReq = false) {s2 : State}
    (h2 : s2 = (s.retireCloak l.port (fun e => e.tb == n && e.kind == .delayReq && e.stamp.isSome)).launch l.port
      { tb := n, kind := .delayReq, seq := (s.tb n.val).seqReq, stamp := none }) :
    ptpDelayReqDue n s = s2.setTb n.val { s2.tb n.val with
      seqReq := ((s.tb n.val).seqReq + 1) % 65536, reqOut := some ((s.tb n.val).seqReq, none) } := by
  unfold ptpDelayReqDue
  rw [h]
  dsimp only
  rw [if_pos hp, if_neg (ne_true_of_eq_false hh), ← h2]

theorem ptpEventTransmitted_of_sync {p : Fin 2} {at_ : TimeStamp} {e : CloakEntry} {k1 : Cloak}
    (h : (s.cloak p.val).entries.find? (fun e => e.stamp.isNone) = some e) (hk : e.kind = .sync)
    (h1 : k1 = { s.cloak p.val with entries := stampFirst at_ (s.cloak p.val).entries }) :
    ptpEventTransmitted p at_ s =
      (((s.setCloak p.val { k1 with high := max k1.high k1.occupied }).sendPtp (.sync p e.tb e.seq (s.ptpIntervals e.tb.val).1)).sendPtp
        (.followUp p e.tb e.seq at_)).retireCloak p (fun x => x.tb == e.tb && x.kind == .sync && x.seq == e.seq && x.stamp.isSome) := by
  subst h1
  unfold ptpEventTransmitted
  dsimp only
  rw [h]
  dsimp only
  rw [hk]

end

/-! ### The MSC starts and ends (R57, R69, R464) -/

section
variable {s : State} {n o : Nat}

/-- R57's conditions, as `mscValidate` tests them. -/
theorem mscValidate_guard (hv : s.valid = false) (ha : s.pwr.mode.awake = true) (hc : s.clock.media.cfgWritten = true)
    (hg : s.tbGood = true) (hb : (s.mediaCount - (s.originAt s.mediaCount).1) % 128 = 0) :
    (!s.clock.media.valid && s.pwr.mode.awake && s.clock.media.cfgWritten && s.tbGood &&
      (s.mediaCount - (s.originAt s.mediaCount).1) % 128 == 0) = true := by
  unfold State.valid at hv
  rw [hv, ha, hc, hg, hb]
  rfl

theorem State.originAt_default (hw : s.clock.media.originWritten = none) (hs : s.clock.media.seedOrigin = none) :
    s.originAt n = (n / 128 * 128, false) := by
  unfold State.originAt
  dsimp only
  rw [hw, hs]

/-- With FREE_OK, bit 9, the ORIGIN that the attic stored at the present RATE is used. -/
theorem State.originAt_seed (hw : s.clock.media.originWritten = none)
    (hs : s.clock.media.seedOrigin = some (o, s.clock.media.rate96)) (h9 : s.mediaBit 9 = true) (ho : o ≤ n) :
    s.originAt n = (o, false) := by
  unfold State.originAt
  dsimp only
  rw [hw, hs]
  dsimp only
  rw [h9, beq_self_eq_true, decide_eq_true ho]
  rfl

theorem State.originAt_written (hw : s.clock.media.originWritten = some o) :
    s.originAt n = if o ≤ n then (o, false) else (n / 128 * 128, true) := by
  unfold State.originAt
  dsimp only
  rw [hw]

/-- The end of the MSC clears what its validation set, whatever it stops before that. -/
theorem mscInvalidate_clears (hv : s.valid = true) (hr : s.clock.media.rateChange = true) (ht : s.modeTurn = true) :
    let m := (mscInvalidate s).clock.media
    m.valid = false ∧ m.msc = 0 ∧ m.origin = 0 ∧ m.step = none ∧ m.cfgWritten = false ∧ (mscInvalidate s).boundary = false := by
  have hcond : (s.clock.media.valid && s.clock.media.rateChange && s.modeTurn) = true := by
    unfold State.valid at hv
    rw [hv, hr, ht]
    rfl
  unfold mscInvalidate
  dsimp only
  rw [if_pos hcond]
  exact ⟨rfl, rfl, rfl, rfl, rfl, rfl⟩

end

/-! ### What a change of mode leaves of the power state (R412, R413, R422) -/

section
variable (s : State)

@[simp] theorem wdogRestart_pwr : (wdogRestart s).pwr = s.pwr := by
  unfold wdogRestart
  split <;> rfl

theorem State.stageTo_pwr (t : Int) : (s.stageTo t).pwr = s.pwr := by
  unfold State.stageTo
  split <;> rfl

@[simp] theorem State.stageStep_pwr : s.stageStep.pwr = s.pwr := by
  unfold State.stageStep
  split
  · rfl
  · cases s.pwr.mode <;> simp only [State.stageTo_pwr]

theorem State.enterRunning_pwr (m : Mode) (c : Option CmdRef) (adj : Bool) : (s.enterRunning m c adj).pwr =
    { (s.cancelEpochs (fun e => e.safe)).pwr with mode := m, autoArmed := false, fbWdog := false, fbTherm := false, freeze := false } := by
  unfold State.enterRunning
  dsimp only
  cases c with
  | none => rw [wdogRestart_pwr, State.stageStep_pwr]; rfl
  | some c => dsimp only; rw [State.complete_pwr, wdogRestart_pwr, State.stageStep_pwr]; rfl

theorem State.enterStandby_pwr (c : Option (CmdRef × Bool)) (th : Bool) :
    (s.enterStandby c th).pwr.mode = .standby ∧ (s.enterStandby c th).pwr.entering = none := by
  unfold State.enterStandby
  dsimp only
  cases c with
  | none => rw [wdogRestart_pwr]; exact ⟨rfl, rfl⟩
  | some c => dsimp only; rw [State.complete_pwr, wdogRestart_pwr]; exact ⟨rfl, rfl⟩

/-- The attic takes what the media clock had, and the MSC is not valid. -/
theorem State.enterDormant_stores (c : CmdRef) (adj : Bool) :
    (s.enterDormant c adj).valid = false ∧ (s.enterDormant c adj).pwr.attic.msc = s.msc ∧
      (s.enterDormant c adj).pwr.attic.origin = s.clock.media.origin ∧ (s.enterDormant c adj).pwr.mode = .dormant ∧
      (s.enterDormant c adj).pwr.dormantReady = true ∧ (s.enterDormant c adj).pwr.wakeN = true := by
  unfold State.enterDormant State.valid
  dsimp only
  rw [State.complete_clock, State.complete_pwr]
  exact ⟨rfl, rfl, rfl, rfl, rfl, rfl⟩

end

/-! ### Changes of mode in step 2 of a boundary (R409–R413, R419) -/

section
variable {s : State} {w : ModeWait}

theorem State.carryMode_of_runs {m : Mode} (c : CmdRef) (adj : Bool) (hm : m.runs = true) (hs : s.pwr.mode ≠ .standby) :
    s.carryMode m c adj = s.enterRunning m (some c) adj := by
  have hne : ∀ x : Mode, x.runs = false → m ≠ x := fun x hx h => Bool.noConfusion (hm.symm.trans ((congrArg Mode.runs h).trans hx))
  unfold State.carryMode
  rw [if_neg (hne .standby rfl), if_neg (hne .dormant rfl), if_neg hs]

theorem modeChange_of_wait (ha : s.pwr.auto = none) (hw : s.waitDue = some w) (hs : s.pwr.mode ≠ .standby)
    (hr : s.clock.media.rateChange = false) :
    modeChange s = ((s.setPwr { s.pwr with wait := none }).carryMode w.target w.cmd w.adj).modeDone := by
  unfold modeChange
  rw [ha, hw]
  exact if_pos ⟨hs, ne_true_of_eq_false hr⟩

theorem standbyEntry_of_entering {e : Entering} (he : s.pwr.entering = some e) (ht : s.modeTurn = true) (hb : e.at_ ≤ s.msc)
    (hf : s.fallbackDue s.msc = false) (hr : s.clock.media.rateChange = false) :
    standbyEntry s = (s.enterStandby e.cmd e.thermal).modeDone := by
  unfold standbyEntry
  rw [he]
  dsimp only
  rw [ht, decide_eq_true hb, hf, hr]
  rfl

theorem standbyExit_of_wait (hw : s.waitDue = some w) (hs : s.pwr.mode = .standby) (hd : w.target ≠ .dormant) :
    standbyExit s = ((s.setPwr { s.pwr with wait := none }).exitStandby w.target w.cmd w.adj).modeDone := by
  unfold standbyExit
  rw [hw]
  exact if_pos ⟨hs, hd⟩

theorem dormantEntry_of_wait (hw : s.waitDue = some w) (hd : w.target = .dormant) : dormantEntry s =
    ((({ s with tail := false } : State).setPwr { s.pwr with wait := none }).boundaryEnd s.msc).enterDormant w.cmd w.adj := by
  unfold dormantEntry
  rw [hw]
  exact if_pos hd

theorem fallbackEntry_of_due (hd : s.fallbackDue s.msc = true) (ht : s.valid = false ∨ s.modeTurn = true) :
    fallbackEntry s = s.enterFallback.modeDone := by
  have hturn : (!s.valid || s.modeTurn) = true := by simpa using ht
  unfold fallbackEntry
  rw [hd, hturn]
  rfl

theorem autoStart_of_due (ht : s.modeTurn = true) (hd : s.autoDue s.msc = true) (hf : s.fallbackDue s.msc = false)
    (hr : s.clock.media.rateChange = false) : autoStart s = (s.enterRunning .show_ none false).modeDone := by
  unfold autoStart
  rw [ht, hd, hf, hr]
  rfl

end

/-! ### Resets and supplies (R65, R430, R451) -/

section
variable (s : State)

/-- The RWS field is kept where power was kept. -/
theorem State.resetMain_scratch (n : Nat) : (s.resetMain true n).reg Reg.SYS_SCRATCH = s.reg Reg.SYS_SCRATCH ∧
    (s.resetMain false n).reg Reg.SYS_SCRATCH = 0 :=
  ⟨(State.reg_setReg State.reset Reg.SYS_SCRATCH (s.reg Reg.SYS_SCRATCH) Reg.SYS_SCRATCH).trans (if_pos rfl), rfl⟩

variable {s}

theorem xtalFault_of_running (hm : s.pwr.mode ≠ .dormant) (hx : s.pwr.xtalFault = false) :
    xtalFault s = (s.resetMain true 4).setPwr { (s.resetMain true 4).pwr with xtalFault := true } :=
  if_neg fun h => h.elim hm (ne_true_of_eq_false hx)

theorem resetNAssert_of_main (hm : s.pwr.mode ≠ .dormant) :
    resetNAssert s = (s.resetMain true 2).setPwr { (s.resetMain true 2).pwr with resetN := false } := by
  unfold resetNAssert
  dsimp only
  rw [if_neg hm]

/-- A write of PWR_RESET without its key, or without SOFT, does nothing. -/
theorem watched_softReset_of_ne {key : Byte} {on : Bool} (h : key ≠ 0xB0 ∨ on = false) :
    watched (barWrite (softReset key on)) s = s :=
  watched_of_fixed (barWrite_of_fixed (if_neg fun hk => h.elim (fun hne => hne hk.1) fun hf => ne_true_of_eq_false hf hk.2))

theorem mainRailDrop_of_main (hm : s.pwr.mode ≠ .dormant) : mainRailDrop s =
    (s.resetMain false s.pwr.resetCause).setPwr { (s.resetMain false s.pwr.resetCause).pwr with railsUp := false } := by
  unfold mainRailDrop
  dsimp only
  rw [if_neg hm]

theorem mainRailReturn_of_main (hr : s.pwr.railsUp = false) (hm : s.pwr.mode ≠ .dormant) :
    mainRailReturn s = s.setPwr { s.pwr with railsUp := true, resetCause := 1 } :=
  (if_neg (ne_true_of_eq_false hr)).trans (if_neg hm)

/-- In RESET, BOOT starts with the straps sampled. -/
theorem resetRelease_of_reset {x : Straps} (hs : s.supplied = true) (hm : s.pwr.mode = .reset) : resetRelease x s =
    s.setPwr { s.pwr with mode := .boot, straps := x, resetN := true, wakeN := true, woken := false, bootStage := 0 } := by
  have hd : s.pwr.mode ≠ .dormant := by rw [hm]; exact Mode.noConfusion
  unfold resetRelease State.beginBoot
  dsimp only
  rw [if_neg hd, if_pos (by rw [hs, hm]; rfl)]

end

theorem watched_bootCause (k : State → State) (s : State) : (watched k s).pwr.bootCause = (k s).pwr.bootCause := by
  unfold watched
  dsimp only
  split <;> rfl

/-! ### BOOT's stages (R423–R429) -/

section
variable {s : State} {x : BootInput}

/-- What the end of stage `k` does. -/
def bootStep (x : BootInput) (k : Nat) (s : State) : State :=
  match k with
  | 0 => s.bootAt 1
  | 1 => s.bootAt 2
  | 2 => bootImage x s
  | 3 => s.bootAt 4
  | 4 => bootTrain x s
  | 5 => bootSafe x s
  | 6 => bootProf x s
  | _ => bootEnd x s

/-- BOOT goes on by the stage that it has reached, unless it is held. -/
theorem bootStageEnd_at {k : Nat} (h : s.pwr.mode = .boot ∧ s.pwr.bootHeld = false ∧ s.pwr.bootStage = k) :
    bootStageEnd x s = bootStep x k s := by
  obtain ⟨hm, hh, rfl⟩ := h
  exact if_neg fun h => h.elim (fun hne => hne hm) (ne_true_of_eq_false hh)

/-- The image that stage 2 takes, and the memory configuration that it names (R425). -/
def State.bootTake (s : State) (b : List Byte) (second : Bool) : State :=
  (s.setPwr { s.pwr with image := b, imageB := second, bootStage := 3 }).setMemory
    { s.memory with config := imgNat (listByte b) 22 1, speed := imgNat (listByte b) 23 1 }

theorem bootImage_of_copyA {b : List Byte} (hb : x.copyA = some b) (hA : s.bootCopyOk x.copyA x.sigA = true) :
    bootImage x s = s.bootTake b false := by
  unfold bootImage
  dsimp only
  rw [if_pos hA, hb]
  rfl

theorem bootImage_of_copyB {b : List Byte} (hA : s.bootCopyOk x.copyA x.sigA = false) (hb : x.copyB = some b)
    (hB : s.bootCopyOk x.copyB x.sigB = true) : bootImage x s = s.bootTake b true := by
  unfold bootImage
  dsimp only
  rw [if_neg (ne_true_of_eq_false hA), if_pos hB, hb]
  rfl

theorem bootImage_of_neither (hA : s.bootCopyOk x.copyA x.sigA = false) (hB : s.bootCopyOk x.copyB x.sigB = false) :
    bootImage x s = s.bootHold (if x.copyA.isNone ∧ x.copyB.isNone then 2 else 1) :=
  (if_neg (ne_true_of_eq_false hA)).trans (if_neg (ne_true_of_eq_false hB))

theorem bootTrain_of_trained (h : x.trained = true) : bootTrain x s = (s.bootAt 5).setMemory { s.memory with
    trained := true, chan := s.memory.chan.map (fun v => { v with trainedAt := s.samples, trainTemp := s.pwr.temp }) } := if_pos h

theorem bootTrain_of_untrained (h : x.trained = false) : bootTrain x s =
    (((s.bootAt 5).setMemory { s.memory with failed := true }).evt Reg.MEM_EVT 8).bootFail 3 := if_neg (ne_true_of_eq_false h)

theorem bootSafe_of_verified (h : s.verifyImage 8 (listByte (shelfBytes x.shelf)) x.shelf.length = 0xFF) :
    (bootSafe x s).active = 8 := by
  unfold bootSafe
  dsimp only
  rw [if_pos (beq_iff_eq.mpr h)]

theorem bootSafe_of_defective (h : s.verifyImage 8 (listByte (shelfBytes x.shelf)) x.shelf.length ≠ 0xFF) :
    (bootSafe x s).active = 15 ∧ (bootSafe x s).pwr.bootCause = 5 := by
  unfold bootSafe
  dsimp only
  rw [if_neg fun hb => h (beq_iff_eq.mp hb), State.evt_active, State.evt_pwr]
  exact ⟨rfl, rfl⟩

end

/-! ### The statements of the family -/

/-- Settles O33, clause by clause, by what the meaning of each row does in the states that the clause names. -/
theorem timeBasesFollowTheirSources : Obligations.TimeBasesFollowTheirSources := by
  unfold Obligations.TimeBasesFollowTheirSources
  refine ⟨fun n => ?_, fun n => ?_, fun n => ?_, fun n => ?_, fun n => ?_, fun n => ?_, fun n => ?_, fun n d => ?_, fun s n off hst ho => ?_,
    fun n v src => ?_, fun n v => ?_, fun n hi => ?_, fun n x => ?_, fun n => ?_, ?_, ?_, ?_, ?_, ?_⟩
  · exact .of (fun _ => rfl) fun s ⟨hst, hg, ha⟩ => timeBaseLocked_inactive hst hg fun h => ha (Fin.ext h.symm)
  · exact .of (fun _ => rfl) fun s ⟨hst, hg, hl⟩ => timeBaseLocked_locks hst hg hl
  · exact .of (fun _ => rfl) fun s hg => timeBaseLocked_of_few hg
  · exact .of (fun _ => rfl) fun s ⟨hst, hb, ha⟩ => timeBaseUnlock_inactive hst hb fun h => ha (Fin.ext h.symm)
  · exact .of (fun _ => rfl) fun s ⟨hst, ha, hp, h4, hq⟩ =>
      (sourceLost_of_silent hst h4 hq).trans (State.loseTb_other (fun h => ha (Fin.ext h.symm)) (Ne.symm hp))
  · refine .of (fun _ => rfl) fun s ⟨hst, hl, h4, hq⟩ => ?_
    rw [sourceLost_of_silent hst h4 hq, State.loseTb_tb hl]
  · exact .of (fun _ => rfl) fun s h => ppsInPulse_of_some h
  · exact fun s hs => exec_wclkMeasurement_of_some hs
  · exact State.measureTb_steps hst ho
  · exact .of_barWrite (fun _ => rfl) fun s ⟨ha, hv, hs, h5, hl, hd⟩ => ⟨ha, tmbTbCfgWrite_enables hv hs h5 hl hd⟩
  · exact .of_barWrite (fun _ => rfl) fun s ⟨ha, hv, hl⟩ => ⟨ha, tmbTbCfgWrite_disables hv hl⟩
  · exact .of_barWrite (fun _ => rfl) fun s ⟨ha, hsrc⟩ => ⟨ha, if_pos hsrc⟩
  · exact .of (fun _ => rfl) fun s ⟨h2, hx, hp⟩ => wholeSecond_of_setSec h2 hx hp
  · exact .of (fun _ => rfl) fun s ⟨h2, hv, h4, hn⟩ => wholeSecond_ppsHigh h2 (by rw [State.ppsOn, h4, hv]; rfl) hn
  · exact .of (fun _ => rfl) fun s h => if_pos h
  · exact .of_barWrite (fun _ => rfl) fun s ha => ⟨ha, rfl⟩
  · exact .of (fun _ => rfl) fun s h => if_pos h
  · exact .of (fun _ => rfl) fun s _ => rfl
  · exact .of (fun _ => rfl) fun s _ => rfl

/-- Settles O34, clause by clause, by what the meaning of each row does in the states that the clause names. -/
theorem mediaClockActs : Obligations.MediaClockActs := by
  unfold Obligations.MediaClockActs
  refine ⟨fun k b r => ?_, fun s k r hu => ?_, ?_, fun n => ?_, fun s h5 ha hne hst hw => ?_, fun s ha hst hw => ?_, ?_, ?_, ?_, ?_, ?_,
    fun v => ?_, fun v => ?_, fun v => ?_, fun v => ?_, fun v => ?_⟩
  · exact .of (fun _ => rfl) fun s ⟨h, hr⟩ => originStepApply_of_reached h hr
  · exact State.stepOrigin_media hu
  · exact .of (fun _ => rfl) fun s h => if_pos h
  · exact .of (fun _ => rfl) fun s ⟨hb, hm, h⟩ => mediaChangeover_of_some ⟨hb, hm⟩ h
  · exact State.changeoverTo_secondary h5 ha hne hst hw
  · exact State.changeoverTo_primary ha hst hw
  · exact .of (fun _ => rfl) fun s h => if_pos h
  · exact .of_barWrite (fun _ => rfl) fun s ha => ⟨ha, rfl⟩
  · exact .of_barWrite (fun _ => rfl) fun s ha => ⟨ha, rfl⟩
  · refine .of (fun _ => rfl) fun s ⟨hon, hl, h8⟩ => ?_
    rw [holdoverExpiry_of_limit hon hl, if_neg (ne_true_of_eq_false h8)]
  · refine .of (fun _ => rfl) fun s ⟨hon, hl, h8⟩ => ?_
    rw [holdoverExpiry_of_limit hon hl, if_pos h8]
  · exact .of_barWrite (fun _ => rfl) fun s ha => ⟨ha, rfl⟩
  · exact .of_barWrite (fun _ => rfl) fun s ⟨ha, hv⟩ => ⟨ha, if_pos hv⟩
  · exact .of_barWrite (fun _ => rfl) fun s ⟨ha, hv⟩ => ⟨ha, if_neg (ne_true_of_eq_false hv)⟩
  · refine .of_barWrite (fun _ => rfl) fun s ⟨hm, hv⟩ => ?_
    rw [hm]
    exact ⟨rfl, mediaCfg_of_invalid v hv⟩
  · refine .of_barWrite (fun _ => rfl) fun s ⟨hm, hv⟩ => ?_
    obtain hm | hm := hm <;> rw [hm] <;> exact ⟨rfl, mediaCfg_of_valid v hv⟩

/-- Settles O35, clause by clause, by what the meaning of each row does in the states that the clause names. -/
theorem ptpMessagesAct : Obligations.PtpMessagesAct := by
  unfold Obligations.PtpMessagesAct
  refine ⟨fun n m => ?_, fun n m => ?_, fun n m y => ?_, fun n m q sent => ?_, fun n m => ?_, fun n m => ?_, fun n l => ?_, fun n => ?_,
    fun n l => ?_, fun n l => ?_, fun n => ?_, fun s p e h => ?_, fun s p e h => ?_, fun p at_ e => ?_, fun p => ?_⟩
  · refine .of (fun _ => rfl) fun s ⟨hm, hl, hf, h2⟩ => ?_
    rw [ptpSync_of_followed hm hl hf, if_neg (ne_true_of_eq_false h2)]
    rfl
  · exact .of (fun _ => rfl) fun s ⟨hm, hl, hf, h2⟩ => (ptpSync_of_followed hm hl hf).trans (if_pos h2)
  · exact .of (fun _ => rfl) fun s ⟨hy, hm, hf, hq⟩ => ptpFollowUp_of_sync hy hm hf hq
  · exact .of (fun _ => rfl) fun s ⟨hr, hm, hf, ho, hq⟩ => ptpDelayResp_of_request hr hm hf ho hq
  · exact .of (fun _ => rfl) fun s ⟨hm, hl⟩ => if_pos (Bool.and_eq_true_iff.mpr ⟨hm, hl⟩)
  · exact .of (fun _ => rfl) fun s hm => if_pos hm
  · exact .of (fun _ => rfl) fun s ⟨h, hp, hf, hr, hi, hw, hl⟩ => announceReceiptTimeout_of_only h hp hf hr hi hw hl
  · exact .of (fun _ => rfl) fun s ⟨hp, hl⟩ => if_pos (Bool.and_eq_true_iff.mpr ⟨hp, hl⟩)
  · exact .of (fun _ => rfl) fun s ⟨h, hp, hh⟩ => ptpDelayReqDue_of_held h hp hh
  · exact .of (fun _ => rfl) fun s ⟨h, hp, hh⟩ => ptpDelayReqDue_of_free h hp hh rfl
  · exact .of (fun _ => rfl) fun s ⟨hp, hl⟩ => if_pos (Bool.and_eq_true_iff.mpr ⟨hp, hl⟩)
  · exact if_pos h
  · exact if_neg (Nat.not_lt.mpr h)
  · exact .of (fun _ => rfl) fun s ⟨h, hk⟩ => ptpEventTransmitted_of_sync h hk rfl
  · exact .of (fun _ => rfl) fun s _ => rfl

/-- Settles O41, clause by clause, by what the meaning of each row does in the states that the clause names. -/
theorem modesChange : Obligations.ModesChange := by
  unfold Obligations.ModesChange
  refine ⟨?_, fun s n hw hs => ?_, fun s n o hw hs h9 ho => ?_, fun s n o hw ho => ?_, fun s n o hw ho => ?_, ?_, fun w => ?_, fun w => ?_,
    fun s m c adj => ?_, fun s c th => ?_, fun e => ?_, fun w => ?_, fun w => ?_, fun s c adj => ?_, ?_, ?_, ?_⟩
  · refine .of (fun _ => rfl) fun s ⟨hv, ha, hc, hg, hb⟩ => ?_
    unfold mscValidate
    dsimp only
    rw [if_pos (mscValidate_guard hv ha hc hg hb)]
  · exact State.originAt_default hw hs
  · exact State.originAt_seed hw hs h9 ho
  · exact (State.originAt_written hw).trans (if_pos ho)
  · exact (State.originAt_written hw).trans (if_neg (Nat.not_le.mpr ho))
  · refine .of (fun _ => rfl) fun s ⟨hv, hr, ht⟩ => ?_
    rw [State.valid, State.msc, watched_clock, watched_boundary]
    exact mscInvalidate_clears hv hr ht
  · exact .of_watched (fun _ => rfl) fun s ⟨ha, hw, hs, hr, hm⟩ =>
      (modeChange_of_wait ha hw hs hr).trans (congrArg State.modeDone (State.carryMode_of_runs _ _ hm hs))
  · exact .of_watched (fun _ => rfl) fun s ⟨ha, hw, hs, hr, hm⟩ =>
      (modeChange_of_wait ha hw hs hr).trans (congrArg State.modeDone (if_pos hm))
  · rw [State.enterRunning_pwr]
    exact ⟨rfl, rfl, rfl, rfl⟩
  · exact s.enterStandby_pwr c th
  · exact .of_watched (fun _ => rfl) fun s ⟨he, ht, hb, hf, hr⟩ => standbyEntry_of_entering he ht hb hf hr
  · exact .of_watched (fun _ => rfl) fun s ⟨hw, hs, hd⟩ => standbyExit_of_wait hw hs hd
  · exact .of_watched (fun _ => rfl) fun s ⟨hw, hd⟩ => dormantEntry_of_wait hw hd
  · exact s.enterDormant_stores c adj
  · exact .of_watched (fun _ => rfl) fun s ⟨hd, ht⟩ => fallbackEntry_of_due hd ht
  · exact .of_watched (fun _ => rfl) fun s ⟨ht, hd, hf, hr⟩ => autoStart_of_due ht hd hf hr
  · exact .of (fun _ => rfl) fun s ⟨hm, hb, hh, hp⟩ => if_pos ⟨hm, hb, ne_true_of_eq_false hh, hp⟩

/-- Settles O43, clause by clause, by what the meaning of each row does in the states that the clause names. -/
theorem resetsAndBootAct : Obligations.ResetsAndBootAct := by
  unfold Obligations.ResetsAndBootAct
  intro up scratch
  refine ⟨fun s keep n => ?_, fun s n => ?_, ?_, ?_, ?_, ?_, fun key on => ?_, ?_, ?_, ?_, ?_, ?_, ?_, fun x => ?_, fun x k hk => ?_, ?_⟩
  · exact ⟨rfl, rfl, rfl, rfl, rfl⟩
  · exact s.resetMain_scratch n
  · exact .of_watched (fun _ => rfl) fun s ⟨hm, hx⟩ => xtalFault_of_running hm hx
  · exact .of_watched (fun _ => rfl) fun s _ => rfl
  · exact .of_watched (fun _ => rfl) fun s hm => resetNAssert_of_main hm
  · exact .of_watched (fun _ => rfl) fun s ha => (barWrite_awake ha).trans (if_pos ⟨rfl, rfl⟩)
  · exact .of (fun _ => rfl) fun s ⟨h, _⟩ => watched_softReset_of_ne h
  · exact .of_watched (fun _ => rfl) fun s hm => mainRailDrop_of_main hm
  · exact .of (fun _ => rfl) fun s ⟨hr, hm⟩ => mainRailReturn_of_main hr hm
  · exact .of_watched (fun _ => rfl) fun s _ => rfl
  · exact .of_watched (fun _ => rfl) fun s hu => if_neg (ne_true_of_eq_false hu)
  · exact .of (fun _ => rfl) fun s _ => rfl
  · exact .of (fun _ => rfl) fun s _ => rfl
  · exact .of_watched (fun _ => rfl) fun s ⟨hs, hm⟩ => resetRelease_of_reset hs hm
  · refine .of_watched (fun _ => rfl) fun s h => (bootStageEnd_at h).trans ?_
    obtain rfl | rfl | rfl := hk <;> rfl
  · intro at_ image
    refine ⟨fun x b => ?_, fun x b => ?_, fun x => ?_, fun x => ?_, fun x => ?_, fun x => ?_, fun x => ?_, fun x => ?_, fun x => ?_,
      fun x s h3 => if_pos h3⟩
    · exact .of_watched (fun _ => rfl) fun s ⟨h, hb, hA⟩ => (bootStageEnd_at h).trans (bootImage_of_copyA hb hA)
    · exact .of_watched (fun _ => rfl) fun s ⟨h, hA, hb, hB⟩ => (bootStageEnd_at h).trans (bootImage_of_copyB hA hb hB)
    · exact .of_watched (fun _ => rfl) fun s ⟨h, hA, hB⟩ => (bootStageEnd_at h).trans (bootImage_of_neither hA hB)
    · exact .of_watched (fun _ => rfl) fun s ⟨h, ht⟩ => (bootStageEnd_at h).trans (bootTrain_of_trained ht)
    · exact .of_watched (fun _ => rfl) fun s ⟨h, ht⟩ => (bootStageEnd_at h).trans (bootTrain_of_untrained ht)
    · refine .of (fun _ => rfl) fun s ⟨h, hv⟩ => ?_
      have hstage : bootStageEnd x s = bootSafe x s := bootStageEnd_at (k := 5) h
      rw [watched_active, hstage, bootSafe_of_verified hv]
    · refine .of (fun _ => rfl) fun s ⟨h, hv⟩ => ?_
      have hstage : bootStageEnd x s = bootSafe x s := bootStageEnd_at (k := 5) h
      rw [watched_active, watched_bootCause, hstage]
      exact bootSafe_of_defective hv
    · exact .of_watched (fun _ => rfl) fun s h => bootStageEnd_at (k := 6) h
    · exact .of_watched (fun _ => rfl) fun s h => bootStageEnd_at (k := 7) h

end Sys2Proof.Machine
end

section
/-!
PROOFS for the timetable, epoch and shelf family (R71–R101, R118–R201, R264, R331, R464): what the commands of the timetable and
of the shelves do, how epochs are decided, how bells ring, and how evaluations, holds, crossfades and fades end.
-/

namespace Sys2Proof.Machine

/-! ### Reports leave the timetable and the shelves alone -/

theorem Side.bells {s t : State} (h : Side s t) : t.bells = s.bells := by
  obtain ⟨r, a, l, rfl⟩ := h
  rfl

theorem Side.xfades {s t : State} (h : Side s t) : t.xfades = s.xfades := by
  obtain ⟨r, a, l, rfl⟩ := h
  rfl

theorem Side.shelves {s t : State} (h : Side s t) : t.shelves = s.shelves := by
  obtain ⟨r, a, l, rfl⟩ := h
  rfl

theorem State.bitOf_evt (s : State) {off k : Nat} (ho : noCounter off) (hk : k < 32) : bitOf ((s.evt off k).reg off) k = true :=
  applyFxF_evt_bit ho hk 9 s

/-! ### EPOCH_OPEN, EPOCH_COMMIT and EPOCH_CANCEL (R82, R83, R85, R86, R88) -/

section
variable {e : Submission} {c : CmdRef} {s : State} {p : Epoch}

theorem epochOpen_of_local (hid : e.epoch ≠ 0) (hnew : s.epochNamed e.epoch = none) (hd : sub e 16 1 ≤ 64) (hc : sub e 17 1 = 0)
    (hz1 : subZero e 18 6 = true) (hp : sub e 24 32 = 0) (hz2 : subZero e 56 8 = true) (hroom : s.entries < 64)
    (hm : s.pwr.mode ≠ .standby) :
    epochOpen e c s = State.complete { s with
      epochs := s.epochs ++ [{ id := e.epoch, st := .open_, chain := false, parts := 0, deadline := s.deadline (sub e 16 1), order := s.epochSeq }],
      epochSeq := s.epochSeq + 1, finals := tdel s.finals e.epoch.toNat } c stOk 0 := by
  have hid0 : ¬e.epoch = 0#32 := hid
  have hfull : ¬64 ≤ s.entries := Nat.not_le.mpr hroom
  have hlong : ¬64 < sub e 16 1 := Nat.not_lt.mpr hd
  unfold epochOpen
  simp [hid0, hnew, hlong, hc, hz1, hp, hz2, hfull, hm]

/-- What the fields of EPOCH_COMMIT must be for its checks to pass. -/
theorem epochCommit_guard (hl : sub e 16 1 ≤ 1) (hz : subZero e 17 47 = true) :
    (decide (1 < sub e 16 1) || !subZero e 17 47) = false := by
  rw [decide_eq_false (Nat.not_lt.mpr hl), hz]
  rfl

/-- EPOCH_COMMIT of an epoch of this renderer alone while the MSC is valid: late, or sealed (R83, R85). -/
theorem epochCommit_of_valid (hl : sub e 16 1 ≤ 1) (hz : subZero e 17 47 = true) (ho : s.openEpoch e = some p) (hv : s.valid = true)
    (hc : p.chain = false) :
    epochCommit e c s = if (s.commitFor 128 (s.mscOf e.present)).2.2 && sub e 16 1 == 0 then s.complete c stLate 0
      else s.seal p (some c) (s.commitFor 128 (s.mscOf e.present)).1 (s.commitFor 128 (s.mscOf e.present)).2.1 := by
  have hlead : s.lead p = 128 := by rw [State.lead, hc]; rfl
  unfold epochCommit
  rw [guardCmd_false (epochCommit_guard hl hz), ho]
  dsimp only
  rw [hv, hc, hlead]
  rfl

/-- While the MSC is not valid it applies at once (R88). -/
theorem epochCommit_of_invalid (hl : sub e 16 1 ≤ 1) (hz : subZero e 17 47 = true) (ho : s.openEpoch e = some p) (hv : s.valid = false)
    (hc : p.chain = false) (hp : e.present = 0) : epochCommit e c s = s.commitQuiet p c := by
  unfold epochCommit
  rw [guardCmd_false (epochCommit_guard hl hz), ho]
  dsimp only
  rw [hv]
  exact (if_pos rfl).trans (if_pos ⟨hp, hc⟩)

theorem epochCancel_of_named (hz : subZero e 16 48 = true) (hb : s.boundary = false) (hn : s.epochNamed e.epoch = some p)
    (hx : p.expiring = false) : epochCancel e c s = (s.endEpoch p 5 stAborted).complete c stOk 0 := by
  unfold epochCancel
  rw [guardCmd_false (by rw [hz]; rfl), hb]
  simp [hn, hx]

theorem epochCancel_of_final {k : Nat} (hz : subZero e 16 48 = true) (hb : s.boundary = false) (hn : s.epochNamed e.epoch = none)
    (hf : tget s.finals e.epoch.toNat = some k) : epochCancel e c s = s.complete c stLate k := by
  unfold epochCancel
  rw [guardCmd_false (by rw [hz]; rfl), hb]
  simp [hn, hf]

/-! ### SHELF_SWITCH, SHELF_LOAD and SHELF_VERIFY (R96, R97, R98) -/

theorem shelfSwitch_of_standby (ht : sub e 16 1 ≤ 8) (hw : sub e 17 1 ≤ 1) (hx : sub e 18 2 = 0) (hz : subZero e 20 44 = true)
    (hok : s.switchOk (sub e 16 1) = true) (he : e.epoch = 0) (hm : s.pwr.mode = .standby) :
    shelfSwitch e c s = (s.switchNow (sub e 16 1)).complete c stOk s.msc := by
  have ht' : ¬8 < sub e 16 1 := Nat.not_lt.mpr ht
  have hw' : ¬1 < sub e 17 1 := Nat.not_lt.mpr hw
  unfold shelfSwitch
  simp [ht', hw', hx, hz, hok, he, hm]

/-- A load joins the work of its slot, which is LOADING from then on (R96). -/
theorem State.addJob_load {k : Nat} {j : ShelfJob} (hj : j.load = true) (hk : k ≠ 8) :
    s.addJob k j = s.setSlot k { s.slot k with jobs := (s.slot k).jobs ++ [j], st := .loading } := by
  unfold State.addJob
  dsimp only
  rw [if_pos ⟨hj, hk⟩]

/-- A verification joins the work of its slot and leaves its state (R97). -/
theorem State.addJob_verify {k : Nat} {j : ShelfJob} (hj : j.load = false) :
    s.addJob k j = s.setSlot k { s.slot k with jobs := (s.slot k).jobs ++ [j] } := by
  unfold State.addJob
  dsimp only
  rw [if_neg fun h => ne_true_of_eq_false hj h.1]

/-- Verifications alone keep no load off a slot (R96). -/
theorem jobs_any_load_false {l : List ShelfJob} (h : ∀ j ∈ l, j.load = false) : l.any (fun j => j.load) = false :=
  List.any_eq_false.mpr fun j hj => ne_true_of_eq_false (h j hj)

theorem shelfLoad_of_flash (hs : sub e 16 1 = 1) (hlo : 4 ≤ sub e 17 1) (hhi : sub e 17 1 ≤ 8) (hz1 : subZero e 24 16 = true)
    (hd : sub e 18 1 < 4) (hz2 : subZero e 19 5 = true) (hz3 : subZero e 40 24 = true) (ha : (s.slot (sub e 18 1)).st ≠ .active)
    (hf : (s.slot (sub e 18 1)).st ≠ .fading) (hj : ∀ j ∈ (s.slot (sub e 18 1)).jobs, j.load = false)
    (hp : s.pendingTargets.contains (sub e 18 1) = false) (hm : s.pwr.mode ≠ .standby) (hn : s.noDram = false) :
    shelfLoad e c s = s.addJob (sub e 18 1) { cmd := c, load := true, flash := some (sub e 17 1), length := sub e 32 8 } := by
  have h8 : ¬8 < sub e 18 1 := by omega
  have h4 : ¬4 ≤ sub e 18 1 := Nat.not_le.mpr hd
  unfold shelfLoad
  dsimp only
  rw [guardCmd_false, guardCmd_false]
  · simp [hs]
  · simp [h4, hm, hn]
  · rw [hp, jobs_any_load_false hj]
    simp [hs, hlo, hhi, hz1, h8, hz2, hz3, ha, hf]

theorem shelfVerify_of_filled (hk : sub e 16 1 ≤ 8) (hz : subZero e 17 47 = true) (he : (s.slot (sub e 16 1)).st ≠ .empty)
    (hl : (s.slot (sub e 16 1)).st ≠ .loading) :
    shelfVerify e c s = s.addJob (sub e 16 1) { cmd := c, load := false, flash := none, length := 0 } := by
  have hk' : ¬8 < sub e 16 1 := Nat.not_lt.mpr hk
  unfold shelfVerify
  exact guardCmd_false (by simp [hk', hz, he, hl])

end

/-! ### The check of an epoch (R84, R87, R99) -/

section
variable {s : State} {e : Epoch}

/-- The head of a chain announces decisions of chain epochs alone (R331). -/
theorem State.announce_of_local (hc : e.chain = false) (m : Nat) (d : Decision) : s.announce e m d = s := by
  unfold State.announce
  rw [hc]
  rfl

theorem State.checkEpoch_of_defective (h : e.defective = true) : s.checkEpoch e = s.endEpoch e 5 stBadParam := by
  unfold State.checkEpoch
  rw [h]
  rfl

theorem State.checkEpoch_of_active_target (hs : e.safe = false)
    (h : e.members.any (fun m => m.switch.any (fun w => w.target == s.active)) = true) :
    s.checkEpoch e = s.endEpoch e 5 stBadParam := by
  unfold State.checkEpoch
  rw [h, hs]
  exact if_pos (Bool.or_true _)

/-- The check of a local epoch that is not cancelled: it waits for its switch, commits, is to expire, or is deferred. -/
theorem State.checkEpoch_of_fit (hd : e.defective = false) (hn : s.noDram = false) (hs : e.safe = false) (hc : e.chain = false)
    (ha : e.members.any (fun m => m.switch.any (fun w => w.target == s.active)) = false) :
    s.checkEpoch e =
      if s.switchMayStart e = false then
        let e1 := { s.later e (e.m + 128) with st := .waiting, adjusted := true }
        if e.st = .waiting then (s.setEpoch e1).fadeAll e1 else ((s.setEpoch e1).fadeAll e1).evt Reg.TT_EVT 4
      else if s.allStaged e = true ∧ s.heldBack e = false then s.commitEpoch e e.adjusted
      else if e.deadline ≤ e.deferrals then s.setEpoch { e with st := .sealed, expiring := true }
      else s.defer e := by
  unfold State.checkEpoch
  simp [hd, hn, hs, hc, ha, State.announce_of_local]

theorem State.defer_of_local (hc : e.chain = false) :
    s.defer e = ((s.setEpoch { s.later e (e.m + 128) with st := .sealed, deferrals := e.deferrals + 1, adjusted := true }).fadeAll
      { s.later e (e.m + 128) with st := .sealed, deferrals := e.deferrals + 1, adjusted := true }).both Reg.TT_DEFERRALS Reg.TT_EVT 2 :=
  State.announce_of_local hc _ _

/-- An epoch with an identifier leaves the timetable, and its final state is kept (R79). -/
theorem State.finalise_of_named (ho : e.own = false) (hs : e.safe = false) (code : Nat) :
    s.finalise e code = { s with epochs := s.epochs.filter (fun d => d.order != e.order), finals := tset s.finals e.id.toNat code } := by
  unfold State.finalise
  rw [ho, hs]
  rfl

/-! ### What an epoch meets (R81, R84, R331) -/

theorem epochExpire_of_picked {id : Word} (h : s.pickEpoch id (fun e => e.expiring) = some e) : epochExpire id s = s.expire e := by
  unfold epochExpire
  rw [h]

theorem epochSplit_of_picked {id : Word}
    (h : s.pickEpoch id (fun e => e.chain && e.undecided && !s.ntk.chain.head && (e.m == 0 || decide (e.m ≤ s.msc + 128))) = some e) :
    epochSplit id s = (s.endEpoch e 5 stAborted).both Reg.NTK_EPOCH_SPLITS Reg.NTK_EVT 4 := by
  unfold epochSplit
  rw [h]

/-- The epoch is sealed and not decided, and its member `k` is not staged. -/
def Epoch.awaits (e : Epoch) (k : Nat) : Bool := e.undecided && (match e.members[k]? with
  | some m => !m.staged
  | none => false)

/-- An epoch sealed before `e` still awaits path sets (R136). -/
def State.geoAhead (s : State) (e : Epoch) : Bool :=
  s.epochs.any (fun d => d.undecided && decide (d.order < e.order) && d.members.any (fun n => n.geo && !n.staged))

theorem epochMemberStaged_of_picked {id : Word} {k : Nat} {m m1 : Member} {s1 : State}
    (hp : s.stageWork.pickEpoch id (fun e => e.awaits k) = some e) (hm : e.members[k]? = some m)
    (hg : m.geo = false ∨ (s.stageWork.stagePaid e m = true ∧ s.stageWork.geoAhead e = false))
    (hr : s.stageWork.reserve m = some (m1, s1)) :
    epochMemberStaged id k s = s1.setEpoch { e with members := e.members.set k { m1 with staged := true } } := by
  have hfree : ¬(m.geo && (s.stageWork.geoAhead e || !s.stageWork.stagePaid e m)) = true := by
    rcases hg with hg | ⟨hpaid, hfirst⟩
    · simp [hg]
    · simp [hpaid, hfirst]
  unfold epochMemberStaged
  dsimp only
  split
  · next hnone => exact absurd (hnone.symm.trans hp) nofun
  · next d hd =>
    obtain rfl : d = e := Option.some.inj (hd.symm.trans hp)
    rw [hm]
    exact (if_neg hfree).trans (by rw [hr])

end

/-! ### Bells (R71, R72, R76, R264) -/

section
variable {s : State} {stream : Bool} {id : Nat} {b : Bell}

/-- A bell whose turn has come is skipped, or acts by its kind; what waits for the bells of the boundary follows. -/
theorem bellRing_of_turn (hb : s.bellOf stream id = some b) (ht : s.bellTurn stream id b = true) :
    bellRing stream id s = State.modeDone
      (if s.bellSkips stream b then (s.both Reg.TT_BELLS_SKIPPED Reg.TT_EVT 1).bellOver stream id false
       else if b.kind = 0 then (s.bellNotify stream id b).bellOver stream id true
       else if b.kind = 1 then
         (if s.canPost b.task b.mask then (s.applyPost b.task b.mask).bellOver stream id true
          else s.hold (.bell stream id) b.task b.mask)
       else if b.kind = 2 then (dmaDoorbell b.chan s).bellOver stream id true
       else (s.strobeMask b.chan).bellOver stream id true) := by
  unfold bellRing
  rw [hb]
  dsimp only
  rw [ht]
  rfl

/-- A bell of the timetable is kept as its ring leaves it. -/
theorem State.bellOver_bells (acted : Bool) (hb : tget s.bells id = some b) :
    (s.bellOver false id acted).bells = tset s.bells id (b.after acted) := by
  unfold State.bellOver
  rw [if_neg Bool.false_ne_true, hb]
  cases acted with
  | false => rfl
  | true => exact (State.count_side _ _ _).bells

theorem Bell.after_of_more (acted : Bool) (hp : b.period ≠ 0) (hc : b.count = 0 ∨ b.ring + 1 < b.count) :
    b.after acted = { b with
      acted := if acted then b.acted + 1 else b.acted, ring := b.ring + 1, next := b.point (b.ring + 1),
      armed := b.armed && b.stop.all (fun x => decide (b.point (b.ring + 1) ≤ x)) } := by
  have hmore : ¬(b.period = 0 ∨ (b.count ≠ 0 ∧ b.count ≤ b.ring + 1)) := by omega
  exact if_neg hmore

theorem Bell.after_of_last (acted : Bool) (h : b.period = 0 ∨ (b.count ≠ 0 ∧ b.count ≤ b.ring + 1)) :
    b.after acted = { b with acted := if acted then b.acted + 1 else b.acted, armed := false } := if_pos h

end

/-! ### Ends of evaluations, holds, crossfades and fades (R100, R118, R121, R131, R159, R190, R194, R201) -/

section
variable {s : State}

/-- A prune hold that is over shows 0; every other stays (R159). -/
def releaseHold (key : Nat × Nat × Nat) (now : Nat) (h : (Nat × Nat × Nat) × Nat) : (Nat × Nat × Nat) × Nat :=
  if h.1 = key ∧ h.2 ≤ now then (h.1, 0) else h

theorem releaseHold_fst (key : Nat × Nat × Nat) (now : Nat) (h : (Nat × Nat × Nat) × Nat) : (releaseHold key now h).1 = h.1 := by
  unfold releaseHold
  split <;> rfl

theorem releaseHold_over {key : Nat × Nat × Nat} {now : Nat} {h : (Nat × Nat × Nat) × Nat} (hk : (releaseHold key now h).1 = key) :
    (releaseHold key now h).2 = 0 ∨ now < (releaseHold key now h).2 := by
  rw [releaseHold_fst] at hk
  unfold releaseHold
  split
  · exact .inl rfl
  · next hstay => exact .inr (Nat.not_le.mp fun hle => hstay ⟨hk, hle⟩)

theorem execPruneHoldEnd_eq (l k sp : Nat) (s : State) : execPruneHoldEnd l k sp s =
    .next { s with geo := { s.geo with holds := s.geo.holds.map (releaseHold (l, k, sp) s.msc) } } := rfl

theorem execGeometryEvaluationDeadline_of_due {x : GeometryInput} {fr : GeoFrame} {rest : List GeoFrame} (hf : s.geo.frozen = fr :: rest)
    (hp : s.piping = true) (hd : fr.frame + 16 ≤ s.msc) : execGeometryEvaluationDeadline x s = .next (s.evaluateGeo x) := by
  unfold execGeometryEvaluationDeadline
  rw [hf]
  dsimp only
  rw [hp, decide_eq_true hd]
  rfl

theorem execJumpCrossfadeEnd_of_due {k f j : Nat} {l : Locker} (hl : tget s.lockers k = some l) (hj : l.jump = some (f, j))
    (hd : f + j + 32 ≤ s.msc) (hb : s.boundary = false) : execJumpCrossfadeEnd k s =
      .next (s.setLocker k { l with jump := none, sets := l.sets.filter (fun t => !t.jumpOut) }) := by
  unfold execJumpCrossfadeEnd
  rw [hl]
  dsimp only
  rw [hj]
  exact congrArg _ (if_pos ⟨hd, ne_true_of_eq_false hb⟩)

/-- The first shelf crossfade is over: it leaves the list with the old shelf's sets, the old slot is VERIFIED again where it was
FADING, and TT_EVT.XFADE_DONE reports it (R100). -/
theorem execXfadeDone_of_due {x : Xfade} {rest : List Xfade} {o : Nat} (hx : s.xfades = x :: rest) (hd : x.m + x.len + 32 ≤ s.msc)
    (hb : s.boundary = false) (ho : x.old = some o) (hf : (s.shelves.getD o {}).st = .fading) :
    execXfadeDone s = .next (State.evt { s with
      lockers := tmap (fun _ l => { l with sets := l.sets.filter (fun t => t.slot == 15 || some t.slot != some o) }) s.lockers,
      xfades := rest, shelves := s.shelves.set o { s.shelves.getD o {} with st := .verified } } Reg.TT_EVT 5) := by
  unfold execXfadeDone
  rw [hx]
  dsimp only
  rw [if_pos ⟨hd, ne_true_of_eq_false hb⟩, ho]
  dsimp only
  rw [if_pos hf]

theorem execLockerDisable_of_ramped {k : Nat} {l : Locker} (hl : tget s.lockers k = some l) (hv : l.live = true)
    (he : l.cfg.enable = false) (hg : l.gain.busy = false) :
    execLockerDisable k s = .next (s.setLocker k { l.quieten with live := false, releasing := true }) := by
  unfold execLockerDisable
  rw [hl]
  dsimp only
  rw [hv, he, hg]
  rfl

theorem firCrossfadeEnd_of_faded {f : Nat} {old : List Int} {w : Ramp} (h : (s.feed f).firOld = some (old, w)) (hw : w.busy = false) :
    firCrossfadeEnd f s = { s.setFeed f { s.feed f with firOld := none } with firUsed := s.firUsed - old.length } := by
  unfold firCrossfadeEnd
  rw [h]
  dsimp only
  rw [hw]
  rfl

theorem Fade.fallen_of_due {h p : Nat} {x : Fade} (hr : x.rise = none) (hd : x.fall + h + 64 ≤ p) : x.fallen h p = { x with held := true } := by
  unfold Fade.fallen
  rw [hr, decide_eq_true hd]
  rfl

theorem alignFadeOutEnd_fades (f : Nat) (s : State) : ((alignFadeOutEnd f s).feed f).fades =
    (s.feed f).fades.map (Fade.fallen (fadeLen s.clock.media.rate96) s.msc) := by
  unfold alignFadeOutEnd
  rw [State.feed_setFeed, if_pos rfl]

theorem pilotWindowEnd_of_full {f : Nat} (hs : (s.feed f).pilot.supEn = true) (hw : 4096 ≤ (s.feed f).win.length) : pilotWindowEnd f s =
    (s.setFeed f (superviseWindow f (s.feed f) s.fs).1).fxs (superviseWindow f (s.feed f) s.fs).2 := by
  unfold pilotWindowEnd
  dsimp only
  rw [hs, decide_eq_true hw]
  rfl

/-- The probe of a locker without path sets finds no path. -/
theorem execProbeCapture_of_no_sets {m : Nat} (hp : s.path.probeFrom = some m) (hr : s.piping = true) (hm : m ≤ s.msc)
    (hb : s.boundary = false) (hs : (s.locker (fieldOf (s.reg Reg.PTH_PROBE_SEL) 0 10)).sets = []) :
    execProbeCapture s = .next (({ s with path := { s.path with probeFrom := none } } : State).probeRegs 0 0 0 1 0) := by
  unfold execProbeCapture
  rw [hp]
  dsimp only
  rw [hr, decide_eq_true hm, hb, hs]
  rfl

end

/-! ### The statements of the family -/

/-- Settles O6, clause by clause, by what each command does in the states that the clause names. -/
theorem epochCommandsAct : Obligations.EpochCommandsAct := by
  unfold Obligations.EpochCommandsAct
  refine ⟨fun e => ?_, fun e p => ?_, fun e p => ?_, fun e p => ?_, fun e p => ?_, fun e k => ?_⟩
  · exact .of (fun _ => rfl) fun c s ⟨hid, hnew, hd, hc, hz1, hp, hz2, hroom, hm⟩ => epochOpen_of_local hid hnew hd hc hz1 hp hz2 hroom hm
  · refine .of (fun _ => rfl) fun c s ⟨hl, hz, ho, hv, hc, hlate⟩ => (epochCommit_of_valid hl hz ho hv hc).trans (if_neg ?_)
    rcases hlate with h | h <;> simp [h]
  · refine .of (fun _ => rfl) fun c s ⟨hl, hz, ho, hv, hc, hlate⟩ =>
      (epochCommit_of_valid (hl ▸ Nat.zero_le 1) hz ho hv hc).trans (if_pos ?_)
    rw [hlate, hl]
    rfl
  · exact .of (fun _ => rfl) fun c s ⟨hl, hz, ho, hv, hc, hp⟩ => epochCommit_of_invalid hl hz ho hv hc hp
  · exact .of (fun _ => rfl) fun c s ⟨hz, hb, hn, hx⟩ => epochCancel_of_named hz hb hn hx
  · exact .of (fun _ => rfl) fun c s ⟨hz, hb, hn, hf⟩ => epochCancel_of_final hz hb hn hf

/-- Settles O11, clause by clause, by what each command does in the states that the clause names. -/
theorem shelfCommandsAct : Obligations.ShelfCommandsAct := by
  unfold Obligations.ShelfCommandsAct
  refine ⟨fun e => ?_, fun e => ?_, fun e => ?_⟩
  · exact .of (fun _ => rfl) fun c s ⟨ht, hw, hx, hz, hok, he, hm⟩ => shelfSwitch_of_standby ht hw hx hz hok he hm
  · exact .of (fun _ => rfl) fun c s ⟨hs, hlo, hhi, hz1, hd, hz2, hz3, ha, hf, hj, hp, hm, hn⟩ =>
      (shelfLoad_of_flash hs hlo hhi hz1 hd hz2 hz3 ha hf hj hp hm hn).trans (State.addJob_load rfl (by omega))
  · exact .of (fun _ => rfl) fun c s ⟨hk, hz, he, hl⟩ => (shelfVerify_of_filled hk hz he hl).trans (State.addJob_verify rfl)

/-- Settles O45: the branches of the check of an epoch, its final state, and the meaning of the three rows that epochs meet. -/
theorem epochChecksDecide : Obligations.EpochChecksDecide := by
  unfold Obligations.EpochChecksDecide
  refine ⟨fun s e hd => State.checkEpoch_of_defective hd, fun s e hs ha => State.checkEpoch_of_active_target hs ha, ?_,
    fun s e code ho hs => ?_, fun id e => ?_, fun id e => ?_, fun id k e m m1 s1 => ?_⟩
  · intro fit
    have notStaged {s : State} {e : Epoch} (h : s.allStaged e = false ∨ s.heldBack e = true) :
        ¬(s.allStaged e = true ∧ s.heldBack e = false) := by
      rcases h with h | h <;> simp [h]
    refine ⟨fun s e ⟨hd, hn, hs, hc, ha⟩ hw hst hh => ?_, fun s e ⟨hd, hn, hs, hc, ha⟩ hw hst => ?_,
      fun s e ⟨hd, hn, hs, hc, ha⟩ hw hst hl => ?_, fun s e ⟨hd, hn, hs, hc, ha⟩ hw hst hl => ?_⟩
    · rw [State.checkEpoch_of_fit hd hn hs hc ha, if_neg (ne_false_of_eq_true hw), if_pos ⟨hst, hh⟩]
    · rw [State.checkEpoch_of_fit hd hn hs hc ha, if_pos hw]
      exact if_neg hst
    · rw [State.checkEpoch_of_fit hd hn hs hc ha, if_neg (ne_false_of_eq_true hw), if_neg (notStaged hst), if_neg (Nat.not_le.mpr hl)]
      exact State.defer_of_local hc
    · rw [State.checkEpoch_of_fit hd hn hs hc ha, if_neg (ne_false_of_eq_true hw), if_neg (notStaged hst), if_pos hl]
  · rw [State.finalise_of_named ho hs]
    exact ⟨rfl, tget_tset_same _ _ _⟩
  · exact .of (fun _ => rfl) fun s h => epochExpire_of_picked h
  · exact .of (fun _ => rfl) fun s h => epochSplit_of_picked h
  · exact .of (fun _ => rfl) fun s ⟨hp, hm, hg, hr⟩ => epochMemberStaged_of_picked hp hm hg hr

/-- Settles O46: each branch of a ring that has its turn, and the bell as the ring leaves it. -/
theorem bellsRingAndHold : Obligations.BellsRingAndHold := by
  unfold Obligations.BellsRingAndHold
  refine ⟨fun st id b => ?_, fun st id b => ?_, fun st id b => ?_, fun st id b => ?_, fun st id b => ?_, fun st id b => ?_,
    fun s id b acted hb => ?_, fun b acted hp hc => ?_, fun b acted h => ?_⟩
  · exact .of_watched (fun _ => rfl) fun s ⟨hb, ht, hs⟩ => by rw [bellRing_of_turn hb ht, if_pos hs]
  · exact .of_watched (fun _ => rfl) fun s ⟨hb, ht, hs, hk⟩ => by
      rw [bellRing_of_turn hb ht, if_neg (ne_true_of_eq_false hs), if_pos hk]
  · exact .of_watched (fun _ => rfl) fun s ⟨hb, ht, hs, hk, hp⟩ => by
      rw [bellRing_of_turn hb ht, if_neg (ne_true_of_eq_false hs), if_neg (by omega), if_pos hk, if_pos hp]
  · exact .of_watched (fun _ => rfl) fun s ⟨hb, ht, hs, hk, hp⟩ => by
      rw [bellRing_of_turn hb ht, if_neg (ne_true_of_eq_false hs), if_neg (by omega), if_pos hk, if_neg (ne_true_of_eq_false hp)]
  · exact .of_watched (fun _ => rfl) fun s ⟨hb, ht, hs, hk⟩ => by
      rw [bellRing_of_turn hb ht, if_neg (ne_true_of_eq_false hs), if_neg (by omega), if_neg (by omega), if_pos hk]
  · exact .of_watched (fun _ => rfl) fun s ⟨hb, ht, hs, hk⟩ => by
      rw [bellRing_of_turn hb ht, if_neg (ne_true_of_eq_false hs), if_neg (by omega), if_neg (by omega), if_neg (by omega)]
  · rw [State.bellOver_bells acted hb, tget_tset_same]
  · rw [Bell.after_of_more acted hp hc]
    exact ⟨rfl, rfl, rfl⟩
  · rw [Bell.after_of_last acted h]

/-- Settles O47, clause by clause, by what the meaning of each row does in the states that the clause names. -/
theorem geometryAndFadesEnd : Obligations.GeometryAndFadesEnd := by
  unfold Obligations.GeometryAndFadesEnd
  refine ⟨fun x fr rest s ⟨hf, hp, hd⟩ => ?_, fun l k sp s _ => ?_, fun k l f j s ⟨hl, hj, hd, hb⟩ => ?_,
    fun x rest o s ⟨hx, hd, hb, ho, hlen, hf⟩ => ?_, fun k l s ⟨hl, hv, he, hg⟩ => ?_, fun f old w => ?_, fun f x => ?_, fun f => ?_,
    fun m s ⟨hp, hr, hm, hb, hs⟩ => ?_⟩
  · exact execGeometryEvaluationDeadline_of_due hf hp hd
  · refine ⟨_, execPruneHoldEnd_eq l k sp s, ?_, fun h hmem hk => ?_⟩
    · rw [List.map_map]
      exact List.map_congr_left fun h _ => releaseHold_fst _ _ h
    · obtain ⟨h0, _, rfl⟩ := List.mem_map.mp hmem
      exact releaseHold_over hk
  · exact execJumpCrossfadeEnd_of_due hl hj hd hb
  · refine ⟨_, execXfadeDone_of_due hx hd hb ho hf, (State.evt_side _ _ _).xfades, ?_, State.bitOf_evt _ ⟨by decide, by decide⟩ (by decide),
      State.evt_active _ _ _⟩
    rw [(State.evt_side _ _ _).shelves, getD_set _ _ _ _ _ hlen, if_pos rfl]
  · exact execLockerDisable_of_ramped hl hv he hg
  · exact .of (fun _ => rfl) fun s ⟨h, hw⟩ => firCrossfadeEnd_of_faded h hw
  · refine .of (fun _ => rfl) fun s ⟨hx, hr, hd⟩ => ?_
    rw [alignFadeOutEnd_fades]
    refine ⟨?_, List.length_map _, rfl⟩
    rw [← Fade.fallen_of_due hr hd]
    exact List.mem_map_of_mem hx
  · exact .of (fun _ => rfl) fun s ⟨hs, hw⟩ => pilotWindowEnd_of_full hs hw
  · exact execProbeCapture_of_no_sets hp hr hm hb hs

end Sys2Proof.Machine
end

section
/-!
PROOFS for the object and recorder family (R17, R117–R128, R150, R237–R239, R263–R271): what the commands of the object stage, the
capture recorder and the replay stream do, and how tasks become ready, run, end and go.
-/

namespace Sys2Proof.Machine

/-! ### Commands that act on a block or a control frame (R17, R117, R121) -/

section
variable {c : CmdRef} {e : Submission} {s : State}

/-- With no epoch and no presentation MSC, a command's changes go to the first block whose slot has not begun (R121). -/
theorem State.blockCommand_of_first {off : Nat} {lateOk geo : Bool} {chgs : Nat → List Change} {res : Nat → State → Nat}
    (he : e.epoch = 0) (hv : s.valid = true) (hp : e.present = 0) :
    s.blockCommand c e off lateOk geo chgs res =
      (s.putAll (some c.order) (s.nextMul 16 - off) (chgs (s.nextMul 16 - off))).complete c stOk
        (res (s.nextMul 16 - off) (s.putAll (some c.order) (s.nextMul 16 - off) (chgs (s.nextMul 16 - off)))) := by
  unfold State.blockCommand
  rw [he, hv, hp]
  rfl

/-- While the MSC is not valid no pipeline runs, and they apply at once (R17). -/
theorem State.blockCommand_of_invalid {off : Nat} {lateOk geo : Bool} {chgs : Nat → List Change} {res : Nat → State → Nat}
    (he : e.epoch = 0) (hv : s.valid = false) (hp : e.present = 0) :
    s.blockCommand c e off lateOk geo chgs res = (s.applyNow (chgs 0)).complete c stOk (res 0 (s.applyNow (chgs 0))) := by
  unfold State.blockCommand
  rw [he, hv, hp]
  rfl

/-- A change that is taken from a control frame on waits for the one after the next (R117). -/
theorem State.frameCommand_of_first {chg : Change} {geo : Bool} {ok late : State → State}
    (he : e.epoch = 0) (hv : s.valid = true) (hp : e.present = 0) :
    s.frameCommand c e chg geo ok late =
      (ok (s.put (some (chg.turn c.order s.host.fetchOrder)) (s.nextMul 128 + 128) chg)).complete c stOk (s.nextMul 128 + 128) := by
  unfold State.frameCommand
  rw [he, hv, hp]
  rfl

/-- A FLAGS byte of 0 is one that a command may have. -/
theorem lateFlag_zero : lateFlag 0 = true := rfl

/-! ### What each command of the object stage does with valid fields (R117, R120, R122, R123, R150) -/

theorem objConfig_of_parsed {l : Nat} {late : Bool} {cfg : LockerCfg} (h : parseLocker s.fs (entryByte e) = some (l, late, cfg)) :
    objConfig e c s =
      s.blockCommand c e 16 late false (fun b => lockerChanges l cfg (upTo 128 (max b (s.msc + 129)))) blockRes := by
  unfold objConfig
  rw [h]

theorem objGain_of_valid (hl : sub e 16 2 < 1024) (hf : sub e 18 1 = 0) (hz1 : subZero e 19 1 = true) (hg : codeOk (sub e 20 2) = true)
    (hr : rampOk (sub e 22 2) = true) (hz2 : subZero e 24 40 = true) :
    objGain e c s = s.blockCommand c e 16 false false (fun _ => [.objGain (sub e 16 2) (sub e 20 2) (sub e 22 2)]) blockRes := by
  unfold objGain
  rw [hf, if_neg (by simp [hl, lateFlag_zero, hz1, hg, hr, hz2])]
  rfl

theorem objEq_of_valid {r : List Byte} {bs : List Biquad} (hl : sub e 16 2 < 1024) (hf : sub e 18 1 = 0) (hn : sub e 20 1 ≠ 0)
    (hn8 : sub e 19 1 + sub e 20 1 ≤ 8) (hz1 : subZero e 21 3 = true) (ha : sub e 24 8 % 8 = 0) (hz2 : subZero e 32 32 = true)
    (hr : e.records = some r) (hb : parseBiquads (listByte r) 0 (sub e 20 1) = some bs) :
    objEq e c s = s.blockCommand c e 16 false false (fun _ => [.objEq (sub e 16 2) (sub e 19 1) bs]) blockRes := by
  unfold objEq
  dsimp only
  rw [hf, if_neg (by simp [hl, lateFlag_zero, hn, hn8, hz1, ha, hz2]), hr]
  dsimp only
  rw [hb]
  rfl

theorem objPosition_of_parsed {r : List Byte} {ups : List PosUpdate} (ha : sub e 16 8 % 16 = 0) (hlo : 1 ≤ sub e 24 4)
    (hhi : sub e 24 4 ≤ 4096) (hz : subZero e 28 36 = true) (hr : e.records = some r)
    (hu : parseBatch (listByte r) (sub e 24 4) = .inl ups) (hfr : s.pwr.freeze = false) :
    objPosition e c s = s.frameCommand c e (.objPos ups (decide (e.epoch ≠ 0))) true
      (fun s => s.count Reg.OBJ_POS_UPDATES (sub e 24 4)) (fun s => s.both Reg.OBJ_POS_LATE Reg.OBJ_EVT 0) := by
  have hn : sub e 24 4 ≠ 0 := Nat.ne_of_gt hlo
  unfold objPosition
  dsimp only
  rw [if_neg (by simp [ha, hz, hn, hhi]), hr]
  dsimp only
  rw [hu]
  dsimp only
  rw [hfr]
  rfl

/-- AIR_SET outside an epoch, while the MSC is valid: its values from their frame on, and an AIR_SET has been taken. -/
theorem airSet_of_valid (hp : sub e 16 1 ≠ 0) (hz1 : subZero e 17 3 = true) (hr : sub e 20 4 ≤ 3600000)
    (hlo : -10240 ≤ signed 16 (sub e 24 2)) (hhi : signed 16 (sub e 24 2) ≤ 15360) (hh : sub e 26 2 ≤ 25600)
    (hz2 : subZero e 28 36 = true) (he : e.epoch = 0) (hv : s.valid = true) :
    airSet e c s = ({ s with geo := { s.geo with airSet := true } } : State).frameCommand c e
      (.air (sub e 16 1) (sub e 20 4) (signed 16 (sub e 24 2)) (sub e 26 2)) false id id := by
  unfold airSet
  dsimp only
  rw [if_neg (by simp [hp, hz1, hr, hlo, hhi, hh, hz2]), he, hv]
  rfl

/-! ### The capture recorder and the replay stream (R125, R127, R128) -/

theorem State.blockFor_mscOf_zero (s : State) (off : Nat) : s.blockFor off (s.mscOf 0) = (s.nextMul 16 - off, false) := rfl

theorem State.noCapture_of_able (hm : s.pwr.mode ≠ .standby) (hd : s.noDram = false) (hv : s.valid = true) : s.noCapture = false := by
  simp [State.noCapture, hm, hd, hv]

theorem captureStart_of_idle {r : List Byte} {taps : List (Nat × Nat)} (hb : s.frameBuffer (sub e 24 8) (sub e 32 8) (sub e 16 2) = true)
    (hm : sub e 18 1 < 2) (hf : sub e 19 1 = 0) (hz1 : subZero e 20 4 = true) (hz2 : subZero e 48 16 = true) (hr : e.records = some r)
    (ht : allSome ((List.range (sub e 16 2)).map (fun k => parseTap (imgAt (listByte r) (4 * k)))) = some taps)
    (hn : s.noCapture = false) (hi : s.capture.busy = false) (hp : e.present = 0) :
    captureStart e c s = { s with capture := {
      st := 1, oneShot := sub e 18 1 == 1, buffer := sub e 24 8, length := sub e 32 8, taps := taps, start := s.nextMul 16 - 16,
      cmd := some c, cmdAdj := false } } := by
  have hok : (s.frameBuffer (sub e 24 8) (sub e 32 8) (sub e 16 2) && decide (sub e 18 1 < 2) && lateFlag (sub e 19 1) &&
      subZero e 20 4 && subZero e 48 16) = true := by
    rw [hb, decide_eq_true hm, hf, hz1, hz2]
    rfl
  unfold captureStart
  dsimp only
  rw [hok, hr]
  dsimp only
  rw [ht]
  dsimp only
  rw [hn, hi, hp, State.blockFor_mscOf_zero]
  rfl

theorem captureStop_of_busy (hz1 : subZero e 16 3 = true) (hf : sub e 19 1 = 0) (hz2 : subZero e 20 44 = true) (hv : s.valid = true)
    (hb : s.capture.busy = true) (hs : s.capture.stopAt = none) (hp : e.present = 0) (hlt : s.capture.start < s.nextMul 16 - 16) :
    captureStop e c s =
      { s with capture := { s.capture with stopAt := some (s.nextMul 16 - 16), stops := s.capture.stops ++ [(c, false)] } } := by
  unfold captureStop
  rw [if_neg (by simp [hz1, hf, lateFlag_zero, hz2]), hv, hb, hp, State.blockFor_mscOf_zero]
  dsimp only
  rw [hs]
  exact if_neg (Nat.not_le.mpr hlt)

/-- OP 2 raises the fill level. -/
theorem replaySet_raises_fill (hf : replayFields e s = true) (ho : sub e 16 1 = 2) (hl : s.replay.fill ≤ sub e 40 8)
    (hn : s.noCapture = false) :
    replaySet e c s = State.complete { s with replay := { s.replay with fill := sub e 40 8 } } c stOk 0 := by
  unfold replaySet
  dsimp only
  rw [hf, decide_eq_false (Nat.not_lt.mpr hl), Bool.and_false, hn]
  exact if_pos ho

/-- OP 1 acts on its block, also where no stream runs. -/
theorem replaySet_stop_of_idle (hf : replayFields e s = true) (ho : sub e 16 1 = 1) (hn : s.noCapture = false) (hp : e.present = 0)
    (hr : s.replay.st = 0) : replaySet e c s = s.complete c stOk (s.nextMul 16 - 16) := by
  unfold replaySet
  dsimp only
  rw [hf, ho, hn, hp, State.blockFor_mscOf_zero, hr]
  rfl

/-- OP 0 finds the stream taken. -/
theorem replaySet_start_of_running (hf : replayFields e s = true) (ho : sub e 16 1 = 0) (hn : s.noCapture = false)
    (hr : s.replay.st ≠ 0) : replaySet e c s = s.complete c stNoResource 0 := by
  unfold replaySet
  dsimp only
  rw [hf, ho, hn]
  exact if_pos (And.intro (Eq.refl 0) hr)

end

/-! ### Reports leave desks and tasks alone -/

section
variable {s t : State}

theorem Side.desks (h : Side s t) : t.desks = s.desks := by
  obtain ⟨r, a, l, rfl⟩ := h
  rfl

theorem Side.tasks (h : Side s t) : t.tasks = s.tasks := by
  obtain ⟨r, a, l, rfl⟩ := h
  rfl

theorem Side.capture (h : Side s t) : t.capture = s.capture := by
  obtain ⟨r, a, l, rfl⟩ := h
  rfl

theorem State.desk_congr (h : s.desks = t.desks) (d : Nat) : s.desk d = t.desk d := by
  unfold State.desk
  rw [h]

theorem State.task_congr (h : s.tasks = t.tasks) (n : Nat) : s.task n = t.task n := by
  unfold State.task
  rw [h]

end

/-! ### A task becomes READY (R239, R266) -/

section
variable {s : State} {t : Nat} {k : Task}

/-- Task `p` joins the ready list before `t`, which has the state `k`, in one desk cycle (R266). -/
def State.readyBefore (s : State) (t : Nat) (k : Task) (p : Nat × Task) : Bool :=
  s.sameCycle k p.2 && (decide (k.cfg.ip < p.2.cfg.ip) || (p.2.cfg.ip == k.cfg.ip && decide (p.1 < t)))

/-- The INBOXes that one write works, in their order: those of the tasks before `t` by insertion point, and its own (R266). -/
theorem State.inboxWritten_of_waiting (hk : s.task t = some k) (hd : k.inboxDue.isSome = true) (hw : k.st = .waiting) :
    s.inboxWritten t = (([4, 3, 2, 1].map (fun ip =>
      ((s.tasks.tasks.filter (s.readyBefore t k)).filter (fun p => p.2.cfg.ip == ip)).map Prod.fst)).flatten ++ [t]).foldl
        State.inboxOne s := by
  unfold State.inboxWritten
  rw [hk]
  dsimp only
  rw [hd, hw]
  rfl

/-- A task that is not READY in the same cycle, or is of an earlier slot, or of the same with no lower number, is not before `t`. -/
theorem State.readyBefore_eq_false {p : Nat × Task}
    (h : (!(s.sameCycle k p.2) || decide (p.2.cfg.ip < k.cfg.ip) || (p.2.cfg.ip == k.cfg.ip && decide (t ≤ p.1))) = true) :
    s.readyBefore t k p = false := by
  simp only [Bool.or_eq_true, Bool.not_eq_true', Bool.and_eq_true, decide_eq_true_eq, beq_iff_eq] at h
  unfold State.readyBefore
  obtain (hs | hip) | ⟨hip, hid⟩ := h
  · rw [hs, Bool.false_and]
  · rw [decide_eq_false (Nat.lt_asymm hip), beq_eq_false_iff_ne.mpr (Nat.ne_of_lt hip), Bool.false_and, Bool.or_false, Bool.and_false]
  · rw [decide_eq_false (Nat.not_lt.mpr (Nat.le_of_eq hip)), decide_eq_false (Nat.not_lt.mpr hid), Bool.and_false, Bool.or_false,
      Bool.and_false]

/-- A task with none before it writes its INBOX alone. -/
theorem State.inboxWritten_of_first (hk : s.task t = some k) (hd : k.inboxDue.isSome = true) (hw : k.st = .waiting)
    (hf : s.tasks.tasks.filter (s.readyBefore t k) = []) : s.inboxWritten t = s.inboxOne t := by
  rw [State.inboxWritten_of_waiting hk hd hw, hf]
  rfl

/-- The one task before it writes its INBOX first. -/
theorem State.inboxWritten_of_second {u : Nat × Task} (hk : s.task t = some k) (hd : k.inboxDue.isSome = true) (hw : k.st = .waiting)
    (hip : u.2.cfg.ip ∈ [4, 3, 2, 1]) (hf : s.tasks.tasks.filter (s.readyBefore t k) = [u]) :
    s.inboxWritten t = (s.inboxOne u.1).inboxOne t := by
  rw [State.inboxWritten_of_waiting hk hd hw, hf]
  simp only [List.mem_cons, List.not_mem_nil, or_false] at hip
  obtain h | h | h | h := hip <;> simp [h]

theorem State.inboxOne_of_due {b : Nat} {xs : List (List Int)} (hk : s.task t = some k) (hd : k.inboxDue = some (b, xs))
    (hw : k.st = .waiting) : s.inboxOne t =
      (((s.desksOf k.cfg).foldl (fun s d =>
        if (s.desk d).st = .lent then s else s.setDesk d ((s.desk d).putBox k.cfg.layout k.cfg.inbox xs)) s).setTask t
          { k with inboxDue := none, st := .ready }).joinList (s.listKey k.cfg) t := by
  unfold State.inboxOne
  rw [hk]
  dsimp only
  rw [hd, hw]

end

/-! ### Dispatch (R237, R267) -/

section
variable {s : State} {d : Nat}

theorem State.dispatch_of_idle (hi : (s.desk d).st = .idle) (he : (s.desk d).enable = true) :
    s.dispatch d = (((List.range d).filter (fun j => (s.desk j).group == (s.desk d).group)) ++ [d]).foldl State.dispatchOne s :=
  if_pos ⟨hi, he⟩

/-- A desk that is not IDLE or not enabled picks nothing. -/
theorem State.dispatchOne_of_unable (h : ((s.desk d).st != .idle || !(s.desk d).enable) = true) : s.dispatchOne d = s := by
  refine if_neg fun ⟨hi, he, _⟩ => ?_
  rw [hi, he] at h
  exact absurd h (by decide)

/-- An IDLE desk that finds no entry picks nothing. -/
theorem State.dispatchOne_of_no_pick (h : s.pickTask d = none) : s.dispatchOne d = s := by
  unfold State.dispatchOne
  rw [h]
  exact ite_self _

theorem State.foldl_dispatchOne_of_unable {l : List Nat} (h : ∀ j ∈ l, ((s.desk j).st != .idle || !(s.desk j).enable) = true) :
    l.foldl State.dispatchOne s = s := by
  induction l with
  | nil => rfl
  | cons j l ih =>
    rw [List.foldl_cons, State.dispatchOne_of_unable (h j List.mem_cons_self)]
    exact ih fun i hi => h i (List.mem_cons_of_mem j hi)

/-- Where no desk of a lower number of its group can pick, a desk picks alone (R267). -/
theorem State.dispatch_of_alone (hi : (s.desk d).st = .idle) (he : (s.desk d).enable = true)
    (ha : ((List.range d).all (fun j => (s.desk j).group != (s.desk d).group || (s.desk j).st != .idle || !(s.desk j).enable)) = true) :
    s.dispatch d = s.dispatchOne d := by
  have hnone : ((List.range d).filter (fun j => (s.desk j).group == (s.desk d).group)).foldl State.dispatchOne s = s := by
    refine State.foldl_dispatchOne_of_unable fun j hj => ?_
    obtain ⟨hr, hg⟩ := List.mem_filter.mp hj
    have hj := List.all_eq_true.mp ha j hr
    rwa [bne, hg, Bool.not_true, Bool.false_or] at hj
  rw [State.dispatch_of_idle hi he, List.foldl_append, hnone]
  rfl

/-- The state once desk `d` has picked task `t` and consumed the flags it waits for, before the desk starts. -/
def State.picked (s : State) (d t : Nat) (k : Task) : State :=
  let wait := clampN 1 65535 s.draw.1.toNat
  let s1 := (s.draw.2.leaveList (s.listKey k.cfg) t).setTask t
    { k with st := .running, deskRun := d, pending := k.pending &&& ~~~k.cfg.wait, waits := wait + 65536 * max wait (k.waits / 65536) }
  { s1 with tasks := { s1.tasks with consumed := s1.tasks.consumed + popcount (k.pending &&& k.cfg.wait) } }

theorem State.picked_desks (s : State) (d t : Nat) (k : Task) : (s.picked d t k).desks = s.desks := by
  unfold State.picked
  rfl

theorem State.picked_consumed (s : State) (d t : Nat) (k : Task) :
    (s.picked d t k).tasks.consumed = s.tasks.consumed + popcount (k.pending &&& k.cfg.wait) := rfl

theorem State.dispatchOne_of_pick {t : Nat} {k : Task} (hi : (s.desk d).st = .idle) (he : (s.desk d).enable = true)
    (hd : s.dispatching = true) (hp : s.pickTask d = some t) (hk : s.task t = some k) :
    s.dispatchOne d = ((s.picked d t k).setDesk d
      ((s.desk d).dispatch t k.cfg (k.released.getD 0) (k.pending &&& k.cfg.wait))).count Reg.DSK_SCH_DISPATCHES 1 := by
  unfold State.dispatchOne
  rw [if_pos ⟨hi, he, hd⟩, hp]
  dsimp only
  rw [hk]
  rfl

/-- The desk that picked runs the task, and nothing else of a dispatch touches that desk. -/
theorem State.dispatchOne_desk {t : Nat} {k : Task} (hl : d < s.desks.length) (hi : (s.desk d).st = .idle)
    (he : (s.desk d).enable = true) (hd : s.dispatching = true) (hp : s.pickTask d = some t) (hk : s.task t = some k) :
    (s.dispatchOne d).desk d = (s.desk d).dispatch t k.cfg (k.released.getD 0) (k.pending &&& k.cfg.wait) := by
  rw [State.dispatchOne_of_pick hi he hd hp hk, State.desk_congr (State.count_side _ _ _).desks,
    State.desk_setDesk _ _ _ _ (by rwa [State.picked_desks]), if_pos rfl]

end

/-! ### Cut-off, held posts and removal (R239, R264, R268, R270) -/

section
variable {s : State} {t : Nat} {k : Task}

theorem State.cutoff_of_ready {b : Nat} (hk : s.task t = some k) (hr : k.released = some b) (hs : k.st = .ready) :
    s.cutoff t = (((s.leaveList (s.listKey k.cfg) t).setTask t { k with st := .waiting }).missed).substitute t := by
  unfold State.cutoff
  rw [hk]
  dsimp only
  rw [hr, hs]

theorem State.cutoff_of_waiting {b : Nat} (hk : s.task t = some k) (hr : k.released = some b) (hs : k.st = .waiting) :
    s.cutoff t = s.missed.substitute t := by
  unfold State.cutoff
  rw [hk]
  dsimp only
  rw [hr, hs]

theorem State.cutoff_of_running {b d : Nat} (hk : s.task t = some k) (hr : k.released = some b) (hs : k.st = .running)
    (hd : s.runner t = some d) (hh : (s.desk d).st ≠ .halted) :
    s.cutoff t = (((s.count (dskReg Reg.DSK_Dn_STOPS d) 1).evt Reg.DSK_DESK_EVT 2).stopRun t).substitute t := by
  unfold State.cutoff
  rw [hk]
  dsimp only
  rw [hr, hs, hd]
  exact if_neg hh

/-- The task as a substituted block leaves it, where its dry blocks count (R268). -/
def Task.dried (k : Task) : Task :=
  { k with released := none, output := none, inboxDue := none, dry := word (min (k.dry.toNat + 1) 0xFFFFFFFF) }

/-- The reports of a substituted block leave the task as it is. -/
theorem State.substitute_task (hk : s.task t = some k) (hs : s.tasksStill = false) : (s.substitute t).task t = some k.dried := by
  have hset : (s.setTask t k.dried).task t = some k.dried := by rw [State.task_setTask, if_pos rfl]
  have hboth := State.both_side (s.setTask t k.dried) Reg.DSK_SCH_DRY Reg.DSK_SCH_EVT 0
  unfold State.substitute
  rw [hk]
  dsimp only
  rw [hs, if_neg Bool.false_ne_true]
  split
  · exact (State.task_congr hboth.tasks t).trans hset
  · exact (State.task_congr ((hboth.trans (State.count_side _ _ _)).trans (State.evt_side _ _ _)).tasks t).trans hset

theorem heldPostApply_of_skipped {h : HeldPost} (hf : s.tasks.held.find? (fun h => s.heldSkips h || s.heldMayApply h) = some h)
    (hs : s.heldSkips h = true) : heldPostApply s = State.releasePoster
      (({ s with tasks := { s.tasks with held := s.tasks.held.erase h } } : State).both Reg.TT_BELLS_SKIPPED Reg.TT_EVT 1) h.src false := by
  unfold heldPostApply
  rw [hf]
  exact if_pos hs

theorem heldPostApply_of_fitting {h : HeldPost} (hf : s.tasks.held.find? (fun h => s.heldSkips h || s.heldMayApply h) = some h)
    (hs : s.heldSkips h = false) : heldPostApply s = State.releasePoster
      (({ s with tasks := { s.tasks with held := s.tasks.held.erase h } } : State).applyPost h.task h.mask) h.src true := by
  unfold heldPostApply
  rw [hf]
  exact if_neg (ne_true_of_eq_false hs)

theorem execTaskRemoval_of_gone (hk : s.task t = some k) (hg : k.gone = true) : execTaskRemoval t s = .next (s.finishTask t) := by
  unfold execTaskRemoval
  rw [hk]
  exact if_pos hg

end

/-! ### Capture frames (R126) -/

/-- A frame of a capture that goes on, in a place of the ring not written yet, with no command waiting for it: the frame is written
and counted, and its samples are no longer held. -/
theorem captureFrameWritten_of_running {s : State} {xs : List Int} (hst : s.capture.st = 2)
    (hx : s.capture.frameAt (s.capture.start + s.capture.frames) = some xs) (hn : s.capture.frames < s.capture.size)
    (hc : s.capture.cmd = none) (hs : s.capture.stopAt = none) (ho : s.capture.oneShot = false) :
    captureFrameWritten false s =
      { s.dramWrite (s.capture.buffer + s.capture.frames % s.capture.size * (4 * s.capture.taps.length))
          (xs.map (fun x => leBytes 4 (toField 32 x))).flatten with
        capture := { s.capture with
          frames := s.capture.frames + 1, cmd := none,
          data := s.capture.data.filter (fun d => d.1.1 != s.capture.start + s.capture.frames) } } := by
  unfold captureFrameWritten
  dsimp only
  rw [if_pos hst, hx]
  dsimp only
  rw [if_neg (Nat.not_le.mpr hn), hc, hs, ho]
  rfl

/-! ### The statements of the family -/

/-- Settles O8, clause by clause: the command of each clause acts on a block, at once or on a control frame. -/
theorem objectCommandsAct : Obligations.ObjectCommandsAct := by
  unfold Obligations.ObjectCommandsAct
  refine ⟨fun e l late cfg => ?_, fun e => ?_, fun e => ?_, fun e r bs => ?_, fun e r ups => ?_, fun e => ?_⟩
  · exact .of (fun _ => rfl) fun c s ⟨h, he, hv, hp⟩ => (objConfig_of_parsed h).trans (State.blockCommand_of_first he hv hp)
  · exact .of (fun _ => rfl) fun c s ⟨hl, hf, hz1, hg, hr, hz2, he, hv, hp⟩ =>
      (objGain_of_valid hl hf hz1 hg hr hz2).trans (State.blockCommand_of_first he hv hp)
  · exact .of (fun _ => rfl) fun c s ⟨hl, hf, hz1, hg, hr, hz2, he, hv, hp⟩ =>
      (objGain_of_valid hl hf hz1 hg hr hz2).trans (State.blockCommand_of_invalid he hv hp)
  · exact .of (fun _ => rfl) fun c s ⟨hl, hf, hn, hn8, hz1, ha, hz2, hr, hb, he, hv, hp⟩ =>
      (objEq_of_valid hl hf hn hn8 hz1 ha hz2 hr hb).trans (State.blockCommand_of_first he hv hp)
  · refine .of (fun _ => rfl) fun c s ⟨ha, hlo, hhi, hz, hr, hu, hfr, he, hv, hp⟩ =>
      (objPosition_of_parsed ha hlo hhi hz hr hu hfr).trans ?_
    rw [State.frameCommand_of_first he hv hp, he]
    rfl
  · exact .of (fun _ => rfl) fun c s ⟨hz, hz1, hr, hlo, hhi, hh, hz2, he, hv, hp⟩ =>
      (airSet_of_valid hz hz1 hr hlo hhi hh hz2 he hv).trans (State.frameCommand_of_first he hv hp)

/-- Settles O15, clause by clause, by what each command does in the states that the clause names. -/
theorem recorderCommandsAct : Obligations.RecorderCommandsAct := by
  unfold Obligations.RecorderCommandsAct
  refine ⟨fun e r taps => ?_, fun e => ?_, fun e => ?_, fun e => ?_, fun e => ?_⟩
  · exact .of (fun _ => rfl) fun c s ⟨hb, hk, hf, hz1, hz2, hr, ht, hm, hd, hv, hi, hp⟩ =>
      captureStart_of_idle hb hk hf hz1 hz2 hr ht (State.noCapture_of_able hm hd hv) hi hp
  · exact .of (fun _ => rfl) fun c s ⟨hz1, hf, hz2, _, _, hv, hb, hs, hp, hlt⟩ => captureStop_of_busy hz1 hf hz2 hv hb hs hp hlt
  · exact .of (fun _ => rfl) fun c s ⟨hf, ho, hl, hm, hd, hv⟩ => replaySet_raises_fill hf ho hl (State.noCapture_of_able hm hd hv)
  · exact .of (fun _ => rfl) fun c s ⟨hf, ho, hm, hd, hv, hp, hr⟩ =>
      replaySet_stop_of_idle hf ho (State.noCapture_of_able hm hd hv) hp hr
  · exact .of (fun _ => rfl) fun c s ⟨hf, ho, hm, hd, hv, hr⟩ => replaySet_start_of_running hf ho (State.noCapture_of_able hm hd hv) hr

/-- Settles O48: the tasks before one that becomes READY, the desks before one that picks, and what each other row does in the
states that its clause names. -/
theorem tasksRunAndEnd : Obligations.TasksRunAndEnd := by
  unfold Obligations.TasksRunAndEnd
  refine ⟨fun t k b xs => ?_, fun t k u => ?_, fun d t k => ?_, fun d => ?_, fun d j => ?_, fun t k b => ?_, fun t k b => ?_,
    fun t k b d => ?_, fun s t k hk hs => ⟨k.dried, State.substitute_task hk hs, rfl, rfl, rfl, rfl⟩, fun h => ?_, fun h => ?_,
    fun t k s ⟨hk, hg⟩ => execTaskRemoval_of_gone hk hg, fun xs => ?_⟩
  · refine .of (fun _ => rfl) fun s ⟨hk, hd, hw, ha⟩ => ?_
    rw [State.inboxWritten_of_first hk (by rw [hd]; rfl) hw, State.inboxOne_of_due hk hd hw]
    exact List.filter_eq_nil_iff.mpr fun p hp => ne_true_of_eq_false (State.readyBefore_eq_false (List.all_eq_true.mp ha p hp))
  · exact .of (fun _ => rfl) fun s ⟨hk, hd, hw, hip, hf⟩ => State.inboxWritten_of_second hk hd hw hip hf
  · refine .of (fun _ => rfl) fun s ⟨hl, ha, hi, he, hd, hp, hk⟩ => ?_
    rw [State.dispatch_of_alone hi he ha, State.dispatchOne_desk hl hi he hd hp hk]
    refine ⟨rfl, rfl, rfl, rfl, ?_⟩
    rw [State.dispatchOne_of_pick hi he hd hp hk, (State.count_side _ _ _).tasks]
    exact State.picked_consumed _ _ _ _
  · exact .of (fun _ => rfl) fun s ⟨ha, hi, he, _, hp⟩ => (State.dispatch_of_alone hi he ha).trans (State.dispatchOne_of_no_pick hp)
  · refine .of (fun _ => rfl) fun s ⟨hi, he, hj⟩ => ?_
    rw [State.dispatch_of_idle hi he, hj]
    rfl
  · exact .of (fun _ => rfl) fun s ⟨hk, hr, hs⟩ => State.cutoff_of_ready hk hr hs
  · exact .of (fun _ => rfl) fun s ⟨hk, hr, hs⟩ => State.cutoff_of_waiting hk hr hs
  · exact .of (fun _ => rfl) fun s ⟨hk, hr, hs, hd, hh⟩ => State.cutoff_of_running hk hr hs hd hh
  · exact .of (fun _ => rfl) fun s ⟨hf, hs⟩ => heldPostApply_of_skipped hf hs
  · exact .of (fun _ => rfl) fun s ⟨hf, hs⟩ => heldPostApply_of_fitting hf hs
  · refine .of (fun _ => rfl) fun s ⟨hst, hx, hn, hc, hs, ho⟩ => ?_
    rw [captureFrameWritten_of_running hst hx hn hc hs ho]
    exact ⟨rfl, rfl⟩

end Sys2Proof.Machine
end

section
/-!
PROOFS for the speaker stage family (R190, R191, R205–R208, R217, R218): what MATRIX_SET, FEED_CONFIG, FIR_LOAD, LIMITER_SET and
CORRIDOR_SET do with valid fields, on the first block that they may.
-/

namespace Sys2Proof.Machine

section
variable {c : CmdRef} {e : Submission} {s : State}

/-! ### The matrix (R205) -/

theorem matrixSet_of_nodes {r : List Byte} {recs : List (Nat × Nat × Nat)} (hf : sub e 17 1 = 0) (hr : rampOk (sub e 18 2) = true)
    (ho : sub e 16 1 = 0) (hn : sub e 20 4 ≠ 0) (hmax : sub e 20 4 ≤ 327680) (ha : sub e 24 8 % 8 = 0) (hz : subZero e 32 32 = true)
    (hrec : e.records = some r) (hp : parseNodes (listByte r) (sub e 20 4) = .inl recs) :
    matrixSet e c s = s.blockCommand c e 48 false false (fun _ => [.nodes recs (s.rampMs (sub e 18 2))]) blockRes := by
  unfold matrixSet
  dsimp only
  rw [hf, if_neg (by simp [lateFlag_zero, hr]), if_pos ho, if_neg (by simp [hn, hmax, ha, hz]), hrec]
  dsimp only
  rw [hp]
  rfl

theorem matrixSet_of_scale (hf : sub e 17 1 = 0) (hr : rampOk (sub e 18 2) = true) (ho : sub e 16 1 = 2) (h1 : sub e 20 2 < 512)
    (hn : sub e 22 2 ≠ 0) (hmax : sub e 20 2 + sub e 22 2 ≤ 512) (hm : sub e 24 1 ≤ 2) (hz : subZero e 25 39 = true) :
    matrixSet e c s = s.blockCommand c e 48 false false
      (fun _ => [.scale (sub e 20 2) (sub e 22 2) (sub e 24 1) (s.rampMs (sub e 18 2))]) blockRes := by
  unfold matrixSet
  dsimp only
  rw [hf, if_neg (by simp [lateFlag_zero, hr]), ho, if_neg (by decide), if_neg (by decide), if_pos rfl,
    if_neg (by simp [h1, hn, hmax, hm, hz])]
  rfl

/-! ### Feeds (R206, R208) -/

theorem feedConfig_of_eq {r : List Byte} {bs : List Biquad} (hf : sub e 17 1 = 0) (hr : rampOk (sub e 18 2) = true)
    (hfeed : sub e 20 2 < 512) (ho : sub e 16 1 = 1) (hn : sub e 23 1 ≠ 0) (hmax : sub e 22 1 + sub e 23 1 ≤ 16)
    (ha : sub e 24 8 % 8 = 0) (hz : subZero e 32 32 = true) (hrec : e.records = some r)
    (hp : parseBiquads (listByte r) 0 (sub e 23 1) = some bs) :
    feedConfig e c s = s.blockCommand c e 48 false false
      (fun _ => [.feedEq (sub e 20 2) (sub e 22 1) bs (s.rampMs (sub e 18 2)) (s.rampMs (sub e 18 2))]) blockRes := by
  unfold feedConfig
  dsimp only
  rw [hf, if_neg (by simp [lateFlag_zero, hr, hfeed]), ho, if_neg (by decide), if_pos rfl, if_neg (by simp [hn, hmax, ha, hz]), hrec]
  dsimp only
  rw [hp]
  rfl

theorem feedConfig_of_pilot {p : PilotCfg} (hf : sub e 17 1 = 0) (hr : rampOk (sub e 18 2) = true) (hfeed : sub e 20 2 < 512)
    (ho : sub e 16 1 = 2) (hp : parsePilot s.fs (entryByte e) = some p) (hz : subZero e 39 25 = true) :
    feedConfig e c s = s.blockCommand c e 64 false false
      (fun _ => [.pilot (sub e 20 2) p (s.rampMs (sub e 18 2)) (s.rampMs (sub e 18 2))]) blockRes := by
  unfold feedConfig
  dsimp only
  rw [hf, if_neg (by simp [lateFlag_zero, hr, hfeed]), ho, if_neg (by decide), if_neg (by decide), if_pos rfl, hp]
  dsimp only
  rw [hz]
  rfl

theorem feedConfig_of_basic {f : Nat} {b : FeedBasic} (hf : sub e 17 1 = 0) (hr : rampOk (sub e 18 2) = true)
    (hfeed : sub e 20 2 < 512) (ho : sub e 16 1 = 0) (hp : parseFeed s.fs (entryByte e) = some (f, b)) (hz : subZero e 40 24 = true)
    (hh : s.feedMayHold f b = true) : feedConfig e c s = feedBasic e c f b (s.rampMs (sub e 18 2)) false s := by
  unfold feedConfig
  dsimp only
  rw [hf, if_neg (by simp [lateFlag_zero, hr, hfeed]), if_pos ho, hp]
  dsimp only
  rw [hz, hh]
  rfl

/-- A feed that keeps its alignment needs no commit MSC (R208). -/
theorem feedBasic_of_same_align {f ms : Nat} {b : FeedBasic} {late : Bool} (he : e.epoch = 0) (ha : b.align = (s.feed f).cfg.align) :
    feedBasic e c f b ms late s = s.blockCommand c e 48 late false (fun _ => feedChanges f b ms ms) blockRes := by
  unfold feedBasic
  dsimp only
  rw [he, ha, bne_self_eq_false]
  rfl

/-! ### FIR filters and limiters (R190, R191, R207) -/

theorem parseTaps_length (b : Nat → Byte) (n : Nat) : (parseTaps b n).length = n := by
  rw [parseTaps, List.length_map, List.length_range]

theorem firLoad_of_taps {r : List Byte} (hfeed : sub e 16 2 < 512) (hf : sub e 18 1 = 0) (hz1 : subZero e 19 1 = true)
    (hn : sub e 20 2 ≠ 0) (hmax : sub e 20 2 ≤ 8192) (h16 : sub e 20 2 % 16 = 0) (hr : rampOk (sub e 22 2) = true)
    (ha : sub e 24 8 % 4 = 0) (hz2 : subZero e 32 32 = true) (hrec : e.records = some r) :
    firLoad e c s = firReserve e c (sub e 16 2) (parseTaps (listByte r) (sub e 20 2)) (s.rampMs (sub e 22 2)) false s := by
  unfold firLoad
  dsimp only
  rw [hf, if_neg (by simp [hfeed, lateFlag_zero, hz1, hmax, h16, hr, ha, hz2]), if_neg hn, hrec]
  rfl

/-- With no epoch and no presentation MSC the pool alone decides: the taps fit and are reserved, or they do not (R190). -/
theorem firReserve_of_first {f ms : Nat} {taps : List Int} {late : Bool} (he : e.epoch = 0) (hv : s.valid = true) (hp : e.present = 0) :
    firReserve e c f taps ms late s = if firPoolNow s < s.firUsed + taps.length then s.complete c stNoResource 0
      else State.blockCommand { s with firUsed := s.firUsed + taps.length } c e 48 late false (fun _ => [.fir f taps ms])
        (fun _ t => if t.valid then firPoolNow t - t.firUsed else 0) := by
  unfold firReserve
  rw [he, hv, hp]
  rfl

theorem limiterSet_of_parsed {l : LimiterCfg} (hl : parseLimiter (entryByte e) = some l) (hfeed : sub e 16 2 < 512)
    (hf : sub e 18 1 = 0) (hz1 : subZero e 19 1 = true) (hz2 : subZero e 36 28 = true) :
    limiterSet e c s = s.blockCommand c e 64 false false (fun _ => [.limiter (sub e 16 2) l]) blockRes := by
  unfold limiterSet
  rw [hl, hf]
  exact if_neg (by simp [hfeed, lateFlag_zero, hz1, hz2])

/-! ### The corridor (R217, R218) -/

/-- CORRIDOR_SET outside an epoch, while the MSC is valid: its route from its input index on, where that is not late. -/
theorem corridorSet_of_first {r : Nat} {late : Bool} {k : RouteCfg} (hk : parseRoute (entryByte e) = some (r, late, k))
    (hh : s.routeMayHold r k = true) (he : e.epoch = 0) (hv : s.valid = true) (hp : e.present = 0) :
    corridorSet e c s =
      (s.put (some c.order) (upTo 16 (s.msc + 32)) (.route r { k with ramp := s.rampMs k.ramp } (s.rampMs k.ramp))).complete c stOk
        (upTo 16 (s.msc + 32)) := by
  unfold corridorSet
  rw [hk]
  dsimp only
  rw [hh, he, hv, hp]
  rfl

end

/-! ### The statement of the family -/

/-- Settles O9, clause by clause: the command of each clause acts on the first block that it may, or finds the pool full. -/
theorem speakerCommandsAct : Obligations.SpeakerCommandsAct := by
  unfold Obligations.SpeakerCommandsAct
  refine ⟨fun e r recs => ?_, fun e => ?_, fun e r bs => ?_, fun e p => ?_, fun e f b => ?_, fun e r => ?_, fun e r => ?_,
    fun e l => ?_, fun e r late k => ?_⟩
  · exact .of (fun _ => rfl) fun c s ⟨hf, hr, ho, hn, hmax, ha, hz, hrec, hnodes, he, hv, hp⟩ =>
      (matrixSet_of_nodes hf hr ho hn hmax ha hz hrec hnodes).trans (State.blockCommand_of_first he hv hp)
  · exact .of (fun _ => rfl) fun c s ⟨hf, hr, ho, h1, hn, hmax, hm, hz, he, hv, hp⟩ =>
      (matrixSet_of_scale hf hr ho h1 hn hmax hm hz).trans (State.blockCommand_of_first he hv hp)
  · exact .of (fun _ => rfl) fun c s ⟨hf, hr, hfeed, ho, hn, hmax, ha, hz, hrec, hbs, he, hv, hp⟩ =>
      (feedConfig_of_eq hf hr hfeed ho hn hmax ha hz hrec hbs).trans (State.blockCommand_of_first he hv hp)
  · exact .of (fun _ => rfl) fun c s ⟨hf, hr, hfeed, ho, hpilot, hz, he, hv, hp⟩ =>
      (feedConfig_of_pilot hf hr hfeed ho hpilot hz).trans (State.blockCommand_of_first he hv hp)
  · exact .of (fun _ => rfl) fun c s ⟨hf, hr, hfeed, ho, hb, hz, hh, ha, he, hv, hp⟩ =>
      ((feedConfig_of_basic hf hr hfeed ho hb hz hh).trans (feedBasic_of_same_align he ha)).trans
        (State.blockCommand_of_first he hv hp)
  · refine .of (fun _ => rfl) fun c s ⟨hfeed, hf, hz1, hn, hmax, h16, hr, ha, hz2, hrec, he, hv, hp, hfull⟩ => ?_
    rw [firLoad_of_taps hfeed hf hz1 hn hmax h16 hr ha hz2 hrec, firReserve_of_first he hv hp, parseTaps_length, if_pos hfull]
  · refine .of (fun _ => rfl) fun c s ⟨hfeed, hf, hz1, hn, hmax, h16, hr, ha, hz2, hrec, he, hv, hp, hroom⟩ => ?_
    rw [firLoad_of_taps hfeed hf hz1 hn hmax h16 hr ha hz2 hrec, firReserve_of_first he hv hp, parseTaps_length,
      if_neg (Nat.not_lt.mpr hroom)]
    exact State.blockCommand_of_first he hv hp
  · exact .of (fun _ => rfl) fun c s ⟨hl, hfeed, hf, hz1, hz2, he, hv, hp⟩ =>
      (limiterSet_of_parsed hl hfeed hf hz1 hz2).trans (State.blockCommand_of_first he hv hp)
  · exact .of (fun _ => rfl) fun c s ⟨hk, hh, he, hv, hp⟩ => corridorSet_of_first hk hh he hv hp

end Sys2Proof.Machine
end

section
/-!
PROOFS for the corridor, override and service DAC family (R220–R230, R302, R324): what the commands of the flows, the chain and the
service converters do with valid fields, how override and mute changes plan their ramps, and how a service output is strobed, clamped
and limited.
-/

namespace Sys2Proof.Machine

/-! ### Flows and the chain (R302, R304, R324, R334) -/

section
variable {c : CmdRef} {e : Submission} {s : State}

/-- FLOW_ADD of a transmit flow outside an epoch, with no presentation MSC. -/
theorem flowAdd_of_tx_first {i : Nat} {late : Bool} {k : FlowCfg} (hk : parseFlow s.fs e = some (i, late, k)) (ht : k.tx = true)
    (hs : s.stagedIn e = []) (hd : tget (s.flowsDue true) i = none) (hf : s.flowFits e i k = true) (hm : s.pwr.mode ≠ .standby)
    (hv : s.valid = true) (he : e.epoch = 0) (hp : e.present = 0) :
    flowAdd e c s = (s.put (some c.order) (s.nextMul 16 - 80) (.flowAdd i k)).complete c stOk (s.nextMul 16 - 80) := by
  have hable : ¬(s.pwr.mode = .standby ∨ ¬s.valid = true) := by simp [hm, hv]
  unfold flowAdd
  rw [hk]
  dsimp only
  rw [ht, hs, hd, hf, if_neg hable, he, hp, State.blockFor_mscOf_zero]
  rfl

/-- A receive flow has no emit slot to wait for: FLOW_REMOVE takes it away at a block boundary. -/
theorem flowRemove_of_rx (hf : sub e 17 1 = 0) (hz : subZero e 18 46 = true)
    (hk : (tget (s.flowsDue false) (sub e 16 1)).isSome = true) (hr : (s.rxFlow (sub e 16 1)).isSome = true) :
    flowRemove e c s = s.blockCommand c e 0 false false (fun _ => [.flowRemove (sub e 16 1)]) blockRes := by
  unfold flowRemove
  dsimp only
  rw [hf, if_neg (by simp [lateFlag_zero, hz, hk]), if_pos hr]
  rfl

/-- CHAIN_CONFIG OP 4 in SETUP. -/
theorem chainConfig_leave (ho : sub e 16 1 = 4) (hrole : sub e 17 1 ≤ 2) (hring : sub e 19 1 ≤ 1) (hsplit : sub e 20 1 ≤ 1)
    (hz1 : subZero e 23 1 = true) (hn : sub e 26 2 ≤ 1024) (hbudget : sub e 24 2 ≤ 4096) (h16 : sub e 24 2 % 16 = 0)
    (ha : sub e 28 8 % 8 = 0) (hz2 : subZero e 36 28 = true) (he : e.epoch = 0) (hm : s.pwr.mode = .setup) :
    chainConfig e c s = (((s.chainDone stAborted 0).sendOn [0, 1] (.leave 0 0)).chainAlone.chainUnled).complete c stOk 0 := by
  unfold chainConfig
  dsimp only
  rw [if_neg (by simp [ho, hrole, hring, hsplit, hz1, hn, hbudget, h16, ha, hz2, he]), if_neg (by simp [hm]), if_pos ho]

/-! ### SDAC_WRITE and SDAC_STROBE (R227, R229) -/

section
variable {late : Bool} {now : State → State} {wait : SdacTimed}

/-- With no presentation MSC a command of the service DAC acts at once. -/
theorem State.sdacTimed_now (hp : e.present = 0) :
    s.sdacTimed c (s.mscOf e.present) late now wait = (now s).complete c stOk (if s.valid then s.msc else 0) := by
  rw [hp]
  rfl

/-- With one still to come it waits for that sample period. -/
theorem State.sdacTimed_waits {p : Nat} (hv : s.valid = true) (hp : s.msc < p) :
    s.sdacTimed c p late now wait = { s with sdacWait := s.sdacWait ++ [wait] } := by
  unfold State.sdacTimed
  rw [if_neg (Nat.ne_zero_of_lt hp), hv, if_pos hp]
  rfl

end

theorem sdacWriteCmd_of_parsed {w : SdacWrite} (h : parseSdac s.fs e = some w) :
    sdacWriteCmd e c s =
      s.sdacTimed c (s.mscOf e.present) (sub e 17 1 / 2 == 1) (fun s => s.sdacWriteNow w) (.write c (s.mscOf e.present) w) := by
  unfold sdacWriteCmd
  rw [h]

theorem sdacStrobeCmd_of_valid (hm : sub e 16 1 ≠ 0) (hf : sub e 17 1 = 0) (hz : subZero e 18 46 = true) :
    sdacStrobeCmd e c s = s.sdacTimed c (s.mscOf e.present) false (fun s => s.strobeMask (sub e 16 1))
      (.strobe c (s.mscOf e.present) (sub e 16 1)) := by
  unfold sdacStrobeCmd
  rw [hf]
  exact if_neg (by simp [hm, lateFlag_zero, hz])

end

/-! ### Override and mute (R220–R223) -/

/-- k0 of a change of the effective override state: the next block where a crossfade runs (R221). -/
def State.ovrStartIndex (s : State) : Nat :=
  if ovrFading (ovrAt s.ovr s.msc) s.msc then s.nextMul 16 else rampStartAt s.msc

/-- `s` with the effective override state `on` and the crossfade to weight `aim` planned (R221). -/
def State.planOvr (s : State) (on : Bool) (aim : Int) : State :=
  { s with ovr := { s.ovr with
      ovrOn := on, k0 := s.ovrStartIndex, wNext := planRamp s.ovr.wNext (s.ovrStartIndex, aim, s.ovrLen) } }

/-- `s` with the effective MUTE_N state `on` and the ramp to gain `aim` planned (R222). -/
def State.planMute (s : State) (on : Bool) (aim : Int) : State :=
  { s with ovr := { s.ovr with
      muteOn := on
      mnNext := planRamp s.ovr.mnNext
        (rampStartAt s.msc, aim, rampLen s.fs (min 2000 (fieldOf (s.reg Reg.SPK_MUTE_CFG) 1 11))) } }

section
variable {s : State}

theorem overrideNChange_of_same (h : s.ovr.ovrEff = s.ovr.ovrOn) : overrideNChange s = s := if_pos h

theorem overrideNChange_asserts (he : s.ovr.ovrEff = true) (ho : s.ovr.ovrOn = false) :
    overrideNChange s = ((s.planOvr true (2 ^ 22)).count Reg.SPK_OVR_COUNT 1).evt Reg.SPK_OVR_EVT 0 := by
  unfold overrideNChange
  dsimp only
  rw [if_neg (by simp [he, ho]), he]
  rfl

theorem overrideNChange_releases (he : s.ovr.ovrEff = false) (ho : s.ovr.ovrOn = true) :
    overrideNChange s = (s.planOvr false 0).evt Reg.SPK_OVR_EVT 1 := by
  unfold overrideNChange
  dsimp only
  rw [if_neg (by simp [he, ho]), he]
  rfl

theorem muteNChange_asserts (he : s.ovr.muteEff = true) (ho : s.ovr.muteOn = false) :
    muteNChange s = ((s.planMute true 0).count Reg.SPK_MUTE_COUNT 1).evt Reg.SPK_OVR_EVT 2 := by
  unfold muteNChange
  dsimp only
  rw [if_neg (by simp [he, ho]), he]
  rfl

theorem muteNChange_releases (he : s.ovr.muteEff = false) (ho : s.ovr.muteOn = true) :
    muteNChange s = (s.planMute false (2 ^ 27)).evt Reg.SPK_OVR_EVT 3 := by
  unfold muteNChange
  dsimp only
  rw [if_neg (by simp [he, ho]), he]
  rfl

end

/-- Taking bit `k` out of a number and putting `on` in leaves `on` there. -/
theorem testBit_replaceBit (v k : Nat) (on : Bool) :
    (v - (if v / 2 ^ k % 2 = 1 then 2 ^ k else 0) + (if on then 2 ^ k else 0)).testBit k = on := by
  have hpos : 0 < 2 ^ k := Nat.two_pow_pos k
  have hout : (v - if v / 2 ^ k % 2 = 1 then 2 ^ k else 0) / 2 ^ k % 2 = 0 := by
    split
    · next h =>
      have hsub : (v - 2 ^ k) / 2 ^ k = v / 2 ^ k - 1 := by simpa using Nat.sub_mul_div v (2 ^ k) 1
      rw [hsub]
      omega
    · next h => exact Nat.mod_two_ne_one.mp h
  rw [Nat.testBit_eq_decide_div_mod_eq]
  cases on with
  | false => simp [hout]
  | true => simp [Nat.add_div_right _ hpos, Nat.add_mod, hout]

theorem bitOf_word {k : Nat} (n : Nat) (hk : k < 32) : bitOf (word n) k = n.testBit k := by
  rw [bitOf, BitVec.getLsbD_ofNat, decide_eq_true hk, Bool.true_and]

/-- A write of a force bit changes SPK_OVR_CMD alone, and the bit is as written. -/
theorem forceWrite_frame {k : Nat} (hk : k < 32) (on : Bool) (s : State) :
    forceWrite k on s = s.setReg Reg.SPK_OVR_CMD ((forceWrite k on s).reg Reg.SPK_OVR_CMD) ∧
      bitOf ((forceWrite k on s).reg Reg.SPK_OVR_CMD) k = on := by
  unfold forceWrite
  dsimp only
  rw [State.reg_setReg, if_pos rfl, bitOf_word _ hk]
  exact ⟨rfl, testBit_replaceBit _ k on⟩

/-- In the modes that take register writes, the row of a force bit leads where `forceWrite` does. -/
theorem Leads.of_forceWrite {i : Instr} {k : Nat} {on : Bool} {hyp : State → Prop} (hk : k < 32)
    (hi : ∀ s, exec i s = .next (barWrite (fun s => forceWrite k on s) s)) (ha : ∀ s, hyp s → s.pwr.mode.awake = true) :
    Leads i hyp (fun s t => t = s.setReg Reg.SPK_OVR_CMD (t.reg Reg.SPK_OVR_CMD) ∧ bitOf (t.reg Reg.SPK_OVR_CMD) k = on) :=
  .of hi fun s hs => by
    rw [barWrite_awake (ha s hs)]
    exact forceWrite_frame hk on s

/-! ### Strobes, clamps and limits of the service DAC (R226–R228) -/

/-- A strobe that changes the range of a channel that is not a stream clamps it: the held code and range wait for the clamp's end. -/
theorem sdacStrobe_of_range_change {c : SdacCh} (hs : c.stream = false) (hp : c.pending = none) (hr : c.holdRange ≠ c.range) :
    sdacStrobe c = { c with pending := some (c.holdCode, c.holdRange), clamped := true, loaded := false } := by
  unfold sdacStrobe
  rw [hs, hp]
  exact if_pos hr

theorem sdacUnclamp_of_pending {c : SdacCh} {code : Nat} {rng : Bool} (h : c.pending = some (code, rng)) :
    sdacUnclamp c = { c with code := code, range := rng, clamped := false, pending := none, first := true } := by
  unfold sdacUnclamp
  rw [h]

theorem sdacCurrentLimit_of_begins {s : State} {k : Nat} (h : (s.sdacCh k).ilim = false) :
    sdacCurrentLimit k s =
      (((s.setSdac k { s.sdacCh k with ilim := true }).orReg Reg.SDAC_ILIM (2 ^ k)).count Reg.SDAC_ILIM_EVENTS 1).evt Reg.SDAC_EVT 0 :=
  if_neg (ne_true_of_eq_false h)

/-! ### The statements of the family -/

/-- Settles O12, clause by clause, by what each command does with valid fields, at once, on its first block or waiting. -/
theorem ioCommandsAct : Obligations.IoCommandsAct := by
  unfold Obligations.IoCommandsAct
  refine ⟨fun e i late k => ?_, fun e => ?_, fun e => ?_, fun e w => ?_, fun e => ?_, fun e => ?_⟩
  · exact .of (fun _ => rfl) fun c s ⟨hk, ht, hs, hd, hf, hm, hv, he, hp⟩ => flowAdd_of_tx_first hk ht hs hd hf hm hv he hp
  · exact .of (fun _ => rfl) fun c s ⟨hf, hz, hk, hr, hv, he, hp⟩ =>
      (flowRemove_of_rx hf hz hk hr).trans (State.blockCommand_of_first he hv hp)
  · exact .of (fun _ => rfl) fun c s ⟨ho, hrole, hring, hsplit, hz1, hn, hbudget, h16, ha, hz2, he, hm⟩ =>
      chainConfig_leave ho hrole hring hsplit hz1 hn hbudget h16 ha hz2 he hm
  · exact .of (fun _ => rfl) fun c s ⟨hw, hp⟩ => (sdacWriteCmd_of_parsed hw).trans (State.sdacTimed_now hp)
  · exact .of (fun _ => rfl) fun c s ⟨hm, hf, hz, hp⟩ => (sdacStrobeCmd_of_valid hm hf hz).trans (State.sdacTimed_now hp)
  · exact .of (fun _ => rfl) fun c s ⟨hm, hf, hz, hv, hp⟩ => (sdacStrobeCmd_of_valid hm hf hz).trans (State.sdacTimed_waits hv hp)

/-- Settles O50, clause by clause, by what the meaning of each row does in the states that the clause names. -/
theorem overrideMuteAndSdacAct : Obligations.OverrideMuteAndSdacAct := by
  unfold Obligations.OverrideMuteAndSdacAct
  refine ⟨.of (fun _ => rfl) fun s ⟨he, ho⟩ => overrideNChange_asserts he ho,
    .of (fun _ => rfl) fun s ⟨he, ho⟩ => overrideNChange_releases he ho,
    .of (fun _ => rfl) fun s h => overrideNChange_of_same h,
    .of (fun _ => rfl) fun s ⟨he, ho⟩ => muteNChange_asserts he ho,
    .of (fun _ => rfl) fun s ⟨he, ho⟩ => muteNChange_releases he ho,
    fun on => .of_forceWrite (by decide) (fun _ => rfl) fun s ha => ha,
    fun on => .of_forceWrite (by decide) (fun _ => rfl) fun s ⟨ha, _⟩ => ha,
    .of (fun _ => rfl) fun s ha => if_pos ha, fun c hs hp hr => ?_, fun k => .of (fun _ => rfl) fun s _ => rfl,
    fun k => .of (fun _ => rfl) fun s h => sdacCurrentLimit_of_begins h, fun k => .of (fun _ => rfl) fun s _ => rfl⟩
  rw [sdacStrobe_of_range_change hs hp hr, sdacUnclamp_of_pending rfl]
  exact ⟨rfl, rfl, rfl, rfl, rfl, rfl⟩

end Sys2Proof.Machine
end

section
/-!
PROOFS for the desk family (R232–R259): what the machine makes of the result of a desk's row, what each row answers on the operands
that its statement names, which faults stop a task, and what the debug controls and the end of an XFER do.
-/

namespace Sys2Proof.Machine

/-! ### From the result of a row to the state (R243, R255) -/

/-- What the machine makes of the result that a row answers on desk `d`, with one more instruction for a REPEAT to take. -/
def State.deskDoes (s : State) (d op : Nat) (r : DeskRow) (w : DeskBits) : DRes → State
  | .ok k m => (s.count (dskReg Reg.DSK_Dn_SAT d) m).deskNext d ((s.desk d).after op r w k 0)
  | .jump k e => s.setDesk d ((s.desk d).after op r w k e)
  | .fault c => s.deskFault d c
  | .halt =>
    match ((s.desk d).after op r w (s.desk d) 0).advance with
    | some k => s.haltAt d k
    | none => s.deskFault d fAddress
  | .retire => (s.setDesk d ((s.desk d).after op r w (s.desk d) 0)).retireTask d
  | .signal t m => s.deskSignal d ((s.desk d).after op r w (s.desk d) 0) t m
  | .xfer x => s.deskNext d { (s.desk d).after op r w (s.desk d) 0 with xfer := some x }
  | .stall => s.setDesk d { s.desk d with xferWait := true }
  | .repeat_ n =>
    match ((s.desk d).after op r w (s.desk d) 0).advance with
    | none => s.deskFault d fAddress
    | some k =>
      if n = 0 then s.deskNext d k
      else if s.brkHit d k.pc then s.haltAt d { k with rep := some n }
      else deskExec 1 d (k.fetchAt k.pc).1 (k.fetchAt k.pc).2 (s.setDesk d { k with rep := some n })

section
variable {s : State} {d op : Nat} {w : DeskBits} {r : DeskRow} {k : Desk}

theorem State.deskInstr_eq_deskDoes (hr : deskRow op = some r) (ht : s.deskTakes d r w) :
    s.deskInstr d op w = (s.deskDoes d op r w (deskOp (s.spillSize d) op w (s.desk d))).runLimit d :=
  State.deskInstr_of_takes hr ht

theorem State.deskTakes_xfer (ht : s.deskTakes d r w) : (s.desk d).xfer = none := by
  obtain ⟨_, _, _, _, _, hx, _⟩ := ht
  exact hx

theorem State.deskDoes_halt (h : ((s.desk d).after op r w (s.desk d) 0).advance = some k) :
    s.deskDoes d op r w .halt = s.haltAt d k := by
  unfold State.deskDoes
  dsimp only
  rw [h]

/-- A REPEAT of 0 skips the instruction behind it (R249). -/
theorem State.deskDoes_repeat_zero (h : ((s.desk d).after op r w (s.desk d) 0).advance = some k) :
    s.deskDoes d op r w (.repeat_ 0) = s.deskNext d k := by
  unfold State.deskDoes
  dsimp only
  rw [h]
  exact if_pos rfl

end

section
variable {mk : Fin 16 → DeskBits → Instr} {op : Nat}

/-- A row that answers its result on any operands computes whenever a desk takes it. -/
theorem Computes.always {f : DeskBits → Desk → Desk × Nat} (he : ∀ d w s, exec (mk d w) s = .next (s.deskInstr d.val op w))
    (h : ∀ n w k, deskOp n op w k = .ok (f w k).1 (f w k).2) : Computes mk op (fun _ _ => True) f :=
  .of he fun n w k _ => h n w k

variable {hyp : Nat → DeskBits → State → Prop}

/-- An instruction steers as the machine works the result of its row; no XFER runs. -/
theorem Steers.of_does {eff : Nat → DeskBits → DeskRow → State → State}
    (he : ∀ d w s, exec (mk d w) s = .next (s.deskInstr d.val op w))
    (h : ∀ d w s r, deskRow op = some r → (s.desk d).xfer = none → hyp d w s →
      s.deskDoes d op r w (deskOp (s.spillSize d) op w (s.desk d)) = eff d w r s) : Steers mk op hyp eff :=
  .of he fun d w s r hr ht hs => by rw [State.deskInstr_eq_deskDoes hr ht, h d w s r hr (State.deskTakes_xfer ht) hs]

/-- A row that answers a fault stops the task with its code (R255). -/
theorem Steers.of_fault {c : Nat} (he : ∀ d w s, exec (mk d w) s = .next (s.deskInstr d.val op w))
    (h : ∀ d w s, (s.desk d).xfer = none → hyp d w s → deskOp (s.spillSize d) op w (s.desk d) = .fault c) :
    Steers mk op hyp (fun d _ _ s => s.deskFault d c) :=
  .of_does he fun d w s r _ hx hs => congrArg (s.deskDoes d op r w) (h d w s hx hs)

end

/-! ### Accesses (R234, R246) -/

section
variable {k : Desk} {o : Option (List Nat)} {as : List Nat} {f : List Nat → DRes}

theorem orAddress_of_some (h : o = some as) : orAddress o f = f as := by
  rw [h]
  rfl

theorem orRead_of_good (h : o = some as) (hb : as.any k.bad.contains = false) : orRead k o f = f as := by
  unfold orRead
  rw [orAddress_of_some h, hb]
  exact if_neg Bool.false_ne_true

theorem orRead_of_bad (h : o = some as) (hb : as.any k.bad.contains = true) : orRead k o f = .fault fMemory := by
  unfold orRead
  rw [orAddress_of_some h, hb]
  exact if_pos rfl

theorem orRead_of_beyond (h : o = none) : orRead k o f = .fault fAddress := by
  rw [h]
  rfl

end

/-! ### Control rows (R243, R247–R249, R254) -/

section
variable {w : DeskBits} {k : Desk}

theorem opSetm_of_within (h : fieldOf (k.sreg (fX w)) 0 17 + fieldOf (k.sreg (fY w)) 0 18 ≤ 131072) :
    opSetm w k =
      let b := fieldOf (k.sreg (fX w)) 0 17
      let l := fieldOf (k.sreg (fY w)) 0 18
      let k1 := { k with mb := k.mb.set (fPA w) b, ml := k.ml.set (fPA w) l }
      .ok (if l = 0 ∨ (b ≤ k.ptr (fPA w) ∧ k.ptr (fPA w) < b + l) then k1 else k1.setPtr (fPA w) (k1.fold (fPA w) (k.ptr (fPA w)))) 0 :=
  if_neg (Nat.not_lt.mpr h)

theorem opBr_of_taken (h : condition (fD w) (k.sreg (fX w)) (k.sreg (fY w)) = some true) :
    opBr w k = .jump (k.branch (fImm w)) 2 := by
  unfold opBr
  rw [h]

theorem opBr_of_not_taken (h : condition (fD w) (k.sreg (fX w)) (k.sreg (fY w)) = some false) : opBr w k = .ok k 0 := by
  unfold opBr
  rw [h]

theorem opCall_of_room (hr : k.calls.length < 8) (hp : k.pc + 1 < 65536) :
    opCall w k = .jump { k with calls := (k.pc + 1) :: k.calls, pc := fImm w } 0 :=
  (if_neg (Nat.not_le.mpr hr)).trans (if_pos hp)

theorem opCall_of_full (h : 8 ≤ k.calls.length) : opCall w k = .fault fStack := if_pos h

theorem opRet_of_cons {a : Nat} {rest : List Nat} (h : k.calls = a :: rest) : opRet k = .jump { k with calls := rest, pc := a } 0 := by
  unfold opRet
  rw [h]

theorem opRet_of_nil (h : k.calls = []) : opRet k = .fault fStack := by
  unfold opRet
  rw [h]

/-- The count of a LOOP (R248). -/
def loopCount (w : DeskBits) (k : Desk) : Nat := if fX w = 0 then fieldOf w 16 16 else fieldOf (k.sreg (fX w)) 0 16

theorem opLoop_of_opens (he : k.pc < fieldOf w 0 16) (hr : k.loops.length < 4) (hn : loopCount w k ≠ 0) :
    opLoop w k = .jump { k with loops := (k.pc + 1, fieldOf w 0 16, loopCount w k) :: k.loops, pc := k.pc + 1 } 0 :=
  (if_neg (Nat.not_le.mpr he)).trans ((if_neg (Nat.not_le.mpr hr)).trans (if_neg hn))

theorem opLoop_of_end_behind (h : fieldOf w 0 16 ≤ k.pc) : opLoop w k = .fault fIllegal := if_pos h

theorem opRepeat_of_zero (hx : fX w = 0) (hn : fImm w = 0) : opRepeat w k = .repeat_ 0 := by
  unfold opRepeat
  dsimp only
  rw [if_pos hx, hn]
  rfl

theorem opRepeat_of_above (hx : fX w ≠ 0) (hn : 4096 < (k.sreg (fX w)).toNat) : opRepeat w k = .fault fRepeat := by
  unfold opRepeat
  dsimp only
  rw [if_neg hx, if_pos hn]

theorem opRetire_of_no_xfer (hx : k.xfer = none) : opRetire k = .retire := by
  unfold opRetire
  rw [hx]
  rfl

theorem opXwait_of_no_xfer (hx : k.xfer = none) : opXwait k = .ok k 0 := by
  unfold opXwait
  rw [hx]
  rfl

variable {window : Nat}

theorem opXfer_of_within {n o : Nat} (hx : k.xfer = none) (hn : n = (k.sreg (fY w)).toNat) (ho : o = (k.sreg (fX w)).toNat)
    (h0 : 0 < n) (hmax : n ≤ 16384) (hp : k.ptr (fPA w) + n ≤ 131072) (hw : 4 * (o + n) ≤ window) :
    opXfer window w k = .xfer { spill := fI w, loc := k.ptr (fPA w), off := o, todo := List.range n, len := n } := by
  have hfits : ¬(16384 < n ∨ window < 4 * (o + n)) := by omega
  unfold opXfer
  dsimp only
  rw [← hn, ← ho, hx, if_neg (by decide), if_neg (Nat.not_lt.mpr hp), if_neg hfits, if_neg (Nat.ne_of_gt h0)]

theorem opXfer_of_outside (hx : k.xfer = none) (hp : k.ptr (fPA w) + (k.sreg (fY w)).toNat ≤ 131072)
    (hw : window < 4 * ((k.sreg (fX w)).toNat + (k.sreg (fY w)).toNat)) : opXfer window w k = .fault fSpill := by
  unfold opXfer
  dsimp only
  rw [hx, if_neg (by decide), if_neg (Nat.not_lt.mpr hp), if_pos (Or.inr hw)]

end

/-! ### SIGNAL (R253) -/

section
variable {s : State} {d t : Nat} {k : Desk} {m : Word}

/-- A SIGNAL of flags to a task that exists posts where there is room and waits where there is none. -/
theorem State.deskSignal_of_task (hm : m ≠ 0) (ht : (s.task t).isSome = true) :
    s.deskSignal d k t m = if s.canPost t m then (s.applyPost t m).deskNext d k
      else ((s.setDesk d { k with sigWait := true }).hold (.desk d) t m).count (dskReg Reg.DSK_Dn_SIG_STALLS d) 1 :=
  if_neg (not_or.mpr ⟨hm, by simpa using Option.isSome_iff_ne_none.mp ht⟩)

end

/-! ### Faults (R242, R255, R256) -/

section
variable {s : State} {d op : Nat} {w : DeskBits}

/-- A RUNNING desk that no SIGNAL and no breakpoint holds issues the instruction. -/
theorem State.deskInstr_of_runs (hs : (s.desk d).st = .running) (hw : (s.desk d).sigWait = false)
    (hb : s.brkHit d (s.desk d).pc = false) : s.deskInstr d op w = s.deskIssue d op w := by
  unfold State.deskInstr
  dsimp only
  rw [if_pos ⟨hs, by simp [hw]⟩, hb]
  exact if_neg (fun h => Bool.false_ne_true h.1)

theorem deskExec_of_stray {n : Nat} {r : DeskRow} (hm : (s.desk d).bad = []) (hr : deskRow op = some r)
    (hw : strayBits (if fI w then r.used1 else r.used0) w = true) : deskExec (n + 1) d op w s = s.deskFault d fIllegal := by
  unfold deskExec
  rw [hm, hr]
  exact if_pos hw

/-- NOP uses no field (R243). -/
theorem deskExec_nop_of_stray {n : Nat} (hm : (s.desk d).bad = []) (hw : strayBits [] w = true) :
    deskExec (n + 1) d 0x00 w s = s.deskFault d fIllegal :=
  deskExec_of_stray (r := plainRow [] true [] []) hm rfl ((congrArg (strayBits · w) (ite_self _)).trans hw)

theorem deskExec_of_unknown {n : Nat} (hm : (s.desk d).bad = []) (hr : deskRow op = none) :
    deskExec (n + 1) d op w s = s.deskFault d fIllegal := by
  unfold deskExec
  rw [hm, hr]
  rfl

theorem State.deskIssue_of_known (h : (deskRow ((s.desk d).fetchAt (s.desk d).pc).1).isSome = true) :
    s.deskIssue d op w = (deskExec 2 d op w s).runLimit d := by
  unfold State.deskIssue
  dsimp only
  rw [if_neg (by simpa using Option.isSome_iff_ne_none.mp h)]

theorem State.deskIssue_of_unknown (h : deskRow ((s.desk d).fetchAt (s.desk d).pc).1 = none) :
    s.deskIssue d op w = (deskExec 2 d ((s.desk d).fetchAt (s.desk d).pc).1 ((s.desk d).fetchAt (s.desk d).pc).2 s).runLimit d := by
  unfold State.deskIssue
  dsimp only
  rw [if_pos (Option.isNone_iff_eq_none.mpr h)]

/-- The run that an instruction brings to its limit is a RUNAWAY fault after the instruction. -/
theorem State.deskInstr_of_limit {r : DeskRow} {k k2 : Desk} {m : Nat} (hr : deskRow op = some r) (ht : s.deskTakes d r w)
    (hop : deskOp (s.spillSize d) op w (s.desk d) = .ok k m) (ha : ((s.desk d).after op r w k 0).advance = some k2)
    (hl : ((s.count (dskReg Reg.DSK_Dn_SAT d) m).setDesk d k2).underLimit d = false) :
    s.deskInstr d op w = ((s.count (dskReg Reg.DSK_Dn_SAT d) m).setDesk d k2).deskFault d fRunaway := by
  rw [State.deskInstr_eq_deskDoes hr ht, hop]
  unfold State.deskDoes State.deskNext
  dsimp only
  rw [ha]
  exact State.runLimit_over hl

/-- The desk as a fault leaves it (R255). -/
def Desk.faulted (k : Desk) (code : Nat) : Desk :=
  { k with st := .fault, fault := code, task := none, sigWait := false, late := false, rep := none, xferWait := false,
           stepWait := false, offAtEnd := false }

/-- A fault of a desk without a task concerns that desk, its posts and the reports alone. -/
theorem State.deskFault_of_taskless {code : Nat} (ht : (s.desk d).task = none) :
    s.deskFault d code =
      (((s.dropSignal d).setDesk d ((s.desk d).faulted code)).count (dskReg Reg.DSK_Dn_FAULTS d) 1).evt Reg.DSK_DESK_EVT 0 := by
  unfold State.deskFault
  dsimp only
  rw [ht]
  rfl

theorem State.deskFault_desk {code : Nat} (hd : d < s.desks.length) (ht : (s.desk d).task = none) :
    (s.deskFault d code).desk d = (s.desk d).faulted code := by
  rw [State.deskFault_of_taskless ht, State.desk_congr ((State.count_side _ _ _).trans (State.evt_side _ _ _)).desks]
  exact (State.desk_setDesk (s.dropSignal d) d _ d hd).trans (if_pos rfl)

end

/-! ### Debug controls and ENABLE (R233, R257, R258) -/

section
variable {s : State} {d : Nat} {v : Word}

theorem deskHalt_of_active (h : (s.desk d).st = .running ∨ (s.desk d).st = .idle) :
    deskHalt d s = s.setDesk d { s.desk d with st := .halted } := if_pos h

theorem deskRun_of_task (h : (s.desk d).st = .halted) (ht : (s.desk d).task.isSome = true) :
    deskRun d s = s.setDesk d { s.desk d with st := .running, passBrk := true, stepWait := false } :=
  (if_pos h).trans (congrArg (s.setDesk d) (if_pos ht))

theorem deskRun_of_taskless (h : (s.desk d).st = .halted) (ht : (s.desk d).task = none) :
    deskRun d s = s.setDesk d { s.desk d with st := .idle } :=
  (if_pos h).trans (congrArg (s.setDesk d) (if_neg (by simp [ht])))

theorem deskStepOne_of_halted (h : (s.desk d).st = .halted) (ht : (s.desk d).task.isSome = true) (hs : (s.desk d).sigWait = false)
    (hw : (s.desk d).stepWait = false) : deskStepOne d s = s.stepIssue d :=
  if_pos ⟨h, ht, ne_true_of_eq_false hs, ne_true_of_eq_false hw⟩

theorem deskClear_of_fault (h : (s.desk d).st = .fault) : deskClear d s = s.setDesk d { s.desk d with st := .idle, fault := 0 } :=
  if_pos h

/-- A write of DSK_Dn_CFG that keeps the group is not refused (R261). -/
theorem deskCfg_of_off (hv : bitOf v 0 = true) (hs : (s.desk d).st = .off) (hg : fieldOf v 1 2 = (s.desk d).group) :
    deskCfg d v s = s.setDesk d { s.desk d with enable := true, st := .idle, fault := 0, pc := 0 } := by
  unfold deskCfg
  dsimp only
  rw [hv, hs, hg]
  simp

theorem deskCfg_of_idle (hv : bitOf v 0 = false) (hs : (s.desk d).st = .idle) (hg : fieldOf v 1 2 = (s.desk d).group) :
    deskCfg d v s = s.setDesk d { s.desk d with enable := false, st := .off } := by
  unfold deskCfg
  dsimp only
  rw [hv, hs, hg]
  simp

theorem deskPc_of_halted (h : (s.desk d).st = .halted) : deskPc d v s = s.setDesk d { s.desk d with pc := fieldOf v 0 16 } := if_pos h

theorem deskPc_of_not_halted (h : (s.desk d).st ≠ .halted) : deskPc d v s = s := if_neg h

theorem deskDbg_of_halted (h : (s.desk d).st = .halted) :
    deskDbg d v s = s.setDesk d ((s.desk d).dbgWrite (s.reg (dskReg Reg.DSK_Dn_DBG_SEL d)).toNat v) := if_pos h

theorem deskDbg_of_not_halted (h : (s.desk d).st ≠ .halted) : deskDbg d v s = s := if_neg h

end

/-! ### The end of an XFER (R254) -/

section
variable {s : State} {d : Nat}

/-- A write of a desk that keeps its STEP's wait keeps it in the state, also where the desk does not exist and nothing is written. -/
theorem State.stepWait_setDesk {k : Desk} {b : Bool} (hs : (s.desk d).stepWait = b) (hk : k.stepWait = b) :
    ((s.setDesk d k).desk d).stepWait = b := by
  by_cases hd : d < s.desks.length
  · rwa [State.desk_setDesk _ _ _ _ hd, if_pos rfl]
  · unfold State.desk State.setDesk
    rwa [List.set_eq_of_length_le (Nat.not_lt.mp hd)]

/-- The move of word `i` of the transfer `x` between desk `d` and the window at `base` (R254). -/
def State.xferWord (d base : Nat) (x : Xfer) (s : State) (i : Nat) : State :=
  let a := base + 4 * (x.off + i)
  if x.spill then s.dramWrite a (leBytes 4 ((s.desk d).mget (x.loc + i)).toNat)
  else s.setDesk d ((s.desk d).mset (x.loc + i) (word (leNat (memRead s.dram a 4))))

theorem State.xferMove_of_some {x : Xfer} (hx : (s.desk d).xfer = some x) (words : List Nat) :
    s.xferMove d words =
      let s1 := words.foldl (State.xferWord d (s.pair (dskReg Reg.DSK_Dn_SPILL_BASE_LO d)) x) s
      s1.setDesk d { s1.desk d with xfer := some { x with todo := x.todo.filter (fun i => !words.contains i) } } := by
  unfold State.xferMove
  rw [hx]
  rfl

theorem State.stepWait_xferWord {base i : Nat} {x : Xfer} {b : Bool} (hs : (s.desk d).stepWait = b) :
    ((State.xferWord d base x s i).desk d).stepWait = b := by
  unfold State.xferWord
  dsimp only
  split
  · exact hs
  · exact State.stepWait_setDesk hs hs

/-- Words that an XFER moves leave a STEP's wait as it is. -/
theorem State.stepWait_xferMove {x : Xfer} {b : Bool} (hx : (s.desk d).xfer = some x) (hs : (s.desk d).stepWait = b)
    (words : List Nat) : ((s.xferMove d words).desk d).stepWait = b := by
  have hmoved := List.foldlRecOn (motive := fun t : State => (t.desk d).stepWait = b) words
    (State.xferWord d (s.pair (dskReg Reg.DSK_Dn_SPILL_BASE_LO d)) x) hs fun t ht i _ => State.stepWait_xferWord ht
  rw [State.xferMove_of_some hx]
  exact State.stepWait_setDesk hmoved hmoved

/-- A STEP that does not wait is not taken up by the end of an XFER. -/
theorem State.stepIssue_not_due {t : State} (h : (t.desk d).stepWait = false) :
    (if (t.desk d).stepWait && (t.desk d).st == .halted then t.stepIssue d else t) = t := by
  rw [h]
  rfl

theorem xferComplete_of_clean {x : Xfer} (hx : (s.desk d).xfer = some x) (hw : (s.desk d).stepWait = false) :
    xferComplete d [] s = (s.xferMove d x.todo).setDesk d { (s.xferMove d x.todo).desk d with xfer := none } := by
  have hmoved := State.stepWait_xferMove hx hw x.todo
  have hstep : (((s.xferMove d x.todo).setDesk d { (s.xferMove d x.todo).desk d with xfer := none }).desk d).stepWait = false :=
    State.stepWait_setDesk hmoved hmoved
  unfold xferComplete
  rw [hx]
  dsimp only
  rw [List.filter_nil, ite_self]
  exact State.stepIssue_not_due hstep

theorem xferComplete_of_bad_fill {x : Xfer} {b : Nat} (hx : (s.desk d).xfer = some x) (hw : (s.desk d).stepWait = false)
    (hf : x.spill = false) (hb : b < x.len) :
    xferComplete d [b] s = (((s.xferMove d x.todo).setDesk d
      { ((s.xferMove d x.todo).desk d).mset (x.loc + b) 0 with xfer := none }).count (dskReg Reg.DSK_Dn_SPILL_ERRS d) 1).evt
        Reg.DSK_DESK_EVT 4 := by
  have hmoved := State.stepWait_xferMove hx hw x.todo
  have hstep : (((((s.xferMove d x.todo).setDesk d { ((s.xferMove d x.todo).desk d).mset (x.loc + b) 0 with xfer := none }).count
      (dskReg Reg.DSK_Dn_SPILL_ERRS d) 1).evt Reg.DSK_DESK_EVT 4).desk d).stepWait = false := by
    rw [State.desk_congr ((State.count_side _ _ _).trans (State.evt_side _ _ _)).desks]
    exact State.stepWait_setDesk hmoved hmoved
  have hzero : [b].filter (fun i => decide (i < x.len)) = [b] := by simp [hb]
  unfold xferComplete
  rw [hx]
  dsimp only
  rw [hf, if_neg Bool.false_ne_true, hzero]
  exact State.stepIssue_not_due hstep

end

/-! ### The statements of the family -/

/-- Settles O24, row by row: each row answers its result on every desk, SETM where base plus length lie within the memory. -/
theorem deskScalarResults : Obligations.DeskScalarResults := by
  unfold Obligations.DeskScalarResults
  refine ⟨?_, ?_, ?_, ?_, ?_, ?_, ?_, ?_, ?_, ?_, ?_, ?_, .of (fun _ _ _ => rfl) fun _ _ _ h => opSetm_of_within h, ?_⟩
  all_goals exact .always (fun _ _ _ => rfl) fun _ _ _ => rfl

/-- Settles O25, row by row: the access has its addresses, and a read meets no error. -/
theorem deskMemoryResults : Obligations.DeskMemoryResults := by
  unfold Obligations.DeskMemoryResults
  refine ⟨fun as => .of (fun _ _ _ => rfl) fun _ _ _ ⟨ha, hb⟩ => orRead_of_good ha hb,
    fun as => .of (fun _ _ _ => rfl) fun _ _ _ ha => orAddress_of_some ha,
    fun as => .of (fun _ _ _ => rfl) fun _ _ _ ⟨ha, hb⟩ => orRead_of_good ha hb,
    fun as => .of (fun _ _ _ => rfl) fun _ _ _ ha => orAddress_of_some ha,
    fun as => .of (fun _ _ _ => rfl) fun _ _ _ ⟨ha, hb⟩ => orRead_of_good ha hb⟩

/-- Settles O26, row by row: each row answers its eight saturated results, or its lane, on every desk. -/
theorem deskVectorResults : Obligations.DeskVectorResults := by
  unfold Obligations.DeskVectorResults
  refine ⟨?_, ?_, ?_, ?_, ?_, ?_, ?_, ?_, ?_, ?_, ?_⟩
  all_goals exact .always (fun _ _ _ => rfl) fun _ _ _ => rfl

/-- Settles O27, row by row: the rows on registers answer on every desk, those on memory once each access finds its words. -/
theorem deskAccumulatorResults : Obligations.DeskAccumulatorResults := by
  unfold Obligations.DeskAccumulatorResults
  refine ⟨.always (fun _ _ _ => rfl) fun _ _ _ => rfl, .always (fun _ _ _ => rfl) fun _ _ _ => rfl,
    .always (fun _ _ _ => rfl) fun _ _ _ => rfl, fun as bs => .of (fun _ _ _ => rfl) fun _ _ _ ⟨ha, hga, hb, hgb⟩ => ?_,
    fun hs ts cs => .of (fun _ _ _ => rfl) fun _ _ _ ⟨hh, hgh, ht, hc, hgc⟩ => ?_, .always (fun _ _ _ => rfl) fun _ _ _ => rfl,
    .of (fun _ _ _ => rfl) fun _ _ _ hi => if_pos hi, fun as => .of (fun _ _ _ => rfl) fun _ _ _ ⟨hi, ha, hga⟩ => ?_,
    fun as bs ts => .of (fun _ _ _ => rfl) fun _ _ _ ⟨hsh, ha, hga, hb, hgb, ht, hgt⟩ => ?_⟩
  · exact (orRead_of_good ha hga).trans (orRead_of_good hb hgb)
  · exact (orRead_of_good hh hgh).trans ((orAddress_of_some ht).trans (orRead_of_good hc hgc))
  · exact (if_neg (ne_true_of_eq_false hi)).trans (orRead_of_good ha hga)
  · exact (if_neg hsh).trans ((orRead_of_good ha hga).trans ((orRead_of_good hb hgb).trans (orRead_of_good ht hgt)))

/-- Settles O28, row by row: what the row answers on the operands of its clause, and what the machine makes of that answer. -/
theorem deskControlResults : Obligations.DeskControlResults := by
  unfold Obligations.DeskControlResults
  refine ⟨.of_does (fun _ _ _ => rfl) fun d w s r _ _ h => congrArg (s.deskDoes d 0x02 r w) (opBr_of_taken h),
    .of (fun _ _ _ => rfl) fun _ _ _ h => opBr_of_not_taken h,
    .of_does (fun _ _ _ => rfl) fun d w s r _ _ ⟨hroom, hpc⟩ => congrArg (s.deskDoes d 0x03 r w) (opCall_of_room hroom hpc),
    fun a rest => .of_does (fun _ _ _ => rfl) fun d w s r _ _ h => congrArg (s.deskDoes d 0x04 r w) (opRet_of_cons h),
    .of_does (fun _ _ _ => rfl) fun d w s r _ _ ⟨he, hroom, hn⟩ => congrArg (s.deskDoes d 0x05 r w) (opLoop_of_opens he hroom hn),
    fun k1 => .of_does (fun _ _ _ => rfl) fun d w s r hr _ ⟨hx, hn, hk⟩ => ?repeat_,
    fun k1 => .of_does (fun _ _ _ => rfl) fun d w s r hr _ hk => State.deskDoes_halt (hk r hr),
    .of_does (fun _ _ _ => rfl) fun d w s r _ hx _ => congrArg (s.deskDoes d 0x01 r w) (opRetire_of_no_xfer hx),
    fun t m => .of_does (fun _ _ _ => rfl) ?posts, fun t m => .of_does (fun _ _ _ => rfl) ?stalls,
    fun n o => .of_does (fun _ _ _ => rfl) fun d w s r _ hx ⟨hn, ho, h0, hmax, hp, hw⟩ =>
      congrArg (s.deskDoes d 0x50 r w) (opXfer_of_within hx hn ho h0 hmax hp hw),
    .of (fun _ _ _ => rfl) fun _ _ _ hx => opXwait_of_no_xfer hx⟩
  case repeat_ => exact (congrArg (s.deskDoes d 0x06 r w) (opRepeat_of_zero hx hn)).trans (State.deskDoes_repeat_zero (hk r hr))
  case posts =>
    rintro d w s r - - ⟨rfl, rfl, hm, ht, hp⟩
    exact (State.deskSignal_of_task hm ht).trans (if_pos hp)
  case stalls =>
    rintro d w s r - - ⟨rfl, rfl, hm, ht, hp⟩
    exact (State.deskSignal_of_task hm ht).trans (if_neg (ne_true_of_eq_false hp))

/-- Settles O29: the rows that answer a fault, the words that are none of the table's, the limit of a run, and the desk in FAULT. -/
theorem deskFaultsStopTheTask : Obligations.DeskFaultsStopTheTask := by
  unfold Obligations.DeskFaultsStopTheTask
  refine ⟨.of_fault (fun _ _ _ => rfl) fun _ _ _ _ h => opRet_of_nil h, .of_fault (fun _ _ _ => rfl) fun _ _ _ _ h => opCall_of_full h,
    .of_fault (fun _ _ _ => rfl) fun _ _ _ _ h => orRead_of_beyond h,
    fun as => .of_fault (fun _ _ _ => rfl) fun _ _ _ _ ⟨ha, hb⟩ => orRead_of_bad ha hb,
    .of_fault (fun _ _ _ => rfl) fun _ _ _ _ ⟨hx, hn⟩ => opRepeat_of_above hx hn,
    .of_fault (fun _ _ _ => rfl) fun _ _ _ hx ⟨hp, hw⟩ => opXfer_of_outside hx hp hw,
    .of_fault (fun _ _ _ => rfl) fun _ _ _ _ h => opLoop_of_end_behind h,
    fun d w => .of (fun _ => rfl) fun s ⟨hs, hw, hb, hm, hstray, hr, hl⟩ => ?stray,
    fun d w => .of (fun _ => rfl) fun s ⟨hs, hw, hb, hm, hr, hl⟩ => ?unknown,
    fun d w r k2 => .of (fun _ => rfl) ?limit,
    fun d => .of (fun _ => rfl) fun s ⟨hs, hn, hc⟩ => ?runaway, fun s d code hd ht => ?faulted⟩
  case stray =>
    rw [State.deskInstr_of_runs hs hw hb, State.deskIssue_of_known hr, deskExec_nop_of_stray hm hstray]
    exact State.runLimit_under hl
  case unknown =>
    rw [State.deskInstr_of_runs hs hw hb, State.deskIssue_of_unknown hr, deskExec_of_unknown hm hr]
    exact State.runLimit_under hl
  case limit =>
    rintro s ⟨hr, ht, ha, hl⟩
    exact State.deskInstr_of_limit hr ht rfl ha hl
  case runaway =>
    have hpos : (s.reg (dskReg Reg.DSK_Dn_RUN_LIMIT d.val)).toNat ≠ 0 := fun h => hn (BitVec.eq_of_toNat_eq h)
    exact if_pos ⟨hs, hpos, hc⟩
  case faulted =>
    rw [State.deskFault_desk hd ht]
    exact ⟨rfl, rfl, rfl⟩

/-- Settles O30: each control acts in the desk's state of its clause, while the register bar takes writes, and an XFER ends. -/
theorem deskDebugActs : Obligations.DeskDebugActs := by
  unfold Obligations.DeskDebugActs
  exact ⟨fun d => .of_barWrite (fun _ => rfl) fun s ⟨ha, h⟩ => ⟨ha, deskHalt_of_active h⟩,
    fun d => .of_barWrite (fun _ => rfl) fun s ⟨ha, h, ht⟩ => ⟨ha, deskRun_of_task h ht⟩,
    fun d => .of_barWrite (fun _ => rfl) fun s ⟨ha, h, ht⟩ => ⟨ha, deskRun_of_taskless h ht⟩,
    fun d => .of_barWrite (fun _ => rfl) fun s ⟨ha, h, ht, hs, hw⟩ => ⟨ha, deskStepOne_of_halted h ht hs hw⟩,
    fun d => .of_barWrite (fun _ => rfl) fun s ⟨ha, h⟩ => ⟨ha, deskClear_of_fault h⟩,
    fun d v => .of_barWrite (fun _ => rfl) fun s ⟨ha, hv, hs, hg⟩ => ⟨ha, deskCfg_of_off hv hs hg⟩,
    fun d v => .of_barWrite (fun _ => rfl) fun s ⟨ha, hv, hs, hg⟩ => ⟨ha, deskCfg_of_idle hv hs hg⟩,
    fun d v => .of_barWrite (fun _ => rfl) fun s ⟨ha, h⟩ => ⟨ha, deskPc_of_halted h⟩,
    fun d v => .of_barWrite (fun _ => rfl) fun s ⟨ha, h⟩ => ⟨ha, deskDbg_of_halted h⟩,
    fun d v => ⟨.of (fun _ => rfl) fun s h => barWrite_of_fixed (deskPc_of_not_halted h),
      .of (fun _ => rfl) fun s h => barWrite_of_fixed (deskDbg_of_not_halted h)⟩,
    fun d x => .of (fun _ => rfl) fun s ⟨hx, hw⟩ => xferComplete_of_clean hx hw,
    fun d x b => .of (fun _ => rfl) fun s ⟨hx, hw, hf, hb⟩ => xferComplete_of_bad_fill hx hw hf hb⟩

end Sys2Proof.Machine
end

section
/-!
PROOFS for the task scheduler family (R261, R264, R270, R272): what TASK_CREATE, TASK_SIGNAL and TASK_CANCEL do with valid fields.
-/

namespace Sys2Proof.Machine

section
variable {c : CmdRef} {e : Submission} {s : State}

/-- A task without a flow joins no block: TASK_CREATE makes it WAITING at once (R261). -/
theorem taskCreate_of_flowless {t : Nat} {late : Bool} {k : TaskCfg} (hk : parseTask e = some (t, late, k)) (hf : s.task t = none)
    (hx : s.taskClash k = false) (hn : s.noTasks = false) (hip : k.ip = 0) (he : e.epoch = 0) :
    taskCreate e c s = (s.setTask t { cfg := k }).complete c stOk 0 := by
  have hroom : ¬(k.ip ≠ 0 ∧ (48 ≤ s.reserved (s.listKey k) ∨ !s.room (s.listKey k))) := fun h => h.1 hip
  unfold taskCreate
  rw [hk]
  dsimp only
  rw [hf, hx, hn, if_neg hroom, he]
  exact if_pos hip

/-- With no presentation MSC TASK_SIGNAL posts its flags, or holds them, as it is taken (R272). -/
theorem taskSignal_now (ht : sub e 16 2 < 256) (hf : sub e 18 1 = 0) (hz1 : subZero e 19 1 = true) (hm : word (sub e 20 4) ≠ 0)
    (hz2 : subZero e 24 40 = true) (hs : (s.task (sub e 16 2)).isSome = true) (hn : s.noTasks = false) (hp : e.present = 0) :
    taskSignal e c s = s.signalTask c false (sub e 16 2) (word (sub e 20 4)) := by
  unfold taskSignal
  dsimp only
  rw [if_neg (by simpa [ht, hf, lateFlag_zero, hz1, hz2, Option.isSome_iff_ne_none.mp hs] using hm), hn, hp]
  rfl

/-- Flags that cannot be taken are held, and with them the queue that carried them (R264). -/
theorem State.signalTask_of_task {t : Nat} {mask : Word} (ht : (s.task t).isSome = true) :
    s.signalTask c false t mask = if s.canPost t mask then (s.applyPost t mask).complete c stOk s.resMsc
      else (s.hold (.host c false) t mask).setQueue c.queue.val
        { (s.hold (.host c false) t mask).queue c.queue.val with held := true } :=
  if_neg (by simpa using Option.isSome_iff_ne_none.mp ht)

/-- TASK_CANCEL of a task without a flow ends it at once, and its finish completes the command (R270). -/
theorem taskCancel_of_flowless {k : Task} (ht : sub e 16 2 < 256) (hf : sub e 18 1 = 0) (hz : subZero e 19 45 = true)
    (hk : s.task (sub e 16 2) = some k) (hip : k.cfg.ip = 0) (he : e.epoch = 0) :
    taskCancel e c s = (s.setTask (sub e 16 2) { k with cancel := k.cancel ++ [(c, false)] }).finishTask (sub e 16 2) := by
  unfold taskCancel
  dsimp only
  rw [hf, if_neg (by simp [ht, lateFlag_zero, hz]), hk]
  dsimp only
  rw [he]
  exact if_pos hip

end

/-! ### The statement of the family -/

/-- Settles O13, clause by clause: a task without a flow comes and goes at once, and a signal posts its flags or holds its queue. -/
theorem taskCommandsAct : Obligations.TaskCommandsAct := by
  unfold Obligations.TaskCommandsAct
  refine ⟨fun e t late k => ?_, fun e => ?_, fun e => ?_, fun e k => ?_⟩
  · exact .of (fun _ => rfl) fun c s ⟨hk, hf, hx, hn, hip, he⟩ => taskCreate_of_flowless hk hf hx hn hip he
  · exact .of (fun _ => rfl) fun c s ⟨ht, hf, hz1, hm, hz2, hs, hn, hp, hpost⟩ =>
      ((taskSignal_now ht hf hz1 hm hz2 hs hn hp).trans (State.signalTask_of_task hs)).trans (if_pos hpost)
  · exact .of (fun _ => rfl) fun c s ⟨ht, hf, hz1, hm, hz2, hs, hn, hp, hheld⟩ =>
      ((taskSignal_now ht hf hz1 hm hz2 hs hn hp).trans (State.signalTask_of_task hs)).trans (if_neg (ne_true_of_eq_false hheld))
  · exact .of (fun _ => rfl) fun c s ⟨ht, hf, hz, hk, hip, he⟩ => taskCancel_of_flowless ht hf hz hk hip he

end Sys2Proof.Machine
end

section
/-!
PROOFS for the serial port and rate bridge family (R278–R292): what a write of a group's or a port's CFG stores and leaves waiting,
when the change acts, how a mask pair applies, and what clock and framing faults do to a bridge.
-/

namespace Sys2Proof.Machine

/-! ### Groups and ports as they are read back -/

section
variable {s t : State} {g : Nat}

theorem Side.groups (h : Side s t) : t.groups = s.groups := by
  obtain ⟨r, a, l, rfl⟩ := h
  rfl

theorem State.group_congr (h : s.groups = t.groups) (j : Nat) : s.group j = t.group j := by
  unfold State.group
  rw [h]

theorem State.group_setGroup (x : Group) (j : Nat) (h : g < s.groups.length) :
    (s.setGroup g x).group j = if g = j then x else s.group j := getD_set _ _ _ _ _ h

theorem State.group_setGroup_self (x : Group) (h : g < s.groups.length) : (s.setGroup g x).group g = x :=
  (State.group_setGroup x g h).trans (if_pos rfl)

theorem State.setGroup_groupsLength (x : Group) : (s.setGroup g x).groups.length = s.groups.length := List.length_set

theorem State.reg_setGroup (x : Group) (off : Nat) : (s.setGroup g x).reg off = s.reg off := rfl

/-- The later of two writes of a group stands. -/
theorem State.setGroup_setGroup (x y : Group) : (s.setGroup g x).setGroup g y = s.setGroup g y := by
  unfold State.setGroup
  rw [List.set_set]

theorem State.reg_setReg_self (off : Nat) (v : Word) : (s.setReg off v).reg off = v := (State.reg_setReg s off v off).trans (if_pos rfl)

/-- A refusal sets CFG_ERR of the group (R279). -/
theorem State.sapRefuse_group (h : g < s.groups.length) : (s.sapRefuse g).group g = { s.group g with cfgErr := true } :=
  (State.group_congr (State.evt_side _ _ _).groups g).trans (State.group_setGroup_self _ h)

theorem State.sapRefuse_groupsLength : (s.sapRefuse g).groups.length = s.groups.length :=
  (congrArg List.length (State.evt_side _ _ _).groups).trans (State.setGroup_groupsLength _)

/-- What waits after a refusal leaves CFG_ERR as it is. -/
theorem State.cfgErr_of_refused {w : Option (Bool × Nat)} (h : g < s.groups.length) :
    (((s.sapRefuse g).setGroup g { (s.sapRefuse g).group g with wait := w }).group g).cfgErr = true := by
  rw [State.group_setGroup_self _ (Nat.lt_of_lt_of_eq h State.sapRefuse_groupsLength.symm), State.sapRefuse_group h]

end

/-! ### A write of CFG (R279, R281, R292) -/

section
variable {old v mask : Word}

theorem sapTaken_of_disabled (h : bitOf old 0 = false) : sapTaken old v mask = v &&& mask := if_neg (ne_true_of_eq_false h)

theorem sapTaken_of_enabled (h : bitOf old 0 = true) : sapTaken old v mask = (old &&& ~~~1#32) ||| (v &&& 1#32) := if_pos h

/-- A 1 written over an ENABLE of 0 is judged (R279). -/
theorem asks_of_enable_rises {new : Word} (hold : bitOf old 0 = false) (hv : bitOf new 0 = true) : (bitOf new 0 && !bitOf old 0) = true := by
  rw [hv, hold]
  rfl

/-- An ENABLE of 1 acts at a control-frame boundary for a leader, and at a block boundary for a follower (R292). -/
theorem enableBoundary_eq (c : Word) : (if true && !cfgFollow c then 128 else 16) = if bitOf c 1 then 16 else 128 := by
  unfold cfgFollow
  cases bitOf c 1 <;> rfl

/-- A write while ENABLE stands at 1 stores the ENABLE written. -/
theorem bitOf_enableAlone (old v : Word) : bitOf ((old &&& ~~~1#32) ||| (v &&& 1#32)) 0 = bitOf v 0 := by
  simp [bitOf]

end

section
variable {s : State} {g p : Nat} {v : Word}

/-- An ENABLE of 1 that obeys R279 and R281 clears CFG_ERR and waits for its boundary: a control-frame boundary for a leader. -/
theorem sapGroupCfgWrite_of_accepted (hold : bitOf (s.reg (gReg Reg.SAP_Gg_CFG g)) 0 = false) (hv : bitOf (v &&& 0x7FFFF) 0 = true)
    (hok : (s.setReg (gReg Reg.SAP_Gg_CFG g) (v &&& 0x7FFFF)).groupOk g = true) (hg : g < s.groups.length) :
    sapGroupCfgWrite g v s = (s.setReg (gReg Reg.SAP_Gg_CFG g) (v &&& 0x7FFFF)).setGroup g { s.group g with
      cfgErr := false,
      wait := sapWait (s.group g).acts true (if s.valid then upTo (if bitOf (v &&& 0x7FFFF) 1 then 16 else 128) (s.msc + 16) else 0) } := by
  unfold sapGroupCfgWrite
  dsimp only
  rw [sapTaken_of_disabled hold, if_pos (asks_of_enable_rises hold hv), if_pos hok,
    State.reg_setGroup, State.reg_setReg_self, hv, enableBoundary_eq, State.group_setGroup_self (s := s.setReg _ _) _ hg,
    State.setGroup_setGroup]
  rfl

/-- One that breaks them sets CFG_ERR. -/
theorem sapGroupCfgWrite_cfgErr_of_refused (hold : bitOf (s.reg (gReg Reg.SAP_Gg_CFG g)) 0 = false)
    (hv : bitOf (v &&& 0x7FFFF) 0 = true) (hok : (s.setReg (gReg Reg.SAP_Gg_CFG g) (v &&& 0x7FFFF)).groupOk g = false)
    (hg : g < s.groups.length) : ((sapGroupCfgWrite g v s).group g).cfgErr = true := by
  unfold sapGroupCfgWrite
  dsimp only
  rw [sapTaken_of_disabled hold, if_pos (asks_of_enable_rises hold hv), if_neg (ne_true_of_eq_false hok)]
  exact State.cfgErr_of_refused (s := (s.setReg _ _).setReg _ _) hg

/-- An ENABLE of 0 while the MSC is not valid waits for no boundary, and stores nothing else. -/
theorem sapGroupCfgWrite_of_disabling (hold : bitOf (s.reg (gReg Reg.SAP_Gg_CFG g)) 0 = true) (hv : bitOf v 0 = false)
    (hn : s.valid = false) :
    sapGroupCfgWrite g v s = (s.setReg (gReg Reg.SAP_Gg_CFG g) ((s.reg (gReg Reg.SAP_Gg_CFG g) &&& ~~~1#32) ||| (v &&& 1#32))).setGroup g
      { s.group g with wait := sapWait (s.group g).acts false 0 } := by
  have hoff := (bitOf_enableAlone (s.reg (gReg Reg.SAP_Gg_CFG g)) v).trans hv
  unfold sapGroupCfgWrite
  dsimp only
  rw [sapTaken_of_enabled hold, hoff, hn, Bool.false_and, if_neg Bool.false_ne_true, if_neg Bool.false_ne_true, State.reg_setReg_self, hoff]
  rfl

theorem sapPortCfgWrite_of_accepted (hold : bitOf (s.reg (pReg Reg.SAP_Pp_CFG p)) 0 = false) (hv : bitOf (v &&& 0xF) 0 = true)
    (hok : (s.setReg (pReg Reg.SAP_Pp_CFG p) (v &&& 0xF)).portOk p = true) (hst : (s.group (p / 4)).st ≠ .off) :
    sapPortCfgWrite p v s = ((s.setReg (pReg Reg.SAP_Pp_CFG p) (v &&& 0xF)).setGroup (p / 4)
      { s.group (p / 4) with cfgErr := false }).setPort p { s.port p with
        wait := sapWait (s.port p).acts true (if s.valid then upTo 16 (s.msc + 16) else 0) } := by
  unfold sapPortCfgWrite
  dsimp only
  rw [sapTaken_of_disabled hold, if_pos (asks_of_enable_rises hold hv), if_pos hok, if_neg hst,
    State.reg_setGroup, State.reg_setReg_self, hv]
  rfl

/-- A refused ENABLE of a port stores 0 (R279). -/
theorem sapPortCfgWrite_of_refused (hold : bitOf (s.reg (pReg Reg.SAP_Pp_CFG p)) 0 = false) (hv : bitOf (v &&& 0xF) 0 = true)
    (hok : (s.setReg (pReg Reg.SAP_Pp_CFG p) (v &&& 0xF)).portOk p = false) (hst : (s.group (p / 4)).st ≠ .off) (hn : s.valid = false) :
    sapPortCfgWrite p v s =
      let s1 := ((s.setReg (pReg Reg.SAP_Pp_CFG p) (v &&& 0xF)).setReg (pReg Reg.SAP_Pp_CFG p) ((v &&& 0xF) &&& ~~~1#32)).sapRefuse (p / 4)
      s1.setPort p { s1.port p with wait := sapWait (s1.port p).acts (bitOf (s1.reg (pReg Reg.SAP_Pp_CFG p)) 0) 0 } := by
  unfold sapPortCfgWrite
  dsimp only
  rw [sapTaken_of_disabled hold, if_pos (asks_of_enable_rises hold hv), if_neg (ne_true_of_eq_false hok), if_neg hst,
    if_neg (ne_true_of_eq_false hn)]

end

/-! ### A waiting ENABLE acts (R292) -/

section
variable {s : State} {i at_ : Nat} {v : Bool}

theorem sapEnableAct_of_port (hw : (s.port i).wait = some (v, at_)) (hst : (s.group (i / 4)).st ≠ .off) (ht : s.streamTurn = true)
    (hd : s.portDue s.msc i = true) : sapEnableAct true i s = (s.portActs i v).modeDone := by
  unfold sapEnableAct
  rw [if_pos rfl, hw]
  dsimp only
  rw [if_neg hst, ht, hd]
  rfl

theorem sapEnableAct_of_group (hw : (s.group i).wait = some (v, at_)) (ht : s.streamTurn = true) (hd : s.groupDue s.msc i = true) :
    sapEnableAct false i s = (if v then s.startGroup s.msc i else s.stopGroup i).modeDone := by
  unfold sapEnableAct
  rw [if_neg Bool.false_ne_true, hw]
  dsimp only
  rw [ht, hd]
  rfl

end

/-! ### Mask pairs (R283, R284) -/

section
variable {s : State} {p : Nat} {mask : Word} {compact : Bool}

/-- A pair that obeys R283 is in force from the frame start; outside a follower no total of R281 stands against it. -/
theorem maskPairApply_of_ok (hp : (s.port p).pend = some (mask, compact)) (hf : (s.group (p / 4)).st.frames = true)
    (hm : maskOk (cfgSlots (s.gCfg (p / 4))) mask compact = true) (hl : cfgFollow (s.gCfg (p / 4)) = false) :
    maskPairApply p s =
      let s1 := s.setPort p { s.port p with
        mask := mask, compact := compact, pend := none, toggle := !(s.port p).toggle, maskMsc := s.resMsc }
      s1.setGroup (p / 4) { s1.group (p / 4) with cfgErr := false } := by
  unfold maskPairApply
  dsimp only
  rw [hp]
  dsimp only
  rw [hf, hm, hl]
  rfl

theorem maskPairApply_of_bad (hp : (s.port p).pend = some (mask, compact)) (hf : (s.group (p / 4)).st.frames = true)
    (hm : maskOk (cfgSlots (s.gCfg (p / 4))) mask compact = false) :
    maskPairApply p s = (s.setPort p { s.port p with pend := none }).sapRefuse (p / 4) := by
  unfold maskPairApply
  dsimp only
  rw [hp]
  dsimp only
  rw [hf, hm]
  rfl

end

/-! ### Bridge states and clock faults (R285–R288) -/

section
variable {s : State} {g : Nat} {ws : List SlotWord}

theorem groupLock_of_acquiring (h : (s.group g).st = .acquiring) (hv : s.valid = true) :
    groupLock g s = (s.setGroup g { s.group g with st := .locked, faults := 0, fadeIn := some (s.nextMul 128) }).evt Reg.SAP_EVT 5 := by
  unfold groupLock
  dsimp only
  rw [if_pos h, if_pos hv]

theorem rateStep_of_locked (h : (s.group g).st = .locked) : rateStep g s = s.relock g := if_pos h

/-- A bridge that plays, or is to fade in, fades out from two samples on. -/
theorem State.relock_of_fadeIn (h : (s.group g).fadeIn.isSome = true) :
    s.relock g = (s.setGroup g { s.group g with
      st := .acquiring, faults := 0, again := false, lostAt := some (s.msc + 2) }).both (gReg Reg.SAP_Gg_RELOCKS g) Reg.SAP_EVT 1 := by
  unfold State.relock
  dsimp only
  rw [if_pos h]

theorem bclkLoss_of_playing (h : (s.group g).st = .locked) (hf : (s.group g).fadeIn.isSome = true) :
    bclkLoss g s = (s.setGroup g { s.group g with lostAt := some (s.msc + 25), again := true, st := .lost, faults := 0 }).both
      (gReg Reg.SAP_Gg_LOSSES g) Reg.SAP_EVT 0 := by
  unfold bclkLoss
  dsimp only
  rw [if_pos (.inl h), if_pos ⟨h, hf⟩]

theorem bclkLoss_of_acquiring (h : (s.group g).st = .acquiring) :
    bclkLoss g s = (s.setGroup g { s.group g with st := .lost, faults := 0 }).both (gReg Reg.SAP_Gg_LOSSES g) Reg.SAP_EVT 0 := by
  have hnot : ¬((s.group g).st = .locked ∧ (s.group g).fadeIn.isSome = true) := fun hl => by simp [h] at hl
  unfold bclkLoss
  dsimp only
  rw [if_pos (.inr h), if_neg hnot]

theorem bclkReturn_of_lost (h : (s.group g).st = .lost) :
    bclkReturn g s = s.setGroup g { s.group g with st := .acquiring, faults := 0 } := if_pos h

/-! ### Frame starts (R286–R288) -/

theorem Group.relocks_of_no_faults {x : Group} (h : x.faults = 0) : x.relocks = false := by
  simp [Group.relocks, h]

theorem Group.relocks_of_locked {x : Group} (h : x.st = .locked) (hf : 1 ≤ x.faults) : x.relocks = true := by
  simp [Group.relocks, h, hf]

theorem frameStartEdge_of_running (h : (s.group g).st = .locked ∨ (s.group g).st = .acquiring) :
    frameStartEdge g ws s = (s.setGroup g { s.group g with faults := 0 }).bridgeFrame g ws false := if_pos h

/-- A single missing frame start is reconstructed and counted. -/
theorem fsyncMissing_of_first (h : (s.group g).st = .locked ∨ (s.group g).st = .acquiring) (hf : (s.group g).faults = 0) :
    fsyncMissing g ws s = ((s.setGroup g { s.group g with faults := 1 }).bridgeFrame g ws false).both
      (gReg Reg.SAP_Gg_FSYNC_FIXED g) Reg.SAP_EVT 2 := by
  unfold fsyncMissing
  dsimp only
  rw [if_pos h, Group.relocks_of_no_faults hf, hf]
  rfl

/-- DEDUCED (assumption 37): the second fault in a row is a RELOCK, and no frame start is counted as reconstructed. -/
theorem fsyncMissing_of_second (h : (s.group g).st = .locked) (hf : 1 ≤ (s.group g).faults) : fsyncMissing g ws s = s.relock g :=
  (if_pos (.inl h)).trans (if_pos (Group.relocks_of_locked h hf))

/-- A single glitch is counted, and the frame before it repeated. -/
theorem fsyncGlitch_of_first (h : (s.group g).st = .locked ∨ (s.group g).st = .acquiring) (hf : (s.group g).faults = 0) :
    fsyncGlitch g s = ((s.setGroup g { s.group g with faults := 1 }).bridgeFrame g [] true).both
      (gReg Reg.SAP_Gg_GLITCHES g) Reg.SAP_EVT 3 := by
  unfold fsyncGlitch
  dsimp only
  rw [if_pos h, Group.relocks_of_no_faults hf, hf]
  rfl

/-- The second fault in a row is a RELOCK, and a glitch counts also there. -/
theorem fsyncGlitch_of_second (h : (s.group g).st = .locked) (hf : 1 ≤ (s.group g).faults) :
    fsyncGlitch g s = (((s.setGroup g { s.group g with faults := (s.group g).faults + 1 }).bridgeFrame g [] true).both
      (gReg Reg.SAP_Gg_GLITCHES g) Reg.SAP_EVT 3).relock g :=
  (if_pos (.inl h)).trans (if_pos (Group.relocks_of_locked h hf))

end

/-! ### The statement of the family -/

/-- Settles O36, clause by clause: CFG writes are judged and wait, changes and mask pairs act, and bridges go through their states. -/
theorem serialCommandsAct : Obligations.SerialCommandsAct := by
  unfold Obligations.SerialCommandsAct
  refine ⟨fun g v => .of_barWrite (fun _ => rfl) fun s ⟨ha, hold, hv, hok, hl⟩ => ⟨ha, ?_⟩,
    fun g v => .of_barWrite (fun _ => rfl) fun s ⟨ha, hold, hv, hok, hl⟩ => ⟨ha, ?_⟩,
    fun g v => .of_barWrite (fun _ => rfl) fun s ⟨ha, hold, hv, hn, _⟩ => ⟨ha, sapGroupCfgWrite_of_disabling hold hv hn⟩,
    fun p v => .of_barWrite (fun _ => rfl) fun s ⟨ha, hold, hv, hok, hst⟩ => ⟨ha, sapPortCfgWrite_of_accepted hold hv hok hst⟩,
    fun p v => .of_barWrite (fun _ => rfl) fun s ⟨ha, hold, hv, hok, hst, hn⟩ => ⟨ha, sapPortCfgWrite_of_refused hold hv hok hst hn⟩,
    fun i v at_ => .of_watched (fun _ => rfl) fun s ⟨hw, hst, ht, hd⟩ => sapEnableAct_of_port hw hst ht hd,
    fun g v at_ => .of_watched (fun _ => rfl) fun s ⟨hw, ht, hd⟩ => sapEnableAct_of_group hw ht hd,
    fun p v => .of_barWrite (fun _ => rfl) fun s ha => ⟨ha, rfl⟩,
    fun p mask compact => .of (fun _ => rfl) fun s ⟨hp, hf, hm, hl⟩ => maskPairApply_of_ok hp hf hm hl,
    fun p mask compact => .of (fun _ => rfl) fun s ⟨hp, hf, hm⟩ => maskPairApply_of_bad hp hf hm,
    fun g => .of (fun _ => rfl) fun s ⟨h, hv⟩ => groupLock_of_acquiring h hv,
    fun g => .of (fun _ => rfl) fun s h => rateStep_of_locked h,
    fun s g h => State.relock_of_fadeIn h,
    fun g => .of (fun _ => rfl) fun s ⟨h, hf⟩ => bclkLoss_of_playing h hf,
    fun g => .of (fun _ => rfl) fun s h => bclkLoss_of_acquiring h,
    fun g => .of (fun _ => rfl) fun s h => bclkReturn_of_lost h,
    fun g ws => .of (fun _ => rfl) fun s h => frameStartEdge_of_running h,
    fun g ws => .of (fun _ => rfl) fun s ⟨h, hf⟩ => fsyncMissing_of_first h hf,
    fun g ws => .of (fun _ => rfl) fun s ⟨h, hf⟩ => fsyncMissing_of_second h hf,
    fun g => .of (fun _ => rfl) fun s ⟨h, hf⟩ => fsyncGlitch_of_first h hf,
    fun g => .of (fun _ => rfl) fun s ⟨h, hf⟩ => fsyncGlitch_of_second h hf⟩
  · exact sapGroupCfgWrite_of_accepted hold hv hok (Nat.lt_of_lt_of_eq g.isLt hl.symm)
  · exact sapGroupCfgWrite_cfgErr_of_refused hold hv hok (Nat.lt_of_lt_of_eq g.isLt hl.symm)

end Sys2Proof.Machine
end

section
/-!
PROOFS for the network family (R293–R308): links and their layers, the supported packet kinds, receive and transmit flows, the
position stream and the buses of the modules.
-/

namespace Sys2Proof.Machine

/-! ### Ports, packets and flows as they are read back -/

section
variable {s t : State} {n : Nat}

theorem Side.net (h : Side s t) : t.net = s.net := by
  obtain ⟨r, a, l, rfl⟩ := h
  rfl

@[simp] theorem State.tally_net (i : Nat) (d : LedDelta) : (s.tally i d).net = s.net := by
  unfold State.tally
  split <;> rfl

theorem State.netPort_setNetPort {k : NetPort} (h : n < s.net.ports.length) (j : Nat) :
    (s.setNetPort n k).netPort j = if n = j then k else s.netPort j := getD_set _ _ _ _ _ h

/-- A write of a port that keeps its link leaves every port as far up as it was. -/
theorem State.netUp_setNetPort {k : NetPort} (h : n < s.net.ports.length) (hk : k.link = (s.netPort n).link) (j : Nat) :
    (s.setNetPort n k).netUp j = s.netUp j := by
  unfold State.netUp
  rw [State.netPort_setNetPort h]
  split
  · next hj => rw [hk, hj]
  · rfl

@[simp] theorem State.netSend_nil : s.netSend [] = s := rfl

end

section
variable {c : FlowCfg}

/-- A flow without DUAL has one leg, on its own port (R301). -/
theorem FlowCfg.legs_of_single (hd : c.dual = false) : c.legs = [(Fin.ofNat 2 c.port, c.addrA, c.udpA, c.srcA)] :=
  if_neg (ne_true_of_eq_false hd)

/-- The leg is on a port that is up. -/
theorem State.legsUp_of_single {s : State} (hd : c.dual = false) (hup : s.netUp (Fin.ofNat 2 c.port).val = true) :
    c.legs.filter (fun l => s.netUp l.1.val) = [(Fin.ofNat 2 c.port, c.addrA, c.udpA, c.srcA)] := by
  rw [FlowCfg.legs_of_single hd]
  exact List.filter_cons_of_pos hup

end

/-! ### Links and their layers (R293, R294) -/

section
variable {s : State} {n : Nat} {link : NetLink}

/-- A link comes up on the layer that SPEED allows. -/
theorem netLinkChange_of_allowed (hne : (s.netPort n).link ≠ link) (hup : link ≠ .down)
    (he : bitOf (s.reg (netReg Reg.NET_Pn_CFG n)) 0 = true) (hl : link = s.netLayer n) :
    netLinkChange n link s = (s.setNetPort n { s.netPort n with link := link }).evt Reg.NET_EVT 0 := by
  unfold netLinkChange
  dsimp only
  rw [if_neg (by simp [hne, he, ← hl])]
  simp [hup]

theorem netLinkChange_of_barred (hup : link ≠ .down)
    (h : bitOf (s.reg (netReg Reg.NET_Pn_CFG n)) 0 = false ∨ link ≠ s.netLayer n) : netLinkChange n link s = s :=
  if_pos (.inr ⟨hup, h.imp_left ne_true_of_eq_false⟩)

/-- A link that goes down forgets the querier, and SPEED 2 begins anew with 10GBASE-R. -/
theorem netLinkChange_of_down (hne : (s.netPort n).link ≠ .down) :
    netLinkChange n .down s =
      (s.setNetPort n { s.netPort n with link := .down, v2 := false, tryLow := false, triedAt := s.samples }).evt Reg.NET_EVT 0 := by
  unfold netLinkChange
  dsimp only
  rw [if_neg (by simp [hne])]
  rfl

end

/-! ### Queries (R295) -/

section
variable {s : State} {n : Fin 2} {v2 : Bool}

theorem State.trsReports_of_disabled (h : bitOf (s.reg Reg.NET_TRS_CFG) 0 = false) : s.trsReports = [] :=
  if_neg (ne_true_of_eq_false h)

/-- The ports of a list of both that one of them alone passes. -/
theorem filter_ports_of_one {p : Fin 2 → Bool} (hn : p n = true) (ho : p (1 - n) = false) : [0, 1].filter p = [n] := by
  match n, hn, ho with
  | 0, hn, ho => exact (List.filter_cons_of_pos hn).trans (congrArg _ (List.filter_cons_of_neg (ne_true_of_eq_false ho)))
  | 1, hn, ho => exact (List.filter_cons_of_neg (ne_true_of_eq_false ho)).trans (List.filter_cons_of_pos hn)

/-- The stream reports its group on the one port that is up. -/
theorem State.trsReports_of_one (he : bitOf (s.reg Reg.NET_TRS_CFG) 0 = true) (hp : bitOf (s.reg Reg.NET_TRS_CFG) (1 + n.val) = true)
    (hn : s.netUp n.val = true) (ho : s.netUp (1 - n).val = false) :
    s.trsReports = [.igmpReport n (s.netPort n.val).v2 (s.reg Reg.NET_TRS_GROUP) [] 0] := by
  unfold State.trsReports
  dsimp only
  rw [if_pos he, filter_ports_of_one (n := n) (by rw [hp, hn]; rfl) (by rw [ho, Bool.and_false])]
  rfl

/-- The reports depend on two registers and the ports. -/
theorem State.trsReports_congr {t : State} (hc : t.reg Reg.NET_TRS_CFG = s.reg Reg.NET_TRS_CFG)
    (hg : t.reg Reg.NET_TRS_GROUP = s.reg Reg.NET_TRS_GROUP) (hp : t.net.ports = s.net.ports) : t.trsReports = s.trsReports := by
  unfold State.trsReports State.netUp State.netPort
  rw [hc, hg, hp]

theorem State.reports_of_single {c : FlowCfg} (hd : c.dual = false) (hup : s.netUp (Fin.ofNat 2 c.port).val = true) :
    s.reports c = [igmpReport (s.netPort (Fin.ofNat 2 c.port).val).v2 c (Fin.ofNat 2 c.port, c.addrA, c.udpA, c.srcA)] := by
  unfold State.reports
  rw [State.legsUp_of_single hd hup]
  rfl

/-- A port with a query heard: the querier's version stays (R295). -/
def State.queried (s : State) (n : Fin 2) (v2 : Bool) : State :=
  s.setNetPort n.val { s.netPort n.val with v2 := (s.netPort n.val).v2 || v2 }

theorem State.netUp_queried (hl : s.net.ports.length = 2) (j : Nat) : (s.queried n v2).netUp j = s.netUp j :=
  State.netUp_setNetPort (Nat.lt_of_lt_of_eq n.isLt hl.symm) (by rfl) j

theorem State.v2_queried (hl : s.net.ports.length = 2) :
    ((s.queried n v2).netPort n.val).v2 = ((s.netPort n.val).v2 || v2) := by
  unfold State.queried
  rw [State.netPort_setNetPort (Nat.lt_of_lt_of_eq n.isLt hl.symm), if_pos rfl]

/-- A packet is a membership report on the port. -/
def NetOut.reportOn (n : Fin 2) : NetOut → Bool
  | .igmpReport p _ _ _ _ => p == n
  | _ => false

/-- A query is answered by those reports of the flows and of the stream that are on its port. -/
theorem igmpQuery_of_up (hn : s.netUp n.val = true) :
    igmpQuery n v2 s = (s.queried n v2).netSend (((s.net.rx.map (fun f => (s.queried n v2).reports f.2.cfg)).flatten ++
      (s.queried n v2).trsReports).filter (NetOut.reportOn n)) := by
  unfold igmpQuery
  rw [if_pos hn]
  rfl

/-- A report on the port passes the filter and is sent. -/
theorem State.netSend_filter_report {t : State} (g : Word) (src : List Word) (vlan : Nat) :
    (t.netSend ([.igmpReport n v2 g src vlan].filter (NetOut.reportOn n))).net.sent = .igmpReport n v2 g src vlan :: t.net.sent := by
  rw [List.filter_cons_of_pos (by simp [NetOut.reportOn])]
  rfl

/-- With no membership nothing is reported. -/
theorem igmpQuery_of_none (hn : s.netUp n.val = true) (hr : s.net.rx = []) (he : bitOf (s.reg Reg.NET_TRS_CFG) 0 = false) :
    igmpQuery n v2 s = s.queried n v2 := by
  rw [igmpQuery_of_up hn, hr, State.trsReports_of_disabled (s := s.queried _ v2) he]
  rfl

/-- A query is answered by the report of the one flow. -/
theorem igmpQuery_sent_of_flow {i : Nat} {f : Flow} (hn : s.netUp n.val = true) (hr : s.net.rx = [(i, f)]) (hd : f.cfg.dual = false)
    (hp : Fin.ofNat 2 f.cfg.port = n) (hl : s.net.ports.length = 2) (he : bitOf (s.reg Reg.NET_TRS_CFG) 0 = false) :
    (igmpQuery n v2 s).net.sent = igmpReport ((s.netPort n.val).v2 || v2) f.cfg (n, f.cfg.addrA, f.cfg.udpA, f.cfg.srcA) :: s.net.sent := by
  subst hp
  rw [igmpQuery_of_up hn, hr, State.trsReports_of_disabled (s := s.queried _ v2) he, List.map_singleton,
    State.reports_of_single (s := s.queried _ v2) hd ((State.netUp_queried hl _).trans hn), State.v2_queried hl]
  exact State.netSend_filter_report _ _ _

/-- A query is answered by the report of the stream's group. -/
theorem igmpQuery_sent_of_stream (hn : s.netUp n.val = true) (hr : s.net.rx = []) (ho : s.netUp (1 - n).val = false)
    (he : bitOf (s.reg Reg.NET_TRS_CFG) 0 = true) (hb : bitOf (s.reg Reg.NET_TRS_CFG) (1 + n.val) = true) (hl : s.net.ports.length = 2) :
    (igmpQuery n v2 s).net.sent = .igmpReport n ((s.netPort n.val).v2 || v2) (s.reg Reg.NET_TRS_GROUP) [] 0 :: s.net.sent := by
  rw [igmpQuery_of_up hn, hr,
    State.trsReports_of_one (s := s.queried n v2) he hb ((State.netUp_queried hl _).trans hn) ((State.netUp_queried hl _).trans ho),
    State.v2_queried hl]
  exact State.netSend_filter_report _ _ _

end

/-! ### Receive flows (R299, R300) -/

section
variable {s : State} {n : Fin 2} {p : RtpPacket} {i : Nat} {f : Flow}

/-- A packet goes to the flow that it matches. -/
theorem rtpPacket_of_match (hn : s.netUp n.val = true) (hf : s.net.rx.find? (fun f => f.2.cfg.matches n p) = some (i, f))
    (ht : s.rxTakes i = true) : rtpPacket n p s = s.rtpFlow i f n p := by
  unfold rtpPacket
  rw [if_pos hn, hf]
  exact if_pos ht

theorem State.rtpFlow_of_malformed (h : f.cfg.malformed p = true) :
    s.rtpFlow i f n p = ((s.setRx i (f.gain 4)).fxs ((f.gain 4).sats [4])).evt Reg.NET_EVT 3 := if_pos h

/-- A second copy of a time-stamp counts DUP and marks its leg. DESIGN CHOICE (assumption 64): also in a flow without DUAL. -/
theorem State.rtpFlow_of_copy (h : f.cfg.malformed p = false) (hs : f.seen.any (fun x => x.stamp == p.stamp) = true) :
    ∃ g : Flow, s.rtpFlow i f n p = (s.setRx i g).fxs (g.sats [2]) ∧ g.buf = f.buf ∧ g.n = (f.gain 2).n := by
  unfold State.rtpFlow
  rw [if_neg (ne_true_of_eq_false h)]
  dsimp only
  rw [if_pos hs]
  exact ⟨_, rfl, rfl, rfl⟩

/-- A new time-stamp is decided sample by sample, and changes nothing where no sample of it counts. -/
theorem State.rtpFlow_of_new (h : f.cfg.malformed p = false) (hs : f.seen.any (fun x => x.stamp == p.stamp) = false) :
    s.rtpFlow i f n p = if (s.rtpRows i f p (s.rtpIndex f.cfg p.stamp)).isEmpty then s
      else
        s.rtpTake i
          { f with seen := ⟨p.stamp, n == 0, n != 0, (s.rtpIndex f.cfg p.stamp).toNat⟩ :: f.recent s.msc }
          (s.rtpRows i f p (s.rtpIndex f.cfg p.stamp)) := by
  unfold State.rtpFlow
  rw [if_neg (ne_true_of_eq_false h)]
  dsimp only
  rw [if_neg (ne_true_of_eq_false hs)]
  match n with
  | 0 => rfl
  | 1 => rfl

end

/-! ### Transmit flows (R298) -/

/-- The packet whose last sample has been emitted leaves on the flow's one port, which is up. -/
theorem rtpPacketSend_sent_of_single {s : State} {i k0 : Nat} {f : Flow} {row : List Int} {rest : List (Nat × List Int)}
    (hf : tget s.net.tx i = some f) (hb : f.buf = (k0, row) :: rest) (hv : s.valid = true) (hk : (k0 - f.from_) % f.cfg.pkt = 0)
    (hm : k0 + f.cfg.pkt ≤ s.msc) (hd : f.cfg.dual = false) (hup : s.netUp (Fin.ofNat 2 f.cfg.port).val = true) :
    (rtpPacketSend i s).net.sent = .rtp (Fin.ofNat 2 f.cfg.port) f.cfg.addrA f.cfg.udpA f.cfg.ssrc f.cfg.ptype f.seq
        (word (k0 + 2 + s.clock.media.origin + f.cfg.rtpOff)) f.cfg.dscp (f.cfg.vid (Fin.ofNat 2 f.cfg.port))
        (rtpPayload (flowWidth f.cfg) ((f.buf.take f.cfg.pkt).map Prod.snd)) :: s.net.sent := by
  unfold rtpPacketSend
  rw [hf]
  dsimp only
  rw [hb]
  dsimp only
  rw [if_pos ⟨hv, hk, hm⟩, State.legsUp_of_single hd hup]
  unfold State.netSend
  dsimp only
  rw [State.tally_net, (State.fxs_side _ _).net]
  rfl

/-! ### The position stream (R305–R307, R421) -/

/-- The stream takes packets on a port that is up while the pipeline runs. -/
def State.hearsTrosyn (s : State) (n : Fin 2) : Prop :=
  bitOf (s.reg Reg.NET_TRS_CFG) 0 ∧ bitOf (s.reg Reg.NET_TRS_CFG) (1 + n.val) ∧ s.netUp n.val ∧ s.runs

section
variable {s : State} {n : Fin 2} {b : List Byte} {x : List PosUpdate × List (Nat × Nat × Bell)} {l : Nat}

theorem State.hearsTrosyn.guard (h : s.hearsTrosyn n) :
    ¬¬(bitOf (s.reg Reg.NET_TRS_CFG) 0 && bitOf (s.reg Reg.NET_TRS_CFG) (1 + n.val) && s.netUp n.val && s.runs) = true := by
  obtain ⟨he, hb, hn, hr⟩ := h
  simp [he, hb, hn, hr]

theorem trosynData_of_frozen (h : s.hearsTrosyn n) (hd : imgNat (listByte b) 5 1 ≠ 1) (hz : s.pwr.freeze = true) :
    trosynData n b s = s.count Reg.PWR_FROZEN_UPDATES 1 := by
  unfold trosynData
  dsimp only
  rw [if_neg h.guard, if_neg fun hh => hd hh.1, if_pos hz]

theorem trosynData_of_bad (h : s.hearsTrosyn n) (hd : imgNat (listByte b) 5 1 ≠ 1) (hz : s.pwr.freeze = false)
    (hbad : s.trsHeader b = false ∨
      trsRecords (imgNat (listByte b) 4 1) (imgNat (listByte b) 24 2) (listByte b) = none) : trosynData n b s = s.trsBad := by
  unfold trosynData
  dsimp only
  rw [if_neg h.guard, if_neg fun hh => hd hh.1, if_neg (ne_true_of_eq_false hz)]
  cases hh : s.trsHeader b with
  | false => rfl
  | true =>
    rw [hbad.resolve_left (by simp [hh])]
    rfl

/-- A valid packet of a stream on one port is judged by its SEQ against the last one accepted (R307), and 64 SEQs that were judged
are remembered: DEDUCED (assumption 40). -/
theorem trosynData_judged (h : s.hearsTrosyn n) (hd : imgNat (listByte b) 5 1 ≠ 1) (hz : s.pwr.freeze = false)
    (hh : s.trsHeader b = true) (hr : trsRecords (imgNat (listByte b) 4 1) (imgNat (listByte b) 24 2) (listByte b) = some x)
    (h3 : fieldOf (s.reg Reg.NET_TRS_CFG) 1 2 ≠ 3) (hl : s.net.trs.last = some l) :
    trosynData n b s =
      if (!seqLater (imgNat (listByte b) 12 4) l && decide (s.net.trs.old < 7)) = true then
        (s.setTrs { s.net.trs with heard := ((imgNat (listByte b) 12 4, n) :: s.net.trs.heard).take 64, old := s.net.trs.old + 1 }).count
          Reg.NET_TRS_OLD 1
      else
        (s.setTrs { s.net.trs with
          heard := ((imgNat (listByte b) 12 4, n) :: s.net.trs.heard).take 64, last := some (imgNat (listByte b) 12 4), old := 0,
          ver := imgNat (listByte b) 4 1, lastAt := s.samples }).trsApply
            (imgNat (listByte b) 4 1) (imgNat (listByte b) 16 8) x.1 x.2 := by
  obtain ⟨ups, cues⟩ := x
  unfold trosynData
  dsimp only
  rw [if_neg h.guard, if_neg fun hh => hd hh.1, if_neg (ne_true_of_eq_false hz), hh, Bool.not_true,
    if_neg Bool.false_ne_true, hr, hl]
  dsimp only
  rw [if_neg fun hc => h3 hc.1]

end

section
variable {s : State}

theorem trosynHelloDue_of_first (he : bitOf (s.reg Reg.NET_TRS_CFG) 0 = true) (hn : s.net.trs.helloAt = none) :
    trosynHelloDue s = (s.setTrs { s.net.trs with helloAt := some s.samples }).netSend
      (([0, 1].filter (fun p : Fin 2 => bitOf (s.reg Reg.NET_TRS_CFG) (1 + p.val) && s.netUp p.val)).map (fun p =>
        NetOut.trosynHello p (s.reg Reg.NET_TRS_REPLY) (fieldOf (s.reg Reg.NET_TRS_REPLY_PORT) 0 16) s.trsVersions.1 s.trsVersions.2)) := by
  refine if_pos ⟨he, ?_⟩
  rw [hn]
  rfl

/-- A write of the stream's identity begins no membership: it reports nothing, and the last SEQ is forgotten. -/
theorem netTrsCfgWrite_of_id (v : Word) : netTrsCfgWrite Reg.NET_TRS_ID v s = (s.setReg Reg.NET_TRS_ID v).trsForget := by
  have hreg {off : Nat} (ho : Reg.NET_TRS_ID ≠ off) : ((s.setReg Reg.NET_TRS_ID v).trsForget).reg off = s.reg off :=
    (State.reg_setReg s _ v off).trans (if_neg ho)
  have hsame : ((s.setReg Reg.NET_TRS_ID v).trsForget).trsReports = s.trsReports :=
    State.trsReports_congr (hreg (by decide)) (hreg (by decide)) rfl
  unfold netTrsCfgWrite
  rw [if_pos (.inr (.inr rfl)), if_neg (by decide)]
  dsimp only
  rw [hsame, List.filter_eq_nil_iff.mpr fun o ho => by simp [ho], State.netSend_nil]

end

/-! ### Modules (R293) -/

section
variable {s : State} {k : Nat}

theorem moduleI2cGo_of_go {v : Word} (hb : bitOf (s.reg (moduleReg k)) 25 = false) (hv : bitOf v 24 = true) :
    moduleI2cGo k v s = s.setReg (moduleReg k) ((v &&& 0x00FFFFFF#32) ||| 0x02000000#32) :=
  (if_neg (ne_true_of_eq_false hb)).trans (if_pos hv)

/-- A read ends with its byte. -/
theorem moduleI2cDone_of_read {d : Byte} (hb : bitOf (s.reg (moduleReg k)) 25 = true) (hr : bitOf (s.reg (moduleReg k)) 23 = true) :
    moduleI2cDone k d false s = s.setReg (moduleReg k) ((s.reg (moduleReg k) &&& 0x00FFFF00#32) ||| word d.toNat) := by
  unfold moduleI2cDone
  dsimp only
  rw [if_pos hb, hr]
  rfl

theorem moduleI2cDone_of_nack {d : Byte} (hb : bitOf (s.reg (moduleReg k)) 25 = true) :
    moduleI2cDone k d true s = s.setReg (moduleReg k) ((s.reg (moduleReg k) &&& 0x00FFFFFF#32) ||| 0x04000000#32) := by
  unfold moduleI2cDone
  dsimp only
  rw [if_pos hb, Bool.not_true, Bool.and_false]
  rfl

/-- A module plugged into a chain port that is not enabled trains no link. -/
theorem modulePresenceChange_of_idle (h2 : 2 ≤ k)
    (he : (s.setNtkPort (k - 2) { s.ntkPort (k - 2) with module := true }).ntkEnabled (k - 2) = false) :
    modulePresenceChange k true s = s.setNtkPort (k - 2) { s.ntkPort (k - 2) with module := true } := by
  unfold modulePresenceChange
  rw [if_neg (Nat.not_lt.mpr h2)]
  dsimp only
  rw [he]
  rfl

end

/-! ### The statement of the family -/

/-- Settles O37, clause by clause: links, packets, flows, the position stream and the modules act. -/
theorem networkEventsAct : Obligations.NetworkEventsAct := by
  unfold Obligations.NetworkEventsAct
  exact ⟨fun n link => .of (fun _ => rfl) fun s ⟨hne, hup, he, hl⟩ => netLinkChange_of_allowed hne hup he hl,
    fun n link => .of (fun _ => rfl) fun s ⟨hup, h⟩ => netLinkChange_of_barred hup h,
    fun n => .of (fun _ => rfl) fun s h => netLinkChange_of_down h,
    fun n => .of (fun _ => rfl) fun s h => if_pos h,
    fun n ip who => .of (fun _ => rfl) fun s h => if_pos h,
    fun n ip who => .of (fun _ => rfl) fun s h => if_neg (ne_true_of_eq_false h),
    fun n ip who x => .of (fun _ => rfl) fun s h => if_pos h,
    fun n ip who x => .of (fun _ => rfl) fun s h => if_neg (ne_true_of_eq_false h),
    fun n v2 => .of (fun _ => rfl) fun s ⟨hn, hr, he⟩ => igmpQuery_of_none hn hr he,
    fun n v2 i f => .of (fun _ => rfl) fun s ⟨hn, hr, hd, hp, hl, he⟩ => igmpQuery_sent_of_flow hn hr hd hp hl he,
    fun n v2 => .of (fun _ => rfl) fun s ⟨hn, hr, ho, he, hb, hl⟩ => igmpQuery_sent_of_stream hn hr ho he hb hl,
    fun n => .of (fun _ => rfl) fun s h => if_pos h,
    fun n p i f => .of (fun _ => rfl) fun s ⟨hn, hf, ht, hm⟩ => (rtpPacket_of_match hn hf ht).trans (State.rtpFlow_of_malformed hm),
    fun n p i f => .of (fun _ => rfl) fun s ⟨hn, hf, ht, hm, hs⟩ => (rtpPacket_of_match hn hf ht).symm ▸ State.rtpFlow_of_copy hm hs,
    fun n p i f => .of (fun _ => rfl) fun s ⟨hn, hf, ht, hm, hs, hr⟩ =>
      ((rtpPacket_of_match hn hf ht).trans (State.rtpFlow_of_new hm hs)).trans (if_neg (mt List.isEmpty_iff.mp hr)),
    fun n p i f => .of (fun _ => rfl) fun s ⟨hn, hf, ht, hm, hs, hr⟩ =>
      ((rtpPacket_of_match hn hf ht).trans (State.rtpFlow_of_new hm hs)).trans (if_pos (List.isEmpty_iff.mpr hr)),
    fun i f k0 row rest => .of (fun _ => rfl) fun s ⟨hf, hb, hv, hk, hm, hd, hup⟩ =>
      rtpPacketSend_sent_of_single hf hb hv hk hm hd hup,
    ⟨fun n b => .of (fun _ => rfl) fun s ⟨h, hd, hz⟩ => trosynData_of_frozen h hd hz,
      fun n b => .of (fun _ => rfl) fun s ⟨h, hd, hz, hbad⟩ => trosynData_of_bad h hd hz hbad,
      fun n b x l => .of (fun _ => rfl) fun s ⟨h, hd, hz, hh, hr, h3, hl, hlater, hold⟩ =>
        (trosynData_judged h hd hz hh hr h3 hl).trans (if_pos (by simp [hlater, hold])),
      fun n b x l => .of (fun _ => rfl) fun s ⟨h, hd, hz, hh, hr, h3, hl, hlater⟩ =>
        (trosynData_judged h hd hz hh hr h3 hl).trans (if_neg (by simp [hlater]))⟩,
    .of (fun _ => rfl) fun s ⟨he, hn⟩ => trosynHelloDue_of_first he hn,
    .of (fun _ => rfl) fun s h => if_pos h,
    fun v => .of_barWrite (fun _ => rfl) fun s ha => ⟨ha, netTrsCfgWrite_of_id v⟩,
    fun k v => .of_barWrite (fun _ => rfl) fun s ⟨ha, hb, hv⟩ => ⟨ha, moduleI2cGo_of_go hb hv⟩,
    fun k d => .of (fun _ => rfl) fun s ⟨hb, hr⟩ => moduleI2cDone_of_read hb hr,
    fun k d => .of (fun _ => rfl) fun s hb => moduleI2cDone_of_nack hb,
    fun k b => .of (fun _ => rfl) fun s h => if_pos h,
    fun k => .of (fun _ => rfl) fun s ⟨h2, he⟩ => modulePresenceChange_of_idle h2 he,
    fun k => .of (fun _ => rfl) fun s h2 => if_neg (Nat.not_lt.mpr h2)⟩

end Sys2Proof.Machine
end

section
/-!
PROOFS for the host-queue and register family (R8, R340–R365, R387, R395, R430, R441): how a host command waits or is refused, what
the queue-0 commands do, how doorbells, queues, completions, interrupts, the watchdog and the link act, what reset leaves, and what
memories and events read back.
-/

namespace Sys2Proof.Machine

/-! ### How a host command waits or is refused (R346, R347, R350) -/

section
variable {op : Byte} {e : Submission} {k : CmdRef → State → State} {s s1 : State} {c : CmdRef}

theorem hostCommand_of_no_turn (h : s.admitEntry op e = none) : hostCommand op e k s = s := by
  unfold hostCommand
  rw [h]

theorem hostCommand_of_fenced (h : s.admitEntry op e = some (c, s1)) (hf : s1.fenced e.queue.val e.flags c.order = true) :
    hostCommand op e k s = s := by
  unfold hostCommand
  rw [h]
  exact if_pos hf

theorem hostCommand_of_failed {st : Byte} (h : s.admitEntry op e = some (c, s1))
    (hf : s1.fenced e.queue.val e.flags c.order = false) (hc : s1.entryCheck c e.flags e.epoch = some st) :
    hostCommand op e k s = (s1.refuseEntry c e.index st).settle e.queue.val := by
  unfold hostCommand
  rw [h]
  dsimp only
  rw [if_neg (ne_true_of_eq_false hf), hc]

theorem State.refuseEntry_of_dup {i : Nat} {st : Byte} (h : s.dupTag c = true) :
    s.refuseEntry c i st = (s.both Reg.HQ_DUP_TAGS Reg.HQ_EVT 3).complete c st (2 ^ 63 + i % 4096) := if_pos h

theorem State.refuseEntry_of_single {i : Nat} {st : Byte} (h : s.dupTag c = false) : s.refuseEntry c i st = s.complete c st 0 :=
  if_neg (ne_true_of_eq_false h)

variable {flags : Byte} {epoch : Word}

theorem State.entryCheck_of_dup (h : s.dupTag c = true) : s.entryCheck c flags epoch = some stBadParam := if_pos h

theorem State.entryCheck_of_unknown (hd : s.dupTag c = false) (hk : ¬knownOpcodes.contains c.opcode.toNat) :
    s.entryCheck c flags epoch = some stBadOpcode := by
  unfold State.entryCheck
  rw [if_neg (ne_true_of_eq_false hd), if_pos (by simpa using hk)]

theorem State.entryCheck_of_admin (hd : s.dupTag c = false) (hk : knownOpcodes.contains c.opcode.toNat)
    (ha : adminOpcodes.contains c.opcode.toNat ∧ c.queue ≠ 0) : s.entryCheck c flags epoch = some stBadOpcode := by
  unfold State.entryCheck
  rw [if_neg (ne_true_of_eq_false hd), hk, if_neg (by decide), if_pos ha]

theorem State.entryCheck_of_reserved_flag (hd : s.dupTag c = false) (hk : knownOpcodes.contains c.opcode.toNat)
    (ha : ¬(adminOpcodes.contains c.opcode.toNat ∧ c.queue ≠ 0)) (hf : 4 ≤ flags.toNat) :
    s.entryCheck c flags epoch = some stBadParam := by
  unfold State.entryCheck
  rw [if_neg (ne_true_of_eq_false hd), hk, if_neg (by decide), if_neg ha, if_pos hf]

theorem State.entryCheck_of_version (hd : s.dupTag c = false) (hk : knownOpcodes.contains c.opcode.toNat)
    (ha : ¬(adminOpcodes.contains c.opcode.toNat ∧ c.queue ≠ 0)) (hf : flags.toNat < 4) (hv : bitOf flags 0 ∧ s.host.version = 1) :
    s.entryCheck c flags epoch = some stBadVersion := by
  unfold State.entryCheck
  rw [if_neg (ne_true_of_eq_false hd), hk, if_neg (by decide), if_neg ha, if_neg (Nat.not_le.mpr hf), if_pos hv]

theorem State.entryCheck_of_epoch (hd : s.dupTag c = false) (hk : knownOpcodes.contains c.opcode.toNat)
    (ha : ¬(adminOpcodes.contains c.opcode.toNat ∧ c.queue ≠ 0)) (hf : flags.toNat < 4) (hv : ¬(bitOf flags 0 ∧ s.host.version = 1))
    (he : epoch ≠ 0) (hn : ¬epochOpcodes.contains c.opcode.toNat) : s.entryCheck c flags epoch = some stBadParam := by
  unfold State.entryCheck
  rw [if_neg (ne_true_of_eq_false hd), hk, if_neg (by decide), if_neg ha, if_neg (Nat.not_le.mpr hf), if_neg hv,
    if_pos ⟨he, by simpa using hn⟩]

end

/-! ### Commands on a block boundary (R36, R43, R356, R358) -/

section
variable {c : CmdRef} {e : Submission} {s : State}

theorem State.mulFor_of_ahead {k p : Nat} (h : s.msc < upTo k p) : s.mulFor k p = (upTo k p, false) := if_pos h

theorem State.mulFor_of_passed {k p : Nat} (h : upTo k p ≤ s.msc) : s.mulFor k p = (s.nextMul k, true) :=
  if_neg (Nat.not_lt.mpr h)

theorem nopAct_now (hz : subZero e 24 40 = true) (hp : e.present = 0) : nopAct e c s = s.complete c stOk (sub e 16 8) := by
  unfold nopAct
  rw [guardCmd_false (by rw [hz]; rfl), if_pos hp]

theorem nopAct_waits {at_ : Nat} {adj : Bool} (hz : subZero e 24 40 = true) (hp : e.present ≠ 0) (hv : s.valid = true)
    (hm : s.mulFor 16 (s.mscOf e.present) = (at_, adj)) : nopAct e c s = s.addTimed c at_ adj .nop := by
  unfold nopAct
  rw [guardCmd_false (by rw [hz]; rfl), if_neg hp, guardCmd_false (by rw [hv]; rfl), hm]

theorem atBoundary_of_invalid {a : TimedAct} (hv : s.valid = false) : atBoundary e c a s = s.complete c stModeRefused 0 :=
  guardCmd_true (by rw [hv]; rfl)

/-- With no presentation MSC the boundary is the first after the command was fetched. -/
theorem atBoundary_of_first {a : TimedAct} (hv : s.valid = true) (hp : e.present = 0) (hm : s.msc < upTo 16 (c.fetched + 1)) :
    atBoundary e c a s = s.addTimed c (upTo 16 (c.fetched + 1)) false a := by
  unfold atBoundary
  rw [guardCmd_false (by rw [hv]; rfl)]
  unfold State.snapAt
  rw [hp, if_pos (show s.mscOf 0 = 0 from rfl), State.mulFor_of_ahead hm]

theorem atBoundary_of_present {a : TimedAct} (hv : s.valid = true) (hp : e.present ≠ 0) (hm : s.msc < upTo 16 (s.mscOf e.present)) :
    atBoundary e c a s = s.addTimed c (upTo 16 (s.mscOf e.present)) false a := by
  unfold atBoundary
  rw [guardCmd_false (by rw [hv]; rfl)]
  unfold State.snapAt
  rw [if_neg (State.mscOf_ne hp), State.mulFor_of_ahead hm]

theorem ledgerSnapshot_of_valid (ha : sub e 16 8 % 64 = 0) (hl : 52432 ≤ sub e 24 4) (hz : subZero e 28 36 = true) :
    ledgerSnapshot e c s = atBoundary e c (.ledgerSnapshot (BitVec.ofNat 64 (sub e 16 8))) s :=
  guardCmd_false (by simp [ha, hl, hz])

theorem statsSnapshot_of_valid (ha : sub e 16 8 % 64 = 0) (hl : 2728 ≤ sub e 24 4) (hz : subZero e 28 36 = true) :
    statsSnapshot e c s = atBoundary e c (.statsSnapshot (BitVec.ofNat 64 (sub e 16 8))) s := by
  unfold statsSnapshot
  rw [guardCmd_false (by simp [ha, hz])]
  exact if_neg (Nat.not_lt.mpr hl)

theorem creditAudit_of_valid (hz : subZero e 16 48 = true) : creditAudit e c s = atBoundary e c .creditAudit s :=
  guardCmd_false (by rw [hz]; rfl)

/-! ### VERSION_SET and WATCHDOG_KICK (R354, R364) -/

theorem versionSet_of_alone (hlo : 1 ≤ sub e 16 1) (hle : sub e 16 1 ≤ sub e 17 1) (hhi : sub e 17 1 ≤ 2)
    (hz : subZero e 18 46 = true) (hq : ∀ q ∈ List.range 16, q ≠ 0 → (s.queue q).st = .disabled) (hf : s.host.freeSlots = 511) :
    versionSet e c s = { s.complete c stOk (sub e 17 1) with
      host := { (s.complete c stOk (sub e 17 1)).host with version := sub e 17 1 } } := by
  have hothers : (List.range 16).any (fun q => decide (q ≠ 0 ∧ (s.queue q).st ≠ .disabled)) = false :=
    List.any_eq_false.mpr fun q hmem h => (of_decide_eq_true h).2 (hq q hmem (of_decide_eq_true h).1)
  have hlo2 : ¬2 < sub e 16 1 := by omega
  have hhi1 : ¬sub e 17 1 < 1 := by omega
  unfold versionSet
  dsimp only
  rw [guardCmd_false]
  rw [hothers, hz]
  simp [Nat.not_lt.mpr hlo, hlo2, hhi1, Nat.not_lt.mpr hhi, Nat.not_lt.mpr hle, hf]

theorem wdogRestart_eq (s : State) : wdogRestart s =
    if bitOf (s.reg Reg.HQ_WDOG_CFG) 0 ∧ (s.pwr.mode = Mode.show_ ∨ s.pwr.mode = Mode.service) then
      { s with host := { s.host with wdogRun := true, wdogLeft := 96 * clampN 10 60000 (fieldOf (s.reg Reg.HQ_WDOG_CFG) 16 16) } }
    else { s with host := { s.host with wdogRun := false, wdogLeft := 0 } } := by
  unfold wdogRestart State.wdogMode State.wdogTimeout
  simp only [Bool.or_eq_true, beq_iff_eq]

theorem watchdogKick_now (hz : subZero e 24 40 = true) (hp : e.present = 0) :
    watchdogKick e c s = (wdogRestart s).complete c stOk (sub e 16 8) := guardCmd_false (by simp [hz, hp])

theorem watchdogKick_of_present (hp : e.present ≠ 0) : watchdogKick e c s = s.complete c stBadParam 0 := guardCmd_true (by simpa using .inr hp)

end

/-! ### Doorbells and the states of a queue (R343–R346) -/

section
variable {s : State} {q : Fin 16} {v : Word}

theorem Queue.rings_of_live {a : Queue} (h : a.st = .running ∨ a.st = .draining) : a.rings = true := by
  unfold Queue.rings
  obtain h | h := h <;> rw [h] <;> rfl

theorem Queue.rings_of_stopped {a : Queue} (h : a.st = .disabled ∨ a.st = .error) : a.rings = false := by
  unfold Queue.rings
  obtain h | h := h <;> rw [h] <;> rfl

theorem sqTail_of_live (h : (s.queue q.val).st = .running ∨ (s.queue q.val).st = .draining) : sqTail q v s =
    if v.toNat < 2 ^ (s.queue q.val).size then s.setQueue q.val { s.queue q.val with tailBell := v, sqTail := v.toNat }
    else (s.setQueue q.val { s.queue q.val with tailBell := v }).both Reg.HQ_DB_ERRS Reg.HQ_EVT 1 :=
  if_pos (Queue.rings_of_live (a := { s.queue q.val with tailBell := v }) h)

theorem sqTail_of_stopped (h : (s.queue q.val).st = .disabled ∨ (s.queue q.val).st = .error) :
    sqTail q v s = s.setQueue q.val { s.queue q.val with tailBell := v } :=
  if_neg (ne_true_of_eq_false (Queue.rings_of_stopped (a := { s.queue q.val with tailBell := v }) h))

theorem cqHead_of_live (h : (s.queue q.val).st = .running ∨ (s.queue q.val).st = .draining) : cqHead q v s =
    if v.toNat < 2 ^ (s.queue q.val).size ∧
        ringDist (2 ^ (s.queue q.val).size) (s.queue q.val).cqHead v.toNat ≤
          ringDist (2 ^ (s.queue q.val).size) (s.queue q.val).cqHead (s.queue q.val).cqTail then
      s.setQueue q.val { s.queue q.val with
        headBell := v, cqHead := v.toNat,
        credit := (s.queue q.val).credit + ringDist (2 ^ (s.queue q.val).size) (s.queue q.val).cqHead v.toNat }
    else (s.setQueue q.val { s.queue q.val with headBell := v }).both Reg.HQ_DB_ERRS Reg.HQ_EVT 1 :=
  if_pos (Queue.rings_of_live (a := { s.queue q.val with headBell := v }) h)

theorem Queue.config_of_same {a : Queue} {prio size : Nat} (hp : prio = a.prio) (hs : size = a.size) : a.config prio size = a :=
  if_pos ⟨hp, hs⟩

/-- A CTL write that keeps SIZE and PRIO of a queue other than 0 turns it on or off (R344). -/
theorem writeQueueCtl_of_same (h0 : q ≠ 0) (hp : fieldOf v 1 2 = (s.queue q.val).prio) (hs : fieldOf v 4 4 = (s.queue q.val).size) :
    writeQueueCtl q v s = s.setQueue q.val
      (if bitOf v 0 then (if (s.queue q.val).st = .disabled then (s.queue q.val).turnOn else s.queue q.val) else (s.queue q.val).turnOff) := by
  unfold writeQueueCtl
  rw [Queue.config_of_same hp hs]
  dsimp only
  rw [if_neg fun h => h0 h.1, if_neg (c := (_ || _) = true) (by simp [hp, hs])]

theorem Queue.turnOn_of_aligned {a : Queue} (hs : a.sqBase.toNat % 4096 = 0) (hc : a.cqBase.toNat % 4096 = 0) (h4 : 4 ≤ a.size)
    (h12 : a.size ≤ 12) : a.turnOn = { a with
      st := .running, enable := true, sqHead := 0, sqTail := 0, cqTail := 0, cqHead := 0, phase := true,
      credit := 2 ^ a.size - 1, unsig := 0, fetched := [], cfgStatus := 0 } :=
  if_neg (by simp [hs, hc, h4, h12])

theorem Queue.turnOn_of_misaligned {a : Queue} (hs : a.sqBase.toNat % 4096 ≠ 0) : a.turnOn = { a with cfgStatus := 0x11 } :=
  if_pos (.inl hs)

theorem Queue.turnOff_of_running {a : Queue} (h : a.st = .running) : a.turnOff = { a with st := .draining, enable := false } := by
  unfold Queue.turnOff
  rw [h]

theorem execQueueDrainEnd_of_empty (hst : (s.queue q.val).st = .draining) (ho : (s.queue q.val).out = []) :
    execQueueDrainEnd q s = .next (s.setQueue q.val { s.queue q.val with st := .disabled, enable := false }) :=
  if_pos ⟨.inl hst, ho⟩

theorem entryFetch_of_picked {l : List FetchedEntry} (hp : s.pick = some q.val) (h0 : q ≠ 0) : entryFetch q (some l) s =
    State.settle { fetchAll q (l.take (min 8 (min (s.queue q.val).waiting s.host.freeSlots))) s with
      host := { (fetchAll q (l.take (min 8 (min (s.queue q.val).waiting s.host.freeSlots))) s).host with rrLast := q.val } } q.val := by
  unfold entryFetch
  rw [if_pos hp]
  dsimp only
  rw [if_neg h0]

theorem entryFetch_of_link_error (hp : s.pick = some q.val) : entryFetch q none s = queueError q s := if_pos hp

/-! ### Completions and records (R348, R352, R360, R361) -/

theorem completionWrite_of_first {ok : Bool} {c : CmdRef} {st : Byte} {res : DWord} {v2 : Bool} {rest : List (Nat × ReadyItem)}
    (hw : s.mayWrite q.val = true) (hf : firstReady q.val s.host.ready = some (.completion c st res v2, rest)) :
    completionWrite q ok s =
      if ok then
        (putEntry q (fun ph => completionBytes res.toNat c.tag.toNat (if v2 then (s.queue q.val).sqHead else 0) q.val st c.opcode ph)
          c.suppress (State.freeSlot { s with host := { s.host with ready := rest } } c)).settle q.val
      else queueError q s := by
  unfold completionWrite
  rw [if_pos hw, hf]

theorem eventRecordWrite_of_first {kind : Byte} {ident : Nat} {res : DWord} {rest : List (Nat × ReadyItem)}
    (hw : s.mayWrite 0 = true) (hf : firstReady 0 s.host.ready = some (.record kind ident res, rest)) :
    eventRecordWrite true s = overflowRecord (nextSeq (putEntry 0
      (fun ph => completionBytes res.toNat (s.host.evtSeq % 65536) ident 0 kind 0xFF ph) false
      { s with host := { s.host with ready := rest } })) := by
  unfold eventRecordWrite
  rw [if_pos hw, hf]
  rfl

/-! ### The watchdog (R363) -/

theorem watchdogExpiry_of_show (hr : s.host.wdogRun = true) (hl : s.host.wdogLeft = 0) (hm : s.pwr.mode = .show_)
    (hb : bitOf (s.reg Reg.HQ_WDOG_CFG) 1 = true) : watchdogExpiry s =
      { State.both { s with host := { s.host with wdogRun := false } } Reg.HQ_WDOG_EXPIRIES Reg.HQ_EVT 5 with
        pwr := { (State.both { s with host := { s.host with wdogRun := false } } Reg.HQ_WDOG_EXPIRIES Reg.HQ_EVT 5).pwr with
          pendWdog := true } } := by
  have hmode : s.wdogMode = true := by simp [State.wdogMode, hm]
  unfold watchdogExpiry
  rw [if_pos ⟨hr, hmode, hl⟩]
  exact if_pos ⟨hb, hm⟩

theorem watchdogExpiry_of_service (hr : s.host.wdogRun = true) (hl : s.host.wdogLeft = 0) (hm : s.pwr.mode = .service) :
    watchdogExpiry s = State.both { s with host := { s.host with wdogRun := false } } Reg.HQ_WDOG_EXPIRIES Reg.HQ_EVT 5 := by
  have hmode : s.wdogMode = true := by simp [State.wdogMode, hm]
  unfold watchdogExpiry
  rw [if_pos ⟨hr, hmode, hl⟩]
  exact if_neg (by simp [hm])

theorem watchdogExpiry_of_time_left (hl : s.host.wdogLeft ≠ 0) : watchdogExpiry s = s := if_neg fun h => hl h.2.2

end

/-! ### Events (R441) -/

/-- An event whose bit is set reports nothing. -/
theorem State.evt_of_set {s : State} {off k : Nat} (h : bitOf (s.reg off) k = true) : s.evt off k = s.orReg off (2 ^ k) := by
  unfold State.evt State.fx
  rw [applyFxF]
  exact if_pos h

/-! ### The statements of the family -/

/-- Settles O1: a host command that finds no turn, or a FENCE in its way, is its queue's `hostCommand` left as it was. -/
theorem hostCommandWaits : Obligations.HostCommandWaits := by
  unfold Obligations.HostCommandWaits
  intro i op e s hi
  obtain ⟨k, hk⟩ := hostOf_exec hi
  refine ⟨fun h => ?_, fun c s1 h hf => ?_⟩
  · rw [hk, hostCommand_of_no_turn h]
  · rw [hk, hostCommand_of_fenced h hf]

/-- Settles O2: the entry's check fails with the status of the first condition that does not hold, and the entry is refused. -/
theorem hostChecksDecide : Obligations.HostChecksDecide := by
  unfold Obligations.HostChecksDecide
  intro i op e s s1 c hi ha hf
  obtain ⟨k, hk⟩ := hostOf_exec hi
  have refused : ∀ st, s1.dupTag c = false → s1.entryCheck c e.flags e.epoch = some st →
      exec i s = .next ((s1.complete c st 0).settle e.queue.val) := fun st hd hc => by
    rw [hk, hostCommand_of_failed ha hf hc, State.refuseEntry_of_single hd]
  refine ⟨fun hd => ?_, fun hd => ⟨fun hn => ?_, fun hn => ⟨fun hadm => ?_, fun hadm => ⟨fun h4 => ?_, fun h4 =>
    ⟨fun hv => ?_, fun hv he hm => ?_⟩⟩⟩⟩⟩
  · rw [hk, hostCommand_of_failed ha hf (State.entryCheck_of_dup hd), State.refuseEntry_of_dup hd]
  · exact refused _ hd (State.entryCheck_of_unknown hd hn)
  · exact refused _ hd (State.entryCheck_of_admin hd hn hadm)
  · exact refused _ hd (State.entryCheck_of_reserved_flag hd hn hadm h4)
  · exact refused _ hd (State.entryCheck_of_version hd hn hadm h4 hv)
  · exact refused _ hd (State.entryCheck_of_epoch hd hn hadm h4 hv he hm)

/-- Settles O57: both memories are written by `memWrite`, which reads back and keeps the canonical form. -/
theorem memoriesReadBack : Obligations.MemoriesReadBack :=
  ⟨fun _ a bs c h => memGet_memWrite h a bs c, fun _ a bs c h => memGet_memWrite h a bs c,
    fun _ a bs h => ⟨Memory.wf_memWrite h a bs, rfl⟩, fun _ a bs h => ⟨Memory.wf_memWrite h a bs, rfl⟩⟩

/-- Settles O58: a report sets its bit first, and no later link of its chain clears one. -/
theorem eventsSetTheirBit : Obligations.EventsSetTheirBit :=
  ⟨fun s _ _ ho hk => s.bitOf_evt ho hk, fun s _ _ _ _ ho h => applyFxF_keepsBit ho 10 s _ trivial h,
    fun _ _ _ h => State.evt_of_set h, fun s off k => s.evt_side off k⟩

/-- Settles O3, clause by clause: NOP completes at once or joins the timed commands, and its boundary completes it. -/
theorem nopActs : Obligations.NopAct := by
  unfold Obligations.NopAct
  exact ⟨fun e => .of (fun _ => rfl) fun c s ⟨hz, hp⟩ => nopAct_now hz hp,
    fun e => .of (fun _ => rfl) fun c s ⟨hz, hp, hv, hm⟩ => nopAct_waits hz hp hv (State.mulFor_of_ahead hm),
    fun e => .of (fun _ => rfl) fun c s ⟨hz, hp, hv, hm⟩ => nopAct_waits hz hp hv (State.mulFor_of_passed hm),
    fun s t ht => by unfold State.timedAct; rw [ht]⟩

/-- Settles O4: WATCHDOG_KICK is guarded by its fields, and its EPOCH by the checks common to all commands. -/
theorem watchdogKickRestarts : Obligations.WatchdogKickRestarts := by
  unfold Obligations.WatchdogKickRestarts
  refine ⟨fun e => .of (fun _ => rfl) fun c s ⟨hz, hp⟩ => ?_, fun e => .of (fun _ => rfl) fun c s hp => watchdogKick_of_present hp,
    fun e c s hop hd hf hv he => ?_⟩
  · rw [watchdogKick_now hz hp, wdogRestart_eq]
  · have hknown : knownOpcodes.contains c.opcode.toNat := by rw [hop]; decide
    have hadm : ¬adminOpcodes.contains c.opcode.toNat := by rw [hop]; decide
    have hepoch : ¬epochOpcodes.contains c.opcode.toNat := by rw [hop]; decide
    exact State.entryCheck_of_epoch hd hknown (fun h => hadm h.1) hf hv he hepoch

/-- Settles O5: VERSION_SET passes its guard with no other command outstanding, and the others wait for their boundary. -/
theorem adminSnapshotsAct : Obligations.AdminSnapshotsAct := by
  unfold Obligations.AdminSnapshotsAct
  refine ⟨fun e => ?_, fun e => ?_, fun e => ?_, fun e => ?_, fun e => ?_, fun e => ?_⟩
  · refine .taken (fun _ => rfl) fun s c s1 ha ⟨hlo, hle, hhi, hz, hq, hf⟩ => ?_
    obtain ⟨hslots, hst⟩ := State.admitEntry_slots ha
    refine versionSet_of_alone hlo hle hhi hz (fun q hmem h0 => (hst q).trans (hq q hmem h0)) ?_
    rw [hslots, hf]
    split <;> rfl
  · exact .of (fun _ => rfl) fun c s ⟨ha, hl, hz, hv, hp, hm⟩ => (ledgerSnapshot_of_valid ha hl hz).trans (atBoundary_of_first hv hp hm)
  · exact .of (fun _ => rfl) fun c s ⟨ha, hl, hz, hv, hp, hm⟩ => (statsSnapshot_of_valid ha hl hz).trans (atBoundary_of_present hv hp hm)
  · exact .of (fun _ => rfl) fun c s ⟨hz, hv, hp, hm⟩ => (creditAudit_of_valid hz).trans (atBoundary_of_first hv hp hm)
  · exact .of (fun _ => rfl) fun c s ⟨ha, hl, hz, hv⟩ => (ledgerSnapshot_of_valid ha hl hz).trans (atBoundary_of_invalid hv)
  · exact .of (fun _ => rfl) fun c s ⟨hz, hv⟩ => (creditAudit_of_valid hz).trans (atBoundary_of_invalid hv)

/-- Settles O16: a doorbell of a live queue is judged by its value, and one of a stopped queue only stored. -/
theorem doorbellsAct : Obligations.DoorbellsAct := by
  unfold Obligations.DoorbellsAct
  exact ⟨fun q v => .of_barWrite (fun _ => rfl) fun s ⟨ha, hl, hv⟩ => ⟨ha, (sqTail_of_live hl).trans (if_pos hv)⟩,
    fun q v => .of_barWrite (fun _ => rfl) fun s ⟨ha, hl, hv⟩ => ⟨ha, (sqTail_of_live hl).trans (if_neg (Nat.not_lt.mpr hv))⟩,
    fun q v => .of_barWrite (fun _ => rfl) fun s ⟨ha, hd⟩ => ⟨ha, sqTail_of_stopped hd⟩,
    fun q v => .of_barWrite (fun _ => rfl) fun s ⟨ha, hl, hv, hd⟩ => ⟨ha, (cqHead_of_live hl).trans (if_pos ⟨hv, hd⟩)⟩,
    fun q v => .of_barWrite (fun _ => rfl) fun s ⟨ha, hl, hbad⟩ => ⟨ha, (cqHead_of_live hl).trans (if_neg fun ⟨hv, hd⟩ =>
      hbad.elim (fun h => absurd hv (Nat.not_lt.mpr h)) (fun h => absurd hd (Nat.not_le.mpr h)))⟩⟩

/-- Settles O17, clause by clause: CTL writes turn a queue on and off, a drained one is DISABLED, and the picked one fetches. -/
theorem queueStatesMove : Obligations.QueueStatesMove := by
  unfold Obligations.QueueStatesMove
  refine ⟨fun q v => .of_barWrite (fun _ => rfl) fun s ⟨ha, h0, hv, hp, hs, hst, hsq, hcq, h4, h12⟩ => ⟨ha, ?_⟩,
    fun q v => .of_barWrite (fun _ => rfl) fun s ⟨ha, h0, hv, hp, hs, hst, hsq⟩ => ⟨ha, ?_⟩,
    fun q v => .of_barWrite (fun _ => rfl) fun s ⟨ha, h0, hv, hp, hs, hst⟩ => ⟨ha, ?_⟩,
    fun q s ⟨hst, ho⟩ => execQueueDrainEnd_of_empty hst ho,
    fun q l => .of (fun _ => rfl) fun s ⟨hp, h0⟩ => entryFetch_of_picked hp h0,
    fun q => .of (fun _ => rfl) fun s hp => entryFetch_of_link_error hp,
    fun q l => .of (fun _ => rfl) fun s hp => if_neg hp⟩
  · rw [writeQueueCtl_of_same h0 hp hs, if_pos hv, if_pos hst, Queue.turnOn_of_aligned hsq hcq h4 h12]
  · rw [writeQueueCtl_of_same h0 hp hs, if_pos hv, if_pos hst, Queue.turnOn_of_misaligned hsq]
  · rw [writeQueueCtl_of_same h0 hp hs, if_neg (ne_true_of_eq_false hv), Queue.turnOff_of_running hst]

/-- Settles O18: the first item that waits for a ring is written, or puts its queue into ERROR, and an expired timer signals. -/
theorem completionsAreWritten : Obligations.CompletionsAreWritten := by
  unfold Obligations.CompletionsAreWritten
  exact ⟨fun q c st res v2 rest => .of (fun _ => rfl) fun s ⟨hw, hf⟩ => completionWrite_of_first hw hf,
    fun q c st res v2 rest => .of (fun _ => rfl) fun s ⟨hw, hf⟩ => completionWrite_of_first hw hf,
    fun kind ident res rest => .of (fun _ => rfl) fun s ⟨hw, hf⟩ => eventRecordWrite_of_first hw hf,
    fun q s h => if_pos h⟩

/-- Settles O19: the writes act where the register bar takes them, the watchdog in the states of its clause, the rest always. -/
theorem interruptsAndWatchdog : Obligations.InterruptsAndWatchdog := by
  unfold Obligations.InterruptsAndWatchdog
  exact ⟨fun v => .of_barWrite (fun _ => rfl) fun s ha => ⟨ha, rfl⟩, fun v => .of_barWrite (fun _ => rfl) fun s ha => ⟨ha, rfl⟩,
    fun v => .of_barWrite (fun _ => rfl) fun s ha => ⟨ha, rfl⟩,
    .of (fun _ => rfl) fun s ⟨hr, hl, hm, hb⟩ => watchdogExpiry_of_show hr hl hm hb,
    .of (fun _ => rfl) fun s ⟨hr, hl, hm⟩ => watchdogExpiry_of_service hr hl hm,
    .of (fun _ => rfl) fun s hl => watchdogExpiry_of_time_left hl,
    .of (fun _ => rfl) fun s _ => rfl, .of (fun _ => rfl) fun s _ => rfl, fun on => .of (fun _ => rfl) fun s _ => rfl⟩

/-- Settles O20: the link goes down where it was up, and returns where it was down. -/
theorem linkLossDropsCommands : Obligations.LinkLossDropsCommands :=
  ⟨.of (fun _ => rfl) fun _ hu => if_pos hu, .of (fun _ => rfl) fun _ hu => if_neg (ne_true_of_eq_false hu)⟩

/-- Settles O53, each field by the definition of the reset state and of the registers' reset values. -/
theorem resetLeaves : Obligations.ResetLeaves :=
  ⟨rfl, rfl, rfl, by decide, rfl, rfl, rfl, rfl, rfl, rfl, rfl, by decide, by decide, by decide⟩

end Sys2Proof.Machine
end

section
/-!
PROOFS for the DMA family (R366–R385): what the DMA commands of the queues do with valid fields, what each instruction of a running
channel does, and how channels start, stop and pause.
-/

namespace Sys2Proof.Machine

/-! ### A channel as it is read back -/

theorem Side.dma {s t : State} (h : Side s t) : t.dma = s.dma := by
  obtain ⟨r, a, l, rfl⟩ := h
  rfl

theorem State.dch_congr {s t : State} (h : s.dma = t.dma) (c : Nat) : s.dch c = t.dch c := by
  unfold State.dch
  rw [h]

section
variable {k : DmaChan}

theorem DmaChan.live_of_running (h : k.st = .running) : k.live = true := by simp [DmaChan.live, h]

theorem DmaChan.live_iff : k.live = true ↔ k.st = .running ∨ k.st = .waiting ∨ k.st = .paused := by
  simp [DmaChan.live, or_assoc]

end

/-! ### DMA_START, DMA_ABORT, DMA_PAUSE and DMA_RESUME (R381, R382, R384, R385) -/

section
variable {c : CmdRef} {e : Submission} {s : State}

theorem State.dmaStartNow_of_idle {adj : Bool} {ch addr space : Nat} (hm : s.pwr.mode ≠ .standby) (hl : (s.dch ch).live = false)
    (hs : space ≤ 2) : s.dmaStartNow c adj ch addr space =
      (s.setDch ch { s.dch ch with
        start := addr, startSpace := space, shadowValid := false, shadowLate := false, dbPending := false, st := .running,
        pc := addr, space := space, loops := [], move := none, wait := none, afterMove := false }).complete c (adjusted adj) s.resMsc := by
  unfold State.dmaStartNow
  rw [if_neg hm, if_neg (ne_true_of_eq_false hl)]
  dsimp only [DmaChan.begin]
  rw [if_neg (by omega : space ≠ 3)]

theorem State.dmaStartNow_of_live {adj : Bool} {ch addr space : Nat} (hm : s.pwr.mode ≠ .standby) (hl : (s.dch ch).live = true) :
    s.dmaStartNow c adj ch addr space = s.complete c stBadParam 0 := by
  unfold State.dmaStartNow
  rw [if_neg hm, if_pos hl]

theorem dmaStart_now (hch : sub e 16 1 < 28) (hf : sub e 17 1 = 0) (hs : sub e 18 1 ≤ 2) (hz1 : subZero e 19 5 = true)
    (ha : sub e 24 8 % 32 = 0) (hz2 : subZero e 32 32 = true) (hm : s.pwr.mode ≠ .standby) (hp : e.present = 0) :
    dmaStart e c s = s.dmaStartNow c false (sub e 16 1) (sub e 24 8) (sub e 18 1) := by
  have h32 : sub e 16 1 < 32 := by omega
  unfold dmaStart
  dsimp only
  rw [hf, if_neg (by simp [Nat.not_le.mpr hch, h32, lateFlag_zero, hs, hz1, ha, hz2]), if_neg hm, if_pos hp]

theorem chanBad_of_public (hch : sub e 16 1 < 28) (hz : subZero e 17 47 = true) (hp : e.present = 0) : chanBad e = false := by
  have h32 : sub e 16 1 < 32 := by omega
  simp [chanBad, Nat.not_le.mpr hch, h32, hz, hp]

theorem chanBad_of_privileged (h32 : sub e 16 1 < 32) (hq : e.queue = 0) (hz : subZero e 17 47 = true) (hp : e.present = 0) :
    chanBad e = false := by
  simp [chanBad, h32, hq, hz, hp]

theorem dmaAbort_of_stopped (hb : chanBad e = false) (hl : (s.dch (sub e 16 1)).live = false) :
    dmaAbort e c s = s.complete c stOk
      ((s.dch (sub e 16 1)).residue + 2 ^ 32 * (if (s.dch (sub e 16 1)).abortIgnored then 1 else 0) + 2 ^ 33) := by
  unfold dmaAbort
  dsimp only
  rw [if_neg (ne_true_of_eq_false hb), hl]
  rfl

theorem dmaAbort_of_live (hb : chanBad e = false) (hl : (s.dch (sub e 16 1)).live = true) :
    dmaAbort e c s = (s.setDch (sub e 16 1) { s.dch (sub e 16 1) with
      abortCmds := (s.dch (sub e 16 1)).abortCmds ++ [c] }).dmaAbortSample (sub e 16 1) := by
  unfold dmaAbort
  dsimp only
  rw [if_neg (ne_true_of_eq_false hb), hl]
  rfl

theorem dmaPause_of_running (hb : chanBad e = false) (h28 : 28 ≤ sub e 16 1) (hst : (s.dch (sub e 16 1)).st = .running) :
    dmaPause e c s = s.setDch (sub e 16 1) { s.dch (sub e 16 1) with
      pauseCmds := (s.dch (sub e 16 1)).pauseCmds ++ [c], pausing := true } := by
  unfold dmaPause
  dsimp only
  rw [if_neg (by simp [hb, h28, DmaChan.live_of_running hst]), if_neg (by simp [hst])]

theorem dmaResume_of_paused (hb : chanBad e = false) (h28 : 28 ≤ sub e 16 1) (hst : (s.dch (sub e 16 1)).st = .paused)
    (hw : (s.dch (sub e 16 1)).wait = none) :
    dmaResume e c s = (s.setDch (sub e 16 1) { s.dch (sub e 16 1) with st := .running }).complete c stOk 0 := by
  unfold dmaResume
  dsimp only
  rw [if_neg (by simp [hb, h28, hst]), hw]

end

/-! ### Instructions (R368–R373) -/

/-- The channel takes an instruction of this OP: it is ready, and the instruction is readable. -/
def State.dmaTakes (s : State) (c op : Nat) (ins : DmaBits) : Prop :=
  (s.dch c).ready ∧ fieldOf ins 0 8 = op ∧ s.dmaFetchFault c = none

/-- The channel once it has taken an instruction. -/
def State.dmaTaken (s : State) (c : Nat) : State := s.setDch c { s.dch c with afterMove := false }

section
variable {s : State} {c : Nat} {ins : DmaBits}

theorem State.dmaInstr_of_takes {op : Nat} {ok : Bool} {k : State → State} (ht : s.dmaTakes c op ins) (hok : ok = true) :
    s.dmaInstr c op ins ok k = k (s.dmaTaken c) := by
  obtain ⟨hr, ho, hf⟩ := ht
  unfold State.dmaInstr
  dsimp only
  rw [hr, ho, hf, hok, if_neg (by decide), if_neg fun h => h.1 rfl]
  exact if_neg fun h => h.elim (fun h => h rfl) (fun h => h rfl)

theorem dmaMove_of_fitting (ht : s.dmaTakes c 1 ins) (hok : moveOk ins = true)
    {p : DmaMove × Int × Int} (hp : movePlan ins ((s.dmaTaken c).dch c).iter = p) (hl : p.1.len % 4 = 0)
    (hsrc : (s.dmaTaken c).sideOk c p.1.srcSpace p.2.1 p.1.len p.1.srcFixed false = true)
    (hdst : (s.dmaTaken c).sideOk c p.1.dstSpace p.2.2 p.1.len p.1.dstFixed true = true)
    (hs : (s.dmaTaken c).spaceDown p.1.srcSpace = none) (hd : (s.dmaTaken c).spaceDown p.1.dstSpace = none) :
    dmaMove c ins s = (s.dmaTaken c).setDch c { (s.dmaTaken c).dch c with
      move := some { p.1 with src := p.2.1.toNat, dst := p.2.2.toNat } } := by
  unfold dmaMove
  rw [State.dmaInstr_of_takes ht hok]
  dsimp only
  rw [hp, if_neg (by simp [hl, hsrc, hdst]), hs, hd]

theorem dmaLoop_of_zero (ht : s.dmaTakes c 2 ins) (hok : loopOk ins = true) (h0 : fieldOf ins 32 32 = 0) :
    dmaLoop c ins s = (s.dmaTaken c).setDch c { (s.dmaTaken c).dch c with
      pc := (dmaLoopEnd ((((s.dmaTaken c).dch c).pc + 32 * (fieldOf ins 16 16 + 1)) % 2 ^ 64) ((s.dmaTaken c).dch c).loops).1,
      loops := (dmaLoopEnd ((((s.dmaTaken c).dch c).pc + 32 * (fieldOf ins 16 16 + 1)) % 2 ^ 64) ((s.dmaTaken c).dch c).loops).2 } := by
  unfold dmaLoop
  rw [State.dmaInstr_of_takes ht hok]
  exact if_pos h0

theorem dmaLoop_of_room (ht : s.dmaTakes c 2 ins) (hok : loopOk ins = true) (h0 : fieldOf ins 32 32 ≠ 0)
    (hr : ((s.dmaTaken c).dch c).loops.length < 2) :
    dmaLoop c ins s = (s.dmaTaken c).setDch c { (s.dmaTaken c).dch c with
      pc := (((s.dmaTaken c).dch c).pc + 32) % 2 ^ 64,
      loops := { first := (((s.dmaTaken c).dch c).pc + 32) % 2 ^ 64, body := fieldOf ins 16 16, count := fieldOf ins 32 32, i := 0 } ::
        ((s.dmaTaken c).dch c).loops } := by
  unfold dmaLoop
  rw [State.dmaInstr_of_takes ht hok]
  dsimp only
  rw [if_neg h0, if_neg (Nat.not_le.mpr hr)]

theorem State.dmaAwait_of_holds {w : DmaWait} (h : (s.dmaHolds c w).1 = true) : s.dmaAwait c w =
    (s.dmaHolds c w).2.setDch c { ((s.dmaHolds c w).2.dch c).advance with st := .running, wait := none } := if_pos h

theorem State.dmaAwait_of_pending {w : DmaWait} (h : (s.dmaHolds c w).1 = false) : s.dmaAwait c w =
    (s.dmaHolds c w).2.setDch c { (s.dmaHolds c w).2.dch c with st := .waiting, wait := some w } := if_neg (ne_true_of_eq_false h)

theorem dmaWait_for_msc {t : Nat} (ht : s.dmaTakes c 3 ins) (hok : waitOk ins = true) (h0 : fieldOf ins 8 8 = 0)
    (htime : t = (((fieldOf ins 64 64 : Int) + ((s.dmaTaken c).dch c).iter * signed 64 (fieldOf ins 128 64)) % 2 ^ 64).toNat) :
    dmaWait c ins s = (s.dmaTaken c).dmaAwait c (.msc t) := by
  unfold dmaWait
  rw [State.dmaInstr_of_takes ht hok, htime]
  exact if_pos h0

theorem dmaSignal_of_takes (ht : s.dmaTakes c 4 ins) (hok : signalOk ins = true) : dmaSignal c ins s =
    if (s.task (fieldOf ins 16 16)).isNone then (s.dmaTaken c).dmaNext c
    else if s.canPost (fieldOf ins 16 16) (word (fieldOf ins 32 32)) then
      ((s.dmaTaken c).applyPost (fieldOf ins 16 16) (word (fieldOf ins 32 32))).dmaNext c
    else (((s.dmaTaken c).setDch c { (s.dmaTaken c).dch c with st := .waiting, held := true }).hold (.dma c) (fieldOf ins 16 16)
      (word (fieldOf ins 32 32))).count Reg.DMA_SIG_STALLS 1 := State.dmaInstr_of_takes ht hok

theorem dmaJump_of_takes (ht : s.dmaTakes c 5 ins) (hz : fieldOf ins 8 24 = 0) (ho : fieldOf ins 32 32 ≠ 0) :
    dmaJump c ins s = (s.dmaTaken c).setDch c { (s.dmaTaken c).dch c with
      pc := (((((s.dmaTaken c).dch c).pc : Int) + 32 * signed 32 (fieldOf ins 32 32)) % 2 ^ 64).toNat,
      loops := jumpLoops (((((s.dmaTaken c).dch c).pc : Int) + 32 * signed 32 (fieldOf ins 32 32)) % 2 ^ 64).toNat
        ((s.dmaTaken c).dch c).loops } := State.dmaInstr_of_takes ht (by simp [hz, ho])

end

/-! ### END and doorbells (R373–R375, R377) -/

section
variable {s : State} {c : Nat}

theorem State.dmaEndActs_of_shadow (h : (s.dch c).shadowValid = true) : s.dmaEndActs c = s.setDch c { s.dch c with
    pc := (s.dch c).shadow, nextPc := (s.dch c).shadow, shadowValid := false, shadowLate := false, afterMove := false } := if_pos h

theorem State.dmaEndActs_of_doorbell (hs : (s.dch c).shadowValid = false) (hd : (s.dch c).dbPending = true) :
    s.dmaEndActs c = s.setDch c { s.dch c with dbPending := false } := by
  unfold State.dmaEndActs
  dsimp only
  rw [if_neg (ne_true_of_eq_false hs), if_pos hd]

theorem State.dmaEndActs_of_neither (hs : (s.dch c).shadowValid = false) (hd : (s.dch c).dbPending = false) :
    s.dmaEndActs c = s.dmaAtEnd c := by
  unfold State.dmaEndActs
  dsimp only
  rw [if_neg (ne_true_of_eq_false hs), if_neg (ne_true_of_eq_false hd)]

/-- A channel that stops stands as it was stopped, with nothing under way. -/
theorem State.dmaStopped_dch {k : DmaChan} {written : Nat} (hl : c < s.dma.length) : (s.dmaStopped c k written).dch c =
    { k with abortCmds := [], pauseCmds := [], aborting := false, pausing := false, late := false, move := none, wait := none,
             held := false, afterMove := false } := by
  unfold State.dmaStopped
  dsimp only
  rw [State.dch_congr (State.evt_side ..).dma, State.dch_congr (State.completeMany_side ..).dma,
    State.dch_congr (State.completeMany_side ..).dma, State.dch_setDch _ _ _ _ hl, if_pos rfl]

theorem State.dmaStopped_bit {k : DmaChan} {written : Nat} (hc : c < 32) :
    bitOf ((s.dmaStopped c k written).reg Reg.DMA_CH_EVT) c = true := State.bitOf_evt _ ⟨by decide, by decide⟩ hc

section
variable (hc : c < 28) (hr : s.runs = true)
include hc hr

theorem dmaDoorbell_of_idle (h : (s.dch c).st = .idle ∨ (s.dch c).st = .fault) :
    dmaDoorbell c s = s.setDch c ((s.dch c).begin (s.dch c).start (s.dch c).startSpace) := by
  unfold dmaDoorbell
  dsimp only
  rw [if_pos ⟨hc, hr⟩]
  obtain h | h := h <;> rw [h]

theorem dmaDoorbell_of_idleAtEnd (h : (s.dch c).st = .idleAtEnd) : dmaDoorbell c s = s.setDch c { s.dch c with st := .running } := by
  unfold dmaDoorbell
  dsimp only
  rw [if_pos ⟨hc, hr⟩, h]

theorem dmaDoorbell_of_live (h : (s.dch c).live = true) : dmaDoorbell c s = s.setDch c { s.dch c with dbPending := true } := by
  unfold dmaDoorbell
  dsimp only
  rw [if_pos ⟨hc, hr⟩]
  obtain h | h | h := DmaChan.live_iff.mp h <;> rw [h]

end

theorem dmaNextPcHigh_of_public {m : Master} {hi : Word} {same : Bool} (hc : c < 28) : dmaNextPcHigh c m hi same s =
    if same then (s.setDch c { s.dch c with
      shadow := (latchGet s.wlatch (dmaReg Reg.DMA_Cc_NEXT_PC_LO c, m)).toNat + 2 ^ 32 * hi.toNat,
      shadowValid := true, shadowLate := same }).both Reg.DMA_SHADOW_LATES Reg.DMA_EVT 0
    else s.setDch c { s.dch c with
      shadow := (latchGet s.wlatch (dmaReg Reg.DMA_Cc_NEXT_PC_LO c, m)).toNat + 2 ^ 32 * hi.toNat,
      shadowValid := true, shadowLate := same } := if_neg (Nat.not_le.mpr hc)

/-! ### Stops, pauses and completions (R371, R379, R380) -/

theorem dmaStop_of_stands {x : StopInput} (ha : (s.dch c).aborting = true) (hl : (s.dch c).late = false)
    (hst : (s.dch c).st ≠ .running) : dmaStop c x s = s.dmaStopped c { s.dch c with
      st := .idle, status := 2, residue := ((s.dch c).move.map DmaMove.left).getD 0, abortIgnored := false,
      shadowValid := false, dbPending := false } (s.dch c).written := by
  unfold dmaStop
  dsimp only
  rw [if_neg (by simp [ha]), if_neg (by simp [hl]), if_neg hst]
  rfl

theorem dmaStop_of_end_ahead {x : StopInput} (ha : (s.dch c).aborting = true) (hl : (s.dch c).late = true)
    (hf : s.dmaFetchFault c = none) (ho : s.dmaOpAt (s.dch c) x.hostData = 0) :
    dmaStop c x s = (s.count Reg.DMA_ABORT_IGNORED 1).dmaStopped c { s.dch c with
      st := .idleAtEnd, status := 1, residue := 0, abortIgnored := true, shadowValid := false, dbPending := false } 0 := by
  unfold dmaStop
  dsimp only
  rw [if_neg (by simp [ha]), if_pos (by simp [hl, hf, ho])]

theorem dmaPauseEffect_of_clean {x : StopInput} (hp : (s.dch c).pausing = true) (ha : (s.dch c).aborting = false)
    (hst : (s.dch c).st = .running) (hm : (s.moveOn c x.moved x.hostData).2 = none) :
    dmaPauseEffect c x s = (s.moveOn c x.moved x.hostData).1.dmaPaused c := by
  unfold dmaPauseEffect
  dsimp only
  rw [if_pos (by simp [hp, ha, hst]), hm]

theorem dmaMoveComplete_of_clean {x : MoveResult} {m : DmaMove} (hm : (s.dch c).move = some m) (hst : (s.dch c).st = .running)
    (ha : (s.dch c).aborting = false) (hp : (s.dch c).pausing = false) (hs : s.spaceDown m.srcSpace = none)
    (hd : s.spaceDown m.dstSpace = none) (hx : x.failedAt = none) (hr : (s.moveOn c m.len x.hostData).2 = none)
    (ha1 : ((s.moveOn c m.len x.hostData).1.dch c).aborting = false)
    (hp1 : ((s.moveOn c m.len x.hostData).1.dch c).pausing = false) :
    dmaMoveComplete c x s = (s.moveOn c m.len x.hostData).1.setDch c
      { ((s.moveOn c m.len x.hostData).1.dch c).advance with move := none, afterMove := true } := by
  unfold dmaMoveComplete
  dsimp only
  rw [hm]
  dsimp only
  rw [if_neg (by simp [hst, ha, hp]), hs, hd]
  dsimp only
  rw [hx, Option.getD_none, hr]
  dsimp only
  rw [if_neg (by simp [ha1, hp1])]

theorem dmaWaitSatisfied_of_waiting {w : DmaWait} (hw : (s.dch c).wait = some w) (hst : (s.dch c).st = .waiting)
    (ha : (s.dch c).aborting = false) : dmaWaitSatisfied c s = s.dmaAwait c w := by
  unfold dmaWaitSatisfied
  dsimp only
  rw [hw]
  exact if_pos ⟨hst, ne_true_of_eq_false ha⟩

end

/-! ### The statements of the family -/

/-- Settles O14, clause by clause, by what each command does with a channel that stands as the clause says. -/
theorem dmaCommandsAct : Obligations.DmaCommandsAct := by
  unfold Obligations.DmaCommandsAct
  exact ⟨fun e => .of (fun _ => rfl) fun c s ⟨hch, hf, hsp, hz1, ha, hz2, hm, hp, hl⟩ =>
      (dmaStart_now hch hf hsp hz1 ha hz2 hm hp).trans (State.dmaStartNow_of_idle hm hl hsp),
    fun e => .of (fun _ => rfl) fun c s ⟨hch, hf, hsp, hz1, ha, hz2, hm, hp, hl⟩ =>
      (dmaStart_now hch hf hsp hz1 ha hz2 hm hp).trans (State.dmaStartNow_of_live hm hl),
    fun e => .of (fun _ => rfl) fun c s ⟨hch, hz, hp, hl⟩ => dmaAbort_of_stopped (chanBad_of_public hch hz hp) hl,
    fun e => .of (fun _ => rfl) fun c s ⟨hch, hz, hp, hl⟩ => dmaAbort_of_live (chanBad_of_public hch hz hp) hl,
    fun e => .of (fun _ => rfl) fun c s ⟨h28, h32, hq, hz, hp, hst⟩ =>
      dmaPause_of_running (chanBad_of_privileged h32 hq hz hp) h28 hst,
    fun e => .of (fun _ => rfl) fun c s ⟨h28, h32, hq, hz, hp, hst, hw⟩ =>
      dmaResume_of_paused (chanBad_of_privileged h32 hq hz hp) h28 hst hw⟩

/-- Settles O31: a channel that takes an instruction does what the row says on the operands of each clause. -/
theorem dmaInstructionsAct : Obligations.DmaInstructionsAct := by
  unfold Obligations.DmaInstructionsAct
  intro takes got
  refine ⟨fun c ins => ?_, fun c ins => ?_, fun c ins => ?_, fun c ins t => ?_, fun c ins t => ?_, fun c ins => ?_, fun c ins => ?_,
    fun c ins => ?_, fun c ins => ?_⟩
  · exact .of (fun _ => rfl) fun s ⟨ht, hok, hl, hsrc, hdst, hs, hd⟩ => dmaMove_of_fitting ht hok rfl hl hsrc hdst hs hd
  · exact .of (fun _ => rfl) fun s ⟨ht, hok, h0⟩ => dmaLoop_of_zero ht hok h0
  · exact .of (fun _ => rfl) fun s ⟨ht, hok, h0, hr⟩ => dmaLoop_of_room ht hok h0 hr
  · exact .of (fun _ => rfl) fun s ⟨ht, hok, h0, htime, hv, hm⟩ => (dmaWait_for_msc ht hok h0 htime).trans
      (State.dmaAwait_of_holds (Bool.and_eq_true_iff.mpr ⟨hv, decide_eq_true hm⟩))
  · exact .of (fun _ => rfl) fun s ⟨ht, hok, h0, htime, hm⟩ => (dmaWait_for_msc ht hok h0 htime).trans
      (State.dmaAwait_of_pending (Bool.and_eq_false_iff.mpr (.inr (decide_eq_false (Nat.not_le.mpr hm)))))
  · exact .of (fun _ => rfl) fun s ⟨ht, hok, htask, hp⟩ => by
      rw [dmaSignal_of_takes ht hok, if_neg (by simp [Option.isSome_iff_ne_none.mp htask]), if_pos hp]; rfl
  · exact .of (fun _ => rfl) fun s ⟨ht, hok, htask, hp⟩ => by
      rw [dmaSignal_of_takes ht hok, if_neg (by simp [Option.isSome_iff_ne_none.mp htask]), if_neg (ne_true_of_eq_false hp)]; rfl
  · exact .of (fun _ => rfl) fun s ⟨ht, hok, htask⟩ => (dmaSignal_of_takes ht hok).trans (if_pos (Option.isNone_iff_eq_none.mpr htask))
  · exact .of (fun _ => rfl) fun s ⟨ht, hz, ho⟩ => dmaJump_of_takes ht hz ho

/-- Settles O32, clause by clause: END and doorbells, then aborts, pauses and completions, then the two registers. -/
theorem dmaChannelsStartAndStop : Obligations.DmaChannelsStartAndStop := by
  unfold Obligations.DmaChannelsStartAndStop
  refine ⟨fun c ins => ?_, fun c s h => State.dmaEndActs_of_shadow h, fun c s hs hd => State.dmaEndActs_of_doorbell hs hd,
    fun c s hl hs hd => ?_, fun c => ?_, fun c => ?_, fun c => ?_, fun c => ?_, fun c => ?_, fun c x => ?_, fun c x => ?_,
    fun c x => ?_, fun c x m => ?_, fun c w => ?_, fun c m hi => ?_, fun c m hi => ?_, fun v => ?_, fun v => ?_⟩
  · exact .of (fun _ => rfl) fun s ht => State.dmaInstr_of_takes ht rfl
  · rw [State.dmaEndActs_of_neither hs hd, State.dmaAtEnd, State.dmaStopped_dch hl]
    exact ⟨rfl, rfl, rfl, State.dmaStopped_bit c.isLt⟩
  · exact .of_barWrite (fun _ => rfl) fun s ⟨ha, hc, hr, h⟩ => ⟨ha, dmaDoorbell_of_idle hc hr h⟩
  · exact .of_barWrite (fun _ => rfl) fun s ⟨ha, hc, hr, h⟩ => ⟨ha, dmaDoorbell_of_idleAtEnd hc hr h⟩
  · exact .of_barWrite (fun _ => rfl) fun s ⟨ha, hc, hr, h⟩ => ⟨ha, dmaDoorbell_of_live hc hr h⟩
  · exact .of_barWrite (fun _ => rfl) fun s ⟨ha, hc⟩ => ⟨ha, if_pos hc⟩
  · exact .of_barWrite (fun _ => rfl) fun s ⟨ha, hc⟩ => ⟨ha, if_neg (Nat.not_lt.mpr hc)⟩
  · exact .of_watched (fun _ => rfl) fun s ⟨ha, hl, hst⟩ => dmaStop_of_stands ha hl hst
  · exact .of_watched (fun _ => rfl) fun s ⟨ha, hl, hf, ho⟩ => dmaStop_of_end_ahead ha hl hf ho
  · exact .of_watched (fun _ => rfl) fun s ⟨hp, ha, hst, hm⟩ => dmaPauseEffect_of_clean hp ha hst hm
  · exact .of_watched (fun _ => rfl) fun s ⟨hm, hst, ha, hp, hs, hd, hx, hr, ha1, hp1⟩ =>
      dmaMoveComplete_of_clean hm hst ha hp hs hd hx hr ha1 hp1
  · exact .of (fun _ => rfl) fun s ⟨hw, hst, ha, hh⟩ => (dmaWaitSatisfied_of_waiting hw hst ha).trans (State.dmaAwait_of_holds hh)
  · exact .of_barWrite (fun _ => rfl) fun s ⟨ha, hc⟩ => ⟨ha, dmaNextPcHigh_of_public hc⟩
  · exact .of_barWrite (fun _ => rfl) fun s ⟨ha, hc⟩ => ⟨ha, dmaNextPcHigh_of_public hc⟩
  · exact .of_barWrite (fun _ => rfl) fun s ⟨ha, hn⟩ => ⟨ha, if_neg (ne_true_of_eq_false hn)⟩
  · exact .of_barWrite (fun _ => rfl) fun s ⟨ha, hl⟩ => ⟨ha, if_pos hl⟩

end Sys2Proof.Machine
end

section
/-!
PROOFS for the memory-system family (R386–R401): refresh, retraining, replays and scrubbing of a DRAM that answers, and the scrubbing
of the SRAM.
-/

namespace Sys2Proof.Machine

/-! ### Channels and subchannels as they are read back -/

theorem Side.memory {s t : State} (h : Side s t) : t.memory = s.memory := by
  obtain ⟨r, a, l, rfl⟩ := h
  rfl

section
variable {s : State}

theorem State.subChan_congr {t : State} (h : s.memory = t.memory) (n : Nat) : s.subChan n = t.subChan n := by
  unfold State.subChan
  rw [h]

theorem State.dramChan_setDramChan {c : Nat} (v : DramChan) (h : c < s.memory.chan.length) : (s.setDramChan c v).dramChan c = v :=
  (getD_set _ _ _ _ _ h).trans (if_pos rfl)

/-- The debts of the subchannels of a channel change together, each by itself. -/
theorem State.mapDebt_debt {c n : Nat} (f : Nat → Nat) (hn : n < s.memory.sub.length) (hc : n / 2 = c) :
    ((s.mapDebt c f).subChan n).debt = f (s.subChan n).debt := by
  unfold State.mapDebt State.subChan
  simp [State.setMemory, List.getD_eq_getElem?_getD, hn, hc]

/-! ### Refresh (R397) -/

theorem refreshInterval_of_issued {n : Nat} (hu : s.dramUp = true) :
    refreshInterval n true 0 s = s.setSub n { s.subChan n with debt := (s.subChan n).debt } := by
  unfold refreshInterval
  simp [hu]

theorem refreshInterval_of_missed {n : Nat} (hu : s.dramUp = true) (hd : (s.subChan n).debt < 4) :
    refreshInterval n false 0 s = s.setSub n { s.subChan n with debt := (s.subChan n).debt + 1 } := by
  unfold refreshInterval
  simp [hu, Nat.not_le.mpr hd]

/-- A catch-up of a debt above 4 clears the intervals of its refreshes and pauses the DRAM for them. -/
theorem refreshInterval_of_catch_up {n k : Nat} (hu : s.dramUp = true) (hd : 4 < (s.subChan n).debt) (hk : 0 < k)
    (hle : k ≤ (s.subChan n).debt - 4) : refreshInterval n true k s =
      (s.setSub n { s.subChan n with debt := (s.subChan n).debt - k }).pause (k * s.trfc) := by
  unfold refreshInterval
  simp [hu, hd, Nat.min_eq_left hle, hk]

theorem mr4Read_of_doubled {c : Nat} (hu : s.dramUp = true) (hx : (s.dramChan c).x2 = false)
    (hlo : 2 * (s.subChan (2 * c)).debt ≤ 4) (hhi : 2 * (s.subChan (2 * c + 1)).debt ≤ 4) (hl : 2 * c + 1 < s.memory.sub.length) :
    mr4Read c true s = ((s.setDramChan c { s.dramChan c with
      hot := true, x2 := true,
      coolFrom := if (s.dramChan c).hot then s.samples else (s.dramChan c).coolFrom }).mapDebt c (fun d => 2 * d)).evt Reg.MEM_EVT 5 := by
  have hdebt : ∀ v n, n < s.memory.sub.length → n / 2 = c →
      ((((s.setDramChan c v).mapDebt c (fun d => 2 * d)).evt Reg.MEM_EVT 5).subChan n).debt = 2 * (s.subChan n).debt :=
    fun v n hn hc => by
      rw [State.subChan_congr (State.evt_side ..).memory]
      exact State.mapDebt_debt (s := s.setDramChan c v) _ hn hc
  unfold mr4Read
  dsimp only
  rw [if_pos hu, hx, if_pos (by decide)]
  exact if_pos ⟨Nat.le_trans (Nat.le_of_eq (hdebt _ _ (by omega) (by omega))) hlo, Nat.le_trans (Nat.le_of_eq (hdebt _ _ hl (by omega))) hhi⟩

theorem mr4Read_of_normal {c : Nat} (hu : s.dramUp = true) : mr4Read c false s = s.setDramChan c { s.dramChan c with
    hot := false, coolFrom := if (s.dramChan c).hot then s.samples else (s.dramChan c).coolFrom } := by
  unfold mr4Read
  dsimp only
  rw [if_pos hu, Bool.false_and, if_neg (by decide), Bool.or_false]

theorem refreshRateReturn_of_cool {c : Nat} (hx : (s.dramChan c).x2 = true) (hh : (s.dramChan c).hot = false)
    (ht : s.passed (s.dramChan c).coolFrom 32000 = true) :
    refreshRateReturn c s = (s.setDramChan c { s.dramChan c with x2 := false }).mapDebt c (fun d => (d + 1) / 2) :=
  if_pos (by simp [hx, hh, ht])

/-! ### Retraining (R395, R396) -/

theorem retrainDue_of_period {c : Nat} (hu : s.chanUp c = true) (hb : bitOf (s.reg Reg.MEM_CFG) 1 = true)
    (hn : (s.dramChan c).retrain = none) (ht : s.passed (s.dramChan c).trainedAt (max 10 (fieldOf (s.reg Reg.MEM_CFG) 8 8) * 1000000) ∨
      2560 < (s.pwr.temp - (s.dramChan c).trainTemp).natAbs) :
    retrainDue c s = s.setDramChan c { s.dramChan c with retrain := some 0, forced := false, retries := 0 } := by
  have hnow : s.retrainNow (s.dramChan c) = true := by
    unfold State.retrainNow
    rwa [Bool.or_eq_true, decide_eq_true_eq]
  exact if_pos (by simp [hu, hb, hn, hnow])

theorem retrainSlice_of_under {c ns k : Nat} (hu : s.chanUp c = true) (hr : (s.dramChan c).retrain = some k) (hk : k < 64) :
    retrainSlice c ns s = (s.setDramChan c { s.dramChan c with retrain := some (k + 1) }).pause ns := by
  unfold retrainSlice
  dsimp only
  rw [hr]
  exact if_pos ⟨hk, hu⟩

theorem retrainEnd_of_found {c : Nat} (hu : s.chanUp c = true) (hr : (s.dramChan c).retrain = some 64) :
    retrainEnd c true s = (s.count Reg.MEM_RETRAINS 1).setDramChan c { s.dramChan c with
      retrain := none, marginLost := false, forced := false, retries := 0, trainedAt := s.samples, trainTemp := s.pwr.temp } := by
  unfold retrainEnd
  dsimp only
  rw [if_pos ⟨hr, hu⟩]
  rfl

/-- Where no settings work the margin is lost, and a retrain that failed replays had forced is a DRAM failure (R399, R401). -/
theorem retrainEnd_of_none {c : Nat} (hu : s.chanUp c = true) (hr : (s.dramChan c).retrain = some 64) :
    ∃ t, t = ((s.count Reg.MEM_RETRAINS 1).setDramChan c { s.dramChan c with
        retrain := none, marginLost := true, forced := false, trainedAt := s.samples, trainTemp := s.pwr.temp }).both
          Reg.MEM_RETRAIN_FAILS Reg.MEM_EVT 4 ∧
      retrainEnd c false s = if (s.dramChan c).forced then t.dramFailure else t := by
  refine ⟨_, rfl, ?_⟩
  unfold retrainEnd
  dsimp only
  rw [if_pos ⟨hr, hu⟩]
  rfl

theorem State.dramFailure_failed (s : State) : s.dramFailure.memory.failed = true := by
  unfold State.dramFailure
  split
  · assumption
  · rw [(State.evt_side ..).memory]
    rfl

theorem State.dramFailure_ueAddr (s : State) : s.dramFailure.memory.ueAddr = s.memory.ueAddr := by
  unfold State.dramFailure
  split
  · rfl
  · rw [(State.evt_side ..).memory]
    rfl

theorem retrainRetry_of_lost {c : Nat} (hu : s.chanUp c = true) (hm : (s.dramChan c).marginLost = true)
    (hn : (s.dramChan c).retrain = none) (h8 : (s.dramChan c).retries < 8)
    (ht : s.passed (s.dramChan c).trainedAt 1000000 = true) :
    retrainRetry c s = s.setDramChan c { s.dramChan c with
      retrain := some 0, forced := false, retries := (s.dramChan c).retries + 1 } :=
  if_pos (by simp [hu, hm, hn, h8, ht])

/-! ### Write CRC (R399) -/

theorem alertNPulse_of_first {n : Nat} (hu : s.chanUp (n / 2) = true) : alertNPulse n false 0 s =
    ((s.both Reg.MEM_CRC_REPLAYS Reg.MEM_EVT 3).setSub n { s.subChan n with fails := 0 }).pause 500 := if_pos hu

/-- The third failed replay: the writes of the subchannel's retry buffer hold the poison pattern. -/
def State.poisonRetry (s : State) (n : Nat) : State :=
  (s.setSub n { s.subChan n with fails := 0 }).setMemory { (s.setSub n { s.subChan n with fails := 0 }).memory with
    poison := s.memory.poison ++ (s.subChan n).retry.filter (fun b => !s.memory.poison.contains b) }

theorem State.poisonRetry_poison {n b : Nat} (hb : b ∈ (s.subChan n).retry) : b ∈ (s.poisonRetry n).memory.poison := by
  refine List.mem_append.mpr ?_
  by_cases hold : b ∈ s.memory.poison
  · exact .inl hold
  · exact .inr (List.mem_filter.mpr ⟨hb, by simpa using hold⟩)

theorem alertNPulse_of_third {n : Nat} (hu : s.chanUp (n / 2) = true) (h2 : (s.subChan n).fails = 2) : alertNPulse n true 0 s =
    (s.poisonRetry n).setDramChan (n / 2) { (s.poisonRetry n).dramChan (n / 2) with retrain := some 0, forced := true, retries := 0 } := by
  unfold alertNPulse
  rw [if_pos hu]
  dsimp only
  rw [h2]
  rfl

/-! ### Scrubbing (R386, R400, R401) -/

theorem dramScrub_of_corrected {a : Nat} (hb : bitOf (s.reg Reg.MEM_CFG) 0 = true) (hu : s.dramUp = true) (ha : a < s.dramCap)
    (hp : s.poisoned a 1 = false) : dramScrub a .corrected s = s.both Reg.MEM_DRAM_CE Reg.MEM_EVT 0 := by
  unfold dramScrub
  rw [if_pos (by simp [hb, hu, ha]), if_neg (ne_true_of_eq_false hp)]

theorem dramScrub_of_uncorrectable {a : Nat} (hb : bitOf (s.reg Reg.MEM_CFG) 0 = true) (hu : s.dramUp = true) (ha : a < s.dramCap) :
    dramScrub a .uncorrectable s = s.dramUe a := by
  unfold dramScrub
  rw [if_pos (by simp [hb, hu, ha]), ite_self]

theorem State.dramUe_ueAddr (s : State) (a : Nat) : (s.dramUe a).memory.ueAddr = a := by
  unfold State.dramUe
  dsimp only
  split
  · rw [State.dramFailure_ueAddr, (State.both_side ..).memory]
    rfl
  · rw [(State.both_side ..).memory]
    rfl

theorem State.dramUe_failed {a : Nat} (h : (s.dramChan (s.chanOf a)).marginLost = true) : (s.dramUe a).memory.failed = true := by
  unfold State.dramUe
  dsimp only
  rw [if_pos (.inl h)]
  exact State.dramFailure_failed _

end

/-! ### The statement of the family -/

/-- Settles O40, clause by clause: refreshes, retrains, replays and scrubs act on a DRAM that stands as the clause says. -/
theorem memoryMaintenanceActs : Obligations.MemoryMaintenanceActs := by
  unfold Obligations.MemoryMaintenanceActs
  refine ⟨fun n => ?_, fun n => ?_, fun n k => ?_, fun c => ?_, fun c => ?_, fun c => ?_, ?_, fun n bank row => ?_, fun c => ?_,
    fun c ns k => ?_, fun c => ?_, fun c => ?_, fun c => ?_, fun c => ?_, fun n => ?_, fun n => ?_, fun a => ?_, fun a => ?_,
    fun s a => ?_, fun u r => ?_⟩
  · exact .of (fun _ => rfl) fun s ⟨hu, _⟩ => refreshInterval_of_issued hu
  · exact .of (fun _ => rfl) fun s ⟨hu, hd⟩ => refreshInterval_of_missed hu hd
  · exact .of (fun _ => rfl) fun s ⟨hu, hd, hk, hle⟩ => refreshInterval_of_catch_up hu hd hk hle
  · exact .of (fun _ => rfl) fun s ⟨hu, hx, hlo, hhi, hl⟩ => mr4Read_of_doubled hu hx hlo hhi (by omega)
  · exact .of (fun _ => rfl) fun s hu => mr4Read_of_normal hu
  · exact .of (fun _ => rfl) fun s ⟨hx, hh, ht⟩ => refreshRateReturn_of_cool hx hh ht
  · exact .of (fun _ => rfl) fun s _ => rfl
  · exact .of (fun _ => rfl) fun s _ => rfl
  · exact .of (fun _ => rfl) fun s ⟨hu, hb, hn, ht⟩ => retrainDue_of_period hu hb hn ht
  · exact .of (fun _ => rfl) fun s ⟨hu, hr, hk⟩ => retrainSlice_of_under hu hr hk
  · exact .of (fun _ => rfl) fun s ⟨hu, hr⟩ => retrainEnd_of_found hu hr
  · refine .of (fun _ => rfl) fun s ⟨hu, hr, hf⟩ => ?_
    obtain ⟨t, rfl, ht⟩ := retrainEnd_of_none hu hr
    exact ht.trans (if_neg (ne_true_of_eq_false hf))
  · refine .of (fun _ => rfl) fun s ⟨hu, hr, hf⟩ => ?_
    obtain ⟨t, -, ht⟩ := retrainEnd_of_none hu hr
    rw [ht, if_pos hf]
    exact t.dramFailure_failed
  · exact .of (fun _ => rfl) fun s ⟨hu, hm, hn, h8, ht⟩ => retrainRetry_of_lost hu hm hn h8 ht
  · exact .of (fun _ => rfl) fun s hu => alertNPulse_of_first hu
  · refine .of (fun _ => rfl) fun s ⟨hu, h2, hl⟩ => ?_
    rw [alertNPulse_of_third hu h2, State.dramChan_setDramChan (s := s.poisonRetry n.val) _ hl]
    exact ⟨fun b hb => State.poisonRetry_poison hb, rfl, rfl⟩
  · exact .of (fun _ => rfl) fun s ⟨hb, hu, ha, hp⟩ => dramScrub_of_corrected hb hu ha hp
  · exact .of (fun _ => rfl) fun s ⟨hb, hu, ha⟩ => dramScrub_of_uncorrectable hb hu ha
  · exact ⟨s.dramUe_ueAddr a, State.dramUe_failed⟩
  · exact .of (fun _ => rfl) fun s _ => rfl

end Sys2Proof.Machine
end

section
/-!
PROOFS for the mode and power family (R409–R411, R414–R417, R427, R457, R458): when MODE_SET waits or completes, and what
measurements, thermal steps, comparators, wakes, fuses, the SMBus target and the TAP do.
-/

namespace Sys2Proof.Machine

/-! ### MODE_SET (R409–R411) -/

section
variable {c : CmdRef} {e : Submission} {s : State} {m : Mode}

/-- With valid fields and no late flag MODE_SET goes on with the mode that it names. -/
theorem modeSet_of_fields (ho : modeOf (sub e 16 1) = some m) (hf : sub e 17 1 = 0) (hz : subZero e 18 46 = true) :
    modeSet e c s =
      if m = s.pwr.mode then s.complete c stOk 0
      else if !modeAllowed s.pwr.mode m || s.leaveRefused m then s.complete c stModeRefused 0
      else if s.pwr.wait.isSome ∨ s.pwr.entering.isSome then s.complete c stNoResource 0
      else if !s.valid then s.carryMode m c false
      else if (s.modeAt m (s.mscOf e.present)).2 then s.complete c stLate 0
      else s.setPwr { s.pwr with wait := some { target := m, at_ := (s.modeAt m (s.mscOf e.present)).1,
                                                adj := (s.modeAt m (s.mscOf e.present)).2, cmd := c } } := by
  unfold modeSet
  rw [ho]
  dsimp only
  rw [hf, if_neg (by simp [hz])]
  simp only [and_true]

theorem State.modeAt_of_first (hm : s.pwr.mode ≠ .standby) : s.modeAt m 0 = (s.nextMul 128, false) := if_neg fun h => hm h.1

theorem modeSet_waits (ho : modeOf (sub e 16 1) = some m) (hf : sub e 17 1 = 0) (hz : subZero e 18 46 = true)
    (hne : m ≠ s.pwr.mode) (ha : modeAllowed s.pwr.mode m = true) (hl : s.leaveRefused m = false) (hw : s.pwr.wait = none)
    (he : s.pwr.entering = none) (hv : s.valid = true) (hp : e.present = 0) (hm : s.pwr.mode ≠ .standby) :
    modeSet e c s = s.setPwr { s.pwr with wait := some { target := m, at_ := s.nextMul 128, adj := false, cmd := c } } := by
  have hat : s.modeAt m (s.mscOf e.present) = (s.nextMul 128, false) := by
    rw [hp]
    exact State.modeAt_of_first hm
  rw [modeSet_of_fields ho hf hz, if_neg hne, if_neg (by simp [ha, hl]), if_neg (by simp [hw, he]), if_neg (by simp [hv]), hat]
  rfl

theorem modeSet_of_barred (ho : modeOf (sub e 16 1) = some m) (hf : sub e 17 1 = 0) (hz : subZero e 18 46 = true)
    (hne : m ≠ s.pwr.mode) (ha : modeAllowed s.pwr.mode m = false) : modeSet e c s = s.complete c stModeRefused 0 := by
  rw [modeSet_of_fields ho hf hz, if_neg hne, if_pos (by simp [ha])]

end

section
variable {s : State}

/-! ### Thermal steps (R416, R417) -/

theorem temperatureMeasure_of_up {t : Int} (h : s.mainUp = true) : temperatureMeasure t s = s.setPwr { s.pwr with
    temp := t, tempMax := max s.pwr.tempMax t,
    hot := s.pwr.hot.zipIdx.map (fun p => if thermAt p.2 ≤ t then p.1 + 1 else 0),
    cold := s.pwr.cold.zipIdx.map (fun p => if t < thermClear p.2 then p.1 + 1 else 0),
    hotFor := if s.pwr.stepOn.getD 1 false && s.wdogMode then s.pwr.hotFor + 1 else 0 } := by
  unfold temperatureMeasure
  rw [if_pos h]
  simp only [decide_eq_true_eq]

/-- Step `k` is reached: it stands, and is reported (R416). -/
def State.stepReached (s : State) (k : Nat) : State :=
  (s.setPwr { s.pwr with stepOn := s.pwr.stepOn.set k true }).evt Reg.PWR_EVT k

theorem State.stepReached_pwr (k : Nat) : (s.stepReached k).pwr = { s.pwr with stepOn := s.pwr.stepOn.set k true } := State.evt_pwr ..

/-- A step is reached at the third measurement in a row at its threshold. -/
theorem thermStep_of_third {k : Nat} (ho : s.pwr.stepOn.getD k false = false) (hh : 3 ≤ s.pwr.hot.getD k 0) : thermStep k s =
    if k = 1 then (if s.runs then (s.stepReached k).count Reg.PWR_THERM_REDUCTIONS 1 else s.stepReached k)
    else if k = 2 ∧ s.runs then
      (s.stepReached k).setPwr { (s.stepReached k).pwr with auto := some (if s.valid then s.nextMul 128 else 0) }
    else s.stepReached k := by
  unfold thermStep
  dsimp only
  rw [if_neg (ne_true_of_eq_false ho), if_pos hh]
  rfl

/-- The 115 °C step of a running mode asks for STANDBY at the next control-frame boundary. -/
theorem thermStep_two_of_third (ho : s.pwr.stepOn.getD 2 false = false) (hh : 3 ≤ s.pwr.hot.getD 2 0) (hr : s.runs = true)
    (hv : s.valid = true) : (thermStep 2 s).pwr = { s.pwr with stepOn := s.pwr.stepOn.set 2 true, auto := some (s.nextMul 128) } := by
  rw [thermStep_of_third ho hh, if_neg (by decide), if_pos ⟨rfl, hr⟩, if_pos hv, State.stepReached_pwr]
  rfl

theorem thermStep_clears {k : Nat} (ho : s.pwr.stepOn.getD k false = true) (hk : k < 2) (hc : 3 ≤ s.pwr.cold.getD k 0) :
    thermStep k s = s.setPwr { s.pwr with stepOn := s.pwr.stepOn.set k false } := by
  unfold thermStep
  dsimp only
  rw [if_pos ho, if_pos ⟨hk, hc⟩]

/-- The watched pins touch nothing of the power state but SMB_ALERT_N. -/
theorem watched_pwr (k : State → State) (s : State) : ∃ a, (watched k s).pwr = { (k s).pwr with alertN := a } := by
  unfold watched
  dsimp only
  split <;> exact ⟨_, rfl⟩

theorem thermalEmergency_of_delay (ho : s.pwr.stepOn.getD 1 false = true) (hm : s.wdogMode = true)
    (hd : fieldOf (s.reg Reg.PWR_CFG) 8 8 ≠ 0) (hh : 1000 * fieldOf (s.reg Reg.PWR_CFG) 8 8 ≤ s.pwr.hotFor) :
    thermalEmergency s = s.setPwr { s.pwr with pendTherm := true } := by
  unfold thermalEmergency
  dsimp only
  rw [if_pos (by rw [ho, hm]; simp [hd, hh])]

/-! ### Comparators and wakes (R414, R415) -/

theorem comparatorFire_of_edge {k : Nat} (ha : s.pwr.atticUp = true) (hk : k ≠ 3) (hm : s.mainUp = true) : comparatorFire k s =
    (s.setAttic { s.pwr.attic with cmp := s.pwr.attic.cmp.set k (bitOf s.pwr.attic.cfg (8 + k)) }).evt Reg.PWR_EVT 5 := by
  have h3 : (k == 3) = false := beq_eq_false_iff_ne.mpr hk
  unfold comparatorFire
  dsimp only
  rw [h3, ha, if_neg (by simp), Bool.false_or]
  exact if_pos hm

theorem comparatorFire_of_time (ha : s.pwr.atticUp = true) (ht : s.pwr.attic.wakeSec ≤ s.pwr.attic.tod / second16)
    (hm : s.mainUp = false) : comparatorFire 3 s = s.setAttic { s.pwr.attic with cmp := s.pwr.attic.cmp.set 3 true } := by
  unfold comparatorFire
  dsimp only
  rw [if_neg (by simp [ha, Nat.not_lt.mpr ht])]
  exact if_neg (ne_true_of_eq_false hm)

theorem wake_of_enabled {src : Nat} (hm : s.pwr.mode = .dormant) (hb : bitOf s.pwr.attic.cfg src = true) (hw : s.pwr.woken = false) :
    wake src s = s.setPwr { s.pwr with attic := { s.pwr.attic with cause := 2 ^ src }, woken := true, wakeN := false } :=
  if_pos (by simp [hm, hb, hw])

theorem atticSelfBoot_of_woken {x : Straps} (hs : s.supplied = true) (hm : s.pwr.mode = .dormant) (hw : s.pwr.woken = true)
    (hr : s.pwr.resetN = true) : atticSelfBoot x s = s.beginBoot x := if_pos (by simp [hs, hm, hw, hr])

/-! ### Fuses (R427) -/

theorem Mode.awake_of_setup {m : Mode} (h : m = .setup) : m.awake = true := by
  rw [h]
  rfl

/-- In SETUP, with the key and no burn under way, the operation decides. -/
theorem fuseCmd_of_key {op : Nat} (hm : s.pwr.mode = .setup) (hb : s.pwr.fuses.busy = none) : fuseCmd op 0xA5 s =
    if op = 1 ∧ s.pwr.fuses.keyBlank then s.setFuses { s.pwr.fuses with busy := some 1, keyHash := s.fuseData }
    else if op = 2 ∧ s.pwr.fuses.rollback < 64 then s.setFuses { s.pwr.fuses with busy := some 2 }
    else s.setFuses { s.pwr.fuses with err := true } := if_neg (by simp [hm, hb])

theorem fuseBurnEnd_of_burn {op : Nat} (ok : Bool) (h : s.pwr.fuses.busy = some op) : fuseBurnEnd ok s =
    if ok then
      s.setFuses (if op = 1 then { s.pwr.fuses with busy := none, keyBlank := false }
        else { s.pwr.fuses with busy := none, rollback := s.pwr.fuses.rollback + 1 })
    else s.setFuses { s.pwr.fuses with busy := none, err := true } := by
  unfold fuseBurnEnd
  dsimp only
  rw [h]

/-! ### The SMBus target and the TAP (R457, R458) -/

theorem State.smbAnswer_of_up (r : Option (List Byte)) (h : s.smbUp = true) : s.smbAnswer r = s.setPwr { s.pwr with smb := r } := by
  unfold State.smbAnswer
  rw [if_pos h]

theorem State.smbAnswer_none (s : State) : s.smbAnswer none = s.setPwr { s.pwr with smb := none } := by
  unfold State.smbAnswer
  rw [ite_self]

theorem smbTemperature_of_main (h : s.smbUp = true) (hm : s.pwr.mode ≠ .dormant) :
    smbTemperature s = s.setPwr { s.pwr with smb := some (leBytes 2 (toField 16 s.pwr.temp)) } :=
  (if_neg hm).trans (State.smbAnswer_of_up _ h)

theorem smbTemperature_of_dormant (h : s.smbUp = true) (hm : s.pwr.mode = .dormant) :
    smbTemperature s = s.draw.2.setPwr { s.draw.2.pwr with smb := some (leBytes 2 (toField 16 s.draw.1)) } :=
  (if_pos hm).trans (State.smbAnswer_of_up (s := s.draw.2) _ h)

theorem alertResponse_of_alert {b : Bool} (h : s.smbUp = true) (ha : s.pwr.alertN = false) :
    alertResponse b s = s.setPwr { s.pwr with alertN := !b, smb := some [0x98] } := if_pos (by simp [h, ha])

theorem State.jtagRun_of_live (k : Jtag → Jtag) (h : s.pwr.mode ≠ .dormant ∧ s.pwr.jtag.held = false) :
    s.jtagRun k = s.setJtag (k s.pwr.jtag) := if_neg (by simp [h.1, h.2])

end

/-! ### The statements of the family -/

/-- Settles O10, clause by clause: the mode that MODE_SET names is allowed, in force or out of reach. -/
theorem modeSetWaits : Obligations.ModeSetWaits := by
  unfold Obligations.ModeSetWaits
  exact ⟨fun e m => .of (fun _ => rfl) fun c s ⟨ho, hf, hz, hne, ha, hl, hw, he, hv, hp, hm⟩ =>
      modeSet_waits ho hf hz hne ha hl hw he hv hp hm,
    fun e m => .of (fun _ => rfl) fun c s ⟨ho, hf, hz, hm⟩ => (modeSet_of_fields ho hf hz).trans (if_pos hm),
    fun e m => .of (fun _ => rfl) fun c s ⟨ho, hf, hz, hne, ha⟩ => modeSet_of_barred ho hf hz hne ha⟩

/-- Settles O42, clause by clause, by what the meaning of each row does in the states that the clause names. -/
theorem temperatureAndAtticAct : Obligations.TemperatureAndAtticAct := by
  unfold Obligations.TemperatureAndAtticAct
  refine ⟨fun t => ?_, ?_, ?_, ?_, fun k => ?_, ?_, fun k => ?_, ?_, fun src => ?_, fun x => ?_, ?_, ?_, ?_, ?_, fun op => ?_, ?_, ?_,
    ?_, ?_, ?_, ?_, fun b => ?_, fun b => ?_, fun b => ?_, ?_⟩
  · exact .of_watched (fun _ => rfl) fun s h => temperatureMeasure_of_up h
  · exact .of_watched (fun _ => rfl) fun s ⟨ho, hh⟩ => thermStep_of_third ho hh
  · exact .of_watched (fun _ => rfl) fun s ⟨ho, hh, hr⟩ => (thermStep_of_third ho hh).trans (if_pos hr)
  · refine .of (fun _ => rfl) fun s ⟨ho, hh, hr, hv⟩ => ?_
    obtain ⟨a, ha⟩ := watched_pwr (thermStep (2 : Fin 3).val) s
    have hstep : (thermStep (2 : Fin 3).val s).pwr = _ := thermStep_two_of_third ho hh hr hv
    rw [ha, hstep]
    exact ⟨rfl, rfl, rfl⟩
  · exact .of_watched (fun _ => rfl) fun s ⟨ho, hk, hc⟩ => thermStep_clears ho hk hc
  · exact .of (fun _ => rfl) fun s ⟨ho, hm, hd, hh⟩ => thermalEmergency_of_delay ho hm hd hh
  · exact .of (fun _ => rfl) fun s ⟨ha, hk, hm⟩ => comparatorFire_of_edge ha hk hm
  · exact .of (fun _ => rfl) fun s ⟨ha, ht, hm⟩ => comparatorFire_of_time ha ht hm
  · exact .of (fun _ => rfl) fun s ⟨hm, hb, hw⟩ => wake_of_enabled hm hb hw
  · exact .of_watched (fun _ => rfl) fun s ⟨hs, hm, hw, hr⟩ => atticSelfBoot_of_woken hs hm hw hr
  · exact .of_barWrite (fun _ => rfl) fun s ⟨hm, hb, hk⟩ => ⟨Mode.awake_of_setup hm, (fuseCmd_of_key hm hb).trans (if_pos ⟨rfl, hk⟩)⟩
  · exact .of_barWrite (fun _ => rfl) fun s ⟨hm, hb, hr⟩ =>
      ⟨Mode.awake_of_setup hm, ((fuseCmd_of_key hm hb).trans (if_neg fun h => absurd h.1 (by decide))).trans (if_pos ⟨rfl, hr⟩)⟩
  · exact .of (fun _ => rfl) fun s h => fuseBurnEnd_of_burn true h
  · exact .of (fun _ => rfl) fun s h => fuseBurnEnd_of_burn true h
  · exact .of (fun _ => rfl) fun s h => fuseBurnEnd_of_burn false h
  · exact .of (fun _ => rfl) fun s h => State.smbAnswer_of_up _ h
  · exact .of (fun _ => rfl) fun s h => State.smbAnswer_of_up _ h
  · exact .of (fun _ => rfl) fun s ⟨h, hm⟩ => smbTemperature_of_main h hm
  · exact .of (fun _ => rfl) fun s ⟨h, hm⟩ => smbTemperature_of_dormant h hm
  · exact .of (fun _ => rfl) fun s h => State.smbAnswer_of_up _ h
  · exact .of (fun _ => rfl) fun s h => State.smbAnswer_of_up _ h
  · exact .of (fun _ => rfl) fun s _ => s.smbAnswer_none
  · exact .of (fun _ => rfl) fun s h => (if_neg (Nat.not_lt.mpr h)).trans s.smbAnswer_none
  · exact .of (fun _ => rfl) fun s ⟨h, ha⟩ => alertResponse_of_alert h ha
  · exact ⟨fun b => .of (fun _ => rfl) fun s h => State.jtagRun_of_live _ h,
      .of (fun _ => rfl) fun s h => State.jtagRun_of_live _ h, fun p l => .of (fun _ => rfl) fun s h => State.jtagRun_of_live _ h,
      fun p l => .of (fun _ => rfl) fun s h => State.jtagRun_of_live _ h, .of (fun _ => rfl) fun s h => State.jtagRun_of_live _ h,
      .of (fun _ => rfl) fun s h => State.jtagRun_of_live _ h, .of (fun _ => rfl) fun s _ => rfl, .of (fun _ => rfl) fun s _ => rfl⟩

end Sys2Proof.Machine
end

section
/-!
PROOFS for the Nitik link family (R310–R336): how links train, agree and fall, what the records of a block frame do, and what cells,
roll calls, epochs, joins and leaves do in a chain.
-/

namespace Sys2Proof.Machine

/-! ### Ports and the chain as they are read back -/

theorem Side.ntk {s t : State} (h : Side s t) : t.ntk = s.ntk := by
  obtain ⟨r, a, l, rfl⟩ := h
  rfl

theorem Side.chain {s t : State} (h : Side s t) : t.chain = s.chain := by
  unfold State.chain
  rw [h.ntk]

theorem State.ntkPort_congr {s t : State} (h : s.ntk = t.ntk) (n : Nat) : s.ntkPort n = t.ntkPort n := by
  unfold State.ntkPort
  rw [h]

section
variable {s : State}

@[simp] theorem State.chain_setChain (c : ChainSt) : (s.setChain c).chain = c := rfl
@[simp] theorem State.chain_setNtkPort (n : Nat) (p : NtkPort) : (s.setNtkPort n p).chain = s.chain := rfl
@[simp] theorem State.ntkPort_setChain (c : ChainSt) (n : Nat) : (s.setChain c).ntkPort n = s.ntkPort n := rfl
@[simp] theorem State.valid_setChain (c : ChainSt) : (s.setChain c).valid = s.valid := rfl
@[simp] theorem State.ntkPort_evt (off b n : Nat) : (s.evt off b).ntkPort n = s.ntkPort n := ntkPort_congr (s.evt_side off b).ntk n

theorem State.ntkPort_setNtkPort {n : Nat} (p : NtkPort) (h : n < s.ntk.ports.length) : (s.setNtkPort n p).ntkPort n = p :=
  (getD_set _ _ _ _ _ h).trans (if_pos rfl)

theorem State.passOn_of_head {n k : Nat} {r : CtlRecord} (h : s.chain.head = true) : s.passOn n k r = s := if_pos h

/-! ### Links (R310, R314, R319) -/

theorem State.setLink_of_ne {n : Nat} {l : LinkState} (h : (s.ntkPort n).link ≠ l) :
    s.setLink n l = (s.setNtkPort n { s.ntkPort n with link := l }).evt Reg.NTK_EVT 0 := if_neg h

theorem State.ntkPort_setLink {n : Nat} {l : LinkState} (h : n < s.ntk.ports.length) :
    (s.setLink n l).ntkPort n = { s.ntkPort n with link := l } := by
  by_cases hl : (s.ntkPort n).link = l
  · rw [State.setLink, if_pos hl, ← hl]
  · rw [State.setLink_of_ne hl, State.ntkPort_evt, State.ntkPort_setNtkPort _ h]

theorem State.chain_setLink (n : Nat) (l : LinkState) : (s.setLink n l).chain = s.chain := by
  unfold State.setLink
  split
  · rfl
  · exact (State.evt_side ..).chain

theorem ntkTrainingDone_of_enabled {n : Nat} (he : s.ntkEnabled n = true)
    (hl : (s.ntkPort n).link = .down ∨ (s.ntkPort n).link = .training) :
    ntkTrainingDone n s = (s.setNtkPort n { s.ntkPort n with link := .up }).evt Reg.NTK_EVT 0 := by
  have hne : (s.ntkPort n).link ≠ .up := by
    rcases hl with h | h <;> rw [h] <;> decide
  exact (if_pos ⟨he, hl⟩).trans (State.setLink_of_ne hne)

section
variable {n lo hi total : Nat}

theorem ntkVersionAgreed_of_none (hl : (s.ntkPort n).link = .up) (hv : agreeVersion (s.chain.verMin, s.chain.verMax) (lo, hi) = 0) :
    ntkVersionAgreed n lo hi total s = (s.setNtkPort n { s.ntkPort n with link := .incompatible }).evt Reg.NTK_EVT 0 := by
  unfold ntkVersionAgreed
  dsimp only
  rw [if_pos hl, if_pos hv]
  exact State.setLink_of_ne (by rw [hl]; decide)

/-- Neither a roll call nor a JOIN starts in a renderer that is ALONE. -/
theorem State.tryCall_tryJoin_of_alone (h : s.chain.st = .alone) : s.tryCall.tryJoin = s := by
  have hcall : s.tryCall = s := if_neg (by simp [h])
  have hjoin : s.tryJoin = s := if_neg (by simp [h])
  rw [hcall, hjoin]

/-- The port of a link whose partners agreed on a version: the receiver's credits are all here. -/
def NtkPort.agreed (p : NtkPort) (v total : Nat) : NtkPort :=
  { p with version := v, credits := total, total := total, sent := 0, received := 0, used := 0, freed := 0, returned := 0, partner := 0,
           silent := 0 }

theorem ntkVersionAgreed_port (hl : (s.ntkPort n).link = .up) (hv : agreeVersion (s.chain.verMin, s.chain.verMax) (lo, hi) ≠ 0)
    (hp : n < s.ntk.ports.length) (ha : s.chain.st = .alone) : (ntkVersionAgreed n lo hi total s).ntkPort n =
      { (s.ntkPort n).agreed (agreeVersion (s.chain.verMin, s.chain.verMax) (lo, hi)) total with link := .ready } := by
  have hport : ∀ p, ((s.setNtkPort n p).setLink n .ready).ntkPort n = { p with link := .ready } := fun p => by
    rw [State.ntkPort_setLink (by simpa [State.setNtkPort] using hp), State.ntkPort_setNtkPort _ hp]
  unfold ntkVersionAgreed
  dsimp only
  rw [if_pos hl, if_neg hv, State.tryCall_tryJoin_of_alone]
  · exact hport _
  · rw [State.chain_setChain, State.chain_setLink]
    exact ha

/-- The port of a link that goes DOWN: nothing of what it was to send is left, and no credits. -/
def NtkPort.dropped (p : NtkPort) : NtkPort :=
  { p with version := 0, credits := 0, sent := 0, received := 0, freed := 0, returned := 0, partner := 0, records := [], queue := [],
           waiting := 0, frame := [], echo := none, auditAt := [], backs := [], repair := none, used := 0 }

/-- In a chain that is no ring nobody is told. -/
theorem State.linkDown_port (hl : (s.ntkPort n).link ≠ .down) (hg : s.chain.ring = false) (hp : n < s.ntk.ports.length) :
    (s.linkDown n).ntkPort n = { (s.ntkPort n).dropped with link := .down } := by
  unfold State.linkDown
  dsimp only
  rw [if_neg hl, if_neg (by simp [hg])]
  refine Eq.trans (b := ((s.setNtkPort n (s.ntkPort n).dropped).setLink n .down).ntkPort n) rfl ?_
  rw [State.ntkPort_setLink (by simpa [State.setNtkPort] using hp), State.ntkPort_setNtkPort _ hp]

end

/-! ### The records of a link (R312, R316, R317, R327) -/

section
variable {n : Nat}

theorem ntkBlock_of_neighbour {m st pos : Nat} (hr : s.ntkReady n = true) (hn : s.neighbour n = some pos) (hh : s.chain.head = true)
    (hg : s.chain.ring = false) :
    ntkBlock n m st pos s = ((s.setNtkPort n { s.ntkPort n with silent := 0 }).cellIn n).heard pos := by
  unfold ntkBlock
  rw [if_neg (by simp [hr]), hn]
  dsimp only
  rw [if_pos (beq_self_eq_true pos), if_pos (.inl (ne_true_of_eq_false hg))]
  exact State.passOn_of_head hh

theorem ntkTime_of_unlocked {t : TimeStamp} {o k : Nat} {r : Bool} (hr : s.ntkReady n = true) (hf : s.follows = true)
    (ht : n = s.timePort) (hv : s.valid = false) (hk : s.tbWith 4 = some k) : ntkTime n t o r s =
      ((s.setChain { s.chain with origin := some o }).setMedia { s.clock.media with originWritten := some o, rate96 := r }).measureTb
        k (((s.tb k).tod : Int) - unitsOf t) := by
  have hk' : ∀ c m, ((s.setChain c).setMedia m).tbWith 4 = some k := fun _ _ => hk
  unfold ntkTime
  dsimp only
  rw [if_neg (by simp [hr, hf, ← ht]), State.valid_setChain, if_neg (ne_true_of_eq_false hv), hk']
  rfl

theorem ntkStep_of_follower {k : Int} {b : Nat} (hr : s.ntkReady n = true) (hf : s.follows = true) (hv : s.valid = true)
    (h4 : s.tbSource s.clock.media.active.val = 4) :
    ntkStep n k b s = (s.setMedia { s.clock.media with step := some (k, b, 0) }).passOn n 1 (.step k b) := by
  unfold ntkStep
  dsimp only
  rw [if_pos ⟨hr, hf⟩, if_pos ⟨hv, h4⟩]

/-! ### The audit (R330) -/

/-- Port `n` has compared the audit of boundary `b`: a difference of `d`, the port as `p`, the mismatches as `mis`. -/
def State.auditTold (s : State) (n b d : Nat) (p : NtkPort) (mis : List Nat) : State :=
  let rest := p.auditAt.filter (fun a => a.1 != b)
  let s1 := s.setNtkPort n { p with auditAt := rest, backs := if rest.isEmpty then [] else p.backs }
  let audits := s1.led.audits.map (fun a => if a.at_ = b then { a with found := a.found.set n (some d) } else a)
  State.auditDone { s1 with led := { s1.led with mismatch := mis, audits := audits } }

section
variable {b got free sent credits : Nat}

theorem ntkAudit_of_equal (hr : s.ntkReady n = true)
    (hf : (s.ntkPort n).auditAt.find? (fun a => a.1 == b) = some (b, sent, credits))
    (he : (s.ntkPort n).creditsAt credits (got - free) + (sent - got) + free = (s.ntkPort n).total) :
    ntkAudit n b got free s = s.auditTold n b 0 (s.ntkPort n) s.led.mismatch := by
  unfold ntkAudit
  dsimp only
  rw [hf]
  dsimp only
  rw [if_pos hr, he, Int.sub_self, if_pos rfl, if_pos rfl]
  rfl

theorem ntkAudit_of_excess {d : Nat} (hr : s.ntkReady n = true)
    (hf : (s.ntkPort n).auditAt.find? (fun a => a.1 == b) = some (b, sent, credits)) (hd : 0 < d)
    (he : (s.ntkPort n).creditsAt credits (got - free) + (sent - got) + free = (s.ntkPort n).total + d) :
    ntkAudit n b got free s = s.auditTold n b d { s.ntkPort n with repair := some ((s.ntkPort n).total - (sent - got) - free) }
      (s.led.mismatch.set n d) := by
  have hdiff : (((s.ntkPort n).total + d : Nat) : Int) - (s.ntkPort n).total = d := by omega
  have hne : (d : Int) ≠ 0 := by omega
  unfold ntkAudit
  dsimp only
  rw [hf]
  dsimp only
  rw [if_pos hr, he, hdiff, if_neg hne, if_neg hne]
  rfl

end

/-! ### Silence and return (R316, R317) -/

theorem chainSourceLost_of_member (hf : s.follows = true) (hs : 4 ≤ (s.ntkPort s.timePort).silent) (hm : s.chain.st = .member)
    (ht : s.tbWith 4 = none) : chainSourceLost s = s.setChain { s.chain with st := .cut, good := 0 } := by
  have hquiet : s.chainQuiet = true := by
    unfold State.chainQuiet
    rw [decide_eq_true hs, Bool.true_or]
  unfold chainSourceLost
  rw [if_pos ⟨hf, hquiet⟩, ht]
  exact if_pos hm

end
end

/-- Settles O38, clause by clause, by what each record and each change of a link does in the states that the clause names. -/
theorem nitikLinksAct : Obligations.NitikLinksAct := by
  unfold Obligations.NitikLinksAct
  refine ⟨fun n => ?_, fun n lo hi total => ?_, fun n lo hi total => ?_, fun n => ?_, fun s n hl hg hp => ?_, fun n m st pos => ?_,
    fun n t o r k => ?_, fun n c total => ?_, fun n probe e got => ?_, fun n k b => ?_, ?_, ?_, ?_⟩
  · exact .of (fun _ => rfl) fun s ⟨he, hl⟩ => ntkTrainingDone_of_enabled he hl
  · exact .of (fun _ => rfl) fun s ⟨hl, hv⟩ => ntkVersionAgreed_of_none hl hv
  · refine .of (fun _ => rfl) fun s ⟨hl, hv, hp, ha⟩ => ?_
    rw [ntkVersionAgreed_port hl hv (Nat.lt_of_lt_of_eq n.isLt hp.symm) ha]
    exact ⟨rfl, rfl, rfl, rfl⟩
  · exact .of (fun _ => rfl) fun s _ => rfl
  · rw [State.linkDown_port hl hg hp]
    exact ⟨rfl, rfl, rfl⟩
  · exact .of (fun _ => rfl) fun s ⟨hr, hn, hh, hg⟩ => ntkBlock_of_neighbour hr hn hh hg
  · exact .of (fun _ => rfl) fun s ⟨hr, hf, ht, hv, hk⟩ => ntkTime_of_unlocked hr hf ht hv hk
  · exact .of (fun _ => rfl) fun s hr => if_pos hr
  · exact .of (fun _ => rfl) fun s hr => if_pos hr
  · exact .of (fun _ => rfl) fun s ⟨hr, hf, hv, h4⟩ => ntkStep_of_follower hr hf hv h4
  · exact ⟨fun n b got free sent credits => .of (fun _ => rfl) fun s ⟨hr, hf, he⟩ => ntkAudit_of_equal hr hf he,
      fun n b got free sent credits d => .of (fun _ => rfl) fun s ⟨hr, hf, hd, he⟩ => ntkAudit_of_excess hr hf hd he⟩
  · exact .of (fun _ => rfl) fun s ⟨hf, hs, hm, ht⟩ => chainSourceLost_of_member hf hs hm ht
  · exact .of (fun _ => rfl) fun s h => if_pos h

/-! ### Cells (R318, R324–R327) -/

section
variable {s : State} {n : Nat} {x : Cell}

theorem State.forwardCell_led (s : State) (n : Nat) (x : Cell) (w : Cell → OutCell) : (s.forwardCell n x w).led = s.led :=
  (apply_ite State.led _ _ _).trans (ite_self _)

theorem State.forwardCell_chain (s : State) (n : Nat) (x : Cell) (w : Cell → OutCell) : (s.forwardCell n x w).chain = s.chain :=
  (apply_ite State.chain _ _ _).trans (ite_self _)

theorem State.keepCell_led (s : State) (n k : Nat) : (s.keepCell n k).led = s.led := by
  unfold State.keepCell
  dsimp only
  split <;> rfl

/-- A cell takes a place in the receive buffer; what the chain inputs hold stays. -/
theorem State.keepCell_blocks (s : State) (n k : Nat) :
    (s.keepCell n k).chain.objs = s.chain.objs ∧ (s.keepCell n k).chain.sums = s.chain.sums := by
  unfold State.keepCell
  dsimp only
  split <;> exact ⟨rfl, rfl⟩

/-- What the chain holds does not matter to a ledger's sums. -/
theorem State.addLed_setChain_led {u : State} {i : Nat} {d : LedDelta} (c : ChainSt) (h : u.led = s.led) :
    ((u.setChain c).addLed i d).led = (s.addLed i d).led := by
  unfold State.addLed
  rw [State.setChain_led, h]

theorem objectCell_of_bad_crc (hr : s.ntkReady n = true) (hc : x.crcOk = false) :
    objectCell n x s = (s.count (ntkReg Reg.NTK_Pn_CRC_ERRS n) 1).cellIn n := by
  unfold objectCell
  rw [if_neg (by simp [hr]), if_pos (by simp [hc])]

theorem sumCell_of_bad_crc (hr : s.ntkReady n = true) (hc : x.crcOk = false) :
    sumCell n x s = (s.count (ntkReg Reg.NTK_Pn_CRC_ERRS n) 1).cellIn n := by
  unfold sumCell
  rw [if_neg (by simp [hr]), if_pos (by simp [hc])]

/-- An OBJECT cell in time is forwarded, takes its place and tells of its publisher. -/
def State.objectKept (s : State) (n : Nat) (x : Cell) : State :=
  ((s.forwardCell n x .object).keepCell n (channelsOf x).length).learnPubs x.sender ((channelsOf x).map Prod.snd)

theorem State.objectKept_led : (s.objectKept n x).led = s.led := (State.keepCell_led ..).trans (State.forwardCell_led ..)

theorem State.objectKept_objs : (s.objectKept n x).chain.objs = s.chain.objs :=
  (State.keepCell_blocks ..).1.trans (congrArg ChainSt.objs (State.forwardCell_chain ..))

/-- In a chain that is no ring its blocks join those held, and its samples count as ACCEPTED. -/
theorem objectCell_of_time (hr : s.ntkReady n = true) (hc : x.crcOk = true) (hrun : s.chainRuns = true) (hg : s.chain.ring = false)
    (ht : s.msc < x.block + s.chain.hold + 16) : ∃ blk : Nat → ChainBlk,
      objectCell n x s = ((s.objectKept n x).setChain { (s.objectKept n x).chain with
        objs := (s.objectKept n x).chain.objs ++ (channelsOf x).map (fun k => ((x.block, k.2), blk k.1)) }).addLed (chainLedger n)
          { acc := 16 * (channelsOf x).length, clip := cellClips x (channelsOf x) } := by
  refine ⟨fun i => { words := x.words.getD i zeros16, port := Fin.ofNat 2 n, cell := (s.objectKept n x).chain.nextCell }, ?_⟩
  unfold objectCell
  rw [if_neg (by simp [hr]), if_neg (by simp [hc]), if_neg (by simp [hrun])]
  dsimp only
  rw [hg, decide_eq_false (Nat.not_le.mpr ht)]
  rfl

theorem objectCell_of_late (hr : s.ntkReady n = true) (hc : x.crcOk = true) (hrun : s.chainRuns = true) (hg : s.chain.ring = false)
    (ht : x.block + s.chain.hold + 16 ≤ s.msc) (hch : channelsOf x ≠ []) :
    objectCell n x s = (((s.forwardCell n x .object).cellIn n).addLed (chainLedger n)
      { acc := 16 * (channelsOf x).length, dis := 16 * (channelsOf x).length, clip := cellClips x (channelsOf x) }).count
        Reg.NTK_LATE_CELLS 1 := by
  have hne : (channelsOf x).isEmpty = false := by simpa using hch
  unfold objectCell
  rw [if_neg (by simp [hr]), if_neg (by simp [hc]), if_neg (by simp [hrun])]
  dsimp only
  rw [hg, decide_eq_true ht]
  simp only [Bool.false_eq_true, if_false, if_true, hne, State.count_zero]
  rfl

/-- The channels of a SUM cell whose feeds only pass the sum on, that drop it, and that keep it (R324–R326). -/
def State.sumPass (s : State) (x : Cell) : List (Nat × Nat) := (channelsOf x).filter (fun k => s.sumFlags k.2 == (false, false))
def State.sumDrop (s : State) (x : Cell) : List (Nat × Nat) := (channelsOf x).filter (fun k => s.sumFlags k.2 == (false, true))
def State.sumKeep (s : State) (x : Cell) : List (Nat × Nat) := (channelsOf x).filter (fun k => s.sumFlags k.2 != (false, true))

/-- A SUM cell in time goes on with the sums that are only passed, and takes its place with those that are kept. -/
def State.sumKept (s : State) (n : Nat) (x : Cell) : State :=
  State.keepCell (if (s.sumPass x).isEmpty then s
    else s.forwardCell n { x with present := BitVec.ofNat 4 (((s.sumPass x).map (fun k => 2 ^ k.1)).sum) } .sum) n (s.sumKeep x).length

theorem State.sumKept_led : (s.sumKept n x).led = s.led := by
  refine (State.keepCell_led ..).trans ?_
  split
  · rfl
  · exact State.forwardCell_led ..

theorem State.sumKept_sums : (s.sumKept n x).chain.sums = s.chain.sums := by
  refine (State.keepCell_blocks ..).2.trans ?_
  split
  · rfl
  · rw [State.forwardCell_chain]

/-- The sums of feeds with SUM_OUT alone are dropped, the others join those held. -/
theorem sumCell_of_time (hr : s.ntkReady n = true) (hc : x.crcOk = true) (hrun : s.chainRuns = true)
    (ht : s.msc < x.block + s.chain.hold + 64) : ∃ blk : Nat → ChainBlk,
      sumCell n x s = ((s.sumKept n x).setChain { (s.sumKept n x).chain with
        sums := (s.sumKept n x).chain.sums ++ (s.sumKeep x).map (fun k => ((x.block, k.2), blk k.1)) }).addLed (chainLedger n)
          { acc := 16 * (channelsOf x).length, dis := 16 * (s.sumDrop x).length, clip := cellClips x (channelsOf x) } := by
  refine ⟨fun i => {
    words := x.words.getD i zeros16, port := Fin.ofNat 2 n, incomplete := bitOf x.incomplete i, contrib := x.contrib.getD i 0,
    cell := (s.sumKept n x).chain.nextCell }, ?_⟩
  unfold sumCell
  rw [if_neg (by simp [hr]), if_neg (by simp [hc]), if_neg (by simp [hrun])]
  dsimp only
  rw [decide_eq_false (Nat.not_le.mpr ht)]
  rfl

end

/-! ### Roll call (R315) -/

section
variable {s : State}

theorem rollCall_of_member {recs : List RollRecord} (hr : s.ntkReady 0 = true) (hh : s.chain.head = false) (ha : s.chain.st ≠ .alone)
    (hj : s.chain.st ≠ .joining) : rollCall 0 recs s =
      if s.ntkReady 1 then (s.setChain { s.chain with place := recs.length }).sendOn [1] (.rollCall (recs ++ [s.rollRecord]))
      else (s.setChain { s.chain with place := recs.length }).sendOn [0] (.rollReply (recs ++ [s.rollRecord])) := by
  unfold rollCall
  dsimp only
  rw [if_neg (by simp [hr, hh, ha, hj])]

theorem rollReply_of_head {n : Nat} {recs : List RollRecord} {hops : List Nat} (hr : s.ntkReady n = true) (hh : s.chain.head = true)
    (hc : s.chain.calling = true) : rollReply n recs hops s =
      (s.rollOutcome { ring := s.chain.ring, fs := s.fs, recs := recs, hops := hops } 0).sendOn [1]
        (.rollReply ({ ring := s.chain.ring, fs := s.fs, recs := recs, hops := hops } : Roll).assigned.recs) := by
  unfold rollReply
  dsimp only
  rw [if_neg (by simp [hr]), if_pos hh, if_pos hc]

/-- The CHAIN_CONFIG that waits is all that its end takes from the chain. -/
theorem State.chainDone_chain (s : State) (st : Byte) (r : Nat) : ∃ c, (s.chainDone st r).chain = { s.chain with cmd := c } := by
  unfold State.chainDone
  split
  · exact ⟨none, (State.complete_side ..).chain⟩
  · exact ⟨s.chain.cmd, rfl⟩

/-- A completion, written or dropped, clears no bit of a register in which no chain of reports counts. -/
theorem State.complete_keepsBit {off k : Nat} (ho : noCounter off) (c : CmdRef) (st : Byte) (r : Nat)
    (h : bitOf (s.reg off) k = true) : bitOf ((s.complete c st r).reg off) k = true := by
  have hfree : (s.freeSlot c).reg off = s.reg off := by
    unfold State.freeSlot
    dsimp only
    split <;> rfl
  unfold State.complete
  dsimp only
  split
  · exact applyFxF_keepsBit ho 10 _ _ ho.1.symm (by rwa [hfree])
  · exact h

theorem State.chainDone_keepsBit {off k : Nat} (ho : noCounter off) (st : Byte) (r : Nat) (h : bitOf (s.reg off) k = true) :
    bitOf ((s.chainDone st r).reg off) k = true := by
  unfold State.chainDone
  split
  · exact State.complete_keepsBit ho _ _ _ h
  · exact h

theorem State.rollOutcome_passes (s : State) {r : Roll} (i : Nat) (hf : r.assigned.fail = 0) :
    (s.rollOutcome r i).chain.st = .member ∧ (s.rollOutcome r i).chain.position = (r.assigned.recs.getD i default).position := by
  unfold State.rollOutcome
  dsimp only
  rw [if_pos hf]
  obtain ⟨c, hc⟩ := State.chainDone_chain _ stOk _
  rw [hc]
  exact ⟨rfl, rfl⟩

theorem State.rollOutcome_fails (s : State) {r : Roll} (i : Nat) (hf : r.assigned.fail ≠ 0) :
    (s.rollOutcome r i).chain.fail = r.assigned.fail ∧ (s.rollOutcome r i).chain.st = s.chain.st ∧
      bitOf ((s.rollOutcome r i).reg Reg.NTK_EVT) 1 = true := by
  have ho : noCounter Reg.NTK_EVT := ⟨by decide, by decide⟩
  unfold State.rollOutcome
  dsimp only
  rw [if_neg hf]
  obtain ⟨c, hc⟩ := State.chainDone_chain _ stBadParam _
  rw [hc, (State.evt_side ..).chain]
  exact ⟨rfl, rfl, State.chainDone_keepsBit ho _ _ (State.bitOf_evt _ ho (by decide))⟩

/-! ### Chain epochs (R331) -/

section
variable {n p : Nat} {id : Word} {e : Epoch}

theorem epochReport_of_known {st : ReportState} (hr : s.ntkReady n = true) (hh : s.chain.head = true) (he : s.chainEpoch id = some e)
    (ho : e.st ≠ .open_) : epochReport n id p st s = (s.heard p).setEpoch
      { e with reports := e.reports.filter (fun r => r.1 != p) ++ [(p, st)], defective := e.defective || st == .defective } := by
  have he' : (s.heard p).chainEpoch id = some e := he
  unfold epochReport
  dsimp only
  rw [if_neg (by simp [hr]), if_pos hh, he']
  exact if_neg fun h => ho h.1

theorem epochReport_of_unknown {st : ReportState} (hr : s.ntkReady n = true) (hh : s.chain.head = true) (he : s.chainEpoch id = none) :
    epochReport n id p st s = (s.heard p).setChain { (s.heard p).chain with
      early := (s.heard p).chain.early.filter (fun r => !(r.1 == id && r.2.1 == p)) ++ [(id, p, st)] } := by
  have he' : (s.heard p).chainEpoch id = none := he
  unfold epochReport
  dsimp only
  rw [if_neg (by simp [hr]), if_pos hh, he']

theorem epochReport_of_member {st : ReportState} (hr : s.ntkReady n = true) (hh : s.chain.head = false) :
    epochReport n id p st s = s.passOn n 0 (.epochReport id p st) := by
  unfold epochReport
  rw [if_neg (by simp [hr]), if_neg (ne_true_of_eq_false hh)]

/-- What the head's decision does to an epoch that is SEALED or WAITING and not expiring. -/
def State.decided (s : State) (e : Epoch) (m : Nat) : Decision → State
  | .commit => if s.msc + 128 < m then s.commitEpoch { e with m := m } e.adjusted else s
  | .defer =>
    if e.m = m then s
    else (s.setEpoch { s.later e m with st := .sealed, deferrals := e.deferrals + 1, adjusted := true }).both Reg.TT_DEFERRALS Reg.TT_EVT 2
  | .wait =>
    if e.st = .waiting then s.setEpoch { s.later e m with st := .waiting, adjusted := true }
    else (s.setEpoch { s.later e m with st := .waiting, adjusted := true }).evt Reg.TT_EVT 4
  | .expire => s.expire e

/-- A participant passes a decision on, then takes it. -/
theorem epochDecision_of_sealed {m : Nat} (d : Decision) (hr : s.ntkReady n = true) (hh : s.chain.head = false)
    (he : (s.passOn n 1 (.epochDecision id m d)).chainEpoch id = some e) (hs : e.st = .sealed ∨ e.st = .waiting)
    (hx : e.expiring = false) : epochDecision n id m d s = (s.passOn n 1 (.epochDecision id m d)).decided e m d := by
  unfold epochDecision
  dsimp only
  rw [if_neg (by simp [hr, hh]), he]
  dsimp only
  rw [if_pos ⟨hs, ne_true_of_eq_false hx⟩]
  cases d <;> rfl

end

/-! ### Joins, leaves and removals (R317, R334, R335) -/

section
variable {n place : Nat} {rec : RollRecord} {hops : List Nat}

/-- The chain as it would be with a joiner at hop index `place`. -/
def State.joined (s : State) (rec : RollRecord) (place : Nat) (hops : List Nat) : Roll :=
  { ring := s.chain.ring, fs := s.fs, recs := (s.chain.members.map (fun m => m.entry)).take place ++ [rec] ++
      (s.chain.members.map (fun m => m.entry)).drop place, hops := hops }

theorem ntkJoin_of_refused (hr : s.ntkReady n = true) (ha : s.chain.st ≠ .alone) (hh : s.chain.head = true)
    (hf : (s.joined rec place hops).assigned.fail = 6) : ntkJoin n rec place hops s =
      ((s.setChain { s.chain with fail := 6 }).sendOn [n] (.leave 255 6)).evt Reg.NTK_EVT 5 := by
  unfold State.joined at hf
  unfold ntkJoin
  dsimp only
  rw [if_neg (by simp [hr, ha]), if_pos hh, hf, if_pos (show (6 : Nat) ≠ 0 by decide), if_neg (show ¬(6 : Nat) = 0 by decide)]

theorem ntkJoin_of_accepted (hr : s.ntkReady n = true) (ha : s.chain.st ≠ .alone) (hh : s.chain.head = true)
    (hf : (s.joined rec place hops).assigned.fail = 0)
    (hold : (s.joined rec place hops).assigned.recs.any (fun m => decide (m.verMax < 0x11)) = false)
    (hj : (s.joined rec place hops).assigned.recs.getD place rec = rec) : ntkJoin n rec place hops s =
      (s.openChange rec true place hops (partsOf (rec.position :: ntkPositions s)) .open_).sendOn [0, 1] (.join rec) := by
  unfold State.joined at hf hold hj
  unfold ntkJoin
  dsimp only
  rw [if_neg (by simp [hr, ha]), if_pos hh, hf, if_neg (show ¬(0 : Nat) ≠ 0 by decide), hold, if_neg Bool.false_ne_true, if_pos rfl, hj]

theorem ntkLeave_of_member {p reason : Nat} {m : ChainMember} (hr : s.ntkReady 0 = true) (hm : s.chain.st = .member)
    (hh : s.chain.head = false) (hp : p ≠ 0) (hf : s.chain.members.find? (fun m => m.entry.position == p) = some m) :
    ntkLeave 0 p reason s = (s.passOn 0 1 (.leave p reason)).openChange m.entry false
      ((s.chain.members.findIdx? (fun x => x.entry.position == p)).getD 0) s.chain.hops 0 .sealed := by
  unfold ntkLeave
  dsimp only
  rw [if_neg (by simp [hr, hm]), if_neg hp, if_neg (by simp [hm]), if_neg (ne_true_of_eq_false hh), if_neg (by simp), hf]

end
end

/-- Settles O39, clause by clause, by what each cell and each record does in the states that the clause names. -/
theorem chainCellsAndRecordsAct : Obligations.ChainCellsAndRecordsAct := by
  unfold Obligations.ChainCellsAndRecordsAct
  intro clips
  have hclips : ∀ x, clips x = cellClips x (channelsOf x) := fun _ => rfl
  simp only [hclips]
  refine ⟨fun n x => ?_, fun n x => ?_, fun n x => ?_, fun n x => ?_, fun n x => ?_, fun n recs => ?_, fun n recs hops => ?_,
    fun s r i hf => s.rollOutcome_passes i hf, fun s r i hf => s.rollOutcome_fails i hf, fun n id p st e => ?_, fun n id p st => ?_,
    fun n id p st => ?_, fun n id m e => ?_, fun n id m e => ?_, fun n id m e => ?_, fun n id m e => ?_, fun n rec place hops => ?_,
    fun n rec place hops => ?_, fun n p reason m => ?_, fun p => ?_⟩
  · exact .of (fun _ => rfl) fun s ⟨hr, hc⟩ => objectCell_of_bad_crc hr hc
  · exact .of (fun _ => rfl) fun s ⟨hr, hc⟩ => sumCell_of_bad_crc hr hc
  · refine .of (fun _ => rfl) fun s ⟨hr, hc, hrun, hg, ht⟩ => ?_
    obtain ⟨blk, hcell⟩ := objectCell_of_time hr hc hrun hg ht
    rw [hcell]
    refine ⟨State.addLed_setChain_led _ State.objectKept_led, ?_⟩
    rw [← State.objectKept_objs (s := s) (n := n.val) (x := x)]
    exact List.map_append.trans (congrArg _ (List.map_map ..))
  · exact .of (fun _ => rfl) fun s ⟨hr, hc, hrun, hg, ht, hch⟩ => objectCell_of_late hr hc hrun hg ht hch
  · refine .of (fun _ => rfl) fun s ⟨hr, hc, hrun, ht⟩ => ?_
    obtain ⟨blk, hcell⟩ := sumCell_of_time hr hc hrun ht
    rw [hcell]
    refine ⟨State.addLed_setChain_led _ State.sumKept_led, ?_⟩
    rw [← State.sumKept_sums (s := s) (n := n.val) (x := x)]
    exact List.map_append.trans (congrArg _ (List.map_map ..))
  · refine .of (fun _ => rfl) fun s ⟨hn, hr, hh, ha, hj⟩ => ?_
    subst hn
    exact rollCall_of_member hr hh ha hj
  · exact .of (fun _ => rfl) fun s ⟨hr, hh, hc⟩ => rollReply_of_head hr hh hc
  · exact .of (fun _ => rfl) fun s ⟨hr, hh, he, ho⟩ => epochReport_of_known hr hh he ho
  · exact .of (fun _ => rfl) fun s ⟨hr, hh, he⟩ => epochReport_of_unknown hr hh he
  · exact .of (fun _ => rfl) fun s ⟨hr, hh⟩ => epochReport_of_member hr hh
  · exact .of (fun _ => rfl) fun s ⟨hr, hh, he, hs, hx, ht⟩ => (epochDecision_of_sealed .commit hr hh he hs hx).trans (if_pos ht)
  · exact .of (fun _ => rfl) fun s ⟨hr, hh, he, hs, hx⟩ => epochDecision_of_sealed .expire hr hh he hs hx
  · exact .of (fun _ => rfl) fun s ⟨hr, hh, he, hs, hx, hm⟩ => (epochDecision_of_sealed .defer hr hh he hs hx).trans (if_neg hm)
  · refine .of (fun _ => rfl) fun s ⟨hr, hh, he, hs, hx⟩ => (epochDecision_of_sealed .wait hr hh he (.inl hs) hx).trans (if_neg ?_)
    rw [hs]
    decide
  · exact .of (fun _ => rfl) fun s ⟨hr, ha, hh, hf⟩ => ntkJoin_of_refused hr ha hh hf
  · exact .of (fun _ => rfl) fun s ⟨hr, ha, hh, hf, hold, hj⟩ => ntkJoin_of_accepted hr ha hh hf hold hj
  · refine .of (fun _ => rfl) fun s ⟨hr, hn, hm, hh, hp, hf⟩ => ?_
    subst hn
    exact ntkLeave_of_member hr hm hh hp hf
  · exact .of (fun _ => rfl) fun s h => if_pos h

end Sys2Proof.Machine
end
